-- ==== Sys2Proof/Word.lean ====
section
/-! DEFINITION. The word types of the LT2460: bytes, host words, descriptors, and the index types of its units. -/

namespace Sys2Proof

/-- One byte. -/
abbrev Byte := BitVec 8
/-- A naturally aligned host register word (R47). -/
abbrev Word := BitVec 32
/-- A 64-byte command descriptor (R53), byte `k` at bits `8k+7..8k` (little-endian, R11). -/
abbrev Desc := BitVec 512
/-- A command ring: 0–3 are CQ0–CQ3, 4 is CQS (R50; the numbering of R373). -/
abbrev RingId := Fin 5
/-- A time domain TD0–TD3. -/
abbrev DomId := Fin 4
/-- A time view: 0–3 a fixed domain, 4 ACTIVE (R87). -/
abbrev ViewId := Fin 5
/-- A DPLL, 0–7. -/
abbrev DpllId := Fin 8
/-- A reference pool entry, 0–31 (R121). -/
abbrev RefId := Fin 32
/-- A lane and its port, 0–23 (R223). -/
abbrev LaneId := Fin 24
/-- An APLL, 0–3. -/
abbrev ApllId := Fin 4
/-- An output: 0–15 are OUT0–OUT15, 16–23 are OUTC0–OUTC7 (R183). -/
abbrev OutId := Fin 24
/-- A PTP instance, 0–7 (R273). -/
abbrev PtpId := Fin 8

end Sys2Proof
end

