-- ==== Sys2Proof/Syntax.lean ====
section
/-! DEFINITION. The commands of the LT2460: one constructor of `Instr` for each step of the step table
(spec/opcode_table.json), with the operands that come from outside the engine: a host access, a job with its
descriptor, a frame, an edge, a measurement. -/

namespace Sys2Proof

/-- The host windows (R46): Window N carries world NS, Window S world S (R43). -/
inductive Window where
  | n
  | s
  deriving DecidableEq, Repr

/-- One host access (R47): `data` none is a read, some is a write of `size` bytes at byte offset `off`. -/
structure HostAccess where
  win  : Window
  off  : BitVec 24
  size : Nat
  data : Option (BitVec 64)
  /-- in SPI mode, the bytes that the host drives in the transaction (R48), in place of the fields above -/
  wire : List Byte := []
  deriving DecidableEq, Repr

/-- A job as the engine takes it up (R53): its ring, its descriptor, and the bytes that the mailbox DMA reads
from the host bus for it (R54; not used without DMA_PARAM, nor in SPI host mode). -/
structure Job where
  ring  : RingId
  desc  : Desc
  block : List Byte
  deriving DecidableEq, Repr

/-- One run of host-bus memory that the mailbox DMA may read (R54). -/
structure DmaBlock where
  addr : BitVec 64
  data : List Byte
  deriving DecidableEq, Repr

/-- What reaches an impression boundary from outside: the work classes that will not finish in the impression that begins
(R32, in R28 order, servo first; log entry 28), and the host-bus memory that the mailbox DMA finds. -/
structure BoundaryIn where
  overrun : BitVec 11
  dma     : List DmaBlock
  deriving DecidableEq, Repr

/-- One satellite as GTR measures it in an epoch (R157, R158, R176). -/
structure SatObs where
  system    : Fin 4
  sat       : Fin 64
  band      : Fin 2
  tracking  : Bool
  cn0       : Nat       -- units of 0.01 dB-Hz
  elev      : Int       -- degrees
  azimuth   : Nat       -- degrees
  healthy   : Bool
  ephemeris : Bool      -- its channel holds the satellite's own broadcast ephemeris
  iod       : Option Nat -- the issue of data that the satellite broadcasts, once heard
  residual  : Int       -- units of 0.1 ns
  sigma     : Nat       -- expected standard deviation of the residual, units of 0.1 ns
  crossMm   : Int       -- upper minus lower pseudorange, mm
  deriving DecidableEq, Repr

/-- The raw timing solution of one combination of signals (R163, R164). -/
structure SolObs where
  offsets   : List (Fin 4 × Int) -- the GNSS DOMAIN's time minus the time of each system, ps, as its satellites give it
  freqPpt   : Int
  postfitPs : Nat       -- post-fit standard deviation of the time unknown
  deriving DecidableEq, Repr

/-- An ESMC PDU (R301, R302): an event or an information PDU, and its SSM code. -/
structure EsmcPdu where
  event : Bool
  code  : BitVec 4
  deriving DecidableEq, Repr

/-- UTC information of a source (R97). -/
structure UtcObs where
  offset     : Int
  leap       : Fin 3
  leapSecond : Nat
  deriving DecidableEq, Repr

/-- An ECEF position, mm. -/
structure Ecef where
  x : Int
  y : Int
  z : Int
  deriving DecidableEq, Repr

/-- What the signals give GTR for one epoch (R163, R171). -/
structure GnssObs where
  sats      : List SatObs
  dual      : Option SolObs
  single    : Option SolObs
  pos       : Option Ecef          -- the position solved in this second (SOLVE, SURVEY, or in the background)
  phasePs   : Int                  -- phase of GNSS time against the free-running CD-TIME count
  noise     : Vector Int 2         -- in-band noise power after the notches, units of 0.25 dB, upper and lower band
  utc       : Option UtcObs
  deriving DecidableEq, Repr

/-- A narrowband interferer in a band (R168). -/
structure Interferer where
  freq : Int                       -- Hz from the band centre
  db   : Nat                       -- above the noise floor
  deriving DecidableEq, Repr

/-- PTP authentication TLV (R280): `covered` are the message bytes under the ICV. -/
structure AuthTlv where
  spp     : Byte
  keyId   : BitVec 32
  icv     : BitVec 128
  covered : List Byte
  deriving DecidableEq, Repr

/-- The body of the assurance TLV (R119, R279). -/
structure AssuranceTlv where
  boundPs      : BitVec 48
  growthFs     : BitVec 32
  chain        : BitVec 16
  sinceConfirm : BitVec 32
  lastRef      : Byte
  flags        : Byte
  deriving DecidableEq, Repr

/-- The fields of an Announce that the engine uses (R278). -/
structure AnnounceBody where
  gmIdentity : BitVec 64
  priority1  : Byte
  priority2  : Byte
  clockClass : Byte
  accuracy   : Byte
  variance   : BitVec 16
  steps      : Nat
  timeSource : Byte
  utc        : UtcObs
  timeTraceable : Bool
  freqTraceable : Bool
  deriving DecidableEq, Repr

/-- A PTP timestamp: 48-bit seconds and nanoseconds (R85). -/
structure PtpTime where
  sec : BitVec 48
  ns  : BitVec 32
  deriving DecidableEq, Repr

/-- A PTP message as the pipeline parses it (R277). -/
structure PtpMsg where
  domain     : Byte
  seq        : BitVec 16
  twoStep    : Bool
  correction : Int        -- units of 2^-16 ns
  srcPort    : BitVec 80
  reqPort    : BitVec 80
  time       : PtpTime
  announce   : Option AnnounceBody
  inaccuracy : Option (BitVec 32)    -- time inaccuracy of profile 3's TLV, ns (R278)
  l1Sync     : Option Bool           -- L1_SYNC TLV: the state up (R273)
  assurance  : Option AssuranceTlv
  auth       : Option AuthTlv
  deriving DecidableEq, Repr

/-- A received PTP message: its port, its instance, the raw receive marker in CD-TIME (units of 2^-7 ns, R245),
the sender, the message, and whether it came by unicast (R269). -/
structure PtpRx where
  port : LaneId
  inst : PtpId
  mark : Nat
  mac  : BitVec 48
  addr : BitVec 128
  msg  : PtpMsg
  unicast : Bool := false
  deriving DecidableEq, Repr

/-- The action of a unicast negotiation TLV (R282). -/
inductive GrantAction where
  | request (logInterval : Int) (duration : Nat)
  | granted (logInterval : Int) (duration : Nat)   -- GRANT_UNICAST_TRANSMISSION received by a grantee
  | cancel
  deriving DecidableEq, Repr

/-- A received unicast negotiation TLV (R282): messageType 0x0 Sync, 0xB Announce, 0x9 Delay_Resp. -/
structure Signaling where
  rx      : PtpRx
  msgType : BitVec 4
  action  : GrantAction
  deriving DecidableEq, Repr

/-- The NTS extension fields of a message (R289): the Unique Identifier, the cookie bodies, the body lengths of the
cookie placeholders, the authenticator's nonce and ciphertext, the bytes it covers, and whether the form of R289
is kept (one cookie, authenticator last). -/
structure NtsFields where
  wellFormed   : Bool
  uid          : List Byte
  cookies      : List (List Byte)
  placeholders : List Nat
  nonce        : List Byte
  cipher       : List Byte
  covered      : List Byte
  deriving DecidableEq, Repr

/-- An NTP message as the pipeline parses it (R287, R295): `bytes` is its length. -/
structure NtpMsg where
  leap     : Fin 4
  version  : Fin 8
  mode     : Fin 8
  stratum  : Byte
  poll     : Byte
  rootDelay : BitVec 32
  rootDisp  : BitVec 32
  precision : BitVec 8
  refId    : BitVec 32
  refTime  : BitVec 64
  orig     : BitVec 64
  recv     : BitVec 64
  xmit     : BitVec 64
  nts      : Option NtsFields
  bytes    : Nat
  deriving DecidableEq, Repr

/-- A received NTP message with its port, receive marker and sender. -/
structure NtpRx where
  port : LaneId
  mark : Nat
  mac  : BitVec 48
  addr : BitVec 128
  ipv6 : Bool
  msg  : NtpMsg
  deriving DecidableEq, Repr

/-- What a received frame holds above Ethernet, as far as the classifier looks (R268). -/
inductive FrameBody where
  | ptpL2
  | udp (ipv6 : Bool) (dst src : BitVec 128) (sport dport : BitVec 16) (checksumOk checksumZero : Bool)
    -- checksumOk: the IPv4 header checksum is right, and the UDP checksum where it is not zero
  | slow (subtype : Byte)      -- EtherType 0x8809
  | prpSupervision             -- EtherType 0x88FB
  | sampledValues              -- EtherType 0x88BA
  | hostTagged                 -- EtherType 0x88B5
  | other                      -- any other frame, IP options, fragments and extension headers included
  deriving DecidableEq, Repr

/-- A frame that the MAC accepts (R268): its 802.1Q tags, its addresses and what it holds. -/
structure Frame where
  dst   : BitVec 48
  src   : BitVec 48
  tags  : Nat
  vlan  : BitVec 12
  body  : FrameBody
  bytes : Nat
  rctSeq : Option (BitVec 16)  -- sequence number of a PRP redundancy trailer
  deriving DecidableEq, Repr

/-- A sampled-value frame (R347): stream identification and the counters of its ASDUs in order. -/
structure SvFrame where
  port     : LaneId
  mark     : Nat
  appid    : BitVec 16
  svid     : List Byte
  smpCnts  : List Nat
  smpSynch : Fin 3
  deriving DecidableEq, Repr

/-- A host-tagged frame on the uplink (R272). -/
structure HostTagged where
  uplink  : LaneId
  version : Byte
  type    : Byte
  port    : Byte
  flags   : Byte
  handle  : BitVec 16
  bytes   : Nat
  deriving DecidableEq, Repr

/-- The result of a Clause 73 or Clause 37 exchange (R228). -/
inductive AutonegResult where
  | backplane (mode : Fin 4) (fec : Fin 3)
  | direct
  | sgmii (mbps : Nat)
  deriving DecidableEq, Repr

/-- A module read (R228): the identifier, the two rate bytes of its map, or a failure. -/
inductive ModuleRead where
  | ok (ident rate100 rate250 : Byte)
  | failed
  deriving DecidableEq, Repr

/-- The commands of the engine: host accesses, events of its clocks, pins, links and signals, and jobs. -/
inductive Instr where
  -- host accesses
  | registerWrite (a : HostAccess)
  | mbxCqTail (ring : RingId) (v : Word)
  | mbxCcHead (ring : RingId) (v : Word)
  | intcStatus (v : Word)
  | intcMask (v : Word)
  | intcMode (v : Word)
  | tsnapLatch (v : Word)
  | fcoAck (win : Window) (v : Word)
  | pcuCntLoRead (win : Window) (n : Fin 64)
  -- the impression grid and time
  | impressionBoundary (b : BoundaryIn)
  | ccHoldoffExpiry (ring : RingId)
  | secondBoundary (b : BoundaryIn)
  | impositionChange
  | timeStepLand (d : DomId)
  | secondCrossing (v : ViewId)
  | todMessageSend (n : Fin 2)
  | handoverRemainderZero
  | slewEnd (d : DomId)
  | confirmationEnd (d : DomId)
  | supplyChargeRelease (d : DomId)
  | ensembleCycle (phases : List Int)
  | deweightEnd (m : Fin 8)
  | holdoverRecompute
  | holdoverUpdate (k : DpllId)
  -- references and DPLLs
  | refEdge (r : Fin 16) (stamp : Nat)
  | refLos (r : RefId)
  | qualificationEnd (r : RefId)
  | driftClear (r : RefId)
  | wtrExpiry (k : DpllId) (r : RefId)
  | driftTakeover (k : DpllId)
  | switchFreeze (k : DpllId)
  | switchCapture (k : DpllId)
  | switchRelease (k : DpllId)
  | dpllBandwidthHalving (k : DpllId)
  | oscSteerUpdate
  -- GNSS
  | gnssEpoch
  | gnssSolution (o : GnssObs)
  | satelliteExclusionEnd (system : Fin 4) (sat : Fin 64)
  | integrityClear
  | timeCheckAnchorMove
  | gnssClockFault
  | gclkReturn
  | feStatusPoll (v : Byte)
  | surveyEnd
  | notchAdapt (band : Fin 2) (notch : Fin 4) (seen : List Interferer)
  | jamThreshold (band : Fin 2) (power : Int)
  -- frequency synthesis
  | apllLockLost (n : ApllId)
  | apllLock (n : ApllId)
  | outputRestart (n : ApllId)
  | apllRetuneTimeout (n : ApllId)
  | apllRampEnd (n : ApllId)
  | outputPhaseSubstep (o : OutId)
  | outputAlignMeasure (o : OutId) (errPs : Int)
  -- pulses and events
  | eventEdge (input : Fin 16) (falling : Bool) (stamp heldNs levelNs : Nat)
  | eventQueueDrain
  -- lanes
  | losAssert (l : LaneId)
  | losDeassert (l : LaneId)
  | lolAssert (l : LaneId)
  | lolDeassert (l : LaneId)
  | alignmentGained (l : LaneId) (slip : Nat)
  | alignmentLost (l : LaneId)
  | hiBer (l : LaneId)
  | fecLockChange (l : LaneId) (gained : Bool)
  | laneQualified (l : LaneId) (errors : Nat)
  | trainTimeout (l : LaneId)
  | stepTimeout (l : LaneId)
  | relockTimeout (l : LaneId)
  | moduleReadDone (l : LaneId) (r : ModuleRead)
  | autonegComplete (l : LaneId) (r : AutonegResult)
  | latencyMeasurementEnd (l : LaneId) (rxPs txPs : Int)
  | laneTxpllUnlock (l : LaneId)
  | txpllRelock (l : LaneId)
  | adaptationFreeze (l : LaneId) (density : Nat)
  | adaptationResume (l : LaneId) (density : Nat)
  | prbsCheckerSync (l : LaneId)
  | prbsCheckerResync (l : LaneId) (errors : Nat)
  | prbsErrorInject (l : LaneId)
  -- packets
  | frameReceive (port : LaneId) (mark : Nat) (f : Frame)
  | ptpAnnounceReceive (rx : PtpRx)
  | ptpSyncReceive (rx : PtpRx)
  | ptpFollowUpReceive (rx : PtpRx)
  | ptpDelayReqReceive (rx : PtpRx)
  | ptpDelayRespReceive (rx : PtpRx)
  | ptpPdelayReqReceive (rx : PtpRx)
  | ptpPdelayRespReceive (rx : PtpRx)
  | ptpSignalingReceive (sg : Signaling)
  | ptpTcForward (delayReq : Bool) (rx : PtpRx) (egress : LaneId)
  | ntpRequestReceive (rx : NtpRx)
  | ntsRequestReceive (rx : NtpRx)
  | ntpResponseReceive (client : Fin 8) (rx : NtpRx)
  | esmcPduReceive (port : LaneId) (ssm : EsmcPdu) (enhanced : Option Byte)
  | prpSupervisionReceive (port : LaneId)
  | hostUplinkFrameReceive (h : HostTagged)
  | svFrameReceive (f : SvFrame)
  | aueJobComplete (tx : Nat) (ok : Bool)
  | launchCommit (frame : Nat) (movedPs : Int)
  | frameLaunch (frame : Nat) (errPs : Int)
  | hostFrameTransmit (port : LaneId)
  | ptpAnnounceSend (inst : PtpId) (port : LaneId)
  | ptpSyncSend (inst : PtpId) (port : LaneId)
  | ptpDelayReqSend (inst : PtpId) (port : LaneId)
  | announceReceiptTimeout (inst : PtpId) (port : LaneId)
  | unicastGrantRenew (inst : PtpId) (port : LaneId)
  | unicastGrantExpiry (record : Nat)
  | ledgerSweep
  | prpSlaveTakeover (inst : PtpId) (pair : Fin 12)
  | prpSupervisionSend (pair : Fin 12)
  | ntpClientPoll (client : Fin 8)
  | esmcInfoSend (port : LaneId)
  | esmcEventSend (port : LaneId)
  | esmcTimeout (port : LaneId)
  -- sample alignment
  | sampleFrame (port : Fin 8) (dir : Fin 2) (stamp : Nat) (slots : List Word)
  | slotMaskTimeout (port : Fin 8) (dir : Fin 2)
  | sampleRateFault (port : Fin 8) (dir : Fin 2)
  | sampleRateFaultClear (port : Fin 8) (dir : Fin 2)
  | channelRatioLock (c : Fin 32) (ratio : Nat)
  | channelReentry (c : Fin 32)
  | svMonitorSecond
  -- security
  | tamperEvent (source : Fin 7)
  | keyExpiry (slot : Fin 128)
  | keyPrevZeroed (slot : Fin 128)
  | trngHealthTestEnd
  -- faults, resets, supplies
  | clockMonitorFault (source : Fin 3)
  | clockReturn (source : Fin 3)
  | lockstepMismatch (pair : Fin 2)
  | memoryEccError (source : Fin 32) (address : BitVec 64)
  | blockResetRelease (block : Fin 16)
  | resetShadowEnd (block : Fin 16)
  | interpCheck
  | watchdog
  | thermalHigh (sensor : Fin 5) (temp : Int)
  | supplyDipStart (rail : Fin 7) (mv : Nat)
  | supplyDipLong (rail : Fin 7)
  | supplyDipEnd
  | vbatWarning (mv : Nat)
  | supplyReset (rail : Fin 7)
  | por
  | porEnd (straps : BitVec 7)
  | pinReset
  | pinResetEnd (straps : BitVec 6)
  | chipReset (source : Byte)
  | chipResetEnd
  | systemPllLock
  | firmwareStart
  | fwReady
  | hostLoadBoot (fw cfg : List Byte)
  | warmRestartEnd
  | flashWriteDone
  | flashWriteTimeout
  | proofEnd (passed failed : BitVec 6)
  -- jobs
  | devIdentify (j : Job)
  | devSetImposition (j : Job)
  | devFwRestart (j : Job)
  | devChipReset (j : Job)
  | devFenceRing (j : Job)
  | devFenceWorld (j : Job)
  | devProof (j : Job)
  | secPartitionSet (j : Job)
  | secPartitionLock (j : Job)
  | secRegionSet (j : Job)
  | secFwStage (j : Job)
  | secFwCommit (j : Job)
  | secTamperConfig (j : Job)
  | secTamperStatus (j : Job)
  | secTestUnlock (j : Job)
  | keyWrite (j : Job)
  | keyRetire (j : Job)
  | keyAttrRead (j : Job)
  | keyRoll (j : Job)
  | keyDerive (j : Job)
  | fltConfigSource (j : Job)
  | fltAck (j : Job)
  | fltReadCapture (j : Job)
  | fltInject (j : Job)
  | pcuSelectEvent (j : Job)
  | pcuSetAccess (j : Job)
  | pcuClear (j : Job)
  | tdConfig (j : Job)
  | tdSetTimeAbsolute (j : Job)
  | tdSetTimeRelative (j : Job)
  | tdSlew (j : Job)
  | tdSetUtcInfo (j : Job)
  | tdHandover (j : Job)
  | tdReadLedger (j : Job)
  | tdSetReturnPolicy (j : Job)
  | ensConfigMember (j : Job)
  | ensReadState (j : Job)
  | ensSetPolicy (j : Job)
  | refConfig (j : Job)
  | refSetThresholds (j : Job)
  | refReadStatus (j : Job)
  | refClearHistory (j : Job)
  | refSetPriority (j : Job)
  | refForceSelect (j : Job)
  | refForceRelease (j : Job)
  | dpllConfig (j : Job)
  | dpllSetModeAutomatic (j : Job)
  | dpllSetModeFreerun (j : Job)
  | dpllSetModeHoldover (j : Job)
  | dpllSteerPpt (j : Job)
  | dpllPhaseStep (j : Job)
  | holdConfig (j : Job)
  | holdReadArchive (j : Job)
  | oscSteerConfig (j : Job)
  | apllConfig (j : Job)
  | apllRetune (j : Job)
  | outConfig (j : Job)
  | outConfigStage (j : Job)
  | outEnable (j : Job)
  | outPhaseStep (j : Job)
  | outSetCeiling (j : Job)
  | ppsConfig (j : Job)
  | irigConfig (j : Job)
  | todConfig (j : Job)
  | evtConfig (j : Job)
  | evtConfigThreshold (j : Job)
  | evtDrain (j : Job)
  | laneConfig (j : Job)
  | laneEnable (j : Job)
  | laneDisable (j : Job)
  | laneReadStatus (j : Job)
  | lanePrbsConfig (j : Job)
  | lanePrbsLeave (j : Job)
  | lanePrbsRead (j : Job)
  | laneEqConfig (j : Job)
  | laneRecoveredClockSelect (j : Job)
  | tsPortConfig (j : Job)
  | tsReadLatency (j : Job)
  | tsSetAsymmetry (j : Job)
  | tsLaunchConfig (j : Job)
  | ptpInstanceConfig (j : Job)
  | ptpPortConfig (j : Job)
  | ptpPortConfigPortForm (j : Job)
  | ptpReadPortState (j : Job)
  | ptpUnicastPolicy (j : Job)
  | ptpPrpPair (j : Job)
  | ntpServerConfig (j : Job)
  | ntpServerRead (j : Job)
  | ntsConfigServer (j : Job)
  | ntsConfigClient (j : Job)
  | ntpClientConfig (j : Job)
  | ntpRatePolicy (j : Job)
  | ledgerQuery (j : Job)
  | ledgerEvict (j : Job)
  | ledgerExport (j : Job)
  | gnssConfig (j : Job)
  | gnssSurveyStart (j : Job)
  | gnssSurveyLoadPosition (j : Job)
  | gnssSurveyReleaseHold (j : Job)
  | gnssReadStatus (j : Job)
  | gnssNotchConfig (j : Job)
  | gnssAidingLoad (j : Job)
  | sampPortConfig (j : Job)
  | sampSlotMask (j : Job)
  | sampGroupConfigChannel (j : Job)
  | sampGroupConfigGroup (j : Job)
  | sampGroupConfigStatus (j : Job)
  | svMonitorConfig (j : Job)
  | svMonitorRead (j : Job)
  | calReadFactory (j : Job)
  | calWriteUser (j : Job)
  | calReadEffective (j : Job)
  | calCommitUser (j : Job)
  | supRead (j : Job)
  | supSetThresholds (j : Job)
  -- later rows of the table
  | phaseStepMovementEnd (k : DpllId)
  | tamperConditionEnd (source : Fin 7)
  | thermalHighClear (sensor : Fin 5)
  | vbatReturn
  | vbatLoss
  | trngHealth
  | lrefclkFault (pin : Fin 3)
  | cdaonFault
  deriving DecidableEq, Repr

end Sys2Proof
end

