-- ==== Sys2Proof/Decode.lean ====
section
/-! DEFINITION. The decoder of words: the step table gives its rows no bits, so no word spells a command. -/

namespace Sys2Proof

/-- The command that a word spells by the table's bits: none, because no row of spec/opcode_table.json has bits (log
entry 2). Commands come to the engine as host accesses, pins, links and descriptors, which their operands hold. -/
def decodeTableWord (_nbits _w : Nat) : Option Instr := none

end Sys2Proof
end

