-- ==== Sys2Proof/Config.lean ====
section
/-! DEFINITION. What the manual fixes only by reference to another standard, and the free values: values that the
manual leaves open although the engine goes on. Every constant here is opaque, so no proof can lean on a value of it. -/

namespace Sys2Proof.Config

/-- A free value: an integer result the manual leaves open, drawn with the next number of `State.fresh`
(the loop filter's control value and phase error, the Kalman estimator's results). Log entry 3. -/
opaque freeInt : Nat → Int

/-- A free natural number, drawn as `freeInt`. Log entry 3. -/
opaque freeNat : Nat → Nat

/-- The estimator of the ensemble for one member (R104, whose gains the manual does not give): part 0 is its new phase, 1 its
frequency, 2 its drift, 3 its variance, from what it predicted of those four, the residual of its measurement if it has one,
DRIFT, and WPM_PS, WFM and RWFM. Log entry 3. -/
opaque kalman : Nat → List Int → Option Int → Bool → List Nat → Int

/-- The same four parts at a member's first measurement, from its phase and the same settings. Log entry 3. -/
opaque kalmanStart : Nat → Int → Bool → List Nat → Int

/-- The ensemble's step of phase in fs over a second (part 0) and its frequency in units of 10^-15 (part 1), from its members'
weights and states (R104, R106, which give no formula). Log entry 3. -/
opaque ensembleStep : Nat → List (ℚ × List Int) → Int

/-- Free bytes (random numbers of the TRNG, bytes that the DMA did not find). Log entry 3. -/
opaque freeBytes : Nat → List Byte

/-- HMAC-SHA256 of a message under a key (R280, R322, R384: defined by its own standard). Log entry 4. -/
opaque hmacSha256 : List Byte → List Byte → BitVec 256

/-- AEAD_AES_SIV_CMAC_256 sealing: key, nonce, associated data, plain text (R290, R291). Log entry 4. -/
opaque sivSeal : List Byte → List Byte → List Byte → List Byte → List Byte

/-- AEAD_AES_SIV_CMAC_256 opening: key, nonce, associated data, sealed text; none when it does not verify. Log entry 4. -/
opaque sivOpen : List Byte → List Byte → List Byte → List Byte → Option (List Byte)

/-- ECDSA P-384 verification over SHA-384 of an image: public key, signature, signed bytes (R328). Log entry 4. -/
opaque ecdsaVerify : List Byte → List Byte → List Byte → Bool

/-- The octets of a PTP message as IEEE 1588-2019 lays it out, up to the end of keyID: message type and message
(R280). Log entry 4. -/
opaque ptpWire : Nat → PtpMsg → List Byte

/-- The octets of an NTP message up to its authenticator field (RFC 5905, RFC 8915; R289, R290). Log entry 4. -/
opaque ntpWire : NtpMsg → List Byte

/-- SHA-384 of a byte string (R328, R407). Log entry 4. -/
opaque sha384 : List Byte → BitVec 384

/-- The first four octets of the MD5 hash of an IPv6 address (R287). Log entry 4. -/
opaque md5Head : BitVec 128 → BitVec 32

/-- SHA-384 of the public key fused in OTP (R328). Fixed per part; its value is the maker's. -/
opaque otpKeyHash : BitVec 384

/-- The CRC-32 that the ROM computes over OTP at boot (R379). The layout of OTP is not given. Log entry 5. -/
opaque otpCrc : BitVec 32

/-- The factory calibration CRC fused in COL_CALCRC (R77). Log entry 5. -/
opaque colCalcrc : BitVec 32

/-- The factory layer: VALUE and UNC of an item (R376, R377), measured on the tester. Log entry 5. -/
opaque factoryValue : Nat → Int
opaque factoryUnc : Nat → Nat

/-- The term "plus one NCO step" of C_SERVO in ps (R113 gives no figure for it). Log entry 6. -/
opaque ncoStepPs : Nat

/-- The time effect in ps of a held-position uncertainty in mm (R163 names it and gives no formula). Log entry 6. -/
opaque posTimeEffectPs : Nat → Nat

/-- The issue of data in the 64 bytes of a loaded ephemeris (R175: in the bit order of the system's own standard). Log entry 4. -/
opaque issueOfData : List Byte → Nat

/-- The bias of a system against the TIMESCALE system before a solution has estimated one, ps (R164). Log entry 3. -/
opaque interSystemBias : Nat → Nat → Int

/-- The accuracy in mm of a survey that ends with one position averaged (R160 gives no standard deviation). Log entry 3. -/
opaque loneSurveyMm : Nat

/-- The start positions of a port that RS-FEC alignment markers occupy: port, time of the position (R266). Log entry 51. -/
opaque markerAt : Nat → Nat → Bool

/-- The firmware images that the boot flash holds in slots A and B (R330): the maker's. Log entry 9. -/
opaque flashSlot : Nat → List Byte

/-- The configuration image that the boot flash holds (R329, R330): the maker's. Log entry 9. -/
opaque flashConfig : List Byte

/-- The firmware build number (R77 COL_FWREV BUILD). Log entry 6. -/
opaque fwBuild : BitVec 16

/-- The warning code of DEV_SET_IMPOSITION when it shortens a window (R38 gives DONE_WITH_WARNING and no code). Log entry 6. -/
opaque impositionWarning : BitVec 32

end Sys2Proof.Config
end

