-- ==== Sys2Proof/Machine/State/Mailbox.lean ====
section
/-! DEFINITION. State of the host interface: rings, jobs in flight, the interrupt controller and the snapshot. -/

namespace Sys2Proof.Machine

/-- Resource modes (R37); 0 FOLIO is in force after reset (R52). -/
inductive Imposition where
  | folio
  | broadsheet
  | quarto
  | octavo
  deriving DecidableEq, Repr

/-- A completion posted and not yet consumed: its tag (R58) and the impressions it has waited (R51 CC_HOLDOFF). -/
structure Posted where
  tag : BitVec 10
  age : Nat
  deriving DecidableEq, Repr

/-- One command ring and its completion ring: the six registers of R51, and what R58–R63 make the engine keep. -/
structure Ring where
  /-- TAIL, descriptors written by host software (R51); reset 0 -/
  tail : BitVec 16 := 0
  /-- HEAD, descriptors fetched (R51); reset 0 -/
  head : BitVec 16 := 0
  /-- CTAIL, completions posted (R51); reset 0 -/
  ctail : BitVec 16 := 0
  /-- CHEAD, completions consumed (R51); reset 0 -/
  chead : BitVec 16 := 0
  /-- CTRL ENABLE (R51); reset 0 -/
  enable : Bool := false
  /-- CTRL CC_THRESHOLD (R51); reset 0x01 -/
  ccThreshold : BitVec 8 := 1
  /-- CTRL CC_HOLDOFF (R51); reset 0 -/
  ccHoldoff : BitVec 8 := 0
  /-- STATUS FROZEN (R51, R70); reset 0 -/
  frozen : Bool := false
  /-- STATUS DOORBELL_ERROR, sticky (R51, R60); reset 0 -/
  doorbellError : Bool := false
  /-- STATUS DUP_TAG_SEEN, sticky (R51, R58); reset 0 -/
  dupTagSeen : Bool := false
  /-- The job before carried CHAIN, so the next job belongs to its chain (R53, R63); reset no -/
  inChain : Bool := false
  /-- Number of the first job of the chain in progress (R63), the model's own; reset 0 -/
  chainId : Nat := 0
  /-- A job of the chain in progress has failed (R63); reset no -/
  chainBroken : Bool := false
  /-- A chain at the head of the ring waits for budget (R63); reset no -/
  chainWaits : Bool := false
  /-- A chain that is refused whole has been refused in part: its next descriptors are refused as they come (R63); reset
  no -/
  refusing : Bool := false
  /-- Completions posted and not consumed, oldest first (R58, R61); reset none -/
  unconsumed : List Posted := []
  deriving DecidableEq, Repr

/-- What a completion reports beside its job: STATUS, RESULT0–RESULT3, and what goes to the result buffer (R54, R55). -/
structure Reply where
  status : Nat := 0x00
  r0 : Word := 0
  r1 : Word := 0
  r2 : Word := 0
  r3 : Word := 0
  out : List Byte := []
  deriving DecidableEq, Repr

/-- What else a completion says of its job: the flags of byte 5, the impression and second at which the job took effect
where that was before the completion, and the job's number in the order of fetching (R55, R66). -/
structure DoneFlags where
  dupTag       : Bool := false
  chainBroken  : Bool := false
  afterRestart : Bool := false
  took         : Option (Nat × Nat) := none
  order        : Nat := 0
  deriving DecidableEq, Repr

/-- A completion that firmware has still to post: the posting class has overrun (R32), or a WARM restart is in progress
(R70, R405). -/
structure Due where
  job   : Job
  reply : Reply
  flags : DoneFlags
  deriving DecidableEq, Repr

/-- Why a job that has been taken up has not completed yet. -/
inductive Hold where
  | effect                                  -- takes effect at the next impression
  | block (b : Fin 16)                      -- held while its target subsystem is in reset (R68)
  | restart                                 -- waits for the end of a WARM restart (R70, R405)
  | fence                                   -- FENCE: waits for every earlier job of its ring (R66)
  | ringFence                               -- DEV_FENCE SCOPE 0 (R80)
  | worldFence                              -- DEV_FENCE SCOPE 1 (R80)
  | imposition                              -- DEV_SET_IMPOSITION (R41)
  | timeStep (d : Fin 4)                    -- TD_SET_TIME (R92)
  | release (k : Fin 8)                     -- a job for a SWITCHING DPLL (R142)
  | retune (n : Fin 4)                      -- APLL_RETUNE (R194, R195)
  | outputs (waiting changed : BitVec 24)   -- OUT_ENABLE (R187)
  | slotMask (port : Fin 8) (dir : Fin 2) (since : Nat)  -- SAMP_SLOT_MASK: the impression of effect (R340)
  | survey                                  -- GNSS_SURVEY (R162)
  | flash                                   -- SEC_FW_STAGE, CAL_COMMIT_USER (R331, R384)
  | proof                                   -- DEV_PROOF (R367)
  | fwRestart                               -- DEV_FW_RESTART, SEC_FW_COMMIT RESTART 1 (R70, R332)
  | aborted (b : Fin 16)                    -- ABORTED_BY_RESET, posted after a WARM restart (R406)
  | cycle                                   -- taken up by the next ensemble cycle (R105, R107)
  | chipReset                               -- DEV_CHIP_RESET: until the reset, which posts no completion (R71, R398)
  deriving DecidableEq, Repr

/-- A job fetched and not completed (R61). -/
structure Flight where
  job     : Job
  code    : BitVec 16
  hold    : Hold
  /-- Number of the job in the order of fetching, for DEV_FENCE SCOPE 1 (R66) -/
  order   : Nat
  /-- A WARM restart has spanned the job (R70) -/
  spanned : Bool := false
  /-- Its effect comes later than the impression it requested, so it completes DEFERRED (R32, R142) -/
  late    : Bool := false
  /-- The chain that it belongs to, by the number of its first job (R63) -/
  chain   : Option Nat := none
  /-- Impression and second at which it took effect, where it completes later (R55) -/
  took    : Option (Nat × Nat) := none
  deriving DecidableEq, Repr

/-- The mailboxes. -/
structure Mbx where
  /-- CQ0–CQ3 and CQS (R51); reset as `Ring` -/
  rings : Vector Ring 5 := Vector.replicate 5 {}
  /-- Jobs fetched and not completed, in the order of fetching (R61); reset none -/
  flights : List Flight := []
  /-- Completions that firmware has still to post, oldest first (R32, R70); reset none -/
  due : List Due := []
  /-- Jobs fetched so far; reset 0 (the model's own numbering of the order of R66) -/
  fetched : Nat := 0
  /-- MBX_GLOBAL_STATUS FW_READY (R52); reset 0 -/
  fwReady : Bool := false
  /-- MBX_GLOBAL_STATUS RESTARTING (R52); reset 0 -/
  restarting : Bool := false
  /-- The ring among CQ0–CQ3 served last (R30); reset 3, so that CQ0 is first. DESIGN CHOICE, log entry 7 -/
  lastServed : Fin 4 := 3
  /-- SRAM at 256–512 KB: rings and staging areas (R304), canonical; an unlisted byte reads 0 (R403 step 3) -/
  mem : List (Nat × Byte) := []
  /-- What the last host read returned on the bus (R47); reset 0 -/
  readData : BitVec 64 := 0
  /-- What the SPI slave drove in the last transaction, byte by byte (R48); reset none -/
  spiOut : List Byte := []
  /-- What the mailbox DMA wrote to the host bus (R54), oldest first; reset none -/
  dmaOut : List (BitVec 64 × List Byte) := []
  deriving DecidableEq, Repr

/-- The interrupt controller (R73–R75). -/
structure Intc where
  /-- INTC_STATUS (R75); reset 0 -/
  status : BitVec 32 := 0
  /-- INTC_MASK (R75), bit 31 always 0; reset 0x7FFF_FFFF -/
  mask : BitVec 32 := 0x7FFFFFFF
  /-- INTC_MODE PIN (R75); reset STRAP_HOST -/
  pin : Bool := false
  /-- INTC_MAP0–INTC_MAP7 (R75): vector of each source; reset identity -/
  map : Vector (BitVec 5) 32 := Vector.ofFn fun i => BitVec.ofNat 5 i.val
  /-- Vectors of the MSI-X messages sent (R73), oldest first; reset none -/
  sent : List (BitVec 5) := []
  deriving DecidableEq, Repr

/-- One latched domain of the time snapshot (R76). -/
structure SnapDom where
  /-- TSNAP_TDd_W0–W3; reset 0 -/
  time : BitVec 128 := 0
  /-- TSNAP_TDd_BOUND_LO and BOUND_HI; reset 0 -/
  bound : BitVec 48 := 0
  /-- TSNAP_TDd_GROWTH; reset 0 -/
  growth : BitVec 32 := 0
  deriving DecidableEq, Repr

/-- The time snapshot (R76). -/
structure Tsnap where
  /-- TSNAP_SEQ; reset 0 -/
  seq : BitVec 16 := 0
  dom : Vector SnapDom 4 := Vector.replicate 4 {}
  deriving DecidableEq, Repr

end Sys2Proof.Machine
end

