-- ==== Sys2Proof/Machine/State/Time.lean ====
section
/-! DEFINITION. State of TCR: the four counters, slews and pending steps, UTC information, the error ledger, the
active view; and the impression sequencer. Times are counted in units of 10^-33 ns, contributions of a ledger in
units of 1/8000 fs, frequency offsets in units of 10^-15 (0.001 ppt). -/

namespace Sys2Proof.Machine

/-- LEAP of a domain (R97): nothing pending, an insertion, a deletion. -/
inductive Leap where
  | none
  | insert
  | delete
  deriving DecidableEq, Repr

/-- A slew in progress (R93): rate in ppb and the signed offset still to be absorbed, units of 10^-33 ns. -/
structure Slew where
  ppb       : Nat
  remaining : Int
  deriving DecidableEq, Repr

/-- A step that is pending on a domain (R90, R92, R96). -/
inductive PendingStep where
  | absolute (seconds : Nat) (boundPs : Nat)          -- TD_SET_TIME MODE 0
  | relative (interval : Int) (boundPs : Nat)         -- TD_SET_TIME MODE 1, units of 2^-16 ns
  | return (offset : Int)                             -- return step by −O (R96), units of 10^-33 ns
  | adopt (source : Fin 32)                           -- adoption of a time of day (R90)
  deriving DecidableEq, Repr

/-- A ledger record (R111), less what R118 derives from elsewhere. -/
structure Ledger where
  /-- BOUND_PS is known (not 2^48 − 1); reset unknown (R86) -/
  known : Bool := false
  /-- The bound is unknown by a FREERUN entered from a reference (R430), which the next confirmation alone ends; reset no -/
  modelLost : Bool := false
  /-- GROWTH_FS; reset 0 -/
  growthFs : Int := 0
  /-- C_REF without the remainder of a slew; reset 0 -/
  cRef : Nat := 0
  /-- The |remainder| part of C_REF (R94, R150), as the latest impression boundary refreshed it; reset 0 -/
  moving : Nat := 0
  /-- C_SERVO; reset 0 -/
  cServo : Nat := 0
  /-- C_HOLD; reset 0 -/
  cHold : Nat := 0
  /-- C_CAL without FALLBACK charges; reset 0 -/
  cCal : Nat := 0
  /-- FALLBACK charges in C_CAL (R251); reset 0 -/
  cFallback : Nat := 0
  /-- C_ASYM; reset 0 -/
  cAsym : Nat := 0
  /-- C_SUPPLY; reset 0 -/
  cSupply : Nat := 0
  /-- STATUS [0] confirmed (R116); reset 0 -/
  confirmed : Bool := false
  /-- STATUS [1] holdover (R111); reset 0 -/
  holdover : Bool := false
  /-- STATUS [4] growth goes into C_REF (R113); reset 0 -/
  growsRef : Bool := false
  /-- STATUS [5], the bound as last compared was above LEDGER_WARN_PS (R117); reset 0 -/
  aboveWarn : Bool := false
  /-- STATUS [6], the bound as last compared was above LEDGER_LIMIT_PS (R117); reset 0 -/
  aboveLimit : Bool := false
  /-- LAST_REF; reset 0xFF -/
  lastRef : Option (Fin 32) := none
  /-- CHAIN source class (R115); reset 0 -/
  chainClass : Fin 8 := 0
  /-- CHAIN hop count (R115); reset 0 -/
  chainHops : Fin 16 := 0
  /-- SINCE_CONFIRM_S; reset 0xFFFF_FFFF -/
  sinceConfirm : BitVec 32 := 0xFFFFFFFF
  /-- Impressions of the second that SINCE_CONFIRM_S has not counted yet (R115); reset 0 -/
  sinceImp : Nat := 0
  /-- The domain has been confirmed at some time (R113, R116); reset no -/
  everConfirmed : Bool := false
  /-- A confirmation runs (R116): impressions passed; reset none -/
  confirming : Option Nat := none
  /-- UPD_IMPRESSION; reset 0 -/
  updImpression : Nat := 0
  /-- UPD_SECOND; reset 0 -/
  updSecond : BitVec 48 := 0
  deriving DecidableEq, Repr

/-- One time domain: its counter, its configuration (R89, R95, R97) and its ledger record. -/
structure Domain where
  /-- The counter, units of 10^-33 ns since the epoch (R82, R86); reset from the coarse seconds or 0 -/
  count : Nat := 0
  /-- VALID (R82, R86); reset 0 -/
  valid : Bool := false
  /-- TD_CONFIG DPLL; reset 0xFF (free-running) -/
  dpll : Option (Fin 8) := none
  /-- TD_CONFIG TIME_SOURCE; reset 0xFF -/
  timeSource : Option (Fin 32) := none
  /-- TD_CONFIG DIVERGE_PEER; reset 0xFF -/
  divergePeer : Option (Fin 4) := none
  /-- TD_CONFIG CONFIRM_S; reset 120 -/
  confirmS : Nat := 120
  /-- TD_CONFIG SLEW_MAX_PPB; reset 100 -/
  slewMaxPpb : Nat := 100
  /-- TD_CONFIG LEDGER_WARN_PS; reset 1,000,000 -/
  warnPs : Nat := 1000000
  /-- TD_CONFIG LEDGER_LIMIT_PS; reset 10,000,000 -/
  limitPs : Nat := 10000000
  /-- TD_CONFIG SUPPLY_CHARGE_PS; reset 2,000 -/
  supplyChargePs : Nat := 2000
  /-- TD_CONFIG DIVERGE_NS; reset 1,000 -/
  divergeNs : Nat := 1000
  /-- TD_SET_RETURN_POLICY POLICY: steps are allowed; reset SLEW_ONLY -/
  stepAllowed : Bool := false
  /-- TD_SET_RETURN_POLICY STEP_THRESHOLD_NS; reset 1,000 -/
  stepThresholdNs : Nat := 1000
  /-- TD_SET_RETURN_POLICY RETURN_SLEW_PPB, 0 selects SLEW_MAX_PPB; reset 0 -/
  returnSlewPpb : Nat := 0
  /-- TD_SET_UTC_INFO UTC_SOURCE; reset 0xFF -/
  utcSource : Option (Fin 32) := none
  /-- UTC_OFFSET, TAI − UTC (R97); reset 37 -/
  utcOffset : Int := 37
  /-- Pending leap (R97); reset none -/
  leap : Leap := .none
  /-- LEAP_SECOND (R97); reset 0 -/
  leapSecond : Nat := 0
  /-- A slew in progress (R93, R94); reset none -/
  slew : Option Slew := none
  /-- A pending step (R92); reset none -/
  pending : Option PendingStep := none
  /-- A return waits for the boundary of a pending TD_SET_TIME (R96); reset no -/
  returnWaits : Bool := false
  /-- Divergence source 97 has been raised and the difference has not fallen below half (R91); reset no -/
  diverged : Bool := false
  ledger : Ledger := {}
  deriving DecidableEq, Repr

/-- The time line on which an abandoned grid is still counted (R35): a domain's counter plus an offset. -/
structure GridLine where
  dom    : Fin 4
  offset : Int
  deriving DecidableEq, Repr

/-- The impression sequencer (R27, R35). -/
structure Seq where
  /-- The sequencer has started (R27, R403); reset no -/
  running : Bool := false
  /-- MBX_IMPRESSION IMPRESSION (R52); reset 0 -/
  imp : Nat := 0
  /-- The second that completions report (R55), SECOND_LO of R52; reset 0 -/
  second : Nat := 0
  /-- The boundary second B of a realignment in progress (R35); reset none -/
  realign : Option Nat := none
  /-- The time line of the old grid until B (R35); reset none -/
  oldLine : Option GridLine := none
  /-- The impression in progress is the lengthened one (R35); reset no -/
  lengthened : Bool := false
  /-- Work classes that do not finish in the impression in progress (R32, R140); reset none -/
  overran : BitVec 11 := 0
  deriving DecidableEq, Repr

/-- What a view showed while some CD-TIME cycles passed: its counter at their start and at their end, its domain, its bound,
its growth and the flags of its time values (R82, R112). -/
structure PastView where
  start  : Nat
  stop   : Nat
  dom    : Nat
  bound  : Nat
  growth : Int
  flags  : Nat
  deriving DecidableEq, Repr

/-- CD-TIME cycles that have passed, and what the five views showed in them. -/
structure Span where
  start : Nat
  stop  : Nat
  views : List PastView
  deriving DecidableEq, Repr

/-- TCR: the counters, the active role and the handover alignment (R86–R103), and the sequencer. -/
structure Tcr where
  /-- The free-running CD-TIME count, cycles of 1 ns (R24, R104); reset 0 -/
  cycles : Nat := 0
  /-- CD-TIME cycle of the latest impression boundary (R27); reset 0 -/
  began : Nat := 0
  /-- Classes that had not finished the impression before the one in progress (R32, R140); reset none -/
  ended : BitVec 11 := 0
  dom : Vector Domain 4 := Vector.replicate 4 {}
  /-- The domain that holds the active role (R86); reset TD0 -/
  active : Fin 4 := 0
  /-- The handover remainder, units of 10^-33 ns (R88); reset 0 -/
  remainder : Int := 0
  /-- SLEW_PPB of the handover alignment (R100); reset 100 -/
  slewPpb : Nat := 100
  /-- Domains involved since the first alignment began (R102, R103); empty outside an alignment; reset none -/
  involved : List (Fin 4) := []
  /-- STATUS [5] of the active view's record (R117); reset 0 -/
  viewAboveWarn : Bool := false
  /-- STATUS [6] of the active view's record (R117); reset 0 -/
  viewAboveLimit : Bool := false
  /-- Clock-monitor faults that stand: master oscillator, CD-SYS, CD-TIME (R26); reset none -/
  clockBad : BitVec 3 := 0
  /-- The latest 2 ms of CD-TIME, newest first: what stamps and captures of earlier moments show (R217, R219, R246); reset
  none -/
  past : List Span := []
  seq : Seq := {}
  deriving DecidableEq, Repr

end Sys2Proof.Machine
end

