-- ==== Sys2Proof/Machine/State/Reference.lean ====
section
/-! DEFINITION. State of RIM, DSB and EHU: the reference pool, the DPLLs, the ensemble, the holdover histories and the
external-oscillator steering. -/

namespace Sys2Proof.Machine

/-- The five states of a pool entry (R127). -/
inductive RefState where
  | unqualified
  | qualifying
  | qualified
  | drifting
  | disqualified
  deriving DecidableEq, Repr

/-- One pool entry: REF_CONFIG (R122), REF_SET_THRESHOLDS (R125), monitors (R124), state and history (R127, R128). -/
structure RefEntry where
  /-- ENABLE; reset 0 -/
  enable : Bool := false
  /-- KIND 1, a time input; reset 0 -/
  timeKind : Bool := false
  /-- TOD_SOURCE; reset 0xFF -/
  todSource : Option (Fin 32) := none
  /-- NOMINAL_MHZ; reset 0 -/
  nominalMhz : Nat := 0
  /-- INPUT single-ended; reset 0 -/
  singleEnded : Bool := false
  /-- EDGE falling; reset 0 -/
  falling : Bool := false
  /-- IRQ_MASK; reset 0 -/
  irqMask : BitVec 16 := 0
  /-- TIME_UNC_PS; reset 10,000 -/
  timeUncPs : Nat := 10000
  /-- FREQ_UNC_PPT; reset 10 -/
  freqUncPpt : Nat := 10
  /-- INTEG_ACTION; reset 1, and 2 for entries 16 and 17 -/
  integAction : Fin 3 := 1
  /-- LOS_PERIODS; reset 3 -/
  losPeriods : Nat := 3
  /-- PDV_POP_PERMILLE; reset 20 -/
  pdvPop : Nat := 20
  /-- QUAL_S; reset 10 -/
  qualS : Nat := 10
  /-- FREQ_WINDOW_S; reset 10 -/
  freqWindow : Nat := 10
  /-- FREQ_SOFT_PPB; reset 2,300 -/
  freqSoft : Nat := 2300
  /-- FREQ_HARD_PPB; reset 4,600 -/
  freqHard : Nat := 4600
  /-- DRIFT_WINDOW_S; reset 60 -/
  driftWindow : Nat := 60
  /-- DRIFT_PPT_S; reset 50 -/
  driftPptS : Nat := 50
  /-- PHASE_JUMP_NS; reset 100 -/
  phaseJumpNs : Nat := 100
  /-- PDV_WINDOW_S; reset 64 -/
  pdvWindow : Nat := 64
  /-- PDV_SOFT_NS; reset 250 -/
  pdvSoftNs : Nat := 250
  /-- PDV_HARD_NS; reset 2,000 -/
  pdvHardNs : Nat := 2000
  /-- DRIFT_CLEAR_S; reset 10 -/
  driftClearS : Nat := 10
  /-- State (R127); reset UNQUALIFIED -/
  st : RefState := .unqualified
  /-- LOS condition (R124); reset present: nothing has arrived -/
  los : Bool := true
  /-- Frequency soft condition; reset 0 -/
  freqSoftNow : Bool := false
  /-- Frequency hard condition; reset 0 -/
  freqHardNow : Bool := false
  /-- Drift-rate condition; reset 0 -/
  driftNow : Bool := false
  /-- Phase jump of the latest measurement; reset 0 -/
  jumpNow : Bool := false
  /-- PDV soft condition; reset 0 -/
  pdvSoftNow : Bool := false
  /-- PDV hard condition; reset 0 -/
  pdvHardNow : Bool := false
  /-- GTR's integrity monitor reports failure (R124, R172); reset 0 -/
  gnssFail : Bool := false
  /-- The ensemble outlier flag of R108 stands for the entry; reset 0 -/
  outlierNow : Bool := false
  /-- Integrity soft condition of the outlier flag at the latest evaluation (R124); reset 0 -/
  integSoftNow : Bool := false
  /-- Integrity hard condition of the outlier flag at the latest evaluation (R124); reset 0 -/
  integHardNow : Bool := false
  /-- Sticky history bits (R128); reset 0 -/
  history : BitVec 16 := 0
  /-- History bits whose event has occurred in the impression in progress (R129); reset 0 -/
  histNow : BitVec 16 := 0
  /-- One-second frequency measurements in ppt, newest first (R123); reset none -/
  freqs : List ℚ := []
  /-- Frequency measurement of the second in progress, ppt (R123); reset none -/
  freqNow : Option ℚ := none
  /-- Path delays in ns with the second of each exchange, newest first (R124); reset none -/
  delays : List (Nat × Nat) := []
  /-- Stamp of the first edge of the second, ns of the unsteered CD-TIME (R123); reset none -/
  firstStamp : Option ℚ := none
  /-- Stamp of the latest edge, ns of the unsteered CD-TIME (R123); reset none -/
  lastStamp : Option ℚ := none
  /-- CD-TIME cycle of the latest edge (R124); reset none -/
  lastEdge : Option Nat := none
  /-- Edges since `firstStamp`; reset 0 -/
  edges : Nat := 0
  /-- Latest phase measurement of a time reference (R123): its time less the unsteered CD-TIME, ns, with its CD-TIME cycle;
  reset none -/
  lag : Option (ℚ × Nat) := none
  /-- `lag` as it stood at the start of the second in progress (R123); reset none -/
  lagMark : Option (ℚ × Nat) := none
  /-- Something has arrived since the entry was enabled (R124); reset no -/
  arrived : Bool := false
  /-- Clean seconds counted towards QUAL_S or DRIFT_CLEAR_S (R127); reset 0 -/
  clean : Nat := 0
  /-- The count of clean seconds has begun: the latest second boundary lies in it; reset no -/
  counting : Bool := false
  /-- Number of the impression in which the entry last became QUALIFIED (R135); reset 0 -/
  qualifiedAt : Nat := 0
  /-- The reference's own uncertainty, ps (R113); reset 0 -/
  uncPs : Nat := 0
  /-- Source class of what feeds the entry (R115); reset none -/
  srcClass : Fin 8 := 0
  /-- Hop count of what feeds the entry (R115); reset 0 -/
  hops : Nat := 0
  /-- UTC information that the source gives (R97); reset none -/
  utc : Option UtcObs := none
  /-- TAI second in which the source first gave that information; reset 0 -/
  utcAt : Nat := 0
  /-- TAI second that the source marks at its latest delivery (R90); reset none -/
  tod : Option Nat := none
  /-- CD-TIME cycle of that delivery; reset 0 -/
  todCycle : Nat := 0
  /-- Calibration uncertainty of the packet path that delivers, kept when none does, ps (R378); reset 0 -/
  calPs : Nat := 0
  /-- Asymmetry uncertainty of the port that delivers, ps (R113, R252); reset 0 -/
  asymPs : Nat := 0
  /-- FALLBACK charge of the latest measurement, ps (R251); reset 0 -/
  fallbackPs : Nat := 0
  /-- Port that delivers the measurements of a packet reference (R378); reset none -/
  port : Option (Fin 24) := none
  deriving DecidableEq, Repr

/-- RIM (R121–R130). -/
structure Rim where
  ref : Vector RefEntry 32 :=
    Vector.ofFn fun i => if i.val = 16 ∨ i.val = 17 then { integAction := 2 } else {}
  deriving DecidableEq, Repr

/-- DPLL states (R131). -/
inductive DpllState where
  | freerun
  | acquiring
  | locked
  | switching
  | holdover
  deriving DecidableEq, Repr

/-- DPLL modes (R132). -/
inductive DpllMode where
  | automatic
  | freerun
  | holdover
  deriving DecidableEq, Repr

/-- A switch in progress (R140): decided, frozen or captured, with its target B and Δ in units of 10^-3 ps. -/
structure Switch where
  target   : Fin 32
  /-- number of the impression that decided it (R140 step 1), and of the one that began with the freeze -/
  decidedAt : Nat := 0
  frozenAt : Nat := 0
  frozen   : Bool := false
  /-- the freeze edge: its CD-TIME cycle and the counters of the four domains on it (R140 step 3) -/
  edge     : Nat := 0
  counts   : List Nat := []
  delta    : Option Int := none
  takeover : Bool := false
  /-- the DPLL came from FREERUN or HOLDOVER (R134, R96) -/
  fromLost : Bool := false
  /-- O of each VALID domain as captured, units of 10^-3 ps (R96, R141) -/
  offsets  : List (Nat × Int) := []
  deriving DecidableEq, Repr

/-- One DPLL: DPLL_CONFIG (R133), REF_SET_PRIORITY (R136), selection, loop and build-out. -/
structure Dpll where
  /-- PBO; reset 1 -/
  pbo : Bool := true
  /-- FAST_ACQ; reset 1 -/
  fastAcq : Bool := true
  /-- BW_DMHZ; reset 1,000 -/
  bw : Nat := 1000
  /-- DAMPING; reset 500 -/
  damping : Nat := 500
  /-- ACQ_BW_DMHZ; reset 100,000 -/
  acqBw : Nat := 100000
  /-- LOCK_NS; reset 50 -/
  lockNs : Nat := 50
  /-- LOCK_S; reset 10 -/
  lockS : Nat := 10
  /-- PHASE_SLOPE_PPB; reset 100 -/
  phaseSlope : Nat := 100
  /-- PULL_IN_PPB; reset 4,600 -/
  pullIn : Nat := 4600
  /-- Candidate list CAND0– (R136); reset empty -/
  cands : List (Fin 32) := []
  /-- REVERTIVE; reset 1 -/
  revertive : Bool := true
  /-- WTR_S; reset 10 -/
  wtrS : Nat := 10
  /-- DRIFT_HOLDOFF_S; reset 30 -/
  driftHoldoffS : Nat := 30
  /-- State (R131); reset FREERUN -/
  st : DpllState := .freerun
  /-- Mode (R132); reset AUTOMATIC -/
  mode : DpllMode := .automatic
  /-- Control value, units of 0.001 ppt (R131); reset 0 -/
  control : Int := 0
  /-- Phase error, ps (R131); reset 0 -/
  phaseErr : Int := 0
  /-- Bandwidth in use, units of 0.1 mHz (R134); reset 1,000 -/
  curBw : Nat := 1000
  /-- Selected entry (R131); reset none -/
  selected : Option (Fin 32) := none
  /-- Last selected entry (R131); reset none -/
  lastSelected : Option (Fin 32) := none
  /-- Forced entry (R139); reset none -/
  forced : Option (Fin 32) := none
  /-- Candidates whose wait-to-restore has passed (R135); reset none -/
  restored : List (Fin 32) := []
  /-- The selected entry was reached by a drift takeover, so the list acts as non-revertive (R138); reset no -/
  tookOver : Bool := false
  /-- A switch in progress (R140); reset none -/
  sw : Option Switch := none
  /-- DPLL_STEER_PPT offset, units of 0.001 ppt (R149); reset 0 -/
  steer : Int := 0
  /-- Build-out register, units of 2^-16 ns (R141, R150); reset 0 -/
  buildOut : Int := 0
  /-- Phase still to be moved by a DPLL_PHASE_STEP or a pull-out, units of 10^-33 ns, positive delays (R150); reset 0 -/
  moving : Int := 0
  /-- The movement in progress is a DPLL_PHASE_STEP, charged as R150 states; reset no -/
  stepMoving : Bool := false
  /-- Largest |phase error| of each of the last 64 s, ps, newest first (R113); reset none -/
  errMax : List Nat := []
  /-- A holdover value is in use: its frequency H, units of 0.001 ppt (R143); reset none -/
  inUse : Option Int := none
  /-- Number of the impression of the loss instant L (R143); reset 0 -/
  lostAt : Nat := 0
  /-- Number of the impression that began with the latest freeze (R142); reset 0 -/
  frozeAt : Nat := 0
  /-- Impressions for which the phase error has stayed within LOCK_NS since ACQUIRING began or the bandwidth last halved
  (R134); reset 0 -/
  inLock : Nat := 0
  /-- Impressions for which a QUALIFIED candidate has been eligible while the selected entry drifted (R138); reset none -/
  takeoverFor : Option Nat := none
  deriving DecidableEq, Repr

/-- DSB: DPLL0–DPLL7. -/
structure Dsb where
  dpll : Vector Dpll 8 := Vector.replicate 8 {}
  deriving DecidableEq, Repr

/-- What an ensemble member measures (R105). -/
inductive MemberSource where
  | unassigned
  | localOscillator
  | ref (r : Fin 32)
  deriving DecidableEq, Repr

/-- De-weighting of an ensemble member (R108): none, zero weight with the cycles since the last outlier residual, or the
seconds of its ramp that have passed. -/
inductive Deweight where
  | none
  | zero (seconds : Nat)
  | ramp (seconds : Nat)
  deriving DecidableEq, Repr

/-- ENS_CONFIG_MEMBER settings (R105). -/
structure MemberCfg where
  /-- SOURCE; reset 0xFF, and 0xFE for member 0 -/
  source : MemberSource := .unassigned
  /-- ENABLE; reset 0, and 1 for member 0 -/
  enable : Bool := false
  /-- DRIFT; reset 1 -/
  drift : Bool := true
  /-- WPM_PS; reset 1,000 -/
  wpmPs : Nat := 1000
  /-- WFM; reset 10,000 -/
  wfm : Nat := 10000
  /-- RWFM; reset 10 -/
  rwfm : Nat := 10
  /-- WEIGHT_CAP; reset 128 -/
  cap : Nat := 128
  deriving DecidableEq, Repr

/-- The estimator's state of a member (R104), relative to the ensemble: phase in fs, frequency and drift in units of 10^-15
and 10^-15 per second, and its predicted one-second variance in fs². -/
structure MemberEst where
  phase : Int
  freq  : Int
  drift : Int
  var   : Nat
  deriving DecidableEq, Repr

/-- An ensemble member. -/
structure Member where
  cfg : MemberCfg := {}
  /-- State of the estimator for the member (R104); reset none -/
  est : Option MemberEst := none
  /-- Settings that the next cycle takes up (R105); reset none -/
  next : Option MemberCfg := none
  /-- Weight (R106); reset 0 -/
  weight : ℚ := 0
  /-- De-weighting (R108); reset none -/
  dew : Deweight := .none
  /-- Latest phase against the CD-TIME count, ps (R104); reset none -/
  phasePs : Option Int := none
  deriving DecidableEq, Repr

/-- ENS_SET_POLICY settings (R107). -/
structure EnsPolicy where
  /-- OUTLIER_K; reset 50 -/
  outlierK : Nat := 50
  /-- MIN_MEMBERS; reset 2 -/
  minMembers : Nat := 2
  /-- DEWEIGHT_S; reset 600 -/
  deweightS : Nat := 600
  /-- REINSTATE_S; reset 300 -/
  reinstateS : Nat := 300
  /-- STEER_TC_S; reset 10,000 -/
  steerTcS : Nat := 10000
  deriving DecidableEq, Repr

/-- One second of a holdover history (R144). -/
structure ArchEntry where
  freq      : Int       -- mean control value, units of 2^-48
  temp      : Int       -- units of 1/64 °C
  ref       : Option (Fin 32)
  usable    : Bool
  drifting  : Bool
  excursion : Bool
  steered   : Bool
  secondLo  : BitVec 16
  second    : Nat
  deriving DecidableEq, Repr

/-- The uncertainty of a holdover frequency in ppt: `lin + √var` (R145), kept exact. -/
structure Sigma where
  lin : ℚ := 0
  var : ℚ := 0
  deriving DecidableEq, Repr

/-- A precomputed holdover value (R143, R145, R146). -/
structure HoldValue where
  h     : ℚ             -- ppt
  sigma : Sigma
  slope : ℚ             -- a of R146, ppt per second
  tw    : ℚ             -- mean TEMP of the entries used, units of 1/64 °C
  deriving DecidableEq, Repr

/-- Holdover of one DPLL: HOLD_CONFIG (R147), its history and its precomputed value. -/
structure Hold1 where
  /-- ARCHIVE; reset 0, and 1 for DPLL0 -/
  archive : Bool := false
  /-- AGING; reset 0 -/
  aging : Fin 3 := 0
  /-- TEMP; reset 1 -/
  temp : Bool := true
  /-- WINDOW_S; reset 180, and 900 for DPLL0 -/
  windowS : Nat := 180
  /-- GUARD_S; reset 60 -/
  guardS : Nat := 60
  /-- AGING_FIT_S; reset 43,200 -/
  agingFitS : Nat := 43200
  /-- AGING_PPT_DAY, units of 0.001 ppt per day; reset 0 -/
  agingPptDay : Int := 0
  /-- SIGMA_FLOOR, units of 0.001 ppt; reset 100 -/
  sigmaFloor : Nat := 100
  /-- MIN_VALID_PERMILLE; reset 250 -/
  minValid : Nat := 250
  /-- TEMP_SENSOR; reset 0 -/
  sensor : Fin 5 := 0
  /-- History, newest first (R144); reset empty -/
  hist : List ArchEntry := []
  /-- Entries of ended seconds that the averager has not written yet, newest first (R34, R406); reset none -/
  closed : List ArchEntry := []
  /-- The precomputed value (R143); reset none -/
  value : Option HoldValue := none
  /-- The value in use in HOLDOVER (R143, R146); reset none -/
  used : Option HoldValue := none
  /-- The second in progress: every moment so far LOCKED on one entry (R144 USABLE); reset no -/
  secUsable : Bool := false
  /-- The second in progress: the selected entry was DRIFTING at some moment (R144); reset no -/
  secDrifting : Bool := false
  /-- The second in progress: some part of a dip lay in it (R144, R389); reset no -/
  secExcursion : Bool := false
  /-- The second in progress: the steering code changed (R144); reset no -/
  secSteered : Bool := false
  /-- Sum of the control value over the impressions of the second (R19, R144); reset 0 -/
  secSum : Int := 0
  /-- Impressions summed; reset 0 -/
  secCount : Nat := 0
  deriving DecidableEq, Repr

/-- External-oscillator steering (R151, R152). -/
structure OscSteer where
  /-- DPLL; reset 0xFF (off) -/
  dpll : Option (Fin 8) := none
  /-- PORT serial; reset 0 -/
  serial : Bool := false
  /-- DAC_BITS; reset 16 -/
  dacBits : Nat := 16
  /-- SPI_MODE; reset 0 -/
  spiMode : Fin 4 := 0
  /-- CODE_CENTRE; reset 32,768 -/
  centre : Nat := 32768
  /-- UPDATE_IMP; reset 8,000 -/
  updateImp : Nat := 8000
  /-- MAX_STEP; reset 64 -/
  maxStep : Nat := 64
  /-- BAUD; reset 9,600 -/
  baud : Nat := 9600
  /-- TARGET outside the clock path; reset 0 -/
  outside : Bool := false
  /-- STEERED_REF; reset 0xFF -/
  steeredRef : Option (Fin 32) := none
  /-- TEMPLATE; reset zeros -/
  template : List Byte := []
  /-- Last code sent (R152); reset none sent -/
  lastCode : Option Nat := none
  /-- Steering applied to the master oscillator, units of 0.001 ppt (R123, R144); reset 0 -/
  applied : Int := 0
  /-- Phase by which the applied steering has moved CD-TIME, units of 10^-15 ns (R123); reset 0 -/
  moved : Int := 0
  /-- Residue on the NCO, units of 0.001 ppt (R152); reset 0 -/
  residue : Int := 0
  /-- Number of the impression of the last update (R151); reset none -/
  sentAt : Option Nat := none
  /-- What the DAC or serial port sent, oldest first: code, or the bytes of the command (R152); reset none -/
  sent : List (Nat × List Byte) := []
  deriving DecidableEq, Repr

/-- EHU (R104–R110, R143–R152). -/
structure Ehu where
  member : Vector Member 8 :=
    Vector.ofFn fun i => if i.val = 0 then { cfg := { source := .localOscillator, enable := true } } else {}
  policy : EnsPolicy := {}
  /-- Policy that the next cycle takes up (R107); reset none -/
  nextPolicy : Option EnsPolicy := none
  /-- A cycle of the second in progress is due (R34); reset no -/
  due : Bool := false
  /-- A cycle has not finished in its second (R34); reset no -/
  late : Bool := false
  /-- Lag in impressions (R34); reset 0 -/
  lag : Nat := 0
  /-- Ensemble frequency against the local oscillator, units of 0.001 ppt (R110); reset 0 -/
  freq : Int := 0
  /-- Ensemble phase against the CD-TIME count, fs (R104, R106); reset 0 -/
  phase : Int := 0
  /-- A cycle of the holdover averager is due (R34); reset no -/
  holdDue : Bool := false
  /-- A cycle of the holdover averager has not finished in its second (R34); reset no -/
  holdLate : Bool := false
  hold : Vector Hold1 8 :=
    Vector.ofFn fun i => if i.val = 0 then { archive := true, windowS := 900 } else {}
  steer : OscSteer := {}
  deriving DecidableEq, Repr

end Sys2Proof.Machine
end

