-- ==== Sys2Proof/Machine/State/Fault.lean ====
section
/-! DEFINITION. State of FCO and of the performance counters: classes, captures, source configuration, BLOCK resets
and their shadows, counters. -/

namespace Sys2Proof.Machine

/-- A first-error capture record (R358); an empty slot reads zero. -/
structure Capture where
  time   : BitVec 128
  addr   : BitVec 64
  source : BitVec 8
  master : BitVec 8
  access : BitVec 8
  flags  : BitVec 8
  level  : BitVec 8
  /-- COUNT, later faults, saturating at 65,535 -/
  count  : Nat := 0
  deriving DecidableEq, Repr

/-- One fault class (R356–R359). -/
structure FaultClass where
  /-- FCO_STATUS PENDING; reset 0 -/
  pending : Bool := false
  /-- FCO_STATUS ESCALATED; reset 0 -/
  escalated : Bool := false
  /-- FCO_STATUS ERRN_HOLD; reset 0 -/
  errnHold : Bool := false
  /-- FCO_INJ_STATUS INJ_SEEN; reset 0 -/
  injSeen : Bool := false
  /-- FCO_COUNTc RECORDED, saturating at 65,535; reset 0 -/
  recorded : Nat := 0
  /-- FCO_COUNTc CONSEQ, saturating at 255; reset 0 -/
  conseq : Nat := 0
  /-- FCO_COUNTc N, saturating at 255; reset 0 -/
  n : Nat := 0
  /-- FCO_CAPc, the real capture; reset empty -/
  cap : Option Capture := none
  /-- FCO_INJc, the injected capture; reset empty -/
  inj : Option Capture := none
  deriving DecidableEq, Repr

/-- The configuration of a source (R351, R362). -/
structure SourceCfg where
  level : Nat
  cap   : Nat
  errn  : Bool
  deriving DecidableEq, Repr

/-- A BLOCK reset of one subsystem (R360, R394). -/
inductive BlockReset where
  | none
  | asserted   -- in reset: the shadow runs
  | shadow     -- released less than 64 µs ago
  deriving DecidableEq, Repr

/-- FCO (R351–R366). -/
structure Fco where
  /-- Classes C0–C7 (R351); reset `FaultClass` -/
  cls : Vector FaultClass 8 := Vector.replicate 8 {}
  /-- FLT_CONFIG_SOURCE settings that differ from being never given (R362), rising by source; reset none: R351 rules -/
  cfg : List (Nat × SourceCfg) := []
  /-- BLOCK reset and reset shadow of each subsystem, colophon order (R360); reset none -/
  block : Vector BlockReset 16 := Vector.replicate 16 .none
  /-- CD-TIME cycle before which a shadow does not end (R360, R361); reset 0 -/
  shadowTo : Vector Nat 16 := Vector.replicate 16 0
  /-- FCO_STATUS INJECT_UNLOCKED: factory test mode is unlocked (R333, R359); reset 0 -/
  injectUnlocked : Bool := false
  /-- Level 2 traps taken by the CPX pairs (R354); reset 0 -/
  traps : Nat := 0
  /-- Level 2 traps that wait for CD-SYS to return (R354); reset 0 -/
  trapsDue : Nat := 0
  deriving DecidableEq, Repr

/-- One performance counter (R368, R374, R375). -/
structure Ctr where
  /-- EVENT (R374); reset 0x0000 -/
  event : BitVec 16 := 0
  /-- INSTANCE (R374); reset 0xFF -/
  inst : BitVec 8 := 0xFF
  /-- COUNT (R368); reset 0 -/
  count : BitVec 48 := 0
  /-- PCU_OVF bit (R368); reset 0 -/
  ovf : Bool := false
  /-- PCU_READ bit (R368); reset 1 -/
  userRead : Bool := true
  deriving DecidableEq, Repr

/-- PCU (R368–R375). -/
structure Pcu where
  ctr : Vector Ctr 64 := Vector.replicate 64 {}
  /-- The latch of Window N, then of Window S: the counter whose LO was read and its upper 16 bits (R370); reset none -/
  latch : Vector (Option (Fin 64 × BitVec 16)) 2 := Vector.replicate 2 none
  deriving DecidableEq, Repr

end Sys2Proof.Machine
end

