-- ==== Sys2Proof/Machine/State/Security.lean ====
section
/-! DEFINITION. State of SEC: partition table, regions, key slots, root secret, tamper monitor, boot flash. -/

namespace Sys2Proof.Machine

/-- STATE of a key slot (R315). -/
inductive KeyState where
  | empty
  | active
  | expired
  | exhausted
  deriving DecidableEq, Repr

/-- One key slot: its attribute record, its current and its previous key (R315). -/
structure KeySlot where
  /-- STATE; reset empty -/
  st : KeyState := .empty
  /-- DEST; reset 0 -/
  dest : BitVec 8 := 0
  /-- WORLD; reset 0 -/
  secure : Bool := false
  /-- LEN; reset 0 -/
  len : Nat := 0
  /-- KEY_ID; reset 0 -/
  keyId : BitVec 32 := 0
  /-- PREV_KEY_ID; reset 0 -/
  prevKeyId : BitVec 32 := 0
  /-- EXPIRY; reset 0 -/
  expiry : Nat := 0
  /-- PREV_UNTIL; reset 0 -/
  prevUntil : Nat := 0
  /-- USE_LIMIT; reset 0 -/
  useLimit : Nat := 0
  /-- USE_COUNT, saturating at 2^32 − 1; reset 0 -/
  useCount : Nat := 0
  /-- WRITTEN; reset 0 -/
  written : Nat := 0
  /-- The current key; reset zeroed -/
  key : List Byte := []
  /-- The previous key, when PREV is 1; reset none -/
  prev : Option (List Byte) := none
  deriving DecidableEq, Repr

/-- The tamper monitor's battery-domain state (R324–R327). -/
structure Tamper where
  /-- ENABLE (R326); at battery start 0x0 -/
  enable : BitVec 4 := 0
  /-- LEVEL (R326); at battery start 0x0 -/
  level : BitVec 4 := 0
  /-- FILTER0–FILTER3 (R326); at battery start 4 -/
  filter : Vector Nat 4 := Vector.replicate 4 4
  /-- CONFIG_LOCKED (R326); at battery start 0 -/
  locked : Bool := false
  /-- Sticky bits, TAMP0–TAMP3, battery low, temperature, glitch (R327); at battery start 0 -/
  seen : BitVec 7 := 0
  /-- SEC_TAMPER_TIME FIRST_S, 0 if none (R327); at battery start 0 -/
  first : BitVec 32 := 0
  /-- An event is recorded, so FIRST_S stands (R325); at battery start no -/
  recorded : Bool := false
  /-- Levels at the inputs TAMP0–TAMP3 now (R327 TAMP_ACTIVE compares them with LEVEL); reset 0xF. DESIGN CHOICE, log entry 8 -/
  pins : BitVec 4 := 0xF
  /-- Conditions that stand now, in the order of `seen` (R327 CONDITION); reset none -/
  standing : BitVec 7 := 0
  deriving DecidableEq, Repr

/-- A firmware slot of the boot flash (R330–R332). -/
structure FwSlot where
  /-- The image, header first (R328); in `Sec` the maker's, log entry 9 -/
  image : List Byte := []
  /-- The slot was verified whole by SEC_FW_STAGE with LAST (R331); reset no -/
  verified : Bool := false
  /-- The slot was marked invalid (R331); reset no -/
  invalid : Bool := false
  /-- The control record marks the slot trial (R332); reset no -/
  trial : Bool := false
  /-- A trial attempt has failed (R330); reset no -/
  failed : Bool := false
  deriving DecidableEq, Repr

/-- SEC (R304–R336). -/
structure Sec where
  /-- The partition table (R305, SEC_PART_STATUS); reset SEC and AUE S -/
  part : BitVec 18 := 0x2004
  /-- LOCKED (R311); reset 0 -/
  locked : Bool := false
  /-- SEC_REGION_LO and SEC_REGION_HI (R314); reset 0x0000_0007 and 0 -/
  region : BitVec 64 := 7
  /-- SEC_DENY_COUNT (R314), saturating; reset 0 -/
  denials : BitVec 16 := 0
  /-- Key slots (R315); reset empty -/
  key : Vector KeySlot 128 := Vector.replicate 128 {}
  /-- The root secret (R321); at battery start none, ROOT_VALID clear -/
  root : Option (BitVec 256) := none
  /-- ROOT_NEW (R321, R327); reset 0 -/
  rootNew : Bool := false
  tamper : Tamper := {}
  /-- Derivation from the root secret is refused until the next POR (R333); reset no -/
  rootRefused : Bool := false
  /-- OTP rollback counter (R328, R332); reset 0. DESIGN CHOICE, log entry 9 -/
  rollback : Nat := 0
  /-- Firmware slots A and B (R330); reset as the maker left the flash: Config.flashSlot, log entry 9 -/
  slot : Vector FwSlot 2 := Vector.ofFn fun i => { image := Config.flashSlot i.val }
  /-- The boot slot that the control records name (R330); reset A. DESIGN CHOICE, log entry 9 -/
  bootSlot : Fin 2 := 0
  /-- The slot that runs (R331); reset A -/
  running : Fin 2 := 0
  /-- The configuration image (R329, R330); reset as the maker left the flash: Config.flashConfig, log entry 9 -/
  config : List Byte := Config.flashConfig
  /-- Where the next SEC_FW_STAGE must continue (R331); reset 0 -/
  stageAt : Nat := 0
  /-- The TRNG passes its start-up health tests (R336); reset no -/
  trngReady : Bool := false
  /-- CD-TIME cycle at which those tests began (R336); reset 0 -/
  trngFrom : Nat := 0
  deriving DecidableEq, Repr

end Sys2Proof.Machine
end

