-- ==== Sys2Proof/Machine/State/Power.lean ====
section
/-! DEFINITION. State of SRT and CPX: supplies, sensors, straps, reset cause, coarse seconds, boot phase, WARM restart,
imposition, proof; the colophon and the calibration layers. -/

namespace Sys2Proof.Machine

/-- A monitored rail (R386, R392, R393), in the order of R351. -/
structure Rail where
  /-- Voltage now, mV (R392); reset the nominal voltage. DESIGN CHOICE, log entry 10 -/
  now : Nat
  /-- Lowest since the last CLEAR, mV; reset the nominal voltage. DESIGN CHOICE, log entry 10 -/
  low : Nat
  /-- Highest since the last CLEAR, mV; reset the nominal voltage. DESIGN CHOICE, log entry 10 -/
  high : Nat
  /-- Dips since the last CLEAR, saturating; reset 0 -/
  dips : Nat := 0
  /-- WARN: per mille below nominal, mV for VBAT (R393); reset 40, VBAT 2,100 -/
  warn : Nat := 40
  /-- RESET, per mille below nominal (R393); reset 70, VBAT none -/
  rst : Nat := 70
  /-- Below its warning threshold (R388); reset no -/
  below : Bool := false
  /-- CD-TIME cycle at which it was last detected below it (R388, R389); reset 0 -/
  belowAt : Nat := 0
  /-- SUPPLY_DIP_LONG has risen for it in this dip (R352, R389); reset no -/
  long : Bool := false
  deriving DecidableEq, Repr

/-- A junction sensor (R391, R392), units of 1/64 °C. -/
structure Sensor where
  /-- Temperature now; reset 0. DESIGN CHOICE, log entry 10 -/
  now : Int := 0
  /-- Lowest since the last CLEAR; reset 0. DESIGN CHOICE, log entry 10 -/
  low : Int := 0
  /-- Highest since the last CLEAR; reset 0. DESIGN CHOICE, log entry 10 -/
  high : Int := 0
  /-- Threshold crossings since the last CLEAR, saturating; reset 0 -/
  crossings : Nat := 0
  /-- High threshold, °C (R393); reset 135 -/
  high1 : Int := 135
  /-- Above the threshold and not yet 5 °C below it (R391); reset no -/
  hot : Bool := false
  deriving DecidableEq, Repr

/-- The straps as latched (R401). -/
structure Straps where
  /-- STRAP_BOOT[1:0]; reset 0b00. DESIGN CHOICE, log entry 11 -/
  boot : BitVec 2 := 0
  /-- STRAP_HOST selects SPI; reset PCIe. DESIGN CHOICE, log entry 11 -/
  spi : Bool := false
  /-- STRAP_SWIN; reset 0. DESIGN CHOICE, log entry 11 -/
  swin : Bool := false
  /-- STRAP_XO[1:0]; reset 0b00. DESIGN CHOICE, log entry 11 -/
  xo : BitVec 2 := 0
  /-- TEST_EN at POR; reset 0. DESIGN CHOICE, log entry 11 -/
  test : Bool := false
  deriving DecidableEq, Repr

/-- The reset-cause record (R397). -/
structure ResetCause where
  /-- Word 0 [2:0], kind; reset 0 (POR by POR_N) -/
  kind : BitVec 3 := 0
  /-- Word 0 [15:8], fault source or rail; reset 0 -/
  detail : BitVec 8 := 0
  /-- Word 1, coarse seconds at the reset; reset 0 -/
  coarse : BitVec 32 := 0
  /-- Word 2 [15:0], CHIP resets since POR; reset 0 -/
  chips : BitVec 16 := 0
  deriving DecidableEq, Repr

/-- Nominal voltage of each rail, mV (R386); VBAT has a range, 3,000 stands here (log entry 10). -/
def railNominal : Fin 8 → Nat
  | 0 => 750
  | 1 => 800
  | 2 => 900
  | 3 => 1200
  | 4 => 1800
  | 5 => 1800
  | 6 => 3300
  | 7 => 3000

/-- SRT (R386–R403). -/
structure Srt where
  rail : Vector Rail 8 := Vector.ofFn fun r =>
    if r.val = 7 then { now := railNominal r, low := railNominal r, high := railNominal r, warn := 2100, rst := 0 }
    else { now := railNominal r, low := railNominal r, high := railNominal r }
  sensor : Vector Sensor 5 := Vector.replicate 5 {}
  /-- A dip is in progress: EXCURSION is set in every time value (R388, R389); reset no -/
  dip : Bool := false
  /-- CD-TIME cycle at which it began (R389); reset 0 -/
  dipAt : Nat := 0
  /-- CD-TIME cycle at which the latest dip ended (R113); reset none -/
  dipEnded : Option Nat := none
  /-- The reset-cause record (R397) -/
  cause : ResetCause := {}
  /-- The coarse seconds counter (R400); at battery start 0 -/
  coarse : Nat := 0
  /-- Nanoseconds of the coarse second that have passed; at battery start 0 (the CD-AON count below one second) -/
  coarseNs : Nat := 0
  /-- The coarse seconds are valid (R400); at battery start invalid -/
  coarseValid : Bool := false
  /-- VBAT is present (R387); reset present. DESIGN CHOICE, log entry 10 -/
  vbat : Bool := true
  straps : Straps := {}
  /-- Resets asserted now (R394, R395): a POR, a PIN reset, a CHIP reset; reset none -/
  held : BitVec 3 := 0
  /-- At the last POR TEST_EN was high and STRAP_BOOT was latched as 0b11 (R81, R333, R401); reset no. DESIGN CHOICE, log
  entry 11 -/
  factoryPor : Bool := false
  deriving DecidableEq, Repr

/-- Why the engine is in reset (R394), or how far its boot has come (R403). -/
inductive Phase where
  | inReset          -- POR, PIN or CHIP reset asserted
  | starting         -- reset ended, straps latched, system PLL not locked (step 1)
  | rom              -- CD-SYS and CD-TIME run, the ROM boots (steps 2 and 3)
  | firmware         -- firmware started; the job list runs on CQS (steps 4 to 6)
  | ready            -- FW_READY set (step 7)
  | failed           -- BOOT_FAILED: FW_READY never sets (R330)
  deriving DecidableEq, Repr

/-- A WARM restart in progress (R70, R407). -/
structure Warm where
  /-- A job caused it: DEV_FW_RESTART, or SEC_FW_COMMIT with RESTART 1 (R70, R332); else a fault of level 3 -/
  byJob : Bool
  /-- RELOAD (R407), or a restart onto a newly committed slot (R332) -/
  reload : Bool
  /-- Impressions begun when it started (RESULT0 of R70 counts from here) -/
  since : Nat
  /-- No valid image was found: BOOT_FAILED has risen, and the restart does not end (R407) -/
  stuck : Bool := false
  deriving DecidableEq, Repr

/-- A proof in progress (R367). -/
structure Proof where
  units  : BitVec 6
  maxImp : Nat
  since  : Nat
  /-- units reported skipped: not idle, or configured while under proof -/
  skipped : BitVec 6
  deriving DecidableEq, Repr

/-- The job list of the configuration image while firmware runs it (R329). -/
structure JobList where
  /-- The body of the image -/
  body : List Byte
  /-- COUNT -/
  count : Nat
  /-- Index of the next descriptor -/
  next : Nat := 0
  /-- Status of the job before, once it has completed; none before the first job and while one is in progress -/
  status : Option Nat := none
  deriving DecidableEq, Repr

/-- CPX (R17, R27–R41, R403–R407). -/
structure Cpx where
  /-- Boot phase (R403); reset: straps latched, the system PLL starts -/
  phase : Phase := .starting
  /-- Imposition in force (R37, R52); reset FOLIO -/
  imposition : Imposition := .folio
  /-- A pending DEV_SET_IMPOSITION (R41); reset none -/
  nextImposition : Option Imposition := none
  /-- Its second boundary fell in a WARM restart, so it completes DEFERRED (R406); reset no -/
  impositionLate : Bool := false
  /-- WARM restart in progress (R70); reset none -/
  warm : Option Warm := none
  /-- A WARM restart is due at the next impression boundary: its RELOAD (R407); reset none -/
  warmDue : Option Bool := none
  /-- A DEV_CHIP_RESET asserts at the next impression boundary (R398); reset no -/
  chipResetDue : Bool := false
  /-- Impressions begun since the sequencer started (the model's own count, for R70 and R367); reset 0 -/
  impressions : Nat := 0
  /-- Proof in progress (R367); reset none -/
  proof : Option Proof := none
  /-- SHA-384 of the firmware image that runs, its boot hash (R407); reset none -/
  bootHash : Option (BitVec 384) := none
  /-- The firmware image held in SRAM (R407); reset none -/
  image : List Byte := []
  /-- The firmware came from the host, not from a slot (R404); reset no -/
  hostLoaded : Bool := false
  /-- The configuration job list in progress (R329, R330); reset none -/
  list : Option JobList := none
  deriving DecidableEq, Repr

/-- The ordering configurations (R5). -/
inductive Part where
  | lt2460
  | lt2452
  | lt2436
  deriving DecidableEq, Repr

/-- The colophon (R77). -/
structure Col where
  /-- COL_PART, COL_FUSE_UNITS and COL_FUSE_LANES follow the part (R5, R77); reset LT2460-FA. DESIGN CHOICE, log entry 12 -/
  part : Part := .lt2460
  /-- COL_FWREV has become valid (R77); reset no -/
  fwRevValid : Bool := false
  deriving DecidableEq, Repr

/-- A user calibration item (R376, R381). -/
structure CalItem where
  item  : Nat
  value : Int
  unc   : Nat
  deriving DecidableEq, Repr

/-- A committed copy of the user layer (R384). -/
structure CalCopy where
  seq   : Nat
  keyId : BitVec 32
  items : List CalItem
  tag   : BitVec 256
  deriving DecidableEq, Repr

/-- The calibration layers (R376–R385). -/
structure Cal where
  /-- The user layer in force, rising by item (R381); reset empty -/
  user : List CalItem := []
  /-- Copies at 0x0025_0000 and 0x0025_8000 of the boot flash (R384); reset none. DESIGN CHOICE, log entry 9 -/
  copy : Vector (Option CalCopy) 2 := Vector.replicate 2 none
  /-- A commit in progress: the copy it writes and what it writes (R384); reset none -/
  writing : Option (Fin 2 × CalCopy) := none
  /-- Impressions begun when that write began (R384); reset 0 -/
  writingAt : Nat := 0
  /-- The CRC check of R379 passed; reset no: not yet computed -/
  crcOk : Bool := false
  /-- The CRC computed at boot (R380); reset 0 -/
  crc : BitVec 32 := 0
  /-- The user layer holds writes not yet committed (R383); reset no -/
  uncommitted : Bool := false
  /-- The boot load of R385 failed (R383); reset no -/
  loadFailed : Bool := false
  deriving DecidableEq, Repr

end Sys2Proof.Machine
end

