-- ==== Sys2Proof/Machine/State/Output.lean ====
section
/-! DEFINITION. State of FSO and PEU: APLLs and outputs, pulse, code and message generators, event inputs and the
event FIFO. Phases are counted in units of 0.5 ps, VCO frequencies in units of 2^-16 Hz. -/

namespace Sys2Proof.Machine

/-- What the loop of an APLL does (R178, R180, R195, R198). -/
inductive ApllLoop where
  | locked
  | relockNominal   -- it relocks on its nominal, which becomes the anchor at lock
  | relockAnchor    -- it relocks on its anchor after a loss of lock, a clock fault or a BLOCK reset
  deriving DecidableEq, Repr

/-- A large-path retune (R195) in progress, with what an abort restores (R199). -/
structure LargeRetune where
  /-- VCO_FREQ and RAMP_PPM_S before the commit -/
  vco    : Nat
  ramp   : Nat
  /-- CD-TIME cycle of the commit -/
  commit : Nat
  /-- relock time in µs, once lock is declared -/
  relock : Option Nat := none
  /-- outputs restarted, once step 4 is done -/
  restarted : Option (BitVec 24) := none
  deriving DecidableEq, Repr

/-- One APLL (R178–R197). -/
structure Apll where
  /-- SOURCE; reset 0xFF -/
  source : Option (Fin 8) := none
  /-- LOOP_BW_KHZ; reset 200 -/
  loopBw : Nat := 200
  /-- Nominal VCO frequency, units of 2^-16 Hz; reset 10 GHz -/
  vco : Nat := 655360000000000
  /-- RAMP_PPM_S; reset 10 -/
  ramp : Nat := 10
  /-- Anchor (R179), units of 2^-16 Hz; reset 10 GHz -/
  anchor : Nat := 655360000000000
  /-- The loop; reset: it locks during boot -/
  loop : ApllLoop := .relockNominal
  /-- Target of a small-path ramp in progress (R194); reset none -/
  rampTo : Option Nat := none
  /-- The nominal and RAMP_PPM_S before that ramp, which an abort restores (R199); reset none -/
  rampFrom : Option (Nat × Nat) := none
  /-- How far the word stands from its source's control value while it moves from one source to another, units of 0.001 ppt
  (R181); reset 0 -/
  yRest : Int := 0
  /-- What the VCO has turned since its dividers were last restarted (R183, R195), units of 2^-50 VCO cycles; reset 0 -/
  turns : Nat := 0
  /-- Lock is to be followed by the restart of step 4 (R195, R198, R199); reset no -/
  restartDue : Bool := false
  /-- That restart waits until lock has held for 1 ms (R198); reset no -/
  afterLoss : Bool := false
  /-- CD-TIME cycle at which lock was last declared; reset 0 -/
  lockedAt : Nat := 0
  /-- A retune has timed out and its frequency has not locked since (R196); reset no -/
  timedOut : Bool := false
  /-- A large-path retune in progress; reset none -/
  large : Option LargeRetune := none
  deriving DecidableEq, Repr

/-- States of an output (R186). -/
inductive OutState where
  | highz
  | low
  | running
  deriving DecidableEq, Repr

/-- What an OUT_CONFIG gives an output (R188). -/
structure OutCfg where
  apll : Fin 4
  format : Fin 3
  divider : Nat
  coarse : Nat
  fine : Nat
  align : Bool
  swingMv : Nat
  drive : Fin 4
  slow : Bool
  alignSlew : Nat
  deriving DecidableEq, Repr

/-- One output (R183–R191). -/
structure Output where
  /-- APLL; reset 0 -/
  apll : Fin 4 := 0
  /-- FORMAT; reset 0 -/
  format : Fin 3 := 0
  /-- DIVIDER; reset 1,000 -/
  divider : Nat := 1000
  /-- COARSE_HC; reset 0 -/
  coarse : Nat := 0
  /-- FINE; reset 0 -/
  fine : Nat := 0
  /-- ALIGN; reset 0 -/
  align : Bool := false
  /-- SWING_MV; reset 400 -/
  swingMv : Nat := 400
  /-- DRIVE; reset 1 -/
  drive : Fin 4 := 1
  /-- SLEW slow; reset 0 -/
  slow : Bool := false
  /-- ALIGN_SLEW_PPB; reset 100 -/
  alignSlew : Nat := 100
  /-- CEILING_HZ; reset 1,700,000,000, and 270,000,000 for OUTC0–OUTC7 -/
  ceiling : Nat := 1700000000
  /-- State (R186); reset HIGHZ -/
  st : OutState := .highz
  /-- RUNNING, and held low by a retune, a loss of lock or a reset (R195, R198); reset no -/
  held : Bool := false
  /-- OUT_ENABLE started it while its APLL was held: it starts at the restart (R187); reset no -/
  startDue : Bool := false
  /-- Staged divider (R188); reset none -/
  staged : Option Nat := none
  /-- DIVIDER before the large retune in progress, which an abort restores (R199); reset none -/
  oldDivider : Option Nat := none
  /-- Accumulated phase steps (R184), units of 0.5 ps; reset 0 -/
  steps : Int := 0
  /-- Unapplied remainder of an OUT_PHASE_STEP (R189); reset 0 -/
  left : Int := 0
  /-- STEP_MAX of the stepper; reset 100 -/
  stepMax : Nat := 100
  /-- SPACING of the stepper; reset 1 -/
  spacing : Nat := 1
  /-- Divider cycles since the running step began that its next substep waits for (R189): those of the substeps done, with what
  the VCO had turned at the start of the step; reset 0 -/
  paced : Nat × Nat := (0, 0)
  /-- Move of the configured delay still to be applied by the stepper (R188, R382); reset 0 -/
  delayLeft : Int := 0
  /-- Alignment correction still to be applied (R191); reset 0 -/
  aligning : Int := 0
  /-- Alignment corrections applied (R191); reset 0 -/
  trim : Int := 0
  /-- CD-TIME cycle up to which ALIGN_SLEW_PPB has been used; reset 0 -/
  alignAt : Nat := 0
  /-- First rising edge since it last started, ps of CD-TIME (R186); reset none -/
  rose : Option ℚ := none
  /-- Falling edge that ended its last high phase, ps of CD-TIME (R186, R195, R198); reset none -/
  fell : Option ℚ := none
  /-- A configuration given while it was held, which applies at its restart (R197); reset none -/
  deferred : Option OutCfg := none
  deriving DecidableEq, Repr

/-- FSO (R178–R200). -/
structure Fso where
  apll : Vector Apll 4 := Vector.replicate 4 {}
  out : Vector Output 24 := Vector.ofFn fun o => if o.val < 16 then {} else { ceiling := 270000000 }
  deriving DecidableEq, Repr

/-- States of a generator (R201): HIGHZ, LOW or IDLE, RUNNING. -/
inductive GenState where
  | highz
  | idle
  | running
  deriving DecidableEq, Repr

/-- One PPS output (R206). Edges are kept on the CD-TIME scale, in ps. -/
structure Pps where
  /-- DOMAIN; reset 4 -/
  view : Fin 5 := 4
  /-- STATE; reset HIGHZ -/
  st : GenState := .highz
  /-- GATE; reset 1 -/
  gate : Fin 3 := 1
  /-- PERIOD_S; reset 1 -/
  period : Nat := 1
  /-- PHASE_S; reset 0 -/
  phase : Nat := 0
  /-- WIDTH_NS; reset 100,000,000 -/
  widthNs : Nat := 100000000
  /-- DELAY_PS; reset 0 -/
  delayPs : Int := 0
  /-- POLARITY; reset 0 -/
  inverted : Bool := false
  /-- The last pulse emitted: its on-time edge (R204, R207), ps; reset none -/
  last : Option Int := none
  /-- Its other edge, or where the pulse was cut off; reset none -/
  lastEnd : Option Int := none
  /-- POLARITY of that pulse (R206, R208); reset 0 -/
  lastInverted : Bool := false
  /-- No pulse starts at a crossing before this CD-TIME cycle (R208); reset 0 -/
  startFrom : Nat := 0
  deriving DecidableEq, Repr

/-- One IRIG-B output (R210–R213). -/
structure Irig where
  /-- DOMAIN; reset 4 -/
  view : Fin 5 := 4
  /-- STATE; reset HIGHZ -/
  st : GenState := .highz
  /-- GATE; reset 0 -/
  gate : Fin 3 := 0
  /-- MODULATION Manchester; reset 0 -/
  manchester : Bool := false
  /-- EXPRESSION; reset 4 -/
  expression : Fin 8 := 4
  /-- EXTENSION; reset 1 -/
  extension : Bool := true
  /-- DST; reset 0 -/
  dst : BitVec 2 := 0
  /-- LOCAL_OFFSET, minutes; reset 0 -/
  localOffset : Int := 0
  /-- DELAY_PS; reset 0 -/
  delayPs : Int := 0
  /-- Start of the last frame on the CD-TIME scale, ps (R204); reset none -/
  last : Option Int := none
  /-- The last frame, unless it was cut off (R205, R210): bit i is the data element of position i, 0 at Pr and P0–P9
  (R211); reset none -/
  frame : Option (BitVec 100) := none
  /-- MODULATION of that frame (R213); reset 0 -/
  frameManchester : Bool := false
  deriving DecidableEq, Repr

/-- A time-of-day message on the line (R214): where it began on the CD-TIME scale, ps, its rate and its bytes. -/
structure TodLine where
  start : Int
  baud  : Nat
  bytes : List Byte
  deriving DecidableEq, Repr

/-- One time-of-day output (R214–R216). -/
structure Tod where
  /-- DOMAIN; reset 4 -/
  view : Fin 5 := 4
  /-- STATE; reset HIGHZ -/
  st : GenState := .highz
  /-- GATE; reset 1 -/
  gate : Fin 3 := 1
  /-- BAUD; reset 115,200 -/
  baud : Nat := 115200
  /-- START_DELAY_MS; reset 10 -/
  startDelayMs : Nat := 10
  /-- SEQ of the next message; reset 0 -/
  seq : BitVec 8 := 0
  /-- CD-TIME cycle of the last labelled crossing (R204); reset none -/
  last : Option Nat := none
  /-- Crossings that wait for their message: the second labelled and its CD-TIME cycle; reset none -/
  due : List (Nat × Nat) := []
  /-- The last message, in progress or ended (R214); reset none -/
  line : Option TodLine := none
  /-- What the line has carried before it, oldest first: whole messages, and the bytes of one cut off; reset none -/
  sent : List (List Byte) := []
  deriving DecidableEq, Repr

/-- One event input (R217–R220). -/
structure EvtInput where
  /-- DOMAIN; reset 4 -/
  view : Fin 5 := 4
  /-- ENABLE; reset 0 -/
  enable : Bool := false
  /-- EDGE; reset 0 -/
  edge : Fin 3 := 0
  /-- FILTER_NS; reset 0 -/
  filterNs : Nat := 0
  /-- Count of accepted edges (R219 SEQ); reset 0 -/
  seq : BitVec 16 := 0
  /-- Blind since its previous record (R219, R222); reset 0 -/
  blind : Bool := false
  /-- Its hardware queue, oldest first (R218); reset empty -/
  queue : List (BitVec 256) := []
  deriving DecidableEq, Repr

/-- PEU (R201–R222). -/
structure Peu where
  pps : Vector Pps 4 := Vector.replicate 4 {}
  irig : Vector Irig 2 := Vector.replicate 2 {}
  tod : Vector Tod 2 := Vector.replicate 2 {}
  evt : Vector EvtInput 16 := Vector.replicate 16 {}
  /-- The event FIFO, oldest first (R218); reset empty -/
  fifo : List (BitVec 256) := []
  /-- THRESHOLD (R220); reset 1 -/
  threshold : Nat := 1
  /-- Drop count, saturating (R218, R221); reset 0 -/
  drops : Nat := 0
  /-- OVERFLOW, sticky (R218); reset 0 -/
  overflow : Bool := false
  /-- Inputs blind since the last CLEAR (R221); reset 0 -/
  blindSeen : BitVec 16 := 0
  deriving DecidableEq, Repr

end Sys2Proof.Machine
end

