-- ==== Sys2Proof/Machine/State/Lane.lean ====
section
/-! DEFINITION. State of NLU: the lanes with their bring-up, equalisation, latency and PRBS, and the recovered-clock
slots (R223–R242). -/

namespace Sys2Proof.Machine

/-- States of a lane (R227). -/
inductive LaneState where
  | down
  | low
  | learn
  | step
  | up
  | recover
  | prbs
  deriving DecidableEq, Repr

/-- Test patterns of a lane (R237). -/
structure Prbs where
  /-- MODE: 1 generator, 2 checker, 3 both; reset 0 -/
  mode : Fin 4 := 0
  /-- PATTERN; reset 4 -/
  pattern : Fin 5 := 4
  /-- RATE; reset 2 -/
  rate : Fin 3 := 2
  /-- INVERT; reset 0 -/
  invert : BitVec 2 := 0
  /-- INJECT; reset 0 -/
  inject : Fin 3 := 0
  /-- BURST_LEN; reset 1 -/
  burst : Nat := 1
  /-- INTERVAL; reset 0 -/
  interval : Nat := 0
  /-- Bits inverted by the generator since its configuration; reset 0 -/
  injected : Nat := 0
  /-- Bits counted up to `syncAt` (R238); reset 0 -/
  bits : Nat := 0
  /-- Errors counted; reset 0 -/
  errors : Nat := 0
  /-- Synchronised since this CD-TIME cycle; reset no -/
  syncAt : Option Nat := none
  /-- Resynchronisations, saturating; reset 0 -/
  resyncs : Nat := 0
  deriving DecidableEq, Repr

/-- One lane: LANE_CONFIG (R226), LANE_EQ_CONFIG (R234), its bring-up and its status (R241). -/
structure Lane where
  /-- MEDIUM; reset 0 -/
  medium : Fin 3 := 0
  /-- RATE_MASK; reset 0x0D -/
  rateMask : BitVec 4 := 0xD
  /-- FEC_25G; reset 2 -/
  fec25 : Fin 3 := 2
  /-- FEC_10G; reset 0 -/
  fec10 : Fin 3 := 0
  /-- AN_1G; reset 1 -/
  an1g : Bool := true
  /-- TXREF; reset 0 -/
  txref : Fin 3 := 0
  /-- TXREF_FREQ 161.132 812 5 MHz; reset 0 -/
  txref161 : Bool := false
  /-- POLARITY; reset 0 -/
  polarity : BitVec 2 := 0
  /-- MOD_BUS; reset 0xFF -/
  modBus : Option (Fin 4) := none
  /-- MOD_MUX_ADDR; reset 0 -/
  muxAddr : Nat := 0
  /-- MOD_MUX_CHAN; reset 0 -/
  muxChan : Fin 8 := 0
  /-- TRAIN_TIMEOUT_MS; reset 500 -/
  trainMs : Nat := 500
  /-- STEP_TIMEOUT_MS; reset 100 -/
  stepMs : Nat := 100
  /-- QUAL_MS; reset 10 -/
  qualMs : Nat := 10
  /-- QUAL_ERRORS; reset 0 -/
  qualErrors : Nat := 0
  /-- RELOCK_MS; reset 100 -/
  relockMs : Nat := 100
  /-- CTLE_MODE adaptive; reset 1 -/
  adaptive : Bool := true
  /-- CTLE_CODE; reset 12 -/
  ctle : Nat := 12
  /-- DENSITY_MIN; reset 16 -/
  densityMin : Nat := 16
  /-- TX_SWING_MV; reset 800 -/
  txSwing : Nat := 800
  /-- TX_PRE; reset 0 -/
  txPre : Nat := 0
  /-- TX_POST; reset 4 -/
  txPost : Nat := 4
  /-- LOS_MV; reset 80 -/
  losMv : Nat := 80
  /-- State (R227); reset DOWN -/
  st : LaneState := .down
  /-- Mode: 0 1000BASE-X, 1 SGMII, 2 10GBASE-R, 3 25GBASE-R; reset 0 -/
  mode : Fin 4 := 0
  /-- FEC running: 0 none, 1 Clause 74, 2 RS-FEC; reset 0 -/
  fec : Fin 3 := 0
  /-- Modes removed from the candidate set, RATE_MASK order (R227); reset none -/
  removed : BitVec 4 := 0
  /-- Those of them that a failed step removed (R230); reset none -/
  failed : BitVec 4 := 0
  /-- Highest mode qualified in this bring-up (R230); reset none -/
  qualified : Option (Fin 4) := none
  /-- STEP requalifies that mode after a failed step (R230); reset no -/
  fallingBack : Bool := false
  /-- Mode of the previous UP (R240); reset none -/
  lastUp : Option (Fin 4) := none
  /-- CD-TIME cycle of the last entry into UP (R241); reset 0 -/
  upAt : Nat := 0
  /-- LOS (R235); reset asserted. DESIGN CHOICE, log entry 18 -/
  los : Bool := true
  /-- LOL (R235); reset asserted. DESIGN CHOICE, log entry 18 -/
  lol : Bool := true
  /-- Comma alignment or block lock stands (R229, R236); reset 0 -/
  aligned : Bool := false
  /-- FEC lock stands (R229, R236); reset 0 -/
  fecLock : Bool := false
  /-- CD-TIME cycle at which the conditions of a qualification were last complete, or its window last restarted (R229); reset 0 -/
  winAt : Nat := 0
  /-- CD-TIME cycle at which the stage began, moved on by the WARM restarts in it (R227, R242); reset 0 -/
  stageAt : Nat := 0
  /-- Slip position (R236); reset 0 -/
  slip : Nat := 0
  /-- LAT_VALID (R236); reset 0 -/
  latValid : Bool := false
  /-- Measured receive and transmit latency, ps (R245, R262); reset 0 -/
  rxPs : Int := 0
  /-- See `rxPs`; reset 0 -/
  txPs : Int := 0
  /-- CD-TIME cycle of the last latency event (R236); reset 0 -/
  latEventAt : Nat := 0
  /-- CD-TIME cycle at which LAT_VALID last set (R250); reset 0 -/
  latAt : Nat := 0
  /-- CD-TIME cycle at which it last cleared (R250); reset 0 -/
  latLostAt : Nat := 0
  /-- The latencies and the factory item that applied until then (R250); reset none -/
  latWas : Option (Int × Int × Nat) := none
  /-- Measurements since the lane last left DOWN, saturating (R265); reset 0 -/
  measures : Nat := 0
  /-- FROZEN (R233); reset set, with LOS. DESIGN CHOICE, log entry 18 -/
  frozen : Bool := true
  /-- Transmit PLL locked (R225); reset 1. DESIGN CHOICE, log entry 18 -/
  txLocked : Bool := true
  /-- MODULE_READ (R228); reset 0 -/
  moduleRead : Bool := false
  /-- Module nominal rate, units of 100 MBd (R241); reset 0 -/
  moduleRate : Nat := 0
  /-- CTLE code in use (R232); reset 12 -/
  code : Nat := 12
  /-- CD-TIME cycle of its last change; reset 0 -/
  codeAt : Nat := 0
  /-- CD-TIME cycle up to which its moves are settled; reset 0 -/
  codeSeen : Nat := 0
  /-- Last code used at 1.25, 10.3125 and 25.78125 GBd (R232); reset none -/
  rateCode : Vector (Option Nat) 3 := Vector.replicate 3 none
  /-- Reason (R241); reset 0 -/
  reason : Fin 8 := 0
  /-- Entries into RECOVER since the lane left DOWN, saturating (R241); reset 0 -/
  recovers : Nat := 0
  /-- Qualification errors of the last completed window, saturating (R241); reset 0 -/
  qualErrs : Nat := 0
  /-- A RECOVER that waits for the end of a WARM restart: its fault source (R242); reset none -/
  recoverDue : Option (Fin 256) := none
  /-- Its transmit PLL has relocked during a WARM restart, so it re-enters LOW after it (R225, R242); reset no -/
  lowDue : Bool := false
  prbs : Prbs := {}
  deriving DecidableEq, Repr

/-- NLU (R223–R242). -/
structure Nlu where
  lane : Vector Lane 24 := Vector.replicate 24 {}
  /-- Recovered-clock slots (R239); reset unbound -/
  slot : Vector (Option (Fin 24)) 4 := Vector.replicate 4 none
  /-- Lanes whose transmitters LANE_ENABLE has had driven (R227, R402); reset none -/
  driven : BitVec 24 := 0
  /-- Module-management buses that a lane with MOD_BUS has accessed (R226, R402); reset none -/
  modUsed : BitVec 4 := 0
  deriving DecidableEq, Repr

end Sys2Proof.Machine
end

