-- ==== Sys2Proof/Machine/State/Packet.lean ====
section
/-! DEFINITION. State of TPE and AUE: ports, galley, PTP instances, NTP server and clients, NTS, client ledger, PRP
pairs, scheduler slots (R244–R303, R39, R40). Times on the wire are counted in units of 2^-16 ns. -/

namespace Sys2Proof.Machine

/-- A host frame that waits for its start on a front port (R259, R272). -/
structure HostFrame where
  handle : BitVec 16
  report : Bool
  bytes  : Nat
  /-- Sequence number of the RCT that it carries on a PRP pair (R285) -/
  rct    : Option (BitVec 16) := none
  deriving DecidableEq, Repr

/-- What the engine sends to the host on the uplink (R272): TYPE, front port, handle, time, inner frame. -/
structure ToHost where
  /-- The outer header: HOST_MAC and the uplink's MAC -/
  dst    : BitVec 48 := 0
  src    : BitVec 48 := 0
  type   : Fin 3
  port   : Nat
  handle : BitVec 16
  time   : BitVec 128
  inner  : Option Frame
  deriving DecidableEq, Repr

/-- One port: its timestamp point (R254), asymmetry (R252), galley settings (R264), port form (R271), NTP limits (R296),
counters (R265) and ESMC (R302). -/
structure TpePort where
  /-- ENABLE; reset 1 -/
  enable : Bool := true
  /-- HOST_DOMAIN; reset 4 -/
  hostView : Fin 5 := 4
  /-- FALLBACK_SERVICE; reset 0 -/
  fbService : BitVec 2 := 0
  /-- REF_USE_FALLBACK; reset 0 -/
  refUseFallback : Bool := false
  /-- ASYM_PS; reset 0 -/
  asymPs : Int := 0
  /-- ASYM_UNC_PS; reset 0 -/
  asymUnc : Nat := 0
  /-- MAX_REBUILDS; reset 2 -/
  maxRebuilds : Nat := 2
  /-- PORT_DEPTH; reset 320 -/
  depth : Nat := 320
  /-- LEAD_NS; reset 40,000 -/
  leadNs : Nat := 40000
  /-- GUARD_NS; reset 200 -/
  guardNs : Nat := 200
  /-- RESERVE_LIMIT_NS; reset 250,000 -/
  reserveNs : Nat := 250000
  /-- HOST_MAX_BYTES; reset 1,522 -/
  hostMax : Nat := 1522
  /-- HOST_PATH; reset 0 -/
  hostPath : Fin 3 := 0
  /-- ESMC_MODE; reset 0 -/
  esmcMode : BitVec 2 := 0
  /-- MAC; reset 0 -/
  mac : BitVec 48 := 0
  /-- ESMC_DPLL; reset 0 -/
  esmcDpll : Fin 8 := 0
  /-- QL_LOCKED; reset 0x2 -/
  qlLocked : BitVec 4 := 0x2
  /-- QL_HOLD; reset 0xB -/
  qlHold : BitVec 4 := 0xB
  /-- ESMC_FIXED; reset 0 -/
  esmcFixed : Bool := false
  /-- PTP_LIMIT_KPPS; reset 40,000 -/
  ptpLimit : Nat := 40000
  /-- IPV4; reset 0 -/
  ipv4 : BitVec 32 := 0
  /-- IPV6; reset 0 -/
  ipv6 : BitVec 128 := 0
  /-- NEXT_HOP_MAC; reset 0 -/
  nextHop : BitVec 48 := 0
  /-- HOST_MAC; reset 0 -/
  hostMac : BitVec 48 := 0
  /-- MONITOR; reset 1 -/
  monitor : Bool := true
  /-- ACTION kiss code RATE; reset 1 -/
  kiss : Bool := true
  /-- BURST; reset 8 -/
  burst : Nat := 8
  /-- RATE; reset 64 -/
  rate : Nat := 64
  /-- KOD_MIN_S; reset 16 -/
  kodMin : Nat := 16
  /-- PORT_LIMIT_KPPS; reset 40,000 -/
  ntpLimit : Nat := 40000
  /-- Timing frames in the port's input queue (R270); reset 0 -/
  queue : Nat := 0
  /-- PTP frames and NTP requests received in the second in progress (R269); reset 0 -/
  ptpSeen : Nat := 0
  /-- See `ptpSeen`; reset 0 -/
  ntpSeen : Nat := 0
  /-- CD-TIME cycle of the last ESMC information PDU received, or of ESMC_MODE bit 0 set (R302); reset 0 -/
  esmcHeardAt : Nat := 0
  /-- CD-TIME cycle of the last ESMC information PDU sent (R302); reset none -/
  esmcSentAt : Option Nat := none
  /-- Counters RX_FALLBACK, LAUNCHED, REBUILD_AUTH, REBUILD_LATENCY, REBUILD_STEP, DROP_LIMIT, DROP_FULL, DROP_LINK, SKEW,
  HOST_SENT (R265), saturating; reset 0 -/
  ctr : Vector Nat 10 := Vector.replicate 10 0
  /-- Frames discarded by the classifier (R268, R272); reset 0 -/
  discarded : Nat := 0
  /-- Frames sent to the host from the port (R284); reset 0 -/
  toHost : Nat := 0
  /-- Frames sent on the port from the host (R284); reset 0 -/
  fromHost : Nat := 0
  /-- CD-TIME cycle at which the host frame on the line has ended with its gap (R256, R259); reset 0 -/
  hostEnd : Nat := 0
  /-- Host frames that wait for their start, oldest first (R259); reset none -/
  hostQueue : List HostFrame := []
  /-- Received SSM code (R302); reset 0. DESIGN CHOICE, log entry 19 -/
  ssm : BitVec 4 := 0
  /-- Received enhanced SSM code, 0xFF if none (R284); reset 0xFF -/
  essm : Byte := 0xFF
  /-- The ESMC timeout stands (R284, R302); reset 0 -/
  esmcTimeout : Bool := false
  /-- ESMC PDUs received (R284); reset 0 -/
  esmcRx : Nat := 0
  /-- ESMC PDUs sent, with the code: (event, SSM), oldest first (R302); reset none -/
  esmcSent : List (Bool × BitVec 4) := []
  /-- SSM code last transmitted (R284, R302); reset none -/
  ssmSent : Option (BitVec 4) := none
  /-- Supervision frames counted (R285); reset 0 -/
  supRx : Nat := 0
  /-- Supervision frames sent (R285); reset 0 -/
  supTx : Nat := 0
  /-- Their destination addresses, oldest first (R285); reset none -/
  supSent : List (BitVec 48) := []
  deriving DecidableEq, Repr

/-- PTP message types (R277, R282). -/
inductive PtpType where
  | sync
  | followUp
  | delayReq
  | delayResp
  | pdelayReq
  | pdelayResp
  | pdelayRespFollowUp
  | announce
  | signaling
  deriving DecidableEq, Repr

/-- messageType of IEEE 1588-2019 (R282 names 0x0, 0x9 and 0xB). PRESUMED beyond those, log entry 20 -/
def PtpType.code : PtpType → Nat
  | .sync => 0x0
  | .delayReq => 0x1
  | .pdelayReq => 0x2
  | .pdelayResp => 0x3
  | .followUp => 0x8
  | .delayResp => 0x9
  | .pdelayRespFollowUp => 0xA
  | .announce => 0xB
  | .signaling => 0xC

/-- What a galley frame is (R255), with its contents. -/
inductive FrameKind where
  | ptp (inst : Fin 8) (type : PtpType) (msg : PtpMsg)
  | forwarded (inst : Fin 8) (type : PtpType) (msg : PtpMsg) (ingress : Nat) (inPort : Fin 24) (correct : Bool)
  | signaling (inst : Fin 8) (msg : PtpMsg) (msgType : BitVec 4) (action : GrantAction)
  | ntpResponse (msg : NtpMsg) (cookies : List (List Byte))
  | ntpRequest (client : Fin 8) (msg : NtpMsg)
  deriving DecidableEq, Repr

/-- The AUE work of a galley frame: none, a PTP signature under a slot and keyID, an NTS seal under a key. -/
inductive FrameAuth where
  | none
  | ptp (slot : Nat) (keyId : BitVec 32)
  | nts (key : List Byte)
  deriving DecidableEq, Repr

/-- Event messages of PTP (R277). -/
def isEvent : PtpType → Bool
  | .sync | .delayReq | .pdelayReq | .pdelayResp => true
  | _ => false

/-- A frame that the galley holds (R255–R262). -/
structure GalleyFrame where
  id : Nat
  port : Fin 24
  /-- The time in which its launch is written -/
  view : Fin 5
  kind : FrameKind
  auth : FrameAuth
  /-- Launch time, units of 10^-33 ns -/
  launch : Nat
  /-- KIND FALLBACK: reserved while LAT_VALID is 0 (R250) -/
  fallback : Bool
  bytes : Nat
  /-- The Sync that a Follow_Up belongs to (R263) -/
  follows : Option Nat := none
  rebuilds : Nat := 0
  /-- AUE transaction in progress -/
  tx : Option Nat := none
  /-- Authenticated, or in need of none -/
  complete : Bool := false
  committed : Bool := false
  /-- Destination address, 0 for multicast -/
  dst : BitVec 128 := 0
  /-- Its destination MAC address and its 802.1Q tag, VLAN ID and priority (R271, R275, R294) -/
  da : BitVec 48 := 0
  tag : Option (BitVec 12 × Fin 8) := none
  /-- Latency from the marker to the ball by which its egress was predicted, ps (R256, R260) -/
  predicted : Int := 0
  /-- Sequence number of the RCT that it carries on a PRP pair (R285) -/
  rct : Option (BitVec 16) := none
  deriving DecidableEq, Repr

/-- Port states of PTP (R276). -/
inductive PtpState where
  | initializing
  | faulty
  | disabled
  | listening
  | preMaster
  | master
  | passive
  | uncalibrated
  | slave
  | calibrating
  | passiveSlave
  deriving DecidableEq, Repr

/-- PTP_INSTANCE_CONFIG (R274) and PTP_UNICAST_POLICY (R282). -/
structure PtpInst where
  /-- ENABLE; reset 0 -/
  enable : Bool := false
  /-- PROFILE; reset 0 -/
  profile : Fin 7 := 0
  /-- ROLE; reset 0 -/
  role : Fin 3 := 0
  /-- STEP two-step; reset 2 -/
  twoStep : Bool := true
  /-- DOMAIN_NUMBER; reset 0 -/
  domainNumber : Nat := 0
  /-- TD; reset 4 -/
  view : Fin 5 := 4
  /-- REF; reset 0xFF -/
  ref : Option (Fin 32) := none
  /-- PRIORITY1; reset 128 -/
  priority1 : Nat := 128
  /-- PRIORITY2; reset 128 -/
  priority2 : Nat := 128
  /-- AUTH; reset 0 -/
  auth : Fin 3 := 0
  /-- SPP; reset 0 -/
  spp : Byte := 0
  /-- CLOCK_ID; reset 0 -/
  clockId : BitVec 64 := 0
  /-- TX_SLOT; reset 0 -/
  txSlot : Nat := 0
  /-- TC_AUTH_POLICY; reset 0 -/
  tcPolicy : Bool := false
  /-- CLASS_HOLD_OUT; reset 150 -/
  classHoldOut : Nat := 150
  /-- OPTIONS [0]; reset 0 -/
  assurance : Bool := false
  /-- TX_KEY_ID; reset 0 -/
  txKeyId : BitVec 32 := 0
  /-- VERIFY_SLOT0–3; reset 0xFF -/
  verifySlot : Vector (Option (Fin 128)) 4 := Vector.replicate 4 none
  /-- VERIFY_ID0–3; reset 0 -/
  verifyId : Vector (BitVec 32) 4 := Vector.replicate 4 0
  /-- GRANTOR; reset 0 -/
  grantor : Bool := false
  /-- MIN_LOG_SYNC; reset −7 -/
  minSync : Int := -7
  /-- MIN_LOG_ANNOUNCE; reset −3 -/
  minAnnounce : Int := -3
  /-- MIN_LOG_DELAY; reset −7 -/
  minDelay : Int := -7
  /-- GRANT_MAX_S; reset 300 -/
  grantMax : Nat := 300
  /-- MAX_GRANTS; reset the cap of R298: none stands for it -/
  maxGrants : Option Nat := none
  /-- REQ_DURATION_S; reset 300 -/
  reqDuration : Nat := 300
  /-- REQ_LOG_SYNC; reset −4 -/
  reqSync : Int := -4
  /-- REQ_LOG_ANNOUNCE; reset 0 -/
  reqAnnounce : Int := 0
  /-- REQ_LOG_DELAY; reset −4 -/
  reqDelay : Int := -4
  /-- The BMCA is due, held back by a WARM restart (R303); reset no -/
  bmcaDue : Bool := false
  deriving DecidableEq, Repr

/-- An Announce as a port keeps it (R276, R279). -/
structure Foreign where
  body      : AnnounceBody
  srcPort   : BitVec 80
  assurance : Option AssuranceTlv
  deriving DecidableEq, Repr

/-- A Sync that waits for its Follow_Up, or the last complete one: t1 with corrections and t2, units of 2^-16 ns. -/
structure SyncRec where
  seq      : BitVec 16
  t1       : Int
  t2       : Int
  fallback : Bool
  deriving DecidableEq, Repr

/-- A delay exchange in progress: its sequence number, its launch, and for a peer delay what the response brought. -/
structure DelayRec where
  seq    : BitVec 16
  t3     : Option Int := none
  /-- t4 plus requestReceiptTimestamp, less the correction, of a two-step Pdelay_Resp -/
  half   : Option Int := none
  fallback : Bool := false
  deriving DecidableEq, Repr

/-- A grant that a grantee holds (R282): CD-TIME cycle of its expiry, duration in s, log interval. -/
structure HeldGrant where
  expiry   : Nat
  duration : Nat
  log      : Int
  deriving DecidableEq, Repr

/-- A Follow_Up that has come before its Sync (R280): sequence number, sender, its part of t1 in units of 2^-16 ns. -/
structure EarlyFollow where
  seq     : BitVec 16
  srcPort : BitVec 80
  t1      : Int
  deriving DecidableEq, Repr

/-- One PTP instance on one port (R275). -/
structure PortInst where
  /-- ENABLE; reset 0 -/
  enable : Bool := false
  /-- TRANSPORT; reset 0 -/
  transport : Fin 3 := 0
  /-- VLAN; reset untagged -/
  vlan : Option (BitVec 12) := none
  /-- PCP; reset 7 -/
  pcp : Fin 8 := 7
  /-- PORT_ROLE; reset 0 -/
  portRole : Fin 3 := 0
  /-- LOG_ANNOUNCE; reset 127 -/
  logAnnounce : Int := 127
  /-- LOG_SYNC; reset 127 -/
  logSync : Int := 127
  /-- LOG_DELAY; reset 127 -/
  logDelay : Int := 127
  /-- ANNOUNCE_TIMEOUT; reset 3 -/
  annTimeout : Nat := 3
  /-- LOCAL_PRIORITY; reset 128 -/
  localPriority : Nat := 128
  /-- DEST; reset 0 -/
  dest : Bool := false
  /-- UNICAST_MASTER; reset 0 -/
  unicastMaster : BitVec 128 := 0
  /-- Port state (R276); reset DISABLED. DESIGN CHOICE, log entry 19 -/
  st : PtpState := .disabled
  /-- Best Announce received on the port; reset none -/
  foreign : Option Foreign := none
  /-- announceReceiptTimeout has passed without one; reset no -/
  timedOut : Bool := false
  /-- Sync that waits for its Follow_Up; reset none -/
  half : Option SyncRec := none
  /-- Last complete Sync; reset none -/
  last : Option SyncRec := none
  /-- Delay exchange in progress; reset none -/
  delay : Option DelayRec := none
  /-- meanPathDelay or meanLinkDelay, units of 2^-16 ns (R284); reset none -/
  pathDelay : Option Int := none
  /-- The path delay holds a FALLBACK stamp (R251); reset no -/
  pathFallback : Bool := false
  /-- Last offset delivered, units of 2^-16 ns (R284); reset 0 -/
  offset : Int := 0
  /-- Offsets of the last 16 s with their seconds (R286); reset none -/
  offsets : List (Nat × Int) := []
  /-- sequenceId of the next Announce, Sync, Delay_Req and signaling message; reset 0 -/
  seqAnnounce : BitVec 16 := 0
  /-- See `seqAnnounce`; reset 0 -/
  seqSync : BitVec 16 := 0
  /-- See `seqAnnounce`; reset 0 -/
  seqDelay : BitVec 16 := 0
  /-- See `seqAnnounce`; reset 0 -/
  seqSignal : BitVec 16 := 0
  /-- Grants held as grantee: Announce, Sync, Delay_Resp (R282); reset none -/
  grants : Vector (Option HeldGrant) 3 := Vector.replicate 3 none
  /-- A verified Follow_Up whose Sync has not verified yet (R280); reset none -/
  early : Option EarlyFollow := none
  /-- CD-TIME cycle at which the announce receipt interval began (R275, R276); reset 0 -/
  annAt : Nat := 0
  /-- CD-TIME cycle of the last measurement (R286); reset 0 -/
  measuredAt : Nat := 0
  /-- Measurements discarded since the last one delivered, towards LOS (R124, R251); reset 0 -/
  missed : Nat := 0
  /-- CD-TIME cycles at which Announce, Sync and delay request were last sent to the group (R275); reset none -/
  sentAt : Vector (Option Nat) 3 := Vector.replicate 3 none
  /-- The last Announce that firmware built (R303); reset none -/
  template : Option PtpMsg := none
  /-- The L1_SYNC state is up (R273, R284); reset 0 -/
  l1Sync : Bool := false
  /-- Counters RX_EVENT, RX_GENERAL, TX_EVENT, TX_GENERAL, AUTH_FAIL, AUTH_MISSING, KEY_UNAVAILABLE, POLICED,
  GRANTS_DENIED, TC_UNCORRECTED, NO_SLOT (R284), saturating; reset 0 -/
  ctr : Vector Nat 11 := Vector.replicate 11 0
  deriving DecidableEq, Repr

/-- A PRP pair (R285). -/
structure PrpPair where
  /-- ENABLE; reset 0 -/
  enable : Bool := false
  /-- SUP_LSB; reset 0 -/
  supLsb : Byte := 0
  /-- LIFE_CHECK_MS; reset 2,000 -/
  lifeCheckMs : Nat := 2000
  /-- ENTRY_FORGET_MS; reset 400 -/
  forgetMs : Nat := 400
  /-- Copies seen: source, sequence number, CD-TIME cycle (R285); reset none -/
  seen : List (BitVec 48 × BitVec 16 × Nat) := []
  /-- Sequence number of the next RCT (R285); reset 0. DESIGN CHOICE, log entry 109 -/
  rctSeq : BitVec 16 := 0
  /-- CD-TIME cycle of the last supervision frame sent (R285); reset none -/
  supAt : Option Nat := none
  deriving DecidableEq, Repr

/-- The NTP server (R288). -/
structure NtpServer where
  /-- ENABLE; reset 0 -/
  enable : Bool := false
  /-- DOMAIN; reset 4 -/
  view : Fin 5 := 4
  /-- GATE; reset 1 -/
  gate : Fin 3 := 1
  /-- VERSIONS; reset 3 -/
  versions : BitVec 2 := 3
  /-- MANUAL_STRATUM; reset 10 -/
  manualStratum : Nat := 10
  /-- HOST_MODES; reset 0 -/
  hostModes : Bool := false
  /-- PORT_MASK; reset 0 -/
  portMask : BitVec 24 := 0
  /-- Counters REQUESTS, RESPONSES, NTS_REQUESTS, NTS_RESPONSES, NTS_NAK, NTS_AUTH_FAIL, RATE_DROP, KOD_SENT, GATE_DROP,
  VERSION_DROP, NO_SLOT, MALFORMED, PIPE_FULL (R288), saturating; reset 0 -/
  ctr : Vector Nat 13 := Vector.replicate 13 0
  deriving DecidableEq, Repr

/-- The NTS server (R292 FORM 0). -/
structure NtsServer where
  /-- COOKIE slot; reset none -/
  slot : Option (Fin 128) := none
  /-- MAX_COOKIES; reset 8 -/
  maxCookies : Nat := 8
  /-- NAK; reset 1 -/
  nak : Bool := true
  /-- REQUIRE; reset 0 -/
  require : Bool := false
  deriving DecidableEq, Repr

/-- One NTP client (R294, R295) with its NTS jar (R293). -/
structure NtpClient where
  /-- ENABLE; reset 0 -/
  enable : Bool := false
  /-- REF; reset none -/
  ref : Option (Fin 32) := none
  /-- PORT; reset 0 -/
  port : Fin 24 := 0
  /-- DOMAIN; reset 0 -/
  dom : Fin 4 := 0
  /-- NTS; reset 0 -/
  nts : Bool := false
  /-- LOG_POLL; reset 4 -/
  logPoll : Int := 4
  /-- TRANSPORT IPv6; reset 0 -/
  ipv6 : Bool := false
  /-- VLAN; reset untagged -/
  vlan : Option (BitVec 12) := none
  /-- LOCAL_UDP_PORT; reset 123 -/
  udpPort : Nat := 123
  /-- SERVER_ADDR; reset 0 -/
  server : BitVec 128 := 0
  /-- C2S slot (R292 FORM 1); reset none -/
  c2s : Option (Fin 128) := none
  /-- S2C slot; reset none -/
  s2c : Option (Fin 128) := none
  /-- The cookie jar, oldest first (R293); reset empty -/
  jar : List (List Byte) := []
  /-- Poll interval in use, log2 s (R295); reset 4 -/
  poll : Int := 4
  /-- Stopped by DENY or RSTR (R295); reset no -/
  stopped : Bool := false
  /-- T1 of the outstanding request, units of 2^-16 ns, once launched; reset none -/
  t1 : Option Int := none
  /-- Its transmit timestamp as the response must echo it; reset none -/
  t1Ntp : Option (BitVec 64) := none
  /-- Its Unique Identifier (R293); reset none -/
  uid : Option (List Byte) := none
  /-- It was stamped FALLBACK; reset no -/
  t1Fallback : Bool := false
  /-- Exchanges discarded, towards LOS (R293, R295); reset 0 -/
  missed : Nat := 0
  /-- CD-TIME cycle of the last poll (R295); reset none -/
  polledAt : Option Nat := none
  deriving DecidableEq, Repr

/-- A record of the client ledger (R297): type 1 NTP, 2 NTS, 3 PTP grant. -/
structure LedgerRec where
  addr      : BitVec 128
  port      : Fin 24
  type      : Fin 4
  inst      : Fin 8 := 0
  transport : Fin 3
  last      : BitVec 16
  tokens    : BitVec 16
  interval  : BitVec 8
  flags     : BitVec 8
  /-- CD-TIME cycle up to which the bucket, or the grant policer's bucket, is filled -/
  filledAt  : Nat := 0
  /-- Bucket of the grant policer, units of 1/256 request (R269) -/
  bucket    : Nat := 1024
  /-- CD-TIME second of the last kiss (R296) -/
  kissAt    : Nat := 0
  deriving DecidableEq, Repr

/-- An AUE scheduler slot in use (R300): its transaction, its side, and whether it is borrowed (R40). -/
structure AueSlot where
  tx       : Nat
  nts      : Bool
  borrowed : Bool
  deriving DecidableEq, Repr

/-- What follows the AUE work on a received message (R300). -/
inductive RxCont where
  /-- a message reaches its instance; `dst` is where the answer to a Delay_Req goes -/
  | message (type : PtpType) (dst : BitVec 128)
  | signaling (sg : Signaling)
  /-- a transparent clock forwards an event message, or a general one to where its event message went -/
  | tcEvent (delayReq : Bool) (egress : Fin 24)
  | tcGeneral (type : PtpType)
  deriving DecidableEq, Repr

/-- The received message of a transaction, with what was noted at its reception. -/
inductive RxMessage where
  | ptp (rx : PtpRx) (cont : RxCont)
  /-- an NTS request: the C2S and S2C keys of its cookie, and whether the cookie's job has ended -/
  | request (rx : NtpRx) (fields : NtsFields) (keys : Option (List Byte × List Byte)) (opened : Bool)
  /-- a response to an NTS client, with T1 of the exchange -/
  | response (client : Fin 8) (rx : NtpRx) (t1 : Int) (plain : List Byte)
  deriving DecidableEq, Repr

/-- A transaction on a received message (R300): its number, the result of the AUE job in progress, that of the job which repeats
it under the previous key (R315), ingress time and FALLBACK of the message. -/
structure RxWork where
  tx       : Nat
  pass     : Bool
  again    : Option Bool := none
  key      : Nat
  ingress  : Nat
  fallback : Bool
  msg      : RxMessage
  deriving DecidableEq, Repr

/-- TPE (R244–R303). -/
structure Tpe where
  port : Vector TpePort 24 := Vector.replicate 24 {}
  /-- Frames in the galley (R255); reset none -/
  galley : List GalleyFrame := []
  /-- Frames that have left, oldest first (R261); reset none -/
  sent : List GalleyFrame := []
  /-- Frames built so far (the model's own numbering of galley frames and transactions); reset 0 -/
  built : Nat := 0
  inst : Vector PtpInst 8 := Vector.replicate 8 {}
  /-- Port-instances: port, then instance -/
  pi : Vector (Vector PortInst 8) 24 := Vector.replicate 24 (Vector.replicate 8 {})
  prp : Vector PrpPair 12 := Vector.replicate 12 {}
  server : NtpServer := {}
  nts : NtsServer := {}
  client : Vector NtpClient 8 := Vector.replicate 8 {}
  /-- Records that are not free, with their indices, rising (R297); reset none -/
  ledger : List (Nat × LedgerRec) := []
  /-- IDLE_S (R296); reset 3,600 -/
  idleS : Nat := 3600
  /-- The port that the pipelines served last (R270); reset port 23, so that port 0 is the first.
  DESIGN CHOICE, log entry 108 -/
  turn : Fin 24 := 23
  /-- The frame that the pipelines serve: its port and its ingress marker; reset none -/
  serving : Option (Fin 24 × Nat) := none
  /-- Timing frames processed in the impression (R270); reset 0 -/
  worked : Nat := 0
  /-- Unicast negotiation that waits for the end of a WARM restart, oldest first (R303); reset none -/
  held : List Signaling := []
  /-- Frames sent to the host on the uplink, oldest first (R272); reset none -/
  hostOut : List ToHost := []
  /-- Bytes of them that wait in the packet buffers, and the CD-TIME cycle up to which those that left are counted off (R272);
  reset 0 -/
  hostFill : Nat := 0
  /-- See `hostFill`; reset 0 -/
  hostFillAt : Nat := 0
  deriving DecidableEq, Repr

/-- AUE (R39, R40, R300). -/
structure Aue where
  /-- Scheduler slots in use; reset none -/
  slots : List AueSlot := []
  /-- Transactions on received messages, oldest first (R300); reset none -/
  work : List RxWork := []
  /-- Quarter units of NTS work not counted yet (R301); reset 0 -/
  quarters : Nat := 0
  deriving DecidableEq, Repr

end Sys2Proof.Machine
end

