-- ==== Sys2Proof/Machine/State/Gnss.lean ====
section
/-! DEFINITION. State of GTR (R154–R177): configuration, receiver state, survey and held position, checks and their
anchor, notches, channels, the GNSS store. -/

namespace Sys2Proof.Machine

/-- Receiver states (R159). -/
inductive GnssState where
  | idle
  | search
  | solve
  | survey
  | hold
  deriving DecidableEq, Repr

/-- Thresholds and check settings of GNSS_CONFIG, which take effect at the next second (R174). -/
structure GnssLimits where
  /-- CHECK_DPLL; reset 0 -/
  checkDpll : Option (Fin 8) := some 0
  /-- ELEV_MASK, degrees; reset 10 -/
  elevMask : Nat := 10
  /-- CN0_MASK, dB-Hz; reset 30 -/
  cn0Mask : Nat := 30
  /-- TIME_CHECK_NS; reset 100 -/
  timeNs : Nat := 100
  /-- TIME_CHECK_WINDOW_S; reset 3,600 -/
  windowS : Nat := 3600
  /-- INTEG_CLEAR_S; reset 60 -/
  clearS : Nat := 60
  /-- CN0_MIN_SATS; reset 6 -/
  cn0MinSats : Nat := 6
  /-- CN0_SPREAD, 0.1 dB; reset 10 -/
  cn0Spread : Nat := 10
  /-- CN0_MAX, dB-Hz; reset 55 -/
  cn0Max : Nat := 55
  /-- XBAND_M; reset 10 -/
  xbandM : Nat := 10
  /-- POS_JUMP_M; reset 50 -/
  posJumpM : Nat := 50
  /-- JAM_THRESHOLD; reset 40 -/
  jam : Nat := 40
  /-- CHECK_ENABLE; reset 0x1F -/
  checks : BitVec 5 := 0x1F
  deriving DecidableEq, Repr

/-- The other settings of GNSS_CONFIG (R174). -/
structure GnssCfg where
  /-- ENABLE; reset 0 -/
  enable : Bool := false
  /-- SYSTEMS; reset 0x0F -/
  systems : BitVec 4 := 0xF
  /-- BANDS has the lower band; reset 1 (BANDS 0x03) -/
  lower : Bool := true
  /-- TIMESCALE; reset 1 -/
  timescale : Nat := 1
  /-- DOMAIN; reset 0 -/
  domain : Fin 4 := 0
  /-- GSPI_MODE; reset 0 -/
  spiMode : Nat := 0
  /-- GSPI_MHZ; reset 5 -/
  spiMhz : Nat := 5
  /-- IF_OFFSET0_HZ; reset 0 -/
  ifOffset0 : Int := 0
  /-- IF_OFFSET1_HZ; reset 0 -/
  ifOffset1 : Int := 0
  /-- FE_STATUS_REG, none for 0xFFFF; reset none -/
  feReg : Option (BitVec 16) := none
  /-- FE_STATUS_MASK; reset 0 -/
  feMask : BitVec 8 := 0
  deriving DecidableEq, Repr

/-- One notch filter (R168, R169). -/
structure Notch where
  /-- MODE: 0 off, 1 fixed, 2 adaptive; reset 0 -/
  mode : Fin 3 := 0
  /-- FREQ_HZ; reset 0 -/
  freq : Int := 0
  /-- SEARCH_HZ; reset 2,000,000 -/
  search : Nat := 2000000
  /-- WIDTH_KHZ; reset 100 -/
  widthKhz : Nat := 100
  /-- DETECT_DB; reset 10 -/
  detectDb : Nat := 10
  /-- Centre of the interferer that an adaptive notch holds, Hz; reset none -/
  holds : Option Int := none
  /-- Impression at which it last moved its centre (R168); reset none -/
  movedAt : Option Nat := none
  deriving DecidableEq, Repr

/-- A survey in progress (R160). -/
structure Survey where
  minS  : Nat
  maxS  : Nat
  accMm : Nat
  /-- seconds since the first one with a solution -/
  elapsed : Nat := 0
  /-- positions averaged, their sums and the sums of their squares -/
  count : Nat := 0
  sum   : Ecef := { x := 0, y := 0, z := 0 }
  sumSq : Ecef := { x := 0, y := 0, z := 0 }
  deriving DecidableEq, Repr

/-- The anchor A of the time check (R171). -/
structure Anchor where
  cycle   : Nat       -- CD-TIME cycle
  phasePs : Int       -- phase of GNSS time against the CD-TIME count
  h       : ℚ         -- H_A, ppt
  sigma   : Sigma     -- σf_A, ppt
  deriving DecidableEq, Repr

/-- A record of the GNSS store that GNSS_AIDING_LOAD wrote (R175). -/
structure AidRecord where
  type : Byte
  body : List Byte
  /-- of an ephemeris: the satellite's own broadcast has confirmed its issue of data -/
  confirmed : Bool := false
  deriving DecidableEq, Repr

/-- GTR (R154–R177). -/
structure Gtr where
  cfg : GnssCfg := {}
  limits : GnssLimits := {}
  /-- Thresholds and checks that the next second takes up (R174); reset none -/
  nextLimits : Option GnssLimits := none
  /-- Front-end write list (R156, R174): address and value; reset empty -/
  feList : List (BitVec 16 × Byte) := []
  /-- Transfers on the control port, oldest first (R156): 16 bits of address and 8 of data, MSB first; reset none -/
  feSent : List (BitVec 24) := []
  /-- Receiver state (R159); reset IDLE -/
  st : GnssState := .idle
  /-- Held position and its uncertainty, mm (R160, R161); reset none -/
  held : Option (Ecef × Nat) := none
  /-- Survey in progress (R160); reset none -/
  survey : Option Survey := none
  /-- SURVEY_SHORT (R160, R176); reset 0 -/
  surveyShort : Bool := false
  /-- GCLK fault (R155); reset 0 -/
  clockFault : Bool := false
  /-- Front-end status fault (R156); reset 0 -/
  feFault : Bool := false
  /-- The solution filter restarts in this second (R174); reset no -/
  restarted : Bool := false
  /-- Epoch taken and not yet solved (R163): its CD-TIME cycle and the GNSS DOMAIN's count; reset none -/
  epoch : Option (Nat × Nat) := none
  /-- Channels of the latest epoch, in the order of R157; reset none -/
  channels : List SatObs := []
  /-- Satellites used in the latest epoch; reset none -/
  used : List (Fin 4 × Fin 64) := []
  /-- Satellites excluded by R167 and the impression of their exclusion; reset none -/
  excluded : List (Fin 4 × Fin 64 × Nat) := []
  /-- Solution of entry 16 valid in the last second (R176); reset 0 -/
  valid16 : Bool := false
  /-- Solution of entry 17 valid in the last second (R176); reset 0 -/
  valid17 : Bool := false
  /-- Estimate of entry 16, ps (R176); reset 0 -/
  est16 : Nat := 0
  /-- Inter-system biases of the dual-band and the single-band solution, ps, last estimated (R164); reset none -/
  bias : Vector (List (Fin 4 × Int)) 2 := Vector.replicate 2 []
  /-- Upper minus lower pseudoranges of each dual-band satellite, mm, newest first (R171); reset none -/
  cross : List (Fin 4 × Fin 64 × List Int) := []
  /-- D of the time check, ps (R171, R176); reset 0 -/
  dPs : Int := 0
  /-- Phase of the latest solution against the CD-TIME count, ps, with its CD-TIME cycle (R171); reset none -/
  phase : Option (Int × Nat) := none
  /-- Anchor of the time check (R171); reset none -/
  anchor : Option Anchor := none
  /-- Seconds of the TIME_CHECK_WINDOW_S in progress; reset 0 -/
  windowFor : Nat := 0
  /-- A check failed in that window; reset no -/
  windowBad : Bool := false
  /-- Seconds for which the condition of the C/N0 check holds (R171); reset 0 -/
  cn0For : Nat := 0
  /-- Seconds for which the condition of the position check holds (R171); reset 0 -/
  posFor : Nat := 0
  /-- Failed checks of the last second (R176); reset 0 -/
  failed : BitVec 5 := 0
  /-- Unarmed checks of the last second (R176); reset all -/
  unarmed : BitVec 5 := 0x1F
  /-- An integrity failure stands (R172); reset 0 -/
  integrity : Bool := false
  /-- Seconds without a break in which every enabled armed check passed and no outlier flag stood (R172); reset 0 -/
  cleanFor : Nat := 0
  /-- Jamming indicators, upper and lower band (R170); reset 0 -/
  jam : Vector Byte 2 := Vector.replicate 2 0
  /-- Noise of the 10 s in progress, oldest last, and the sums over the 10 s of the last 24 h, newest first, per band (R170);
  reset none -/
  noise : Vector (List Int × List Int) 2 := Vector.replicate 2 ([], [])
  /-- Notches of the upper and the lower band (R168) -/
  notch : Vector (Vector Notch 4) 2 := Vector.replicate 2 (Vector.replicate 4 {})
  /-- The GNSS store (R175): what GNSS_AIDING_LOAD wrote; reset empty -/
  store : List AidRecord := []
  /-- Satellites whose broadcast ephemeris the receiver holds (R175, R177); reset none -/
  heard : List (Fin 4 × Fin 64) := []
  deriving DecidableEq, Repr

end Sys2Proof.Machine
end

