-- ==== Sys2Proof/Machine/State/Sample.lean ====
section
/-! DEFINITION. State of SAU (R337–R350): sample-port directions with their slot masks, rate-conversion channels,
alignment groups, the sampled-value monitor. -/

namespace Sys2Proof.Machine

/-- SAMP_PORT_CONFIG settings of a direction (R338). -/
structure SampDirCfg where
  /-- ENABLE; reset 0 -/
  enable : Bool := false
  /-- ROLE master; reset 0 -/
  master : Bool := false
  /-- DOMAIN; reset 4 -/
  view : Fin 5 := 4
  /-- SLOTS; reset 8 -/
  slots : Nat := 8
  /-- DATA_BITS; reset 24 -/
  dataBits : Nat := 24
  /-- FS_FORMAT 50 % duty; reset 0 -/
  halfDuty : Bool := false
  /-- FS_DELAY; reset 1 -/
  fsDelay : Nat := 1
  /-- BCLK_EDGE; reset 0 -/
  bclkEdge : Bool := false
  /-- FS_POLARITY; reset 0 -/
  fsLow : Bool := false
  /-- FLAG_BIT; reset 0 -/
  flagBit : Bool := false
  /-- STAMP_SLOT; reset 0xFF -/
  stampSlot : Option (Fin 31) := none
  /-- FRAME_HZ; reset 48,000 -/
  frameHz : Nat := 48000
  deriving DecidableEq, Repr

/-- One direction of a sample port (R337–R340). -/
structure SampDir where
  cfg : SampDirCfg := {}
  /-- Active mask (R339); reset 0xFFFF_FFFF -/
  active : Word := 0xFFFFFFFF
  /-- Shadow mask not yet applied, with the CD-TIME mark at which it reached the shadow (R339); reset none -/
  shadow : Option (Word × Nat) := none
  /-- Frame number of the frame in progress, none before the first frame sync (R337); reset none -/
  frame : Option (BitVec 32) := none
  /-- CD-TIME marks of the first and the latest frame sync (R337); reset none -/
  first : Option Nat := none
  last : Option Nat := none
  /-- RATE_FAULT (R338); reset 0 -/
  rateFault : Bool := false
  /-- Good frames in a row (R338); reset 0 -/
  good : Nat := 0
  /-- CD-TIME cycle at which the direction was enabled (R338); reset 0 -/
  since : Nat := 0
  /-- CD-TIME mark of the first of the frame syncs in a row with a rate outside ±1,000 ppm (R338); reset none -/
  badSince : Option Nat := none
  /-- Grid instant k / FRAME_HZ of a master's latest frame sync, counted in frame periods (R337, R346); reset 0 -/
  grid : Nat := 0
  /-- Slots of the latest frame: captured, or driven on DOUT (R337, R339); reset none -/
  words : List Word := []
  deriving DecidableEq, Repr

/-- SAMP_GROUP_CONFIG FORM 0 settings (R342). -/
structure SampChanCfg where
  /-- ENABLE; reset 0 -/
  enable : Bool := false
  /-- DOMAIN; reset 4 -/
  view : Fin 5 := 4
  /-- SRC_PORT; reset 0 -/
  srcPort : Fin 8 := 0
  /-- SRC_SLOT; reset 0 -/
  srcSlot : Fin 32 := 0
  /-- DST_PORT; reset 0 -/
  dstPort : Fin 8 := 0
  /-- DST_SLOT; reset 0 -/
  dstSlot : Fin 32 := 0
  /-- FILL: 0 repeat-last, 1 zero, 2 flag-only; reset 0 -/
  fill : Fin 3 := 0
  /-- GROUP; reset 0xFF -/
  group : Option (Fin 8) := none
  /-- DELAY_NS; reset 1,000,000 -/
  delayNs : Nat := 1000000
  deriving DecidableEq, Repr

/-- One rate-conversion channel (R341–R343). -/
structure SampChan where
  cfg : SampChanCfg := {}
  /-- Ratio estimate that counts as locked, units of 2^-32 (R341); reset none -/
  ratio : Option Nat := none
  /-- In underrun now (R343); reset 0 -/
  under : Bool := false
  /-- Clean source frames in a row (R343); reset 0 -/
  clean : Nat := 0
  /-- CD-TIME mark of the first of those frames (R343); reset 0 -/
  cleanFrom : Nat := 0
  /-- CD-TIME cycle from which the ratio has been tracked (R341); reset 0 -/
  tracked : Nat := 0
  /-- CD-TIME mark of a step of the domain, until the channel re-enters (R346); reset none -/
  stepped : Option Nat := none
  /-- Last good sample (R343); reset 0 -/
  lastWord : Word := 0
  deriving DecidableEq, Repr

/-- One alignment group (R344). -/
structure SampGroup where
  /-- ENABLE; reset 0 -/
  enable : Bool := false
  /-- REENTRY_FRAMES; reset 16 -/
  reentry : Nat := 16
  /-- DELAY_NS; reset 1,000,000 -/
  delayNs : Nat := 1000000
  deriving DecidableEq, Repr

/-- A stream record of the sampled-value monitor: SV_MONITOR_CONFIG (R348) and what it measures (R347, R349). -/
structure SvRec where
  /-- ENABLE; reset 0 -/
  enable : Bool := false
  /-- PORT; reset 0 -/
  port : Fin 24 := 0
  /-- APPID; reset 0 -/
  appid : BitVec 16 := 0
  /-- RATE, samples per second; reset 4,800 -/
  rate : Nat := 4800
  /-- DOMAIN; reset 4 -/
  view : Fin 5 := 4
  /-- SYNCH_MIN; reset 2 -/
  synchMin : Fin 3 := 2
  /-- ALARM_MASK; reset 0x1F -/
  alarmMask : BitVec 5 := 0x1F
  /-- NOMINAL_DELAY_NS, units of 10 ns; reset 2,000 -/
  nominal : Nat := 2000
  /-- ARRIVAL_LIMIT_US; reset 2,000 -/
  arrivalUs : Nat := 2000
  /-- SAMPLE_LIMIT_NS; reset 1,000 -/
  sampleNs : Nat := 1000
  /-- SVID; reset empty -/
  svid : List Byte := []
  /-- Counter of the last ASDU in order; reset none -/
  lastCnt : Option Nat := none
  /-- CD-TIME mark of the last frame; reset none -/
  lastMark : Option Nat := none
  /-- smpSynch of the last frame; reset 0 -/
  synch : Fin 3 := 0
  /-- In the second in progress: smallest and largest D, counter units; reset none -/
  minD : Option Nat := none
  maxD : Option Nat := none
  /-- In the second in progress: missing samples, duplicates, out-of-order ASDUs; reset 0 -/
  missing : Nat := 0
  dups : Nat := 0
  disorder : Nat := 0
  /-- In the second in progress: smpSynch below SYNCH_MIN; no frame for 10 ms; reset no -/
  synchLow : Bool := false
  gap : Bool := false
  /-- Alarms of the last completed second (R348); reset 0 -/
  alarms : BitVec 5 := 0
  /-- Sticky alarms since the last CLEAR; reset 0 -/
  sticky : BitVec 5 := 0
  /-- E of the last completed second, ns; reset none -/
  lastE : Option Int := none
  /-- Largest D of the last completed second, ns; reset none -/
  lastD : Option Nat := none
  /-- Missing samples and duplicates of the last completed second; reset 0 -/
  lastMissing : Nat := 0
  lastDups : Nat := 0
  /-- Histogram of D: bin and count, for the bins that are not 0 (R349); reset none -/
  hist : List (Nat × Nat) := []
  deriving DecidableEq, Repr

/-- SAU (R337–R350). -/
structure Sau where
  /-- Directions: receive of SP0–SP7, then transmit of SP0–SP7 -/
  dir : Vector SampDir 16 := Vector.replicate 16 {}
  chan : Vector SampChan 32 := Vector.replicate 32 {}
  group : Vector SampGroup 8 := Vector.replicate 8 {}
  /-- Channels that have underrun since the last FORM 2 (R345); reset 0 -/
  underSeen : BitVec 32 := 0
  /-- Second whose end the monitor evaluated last (R347); reset 0 -/
  svSecond : Nat := 0
  /-- Stream records that a job has configured, rising by index (R348); reset none -/
  stream : List (Nat × SvRec) := []
  deriving DecidableEq, Repr

end Sys2Proof.Machine
end

