-- ==== Sys2Proof/Machine/State.lean ====
section
/-! DEFINITION. The state of the LT2460, what stops it, and its state after reset. -/

namespace Sys2Proof.Machine

/-- What stops the machine with a fault. No command of the engine does: the manual gives every one of them an
effect. Safe: nothing raises it. -/
inductive Fault where
  | unreachable   -- raised by no command; safe
  deriving DecidableEq, Repr

/-- Why a command has no meaning. Raised by Dispatch.lean alone, for a row without a meaning; safe. -/
inductive Refusal where
  | notModelled (mnemonic : String)   -- no row is refused with it in this model; safe
  deriving DecidableEq, Repr

/-- Everything the manual gives the engine, the queue of the commands that wait, and the number of free values
drawn so far. -/
structure State where
  /-- Mailboxes (R46–R72) -/
  mbx : Mbx := {}
  /-- Interrupt controller (R73–R75) -/
  intc : Intc := {}
  /-- Time snapshot (R76) -/
  tsnap : Tsnap := {}
  /-- Colophon (R77) -/
  col : Col := {}
  /-- Control processors, boot and imposition (R27–R41, R403–R407) -/
  cpx : Cpx := {}
  /-- Time domains, ledger, impression sequencer (R82–R120) -/
  tcr : Tcr := {}
  /-- Reference pool (R121–R130) -/
  rim : Rim := {}
  /-- DPLLs (R131–R142) -/
  dsb : Dsb := {}
  /-- Ensemble, holdover, oscillator steering (R104–R110, R143–R152) -/
  ehu : Ehu := {}
  /-- Frequency synthesis and outputs (R178–R200) -/
  fso : Fso := {}
  /-- Pulses, time codes, events (R201–R222) -/
  peu : Peu := {}
  /-- Network lanes (R223–R242) -/
  nlu : Nlu := {}
  /-- Timestamps, galley, PTP, NTP, NTS, client ledger (R244–R303) -/
  tpe : Tpe := {}
  /-- Authentication engine slots (R39, R40, R300) -/
  aue : Aue := {}
  /-- GNSS receiver (R154–R177) -/
  gtr : Gtr := {}
  /-- Sample ports and sampled-value monitor (R337–R350) -/
  sau : Sau := {}
  /-- Fault collector (R351–R366) -/
  fco : Fco := {}
  /-- Performance counters (R368–R375) -/
  pcu : Pcu := {}
  /-- Supplies, sensors, straps, battery counter (R386–R403) -/
  srt : Srt := {}
  /-- Security (R304–R336) -/
  sec : Sec := {}
  /-- Calibration layers (R376–R385) -/
  cal : Cal := {}
  /-- Commands that wait, first in first out (the model's own) -/
  pending : List Instr := []
  /-- Number of free values drawn (the model's own); log entry 3 -/
  fresh : Nat := 0
  deriving DecidableEq, Repr

/-- The engine at the end of a POR (R403 step 1): straps latched, the system PLL starting, every register at its
reset value. -/
def State.reset : State := {}

end Sys2Proof.Machine
end

