-- ==== Sys2Proof/Machine/Bits.lean ====
section
/-! DEFINITION. Bit fields, byte order, two's complement and rounding. -/

namespace Sys2Proof.Machine

/-- Bits `lo .. lo+len-1` of a number. -/
def bitsOf (v lo len : Nat) : Nat := v / 2 ^ lo % 2 ^ len

/-- Two's complement reading of a `w`-bit field (R10). -/
def signed (w v : Nat) : Int := if v < 2 ^ (w - 1) then v else (v : Int) - 2 ^ w

/-- The `w`-bit two's complement code of an integer. -/
def toCode (w : Nat) (v : Int) : Nat := (v % 2 ^ w).toNat

/-- `n` bytes of a number, least significant first (R11). -/
def leBytes : Nat → Nat → List Byte
  | 0, _ => []
  | n + 1, v => BitVec.ofNat 8 v :: leBytes n (v / 256)

/-- The number that little-endian bytes spell (R11). -/
def leNat : List Byte → Nat
  | [] => 0
  | b :: t => b.toNat + 256 * leNat t

/-- `n` bytes of a number, most significant first. -/
def beBytes (n v : Nat) : List Byte := (leBytes n v).reverse

/-- Quotient rounded up. -/
def ceilDiv (a b : Nat) : Nat := (a + (b - 1)) / b

/-- Saturation. -/
def sat (top v : Nat) : Nat := min top v

/-- A number as a host word. -/
def word (v : Nat) : Word := BitVec.ofNat 32 v

/-- An integer as a host word in two's complement. -/
def wordI (v : Int) : Word := BitVec.ofInt 32 v

/-- One bit as a number. -/
def bit (b : Bool) : Nat := if b then 1 else 0

/-- A set of indices as a mask. -/
def maskOf (n : Nat) (p : Nat → Bool) : Nat :=
  (List.range n).foldl (fun m i => if p i then m + 2 ^ i else m) 0

/-- The count of bits set below `n`. -/
def popCount (n v : Nat) : Nat := ((List.range n).filter v.testBit).length

/-- The smallest number below `2 ^ k` that a monotone predicate admits, found bit by bit; `2 ^ k - 1` when none is
smaller. -/
def least (p : Nat → Bool) : Nat → Nat → Nat
  | 0, base => base
  | k + 1, base => if p (base + 2 ^ k - 1) then least p k base else least p k (base + 2 ^ k)

/-- Quotient rounded up of a rational number that is not negative. -/
def ceilNat (q : ℚ) : Nat := q.ceil.toNat

/-- An element put before the first one that it does not come after. -/
def putSorted {α : Type} (le : α → α → Bool) (a : α) : List α → List α
  | [] => [a]
  | b :: t => if le a b then a :: b :: t else b :: putSorted le a t

/-- A list put in order; equal elements keep theirs. -/
def sortBy {α : Type} (le : α → α → Bool) (l : List α) : List α := l.foldr (putSorted le) []

/-- An element of a vector at a natural number, or a value where there is none. -/
def vget {α : Type} {n : Nat} (v : Vector α n) (i : Nat) (d : α) : α := if h : i < n then v[i] else d

/-- A vector with one element changed; unchanged where there is none. -/
def vmod {α : Type} {n : Nat} (v : Vector α n) (i : Nat) (f : α → α) : Vector α n :=
  if h : i < n then v.set i (f v[i]) else v

end Sys2Proof.Machine
end

