-- ==== Sys2Proof/Machine/Memory.lean ====
section
/-! DEFINITION. The mailbox SRAM (R304): ring memory, completion memory and the SPI staging areas, one canonical list
of address and byte; a byte not listed reads 0, as step 3 of R403 clears SRAM. -/

namespace Sys2Proof.Machine

/-- What an unlisted byte of SRAM reads as (R403 step 3). -/
def Memory.blank : Byte := 0

/-- Addresses strictly rising and no entry equal to the blank byte. -/
def Memory.wf : List Host.Cell → Bool
  | [] => true
  | [(_, b)] => b != Memory.blank
  | (a, b) :: (a', b') :: t => b != Memory.blank && decide (a < a') && Memory.wf ((a', b') :: t)

/-- One byte of SRAM. -/
def Memory.read : List Host.Cell → Nat → Byte
  | [], _ => Memory.blank
  | (a, b) :: t, x => if x = a then b else Memory.read t x

/-- The list with no entry for an address. -/
def Memory.erase : List Host.Cell → Nat → List Host.Cell
  | [], _ => []
  | (a, b) :: t, x => if x = a then t else (a, b) :: Memory.erase t x

/-- The list with an entry put in its place. -/
def Memory.insert : List Host.Cell → Nat → Byte → List Host.Cell
  | [], x, v => [(x, v)]
  | (a, b) :: t, x, v =>
    if x < a then (x, v) :: (a, b) :: t
    else if x = a then (x, v) :: t
    else (a, b) :: Memory.insert t x v

/-- Write one byte: a blank byte is not listed. -/
def Memory.write (m : List Host.Cell) (x : Nat) (v : Byte) : List Host.Cell :=
  if v = Memory.blank then Memory.erase m x else Memory.insert m x v

/-- Write bytes at rising addresses. -/
def Memory.writeBytes : List Host.Cell → Nat → List Byte → List Host.Cell
  | m, _, [] => m
  | m, x, b :: t => Memory.writeBytes (Memory.write m x b) (x + 1) t

/-- Read `n` bytes at rising addresses. -/
def Memory.readBytes (m : List Host.Cell) : Nat → Nat → List Byte
  | _, 0 => []
  | x, n + 1 => Memory.read m x :: Memory.readBytes m (x + 1) n

/-- SRAM address of a command ring (R304): CQS at 256 KB, CQn at 280 KB + n × 16 KB. -/
def cqBase (r : RingId) : Nat := if r.val = 4 then 256 * 1024 else 280 * 1024 + r.val * 0x4000

/-- SRAM address of a completion ring (R304): CCS at 272 KB, CCn at 344 KB + n × 8 KB. -/
def ccBase (r : RingId) : Nat := if r.val = 4 then 272 * 1024 else 344 * 1024 + r.val * 0x2000

/-- SRAM address of a staging area (R304): secure at 384 KB, non-secure at 448 KB. -/
def stagingBase (secure : Bool) : Nat := if secure then 384 * 1024 else 448 * 1024

end Sys2Proof.Machine
end

