-- ==== Sys2Proof/Machine/Operands.lean ====
section
/-! DEFINITION. The operand forms: the descriptor and its header (R53, R54), the job catalogue (R81), parameter
tables with their ranges and reserved bytes (R13, R14), and the place of the first offending field (R429). -/

open Sys2Proof.Machine

namespace Sys2Proof

/-! ### The descriptor -/

/-- JOB (R53). -/
def Job.code (j : Job) : Nat := bitsOf j.desc.toNat 0 16
/-- TAG (R53). -/
def Job.tag (j : Job) : BitVec 10 := BitVec.ofNat 10 (bitsOf j.desc.toNat 16 10)
/-- FENCE (R53). -/
def Job.fence (j : Job) : Bool := j.desc.toNat.testBit 26
/-- URGENT (R53). -/
def Job.urgent (j : Job) : Bool := j.desc.toNat.testBit 27
/-- NO_COMPLETION (R53). -/
def Job.noCompletion (j : Job) : Bool := j.desc.toNat.testBit 28
/-- CHAIN (R53). -/
def Job.chain (j : Job) : Bool := j.desc.toNat.testBit 29
/-- DMA_PARAM (R53). -/
def Job.dma (j : Job) : Bool := j.desc.toNat.testBit 30
/-- PARAM_ADDR (R54). -/
def Job.paramAddr (j : Job) : Nat := bitsOf j.desc.toNat 32 64
/-- PARAM_LEN (R54). -/
def Job.paramLen (j : Job) : Nat := bitsOf j.desc.toNat 96 32
/-- RESULT_ADDR (R54). -/
def Job.resultAddr (j : Job) : Nat := bitsOf j.desc.toNat 128 64
/-- RESULT_LEN (R54). -/
def Job.resultLen (j : Job) : Nat := bitsOf j.desc.toNat 192 32
/-- The ring is CQS, so the job is secure (R43, R44). -/
def Job.secure (j : Job) : Bool := j.ring.val = 4

end Sys2Proof

namespace Sys2Proof.Machine

/-- The parameters of a job: the bytes that hold its fields, as one little-endian number, with their place: the
descriptor, or the parameter block of R54. -/
structure Params where
  w     : Nat
  len   : Nat
  block : Bool
  deriving DecidableEq, Repr

/-- A field: `len` bytes at `off` (R11). -/
def Params.u (p : Params) (off len : Nat) : Nat := bitsOf p.w (8 * off) (8 * len)
/-- A signed field. -/
def Params.i (p : Params) (off len : Nat) : Int := signed (8 * len) (p.u off len)
/-- One bit of a byte. -/
def Params.bit (p : Params) (off k : Nat) : Bool := p.w.testBit (8 * off + k)
/-- Bytes of the parameters. -/
def Params.bytes (p : Params) (off len : Nat) : List Byte := leBytes len (p.w / 2 ^ (8 * off))
/-- A field whose value 0xFF, 0xFFFF … means none. -/
def Params.opt (p : Params) (off : Nat) (n : Nat) : Option (Fin n) :=
  if h : p.u off 1 < n then some ⟨p.u off 1, h⟩ else none
/-- A field reduced to an index; the layout has checked its range. -/
def Params.fin (p : Params) (off : Nat) (n : Nat) [NeZero n] : Fin n := Fin.ofNat n (p.u off 1)

/-- The parameters in the descriptor. -/
def jobInline (j : Job) : Params := { w := j.desc.toNat, len := 64, block := false }

/-! ### The catalogue -/

/-- A row of the job catalogue (R81): code, World column S, factory, target in colophon order (16 PCU, 17 the
steering port). -/
structure CatRow where
  code    : Nat
  secure  : Bool
  factory : Bool
  target  : Nat
  deriving DecidableEq, Repr

/-- Rows of one group: the high byte of the code, its target, and for each low byte whether it is S. -/
def catGroup (hi target : Nat) (rows : List (Nat × Bool)) : List CatRow :=
  rows.map fun r => { code := hi * 256 + r.1, secure := r.2, factory := false, target := target }

/-- The job catalogue, groups 0x01 to 0x05 (R81). -/
def catSystem : List CatRow :=
  catGroup 0x01 0 [(1, false), (2, true), (3, true), (4, true), (5, false), (8, false)] ++
  catGroup 0x02 2 [(1, true), (2, true), (3, true), (4, true), (5, true), (6, true), (7, true)] ++
  [{ code := 0x0208, secure := true, factory := true, target := 2 }] ++
  catGroup 0x03 2 [(1, true), (2, true), (3, true), (4, true), (5, true)] ++
  catGroup 0x04 3 [(1, true), (2, false), (3, false)] ++
  [{ code := 0x0404, secure := true, factory := true, target := 3 }] ++
  catGroup 0x05 16 [(1, false), (2, true), (3, false)]

/-- Groups 0x10 to 0x16 (R81). -/
def catTime : List CatRow :=
  catGroup 0x10 6 [(1, false), (2, false), (3, false), (4, false), (5, false), (6, false), (7, false)] ++
  catGroup 0x11 7 [(1, false), (2, false), (3, false)] ++
  catGroup 0x12 5 [(1, false), (2, false), (3, false), (4, false), (5, false), (6, false)] ++
  catGroup 0x13 8 [(1, false), (2, false), (3, false), (4, false)] ++
  catGroup 0x13 7 [(5, false), (6, false)] ++
  catGroup 0x13 17 [(7, false)] ++
  catGroup 0x14 9 [(1, false), (2, false)] ++
  catGroup 0x15 9 [(1, false), (2, false), (3, false), (4, false)] ++
  catGroup 0x16 10 [(1, false), (2, false), (3, false), (4, false), (5, false)]

/-- Groups 0x20 to 0x60 (R81). -/
def catService : List CatRow :=
  catGroup 0x20 11 [(1, false), (2, false), (3, false), (4, false), (5, false), (6, false), (7, false), (8, false)] ++
  catGroup 0x21 12 [(1, false), (2, false), (3, false), (4, false)] ++
  catGroup 0x22 12 [(1, false), (2, false), (3, false), (4, false), (5, false)] ++
  catGroup 0x23 12 [(1, false), (2, false), (3, false), (4, false)] ++
  catGroup 0x24 12 [(1, false), (2, false), (3, false)] ++
  catGroup 0x30 14 [(1, false), (2, false), (3, false), (4, false), (5, false)] ++
  catGroup 0x40 15 [(1, false), (2, false), (3, false), (4, false), (5, false)] ++
  catGroup 0x50 0 [(1, false), (2, true), (3, false), (4, true)] ++
  catGroup 0x60 4 [(1, false), (2, true)]

/-- The row of a job code (R81). -/
def catalogue (code : Nat) : Option CatRow :=
  (catSystem ++ catTime ++ catService).find? fun r => r.code == code

/-- The subsystem that a target belongs to: PCU is a unit of CPX, the steering port one of EHU (R17, R81). -/
def subsystemOf (target : Nat) : Nat := if target = 16 then 0 else if target = 17 then 7 else target

/-- The subsystem of a job, for resets and R68. -/
def jobSubsystem (j : Job) : Option Nat := (catalogue j.code).map fun r => subsystemOf r.target

/-! ### Parameter tables -/

/-- One row of a parameter table (R14): its bytes and its range. -/
structure Field where
  off : Nat
  len : Nat
  ok  : Nat → Bool

/-- A range of an unsigned field. -/
def fRange (off len lo hi : Nat) : Field := { off, len, ok := fun v => decide (lo ≤ v) && decide (v ≤ hi) }
/-- A range of a signed field. -/
def fSigned (off len : Nat) (lo hi : Int) : Field :=
  { off, len, ok := fun v => decide (lo ≤ signed (8 * len) v) && decide (signed (8 * len) v ≤ hi) }
/-- Any value. -/
def fAny (off len : Nat) : Field := { off, len, ok := fun _ => true }
/-- A range of a byte, or 0xFF. -/
def fOpt (off hi : Nat) : Field := { off, len := 1, ok := fun v => decide (v ≤ hi) || v == 0xFF }
/-- A field whose bits outside a mask are reserved. -/
def fMask (off len mask : Nat) : Field := { off, len, ok := fun v => v &&& mask == v }
/-- One of some values. -/
def fOne (off len : Nat) (vs : List Nat) : Field := { off, len, ok := fun v => vs.contains v }

/-- The offsets that fail: fields outside their range and non-zero reserved bytes, in the bytes `lo .. hi-1`. -/
def badFields (fs : List Field) (p : Params) (lo hi : Nat) : List Nat :=
  (fs.filter fun f => !f.ok (p.u f.off f.len)).map Field.off ++
  ((List.range hi).filter fun k =>
    decide (lo ≤ k) && !(fs.any fun f => decide (f.off ≤ k) && decide (k < f.off + f.len)) && p.u k 1 != 0)

/-- How a job uses DMA_PARAM (R54). -/
structure DmaRule where
  /-- the job runs only with DMA_PARAM -/
  required : Bool := false
  /-- PARAM_LEN that the rule admits -/
  lenOk : Nat → Bool := fun n => n == 64
  /-- the length agrees with what the block says of it -/
  lenRule : Params → Bool := fun _ => true
  /-- the fields stand in the block at the offsets of the inline form -/
  inBlock : Bool := true
  /-- bytes of the block that the parameter table covers -/
  covered : Nat := 64
  /-- fields of the job in the descriptor beside the pointers -/
  own : List Field := []

/-- The rule of a job with inline parameters and no block layout of its own (R54). -/
def dmaSame : DmaRule := {}
/-- The rule of a job without parameters (R54). -/
def dmaNoBlock : DmaRule := { lenOk := fun n => n == 0, inBlock := false, covered := 0 }

/-- R429: the lowest offset of a list. -/
def lowest : List Nat → Option Nat
  | [] => none
  | a :: t => some (t.foldl min a)

/-- R429: RESULT0 of REJECTED_PARAM from the offsets that fail in the descriptor and in the block; every descriptor
offset counts before every block offset. -/
def offence (inDesc inBlock : List Nat) : Option Word :=
  match lowest inDesc with
  | some o => some (word o)
  | none =>
    match lowest inBlock with
    | some o => some (word (o + 2 ^ 31))
    | none => none

end Sys2Proof.Machine
end

