-- ==== Sys2Proof/Machine/Ops.lean ====
section
/-! DEFINITION. Named operations over the state: one update for each indexed part, interrupt sources, counters,
free values, interrupts' condition sources and completions. -/

namespace Sys2Proof.Machine

/-! ### Updates of one part -/

/-- One time domain changed. -/
def State.setDom (s : State) (d : Nat) (f : Domain → Domain) : State :=
  { s with tcr := { s.tcr with dom := vmod s.tcr.dom d f } }
/-- One ledger record changed. -/
def State.setLedger (s : State) (d : Nat) (f : Ledger → Ledger) : State :=
  s.setDom d fun x => { x with ledger := f x.ledger }
/-- The sequencer changed. -/
def State.setSeq (s : State) (f : Seq → Seq) : State := { s with tcr := { s.tcr with seq := f s.tcr.seq } }
/-- One pool entry changed. -/
def State.setRef (s : State) (r : Nat) (f : RefEntry → RefEntry) : State :=
  { s with rim := { s.rim with ref := vmod s.rim.ref r f } }
/-- One DPLL changed. -/
def State.setDpll (s : State) (k : Nat) (f : Dpll → Dpll) : State :=
  { s with dsb := { s.dsb with dpll := vmod s.dsb.dpll k f } }
/-- Holdover of one DPLL changed. -/
def State.setHold (s : State) (k : Nat) (f : Hold1 → Hold1) : State :=
  { s with ehu := { s.ehu with hold := vmod s.ehu.hold k f } }
/-- One ensemble member changed. -/
def State.setMember (s : State) (m : Nat) (f : Member → Member) : State :=
  { s with ehu := { s.ehu with member := vmod s.ehu.member m f } }
/-- One ring changed. -/
def State.setRing (s : State) (r : Nat) (f : Ring → Ring) : State :=
  { s with mbx := { s.mbx with rings := vmod s.mbx.rings r f } }
/-- One fault class changed. -/
def State.setClass (s : State) (c : Nat) (f : FaultClass → FaultClass) : State :=
  { s with fco := { s.fco with cls := vmod s.fco.cls c f } }
/-- BLOCK reset and shadow of one subsystem changed. -/
def State.setBlock (s : State) (b : Nat) (v : BlockReset) : State :=
  { s with fco := { s.fco with block := vmod s.fco.block b fun _ => v } }
/-- The shadow of a reset runs on until 64 µs from now at least (R360, R361). -/
def State.extendShadow (s : State) (b : Nat) : State :=
  { s with fco := { s.fco with shadowTo := vmod s.fco.shadowTo b fun c => max c (s.tcr.cycles + 64000) } }
/-- A reset is released and its shadow runs (R360). -/
def State.releaseBlock (s : State) (b : Nat) : State := (s.setBlock b .shadow).extendShadow b
/-- One key slot changed. -/
def State.setKey (s : State) (k : Nat) (f : KeySlot → KeySlot) : State :=
  { s with sec := { s.sec with key := vmod s.sec.key k f } }
/-- One rail changed. -/
def State.setRail (s : State) (r : Nat) (f : Rail → Rail) : State :=
  { s with srt := { s.srt with rail := vmod s.srt.rail r f } }
/-- One sensor changed. -/
def State.setSensor (s : State) (k : Nat) (f : Sensor → Sensor) : State :=
  { s with srt := { s.srt with sensor := vmod s.srt.sensor k f } }

/-- One domain. -/
def State.domain (s : State) (d : Nat) : Domain := vget s.tcr.dom d {}
/-- One pool entry. -/
def State.refEntry (s : State) (r : Nat) : RefEntry := vget s.rim.ref r {}
/-- One DPLL. -/
def State.dpllOf (s : State) (k : Nat) : Dpll := vget s.dsb.dpll k {}
/-- Holdover of one DPLL. -/
def State.holdOf (s : State) (k : Nat) : Hold1 := vget s.ehu.hold k {}
/-- One ring. -/
def State.ring (s : State) (r : Nat) : Ring := vget s.mbx.rings r {}
/-- One key slot. -/
def State.keySlot (s : State) (k : Nat) : KeySlot := vget s.sec.key k {}

/-- A fold of an update over the indices below `n`. -/
def forAll (n : Nat) (s : State) (f : Nat → State → State) : State := (List.range n).foldl (fun t i => f i t) s

/-! ### Free values (log entry 3) -/

/-- The next free integer, and the state with one more value drawn. -/
def drawInt (s : State) : Int × State := (Config.freeInt s.fresh, { s with fresh := s.fresh + 1 })
/-- The next free natural number. -/
def drawNat (s : State) : Nat × State := (Config.freeNat s.fresh, { s with fresh := s.fresh + 1 })
/-- The next free run of `n` bytes. -/
def drawBytes (n : Nat) (s : State) : List Byte × State :=
  ((Config.freeBytes s.fresh ++ List.replicate n 0).take n, { s with fresh := s.fresh + 1 })

/-! ### Part, straps, phases -/

/-- COL_FUSE_UNITS (R77). -/
def fuseUnits : Part → Nat
  | .lt2460 => 0xFFFF
  | .lt2452 => 0xBFFF
  | .lt2436 => 0x7FFF
/-- COL_FUSE_LANES (R77). -/
def fuseLanes : Part → Nat
  | .lt2436 => 0xFFF
  | _ => 0xFFFFFF
/-- The subsystem is present (R5). -/
def State.present (s : State) (b : Nat) : Bool := (fuseUnits s.col.part).testBit b
/-- The lane, with its port, is present (R5). -/
def State.lanePresent (s : State) (l : Nat) : Bool := (fuseLanes s.col.part).testBit l
/-- The pool entry has a source (R7). -/
def State.refPresent (s : State) (r : Nat) : Bool := !((r == 16 || r == 17) && !s.present 14)

/-- CD-SYS and CD-TIME run (R403 step 2 on). -/
def State.clocked (s : State) : Bool :=
  match s.cpx.phase with
  | .inReset | .starting => false
  | _ => true
/-- CD-TIME and CD-SYS are in range (R26). -/
def State.clockOk (s : State) : Bool := s.tcr.clockBad == 0
/-- Firmware runs: it was started, and no WARM restart is in progress (R70, R403 step 4). -/
def State.fwRuns (s : State) : Bool :=
  match s.cpx.phase with
  | .firmware | .ready => s.cpx.warm.isNone
  | _ => false
/-- The subsystem is clocked and not held in a BLOCK reset. -/
def State.blockRuns (s : State) (b : Nat) : Bool :=
  s.clocked && s.present b && (vget s.fco.block b .none != .asserted)

/-! ### Interrupts (R73) -/

/-- The source is pending: status 1 and mask 0. -/
def irqPending (i : Intc) (n : Nat) : Bool := i.status.getLsbD n && !i.mask.getLsbD n

/-- Set a status bit; in MSI-X mode a transition to pending sends its vector. -/
def raiseIrq (n : Nat) (s : State) : State :=
  if n = 4 && !s.srt.straps.swin then s else
  let i := s.intc
  let i' := { i with status := i.status ||| BitVec.ofNat 32 (2 ^ n) }
  let sends := !i.pin && !irqPending i n && irqPending i' n
  { s with intc := { i' with sent := if sends then i.sent ++ [vget i.map n 0] else i.sent } }

/-- INT_N is driven low (R73). -/
def intN (s : State) : Bool := s.intc.pin && (s.intc.status &&& ~~~s.intc.mask) != 0

/-! ### Performance counters (R370, R372, R373) -/

/-- One counter takes `n` events; it wraps past 2^48 − 1 and sets OVF. -/
def ctrAdd (c : Ctr) (n : Nat) : Ctr :=
  { c with count := c.count + BitVec.ofNat 48 n, ovf := c.ovf || decide (2 ^ 48 ≤ c.count.toNat + n) }

/-- `n` events of a code at an instance; a counter with INSTANCE 0xFF sums all instances. A rising OVF bit raises
interrupt source 17. -/
def pcuCount (ev inst n : Nat) (s : State) : State :=
  let hit := fun (c : Ctr) => c.event.toNat == ev && (c.inst == 0xFF || c.inst.toNat == inst)
  let ctr := s.pcu.ctr.map fun c => if hit c then ctrAdd c n else c
  let rose := s.pcu.ctr.toList.any fun c => hit c && !c.ovf && (ctrAdd c n).ovf
  let s' := { s with pcu := { s.pcu with ctr := ctr } }
  if rose then raiseIrq 17 s' else s'

/-! ### Outstanding jobs (R51, R58, R61) -/

/-- OUTSTANDING of a ring: jobs fetched whose completion slot has not been consumed. -/
def outstanding (s : State) (r : Nat) : Nat :=
  (s.mbx.flights.filter fun f => f.job.ring.val == r).length + (s.mbx.due.filter fun d => d.job.ring.val == r).length +
    (s.ring r).unconsumed.length
/-- NS_OUTSTANDING (R52). -/
def nsOutstanding (s : State) : Nat := ((List.range 4).map (outstanding s)).sum

/-- The tag is in use in the world of a ring (R58). -/
def tagInUse (s : State) (j : Job) : Bool :=
  s.mbx.flights.any (fun f => f.job.secure == j.secure && f.job.tag == j.tag) ||
  s.mbx.due.any (fun d => d.job.secure == j.secure && d.job.tag == j.tag) ||
  (List.range 5).any fun r => (r == 4) == j.secure && (s.ring r).unconsumed.any fun p => p.tag == j.tag

/-! ### Completions (R55, R64) -/

/-- DONE (R56). -/
def replyDone : Reply := {}
/-- REJECTED_WORLD. -/
def rejWorld : Reply := { status := 0x10 }
/-- REJECTED_PARAM with RESULT0 of R429. -/
def rejParam (r0 : Word) : Reply := { status := 0x11, r0 := r0 }
/-- REJECTED_STATE. -/
def rejState : Reply := { status := 0x12 }
/-- REJECTED_MODE. -/
def rejMode : Reply := { status := 0x13 }
/-- UNKNOWN_JOB. -/
def rejUnknown : Reply := { status := 0x14 }

/-- The 32 bytes of a completion (R55). IMPRESSION and SECOND are those at which the job took effect; for a job that took
none (refused, broken chain, aborted) R55 gives no moment, and the bytes hold that of posting: DESIGN CHOICE, log entry 89. -/
def completionBytes (s : State) (j : Job) (r : Reply) (f : DoneFlags) (wrote : Bool) : List Byte :=
  leBytes 2 j.tag.toNat ++ leBytes 2 j.code ++ leBytes 1 r.status ++
  leBytes 1 (bit wrote + 2 * bit f.dupTag + 4 * bit f.chainBroken + 8 * bit f.afterRestart) ++
  leBytes 2 (f.took.getD (s.tcr.seq.imp, s.tcr.seq.second)).1 ++
  leBytes 8 (f.took.getD (s.tcr.seq.imp, s.tcr.seq.second)).2 ++
  leBytes 4 r.r0.toNat ++ leBytes 4 r.r1.toNat ++ leBytes 4 r.r2.toNat ++ leBytes 4 r.r3.toNat

/-- The completion trigger of a ring holds (R51): CC_THRESHOLD or CC_HOLDOFF. -/
def ccTrigger (g : Ring) : Bool :=
  (g.ccThreshold != 0 && decide (g.ccThreshold.toNat ≤ (g.ctail - g.chead).toNat)) ||
  (g.ccHoldoff != 0 && (match g.unconsumed with
    | [] => false
    | p :: _ => decide (g.ccHoldoff.toNat ≤ p.age)))

/-- Raise the completion source of a ring while its trigger holds (R51, R74). -/
def raiseCompletion (r : Nat) (s : State) : State := if ccTrigger (s.ring r) then raiseIrq r s else s

/-- Write the result buffer: to the host bus in PCIe mode, to the staging area of the ring's world in SPI mode
(R54). -/
def writeResult (j : Job) (out : List Byte) (s : State) : State :=
  if s.srt.straps.spi then
    { s with mbx := { s.mbx with mem := Memory.writeBytes s.mbx.mem (stagingBase j.secure + j.resultAddr) out } }
  else { s with mbx := { s.mbx with dmaOut := s.mbx.dmaOut ++ [(BitVec.ofNat 64 j.resultAddr, out)] } }

/-- A completion goes into the slot at CTAIL, which advances (R51, R55, R304). -/
def putCompletion (j : Job) (r : Reply) (f : DoneFlags) (wrote : Bool) (s : State) : State :=
  let at' := ccBase j.ring + ((s.ring j.ring.val).ctail.toNat % 256) * 32
  let s := { s with mbx := { s.mbx with mem := Memory.writeBytes s.mbx.mem at' (completionBytes s j r f wrote) } }
  s.setRing j.ring.val fun g => { g with ctail := g.ctail + 1, unconsumed := g.unconsumed ++ [{ tag := j.tag, age := 0 }] }

/-- Firmware posts completions: no WARM restart is in progress (R70, R405), and the posting class does not overrun
the impression in progress (R28, R32). -/
def posting (s : State) : Bool := s.cpx.warm.isNone && !s.tcr.seq.overran.getLsbD 6

/-- The completion of a job goes out: the result buffer, then the completion (R54, R64). -/
def postNow (j : Job) (r : Reply) (f : DoneFlags) (s : State) : State :=
  let wrote := j.dma && !r.out.isEmpty
  let s := if wrote then writeResult j r.out s else s
  if j.noCompletion && r.status == 0x00 then s else
  let s := pcuCount 0x010E j.ring.val 1 (putCompletion j r f wrote s)
  let s := if r.status = 0x31 then pcuCount 0x010F j.ring.val 1 s else s
  raiseCompletion j.ring.val s

/-- Post the completion of a job, unless NO_COMPLETION relieves it (R64); an engine that has been reset meanwhile posts
none (R71). The completion of a job of the configuration list goes to the firmware that runs the list (R329; log entry
23). While firmware does not post, the completion waits, with the moment of effect (R32, R70). -/
def postCompletion (j : Job) (r : Reply) (f : DoneFlags) (s : State) : State :=
  if !s.clocked then s else
  match s.cpx.list with
  | some l => { s with cpx := { s.cpx with list := some { l with status := some r.status } } }
  | none =>
    if posting s || (j.noCompletion && r.status == 0x00 && r.out.isEmpty) then postNow j r f s
    else
      let f := { f with took := some (f.took.getD (s.tcr.seq.imp, s.tcr.seq.second)) }
      { s with mbx := { s.mbx with due := s.mbx.due ++ [{ job := j, reply := r, flags := f }] } }

/-- The completions that waited go out, oldest first. -/
def postDue (s : State) : State :=
  s.mbx.due.foldl (fun t d => postNow d.job d.reply d.flags t) { s with mbx := { s.mbx with due := [] } }

/-- A job that acts later than the impression it requested completes with DEFERRED (R32, R142). -/
def lateReply (f : Flight) (r : Reply) : Reply :=
  if f.late && (r.status == 0x00 || r.status == 0x01) then { r with status := 0x31 } else r

/-- A job leaves the list of those in flight. -/
def dropFlight (f : Flight) (s : State) : State :=
  { s with mbx := { s.mbx with flights := s.mbx.flights.filter fun g => g.order != f.order } }

/-- DONE, DONE_WITH_WARNING and DEFERRED do not fail a job. -/
def succeeded (r : Reply) : Bool := r.status == 0x00 || r.status == 0x01 || r.status == 0x31

/-- The job has not begun to act. -/
def Hold.unbegun : Hold → Bool
  | .effect | .block _ | .release _ | .fence => true
  | _ => false

/-- What a completion says of a job that was in flight. -/
def Flight.flags (f : Flight) : DoneFlags := { afterRestart := f.spanned, took := f.took, order := f.order }

/-- A job of a chain has failed (R63): every later job of the chain that has not begun to act completes REJECTED_STATE with
CHAIN_BROKEN, and those not yet fetched are refused so when they are. -/
def breakChain (f : Flight) (s : State) : State :=
  match f.chain with
  | none => s
  | some c =>
    let s := s.setRing f.job.ring.val fun g => { g with chainBroken := g.chainBroken || (g.inChain && g.chainId == c) }
    let later := s.mbx.flights.filter fun g =>
      g.job.ring == f.job.ring && g.chain == some c && decide (f.order < g.order) && g.hold.unbegun
    later.foldl (fun t g => postCompletion g.job rejState { g.flags with chainBroken := true } (dropFlight g t)) s

/-- Complete a job in flight: it leaves the list, and its completion is posted (R61, R70); one that failed breaks its
chain (R63). -/
def finish (f : Flight) (r : Reply) (s : State) : State :=
  let s := postCompletion f.job (lateReply f r) f.flags (dropFlight f s)
  if succeeded r then s else breakChain f s

/-- Complete every job in flight with a given hold (R61). -/
def finishHeld (p : Hold → Bool) (r : Flight → Reply) (s : State) : State :=
  (s.mbx.flights.filter fun f => p f.hold).foldl (fun t f => finish f (r f) t) s

end Sys2Proof.Machine
end

