-- ==== Sys2Proof/Machine/Time.lean ====
section
/-! DEFINITION. Time: how the counters, the slews, the DPLL movements and the handover remainder move with CD-TIME
(R24, R88, R93, R101, R150), and the boundaries of the impression grid (R27, R35). Log entries 13 and 14. -/

namespace Sys2Proof.Machine

/-- One nanosecond in counter units of 10^-33 ns. -/
def nsU : Nat := 10 ^ 33
/-- One second in counter units. -/
def secU : Nat := 10 ^ 42
/-- One impression, 125 µs, in counter units (R27). -/
def impU : Nat := 125000 * nsU
/-- One unit of a signed interval, 2^-16 ns, in counter units (R84). -/
def ivlU : Nat := nsU / 65536
/-- One picosecond in counter units. -/
def psU : Nat := 10 ^ 30

/-- The gain of R151, units of 0.001 ppt per code: the user value of STEER_GAIN (R377). -/
def steerGain (s : State) : Int :=
  match s.cal.user.find? fun c => c.item == 0x4100 with
  | some c => c.value
  | none => 0

/-- Clamp to a symmetric range. -/
def clampSym (top v : Int) : Int := max (-top) (min top v)

/-- PULL_IN_PPB in units of 0.001 ppt (R133). -/
def pullIn (k : Dpll) : Int := k.pullIn * 1000000

/-- The frequency offset at which the NCO of a DPLL runs, units of 0.001 ppt: its control value, or the residue
that R152 leaves on a steering DPLL, plus the offset of R149. -/
def ncoOffset (s : State) (k : Nat) : Int :=
  let d := s.dpllOf k
  let st := s.ehu.steer
  if st.dpll.any (fun x => x.val == k) && st.lastCode.isSome then clampSym (pullIn d) (d.control - st.applied) + d.steer
  else d.control + d.steer

/-- The increment of a domain in one CD-TIME cycle without slews and movements (R24, R89). -/
def baseInc (s : State) (d : Nat) : Nat :=
  match (s.domain d).dpll with
  | none => nsU
  | some k => ((nsU : Int) + ncoOffset s k.val * 10 ^ 18).toNat

/-- A signed movement of at most `step` of a remainder. -/
def moveBy (rem : Int) (step : Nat) : Int := if 0 ≤ rem then min rem step else max rem (-(step : Int))

/-- What a running slew adds to its domain in `n` cycles (R93). -/
def slewPart (s : State) (d n : Nat) : Int :=
  match (s.domain d).slew with
  | none => 0
  | some w => moveBy w.remaining (n * baseInc s d * w.ppb / 10 ^ 9)

/-- What the phase movement of a DPLL removes from its domains in `n` cycles (R141, R150). -/
def movePart (s : State) (k n : Nat) : Int :=
  moveBy (s.dpllOf k).moving (n * nsU * (s.dpllOf k).phaseSlope / 10 ^ 9)

/-- A slew of domain `e` moves domain `d`: its own, or one on the same DPLL, whose NCO carries it (R93). -/
def slewMoves (s : State) (e d : Nat) : Bool :=
  e == d || ((s.domain e).dpll.isSome && (s.domain e).dpll == (s.domain d).dpll)

/-- How far a domain's counter moves in `n` CD-TIME cycles. -/
def domMove (s : State) (d n : Nat) : Int :=
  (n * baseInc s d : Nat) +
  ((List.range 4).map fun e => if slewMoves s e d then slewPart s e n else 0).sum -
  (match (s.domain d).dpll with
   | none => 0
   | some k => movePart s k.val n)

/-- A domain's counter after `n` cycles. -/
def countAfter (s : State) (d n : Nat) : Nat := ((s.domain d).count + domMove s d n).toNat

/-- The handover remainder after `n` cycles: it moves towards zero by SLEW_PPB × 10^-9 of the interval that the
active domain's counter passes (R35, R101). -/
def remainderAfter (s : State) (n : Nat) : Int :=
  s.tcr.remainder - moveBy s.tcr.remainder ((domMove s s.tcr.active.val n).toNat * s.tcr.slewPpb / 10 ^ 9)

/-- The time of a view (R87, R88): a domain's counter, or the active domain's counter plus the remainder. -/
def viewCount (s : State) (v : Nat) : Nat :=
  if v < 4 then (s.domain v).count else ((s.domain s.tcr.active.val).count + s.tcr.remainder).toNat

/-- The time of the active view after `n` cycles. -/
def viewAfter (s : State) (n : Nat) : Nat := (countAfter s s.tcr.active.val n + remainderAfter s n).toNat

/-- The domain behind a view. -/
def viewDomain (s : State) (v : Nat) : Nat := if v < 4 then v else s.tcr.active.val

/-- Time on the line of an abandoned grid after `n` cycles (R35 step 2). -/
def lineAfter (s : State) (g : GridLine) (n : Nat) : Nat := (countAfter s g.dom.val n + g.offset).toNat

/-- Where the next impression begins: the cycles until then, its number and second, and what is left of a
realignment (R27, R35). -/
structure Landing where
  cycles : Nat
  seq    : Seq
  deriving DecidableEq, Repr

/-- The boundary at which the next impression begins. -/
def nextBoundary (s : State) : Landing :=
  let q := s.tcr.seq
  match q.realign, q.oldLine with
  | some b, some g =>
    if q.lengthened then
      { cycles := least (fun n => decide (b * secU ≤ viewAfter s n)) 20 0
        seq := { q with imp := 0, second := b, realign := none, oldLine := none, lengthened := false } }
    else
      let k := lineAfter s g 0 / impU + 1
      let n := least (fun n => decide (k * impU ≤ lineAfter s g n)) 20 0
      let gap := (b * secU : Int) - viewAfter s n
      let imp := (q.imp + 1) % 8000
      { cycles := n
        seq := { q with imp := imp, second := if imp = 0 then q.second + 1 else q.second
                        lengthened := decide (gap < 250005 * nsU) } }
  | _, _ =>
    let k := viewAfter s 0 / impU + 1
    { cycles := least (fun n => decide (k * impU ≤ viewAfter s n)) 20 0
      seq := { q with imp := k % 8000, second := k / 8000 } }

/-- Start a realignment at a commit (R35 step 1): B is the first second of the new time line at least 250 µs after
the commit; the grid in progress counts on along `old`. -/
def startRealign (old : GridLine) (s : State) : State :=
  let v := viewCount s 4
  let b := (v + 250000 * nsU + (secU - 1)) / secU
  let passed := lineAfter s old 0 % impU
  s.setSeq fun q => { q with realign := some b, oldLine := some old,
                             lengthened := decide (b * secU - v + passed < 250005 * nsU) }

/-- The grid line that impressions are counted on now: the line of a realignment in progress, or the active view's
(R35 step 5). -/
def gridLine (s : State) : GridLine :=
  match s.tcr.seq.oldLine with
  | some g => g
  | none => { dom := s.tcr.active, offset := s.tcr.remainder }

/-- SECONDS of a counter value. -/
def secondsOf (c : Nat) : Nat := c / secU
/-- NS of a counter value. -/
def nsOf (c : Nat) : Nat := c % secU / nsU
/-- FRAC of a counter value, units of 2^-16 ns. -/
def fracOf (c : Nat) : Nat := c % nsU / ivlU

/-- The current second of a view. -/
def viewSecond (s : State) (v : Nat) : Nat := secondsOf (viewCount s v)

/-- The whole second that a view is at: the nearest one (for an event that falls on a second). -/
def nearSecond (s : State) (v : Nat) : Nat := (viewCount s v + secU / 2) / secU

/-- A signed interval, units of 2^-16 ns, of a movement in counter units (R84), rounded towards zero. -/
def toInterval (x : Int) : Int := x.tdiv ivlU

end Sys2Proof.Machine
end

