-- ==== Sys2Proof/Machine/Flags.lean ====
section
/-! DEFINITION. Flags and derived figures: the flags of a time value (R82), ledger records (R111, R112, R102), the
figures that consumers show (R119, R85). -/

namespace Sys2Proof.Machine

/-! ### The time value (R82) -/

/-- VALID of a view: the domain has been set and CD-TIME is in range. -/
def viewValid (s : State) (v : Nat) : Bool := (s.domain (viewDomain s v)).valid && s.clockOk

/-- HOLDOVER of a view: the disciplining DPLL is in holdover. -/
def viewHoldover (s : State) (v : Nat) : Bool :=
  match (s.domain (viewDomain s v)).dpll with
  | none => false
  | some k => (s.dpllOf k.val).st == .holdover

/-- The DPLL of a domain moves its phase by a step (R150). -/
def stepMoves (s : State) (d : Nat) : Bool :=
  match (s.domain d).dpll with
  | none => false
  | some k => (s.dpllOf k.val).stepMoving

/-- SLEWING of a view (R94, R101, R150). -/
def viewSlewing (s : State) (v : Nat) : Bool :=
  let d := viewDomain s v
  (s.domain d).slew.isSome || stepMoves s d || (v == 4 && s.tcr.remainder != 0)

/-- The seconds that a leap adds to the offset. -/
def Leap.delta : Leap → Int
  | .none => 0
  | .insert => 1
  | .delete => -1

/-- The code of a leap (R82). -/
def Leap.code : Leap → Nat
  | .none => 0
  | .insert => 1
  | .delete => 2

/-- TAI − UTC of a domain in a TAI second (R98): from LEAP_SECOND on, the leap is in it. -/
def Domain.utcAt (x : Domain) (sec : Nat) : Int := if x.leapSecond ≤ sec then x.utcOffset + x.leap.delta else x.utcOffset

/-- LEAP of a domain in a TAI second (R98): pending from LEAP_SECOND − 86,400 until LEAP_SECOND. -/
def Domain.leapAt (x : Domain) (sec : Nat) : Nat :=
  if x.leapSecond ≤ sec + 86400 ∧ sec < x.leapSecond then x.leap.code else 0

/-- LEAP of a view (R98). -/
def viewLeap (s : State) (v : Nat) : Nat := (s.domain (viewDomain s v)).leapAt (viewSecond s v)

/-- KIND of a time value (R82). -/
inductive TimeKind where
  | main
  | fallback
  | launch
  | event
  deriving DecidableEq, Repr

/-- The code of KIND. -/
def TimeKind.code : TimeKind → Nat
  | .main => 0
  | .fallback => 1
  | .launch => 2
  | .event => 3

/-- FRAC of a time value: stamps of frames and launches keep 2^-7 ns (R83), stamps of events 2^-3 ns (R217). -/
def TimeKind.frac (k : TimeKind) (count : Nat) : Nat :=
  match k with
  | .main => fracOf count
  | .event => fracOf count / 8192 * 8192
  | _ => fracOf count / 512 * 512

/-- VALID, HOLDOVER, EXCURSION and SLEWING of a view's time values, at their places in R82. -/
def timeFlags (s : State) (v : Nat) : Nat :=
  bit (viewValid s v) * 2 ^ 11 + bit (viewHoldover s v) * 2 ^ 10 + bit s.srt.dip * 2 ^ 8 + bit (viewSlewing s v) * 2 ^ 7

/-- A time value (R82) of a domain's time at a counter value, with its flags. -/
def timeWord (x : Domain) (dom count flags : Nat) (k : TimeKind) (calibrated : Bool) : BitVec 128 :=
  BitVec.ofNat 128
    (secondsOf count * 2 ^ 64 + nsOf count * 2 ^ 34 + k.frac count * 2 ^ 18 + dom * 2 ^ 16 + k.code * 2 ^ 14 +
     x.leapAt (secondsOf count) * 2 ^ 12 + bit calibrated * 2 ^ 9 + flags)

/-- A time value of a view at a counter value (R82). -/
def timeValue (s : State) (v : Nat) (count : Nat) (k : TimeKind) (calibrated : Bool) : BitVec 128 :=
  timeWord (s.domain (viewDomain s v)) (viewDomain s v) count (timeFlags s v) k calibrated

/-- The time of a view now, taken by no input path (R379). -/
def timeNow (s : State) (v : Nat) : BitVec 128 := timeValue s v (viewCount s v) .main s.cal.crcOk

/-! ### The ledger (R111, R112) -/

/-- One picosecond in ledger units of 1/8000 fs. -/
def psL : Nat := 8000000
/-- The unknown bound (R86). -/
def boundUnknown : Nat := 2 ^ 48 - 1

/-- |remainder| of a domain's slew and DPLL step in ledger units (R94, R150). -/
def movingL (s : State) (d : Nat) : Nat :=
  let w := match (s.domain d).slew with
    | none => 0
    | some w => w.remaining.natAbs
  let m := match (s.domain d).dpll with
    | none => 0
    | some k => if (s.dpllOf k.val).stepMoving then (s.dpllOf k.val).moving.natAbs else 0
  (w + m) * psL / psU

/-- C_REF as shown, with the |remainder| part that the latest boundary refreshed (R94), ledger units. -/
def cRefL (s : State) (d : Nat) : Nat := (s.domain d).ledger.cRef + (s.domain d).ledger.moving

/-- The six contributions of a domain, ledger units (R111). -/
def contributions (s : State) (d : Nat) : List Nat :=
  let g := (s.domain d).ledger
  [cRefL s d, g.cServo, g.cHold, g.cCal + g.cFallback, g.cAsym, g.cSupply]

/-- A ledger amount in whole picoseconds: R112 keeps a fraction internally and does not say how it shows; it rounds up, so
that a bound never shows less than it is. DESIGN CHOICE, log entry 96. -/
def ceilPs (x : Nat) : Nat := ceilDiv x psL

/-- BOUND_PS of a domain (R112). -/
def domBound (s : State) (d : Nat) : Nat :=
  if (s.domain d).ledger.known then min (2 ^ 48 - 2) (ceilPs (contributions s d).sum) else boundUnknown

/-- The domain whose record a view shows: during an alignment the one with the largest bound among the domains
involved, the lowest-numbered of equals (R102, R103). -/
def recordDomain (s : State) (v : Nat) : Nat :=
  if v < 4 then v
  else (List.range 4).foldl
    (fun best d => if s.tcr.involved.any (fun x => x.val == d) && decide (domBound s best < domBound s d) then d else best)
    (match (List.range 4).find? fun d => s.tcr.involved.any fun x => x.val == d with
     | some d => d
     | none => s.tcr.active.val)

/-- BOUND_PS of a view. -/
def viewBound (s : State) (v : Nat) : Nat := domBound s (recordDomain s v)

/-- GROWTH_FS of a view. -/
def viewGrowth (s : State) (v : Nat) : Int := (s.domain (recordDomain s v)).ledger.growthFs

/-- CHAIN (R115). -/
def chainCode (g : Ledger) : Nat := g.chainClass.val * 4096 + g.chainHops.val * 256

/-- LAST_REF as shown (R111). -/
def lastRefCode (g : Ledger) : Nat :=
  match g.lastRef with
  | none => 0xFF
  | some r => r.val

/-- STATUS of the record that a view shows (R111). -/
def recordStatus (s : State) (v : Nat) : Nat :=
  let d := recordDomain s v
  let g := (s.domain d).ledger
  bit g.confirmed + 2 * bit g.holdover + 4 * bit (viewSlewing s v || viewSlewing s d) + 8 * bit s.srt.dip +
  16 * bit g.growsRef + 32 * bit (if v < 4 then g.aboveWarn else s.tcr.viewAboveWarn) +
  64 * bit (if v < 4 then g.aboveLimit else s.tcr.viewAboveLimit)

/-- The 64-byte record of a domain or of the active view (R111). -/
def ledgerRecord (s : State) (v : Nat) : List Byte :=
  let d := recordDomain s v
  let g := (s.domain d).ledger
  leBytes 6 (domBound s d) ++ leBytes 2 (recordStatus s v) ++ leBytes 4 (toCode 32 g.growthFs) ++
  leBytes 6 (ceilPs (cRefL s d)) ++ leBytes 6 (ceilPs g.cServo) ++ leBytes 6 (ceilPs g.cHold) ++
  leBytes 6 (ceilPs (g.cCal + g.cFallback)) ++ leBytes 6 (ceilPs g.cAsym) ++ leBytes 6 (ceilPs g.cSupply) ++
  leBytes 1 (lastRefCode g) ++ leBytes 1 v ++ leBytes 2 (chainCode g) ++ leBytes 4 g.sinceConfirm.toNat ++
  leBytes 2 g.updImpression ++ leBytes 6 g.updSecond.toNat

/-! ### What consumers show (R119, R85) -/

/-- Limits of the clockAccuracy codes from 0x17 on, units of 0.1 ps: 1, 2.5, 10, 25, 100, 250 and so on up to 1 s,
then 10 s (the order of IEEE 1588-2019, log entry 15). -/
def accuracyLimits : List Nat :=
  ((List.range 6).flatMap fun k =>
    [10 * 100 ^ k, 25 * 100 ^ k, 100 * 100 ^ k, 250 * 100 ^ k]) ++ [10 ^ 13, 10 ^ 14]

/-- PTP clockAccuracy: the smallest code whose limit is at least the bound (R119). -/
def clockAccuracy (bound : Nat) : Nat :=
  if bound = boundUnknown then 0xFE
  else match accuracyLimits.findIdx? fun l => decide (bound * 10 ≤ l) with
    | some i => 0x17 + i
    | none => 0x31

/-- PTP clockClass by the default mapping (R119). -/
def clockClass (s : State) (v : Nat) : Nat :=
  let d := recordDomain s v
  let g := (s.domain d).ledger
  if !viewValid s v then 248
  else if g.confirmed && !g.holdover then 6
  else if viewBound s v ≤ (s.domain (viewDomain s v)).warnPs then 7
  else 52

/-- Root dispersion in units of 2^-16 s, rounded up (R119). -/
def rootDispersion (bound : Nat) : Nat := min (2 ^ 32 - 1) (ceilDiv (bound * 65536) (10 ^ 12))

/-- NTP leap indicator (R119). -/
def ntpLeap (s : State) (v : Nat) : Nat := if viewValid s v then viewLeap s v else 3

/-- The IRIG time-quality code (R119): 0 when confirmed, else the decade code whose limit covers the bound. A VALID domain
whose bound exceeds 10 s or is unknown has no decade code; it shows 1111. DESIGN CHOICE, log entry 99. -/
def irigQuality (s : State) (v : Nat) : Nat :=
  let g := (s.domain (recordDomain s v)).ledger
  if !viewValid s v then 15
  else if g.confirmed && !g.holdover then 0
  else match (List.range 11).find? fun i => decide (viewBound s v ≤ 1000 * 10 ^ i) with
    | some i => i + 1
    | none => 15

/-- The continuous time-quality code (R119). -/
def irigContinuous (bound : Nat) : Nat :=
  if bound = boundUnknown then 7 else
  match (List.range 6).find? fun i => decide (bound < 100000 * 10 ^ i) with
  | some i => i + 1
  | none => 7

/-- BOUND_PS in ns, rounded up and saturating (R119). -/
def boundNs (bound : Nat) : Nat := min (2 ^ 32 - 1) (ceilDiv bound 1000)

/-- A TAI second is the one that an insertion adds (R85, R212). -/
def Domain.insertedAt (x : Domain) (sec : Nat) : Bool := x.leap == .insert && sec + 1 == x.leapSecond

/-- UTC seconds of a view at a TAI second (R85, R98): one more is subtracted in the second before an insertion. -/
def utcSeconds (s : State) (v : Nat) (tai : Nat) : Int :=
  let d := s.domain (viewDomain s v)
  (tai : Int) - d.utcAt tai - bit (d.insertedAt tai)

/-- The 64-bit NTP timestamp of a counter value (R85). -/
def ntpTimestamp (s : State) (v : Nat) (count : Nat) : BitVec 64 :=
  let sec := ((utcSeconds s v (secondsOf count) + 2208988800) % 2 ^ 32).toNat
  let frac := (nsOf count * 2 ^ 32 + fracOf count * 2 ^ 16) / 10 ^ 9
  BitVec.ofNat 64 (sec * 2 ^ 32 + frac)

/-- The assurance TLV body of a view (R119), less its flags and reserved bytes. -/
def assuranceOf (s : State) (v : Nat) : AssuranceTlv :=
  let g := (s.domain (recordDomain s v)).ledger
  { boundPs := BitVec.ofNat 48 (viewBound s v)
    growthFs := BitVec.ofInt 32 g.growthFs
    chain := BitVec.ofNat 16 (chainCode g)
    sinceConfirm := g.sinceConfirm
    lastRef := BitVec.ofNat 8 (lastRefCode g)
    flags := BitVec.ofNat 8 (bit g.holdover + 2 * bit (viewSlewing s v) + 4 * bit s.srt.dip + 8 * bit g.confirmed) }

end Sys2Proof.Machine
end

