-- ==== Sys2Proof/Machine/Vco.lean ====
section
/-! DEFINITION. The VCOs of FSO (R178, R179, R181, R183, R194): the modulator word, which carries the control value of the
source DPLL, the ramps of nominal and source, and what a VCO turns while CD-TIME passes. -/

namespace Sys2Proof.Machine

/-- One APLL changed. -/
def State.setApll (s : State) (n : Nat) (f : Apll → Apll) : State := { s with fso := { s.fso with apll := vmod s.fso.apll n f } }
/-- One output changed. -/
def State.setOut (s : State) (o : Nat) (f : Output → Output) : State := { s with fso := { s.fso with out := vmod s.fso.out o f } }
/-- One APLL. -/
def State.apllOf (s : State) (n : Nat) : Apll := vget s.fso.apll n {}
/-- One output. -/
def State.outOf (s : State) (o : Nat) : Output := vget s.fso.out o {}

/-- The feedback word N × 2^48 + F nearest to a nominal (R178). -/
def feedbackWord (vco : Nat) : Nat := (vco * 2 ^ 32 + 125000000) / 250000000

/-- One VCO cycle: the reference is CD-TIME divided by 4 (R178), so the VCO turns by its word in one CD-TIME cycle. -/
def vcoTurn : Nat := 2 ^ 50

/-- How far the NCO of a DPLL moves against CD-TIME in `n` cycles, counter units (R179): its frequency offset, the slews that it
carries, its phase movement. -/
def ncoMove (s : State) (k n : Nat) : Int :=
  n * ncoOffset s k * 10 ^ 18 +
  ((List.range 4).map fun d => if (s.domain d).dpll.any (fun x => x.val == k) then slewPart s d n else 0).sum - movePart s k n

/-- How far the control value y in the word of an APLL moves its VCO against its nominal in `n` cycles, counter units. -/
def yMove (s : State) (a : Apll) (n : Nat) : Int :=
  (match a.source with
   | none => 0
   | some k => ncoMove s k.val n) + n * a.yRest * 10 ^ 18

/-- What a VCO turns in `n` CD-TIME cycles (R178, R179): its word, clamped at 400 ppm from the anchor. -/
def vcoAdvance (s : State) (a : Apll) (n : Nat) : Nat :=
  let w := feedbackWord a.vco
  let c := feedbackWord a.anchor
  let free := (w : Int) * n + w * yMove s a n / nsU
  (max ((n * (c - c * 400 / 10 ^ 6) : Nat) : Int) (min ((n * (c + c * 400 / 10 ^ 6) : Nat) : Int) free)).toNat

/-- How far a ramp moves the nominal in `n` cycles, units of 2^-16 Hz (R194): RAMP_PPM_S of the anchor. -/
def rampStep (a : Apll) (n : Nat) : Nat := a.anchor * a.ramp * n / 10 ^ 15

/-- How far a ramp moves the control value in `n` cycles, units of 0.001 ppt (R181). -/
def sourceStep (a : Apll) (n : Nat) : Nat := a.ramp * n

/-- `n` CD-TIME cycles pass for an APLL. -/
def apllPass (s : State) (n : Nat) (a : Apll) : Apll :=
  { a with
    turns := a.turns + vcoAdvance s a n
    vco := (match a.rampTo with
      | none => a.vco
      | some v => ((a.vco : Int) + moveBy ((v : Int) - a.vco) (rampStep a n)).toNat)
    yRest := a.yRest - moveBy a.yRest (sourceStep a n) }

end Sys2Proof.Machine
end

