-- ==== Sys2Proof/Machine/Passage.lean ====
section
/-! DEFINITION. CD-TIME passes (R24, R123, R400): the counters, slews, movements and the remainder advance, and the engine
keeps what its views showed for the stamps of moments that lie back (R217, R219, R246). -/

namespace Sys2Proof.Machine

/-! ### The passing of time -/

/-- The battery domain counts `n` ns (R400). -/
def batteryTick (n : Nat) (t : Srt) : Srt :=
  let ns := t.coarseNs + n
  { t with coarse := t.coarse + ns / 10 ^ 9, coarseNs := ns % 10 ^ 9 }

/-- Steering of the master oscillator itself, units of 0.001 ppt (R123, R151): none while TARGET names another one. -/
def steeredBy (s : State) : Int := if s.ehu.steer.outside then 0 else s.ehu.steer.applied

/-- What the views show while `n` cycles pass. -/
def spanOfTime (s : State) (n : Nat) : Span :=
  { start := s.tcr.cycles
    stop := s.tcr.cycles + n
    views := (List.range 5).map fun v =>
      { start := viewCount s v
        stop := if v < 4 then countAfter s v n else viewAfter s n
        dom := viewDomain s v, bound := viewBound s v, growth := viewGrowth s v, flags := timeFlags s v } }

/-- The spans kept: those of the latest 2 ms, which every stamp and capture lies in. -/
def keepSpans (now : Nat) (l : List Span) : List Span := l.filter fun x => decide (now ≤ x.stop + 2000000)

/-- `n` CD-TIME cycles pass (R24): every counter, slew, movement and the remainder advance; while CD-TIME does not
run, the battery domain alone counts. -/
def advance (n : Nat) (s : State) : State :=
  let s' := { s with srt := batteryTick n s.srt }
  if !s.clocked then s' else
  let dom := Vector.ofFn fun (d : Fin 4) =>
    let x := s.domain d.val
    { x with
      count := countAfter s d.val n
      slew := x.slew.map fun w => { w with remaining := w.remaining - slewPart s d.val n } }
  let dpll := Vector.ofFn fun (k : Fin 8) =>
    let x := s.dpllOf k.val
    { x with moving := x.moving - movePart s k.val n }
  { s' with
    tcr := { s.tcr with cycles := s.tcr.cycles + n, dom := dom, remainder := remainderAfter s n
                        past := if n = 0 then s.tcr.past else spanOfTime s n :: keepSpans (s.tcr.cycles + n) s.tcr.past }
    dsb := { s.dsb with dpll := dpll }
    fso := { s.fso with apll := s.fso.apll.map (apllPass s n) }
    ehu := { s.ehu with steer := { s.ehu.steer with moved := s.ehu.steer.moved + steeredBy s * n } } }

/-! ### Time running on to a moment -/

/-- Cycles until a monotone condition first holds, if that is before the next impression begins. -/
def within (s : State) (p : Nat → Bool) : Option Nat :=
  if p (nextBoundary s).cycles then some (least p 20 0) else none

/-- Events counted in CD-TIME microseconds (R373), and time passing with them. -/
def pass (n : Nat) (s : State) : State :=
  let s' := advance n s
  pcuCount 0x0001 0xFF (s'.tcr.cycles / 1000 - s.tcr.cycles / 1000) s'

/-- Time runs on to the moment at which a condition first holds in the impression in progress; unchanged when it
does not hold in it. -/
def runOn (p : Nat → Bool) (s : State) : State :=
  match within s p with
  | some n => pass n s
  | none => s

/-- An event at a CD-TIME cycle: time runs on to it if it lies in the impression in progress; before it nothing happens. -/
def atCycle (c : Nat) (act : State → State) (s : State) : State :=
  if c ≤ s.tcr.cycles then act s else
  let t := if s.clocked then runOn (fun n => decide (c ≤ s.tcr.cycles + n)) s else s
  if c ≤ t.tcr.cycles then act t else s

/-- An event at a time of a view, likewise. -/
def atCount (v target : Nat) (act : State → State) (s : State) : State :=
  if target ≤ viewCount s v then act s else
  let t := if s.clocked then runOn (fun n => decide (target ≤ viewCount (advance n s) v)) s else s
  if target ≤ viewCount t v then act t else s

/-! ### Moments that lie back -/

/-- What a view shows now. -/
def viewNow (s : State) (v : Nat) : PastView :=
  { start := viewCount s v, stop := viewCount s v, dom := viewDomain s v, bound := viewBound s v, growth := viewGrowth s v
    flags := timeFlags s v }

/-- What a view showed at a CD-TIME stamp in units of 2^-7 ns, with its counter at that moment (R25): now, in a span that
has passed, or before the oldest kept, at the domain's rate. -/
def viewAt (s : State) (v mark : Nat) : Nat × PastView :=
  let rate : Int := baseInc s (viewDomain s v)
  if 128 * s.tcr.cycles ≤ mark then
    ((((viewCount s v : Int) + ((mark : Int) - 128 * s.tcr.cycles) * rate / 128).toNat), viewNow s v)
  else match s.tcr.past.find? fun x => decide (128 * x.start ≤ mark) with
    | some x =>
      let p := x.views.getD v (viewNow s v)
      ((((p.start : Int) + ((mark : Int) - 128 * x.start) * ((p.stop : Int) - p.start) / (128 * ((x.stop : Int) - x.start))).toNat), p)
    | none => ((((viewCount s v : Int) + ((mark : Int) - 128 * s.tcr.cycles) * rate / 128).toNat), viewNow s v)

/-- Time of a view at a CD-TIME stamp in units of 2^-7 ns (R25). -/
def timeAtMark (s : State) (v mark : Nat) : Nat := (viewAt s v mark).1

/-- A moment of CD-TIME, in ns, on the unsteered master oscillator (R123): less the phase that the applied steering has moved
it. -/
def unsteered (s : State) (ns : ℚ) : ℚ :=
  ns - ((s.ehu.steer.moved : ℚ) - (steeredBy s : ℚ) * ((s.tcr.cycles : ℚ) - ns)) / 10 ^ 15

/-! ### Leaps -/

/-- LEAP_APPLY (R98): the leap goes into the offset at LEAP_SECOND, which the active view has to reach as well while the
domain holds the active role. -/
def applyLeap (d : Nat) (s : State) : State :=
  let x := s.domain d
  if x.leap != .none && decide (x.leapSecond ≤ viewSecond s d) &&
      (s.tcr.active.val != d || decide (x.leapSecond ≤ viewSecond s 4)) then
    s.setDom d fun x => { x with utcOffset := x.utcOffset + x.leap.delta, leap := .none }
  else s

end Sys2Proof.Machine
end

