-- ==== Sys2Proof/Machine/PortOps.lean ====
section
/-! DEFINITION. Shared operations of NLU, TPE and AUE that follow the state of a lane: modes and rates (R223), port
states and the BMCA (R276, R278, R286), counters, frames that a link loses, scheduler slots (R39, R40, R300), BLOCK
resets (R267, R303). -/

namespace Sys2Proof.Machine

/-- One lane changed. -/
def State.setLane (s : State) (l : Nat) (f : Lane → Lane) : State := { s with nlu := { s.nlu with lane := vmod s.nlu.lane l f } }
/-- One lane. -/
def State.laneOf (s : State) (l : Nat) : Lane := vget s.nlu.lane l {}
/-- One port changed. -/
def State.setPort (s : State) (p : Nat) (f : TpePort → TpePort) : State := { s with tpe := { s.tpe with port := vmod s.tpe.port p f } }
/-- One port. -/
def State.portOf (s : State) (p : Nat) : TpePort := vget s.tpe.port p {}
/-- One instance changed. -/
def State.setInst (s : State) (i : Nat) (f : PtpInst → PtpInst) : State := { s with tpe := { s.tpe with inst := vmod s.tpe.inst i f } }
/-- One instance. -/
def State.instOf (s : State) (i : Nat) : PtpInst := vget s.tpe.inst i {}
/-- One port-instance changed. -/
def State.setPi (s : State) (p i : Nat) (f : PortInst → PortInst) : State :=
  { s with tpe := { s.tpe with pi := vmod s.tpe.pi p fun v => vmod v i f } }
/-- One port-instance. -/
def State.piOf (s : State) (p i : Nat) : PortInst := vget (vget s.tpe.pi p (Vector.replicate 8 {})) i {}
/-- One NTP client changed. -/
def State.setClient (s : State) (c : Nat) (f : NtpClient → NtpClient) : State :=
  { s with tpe := { s.tpe with client := vmod s.tpe.client c f } }
/-- One NTP client. -/
def State.clientOf (s : State) (c : Nat) : NtpClient := vget s.tpe.client c {}
/-- One PRP pair. -/
def State.pairOf (s : State) (n : Nat) : PrpPair := vget s.tpe.prp n {}

/-! ### Modes -/

/-- CD-LANE frequency of a mode in mHz (R223). -/
def laneMilliHz (mode : Fin 4) : Nat :=
  if mode.val < 2 then 125000000000 else if mode.val = 2 then 322265625000 else 402832031250

/-- Line rate of a mode, units of 10^-5 GBd (R223). -/
def lineRate (mode : Fin 4) : Nat := if mode.val < 2 then 125000 else if mode.val = 2 then 1031250 else 2578125

/-- Rate index: 0 1.25, 1 10.3125, 2 25.78125 GBd. -/
def rateIdx (mode : Fin 4) : Nat := if mode.val < 2 then 0 else mode.val - 1

/-- Index m of a lane's factory items for its mode and FEC (R377). -/
def latIndex (x : Lane) : Nat := if x.mode.val < 2 then 0 else if x.mode.val = 2 then 1 + x.fec.val else 3 + x.fec.val

/-- Start grid of a mode in units of 10^-33 ns, and the FALLBACK charge in ps (R266). -/
def startGrid (x : Lane) : Nat := (if x.mode.val < 2 then 1600 else if x.mode.val = 2 then 320 else 128) * (nsU / 100)
/-- See `startGrid`. -/
def fallbackCharge (x : Lane) : Nat :=
  if x.mode.val < 2 then 10000
  else if x.mode.val = 2 then (if x.fec = 0 then 7000 else 12000)
  else if x.fec = 0 then 4000 else if x.fec = 1 then 8000 else 15000

/-- The lane passes frames: UP, with no LOS or LOL standing (R227, R235), and its transmit PLL locked. -/
def laneUp (x : Lane) : Bool := x.st == .up && !x.los && !x.lol && x.txLocked

/-- The port is in FALLBACK (R248, R276). -/
def portFallback (s : State) (p : Nat) : Bool := !(s.laneOf p).latValid

/-! ### Counters -/

/-- A counter of R265; its PCU event counts with it. -/
def tsCount (p k n : Nat) (s : State) : State :=
  pcuCount (0x2100 + k) p n (s.setPort p fun x => { x with ctr := vmod x.ctr k fun c => min (2 ^ 32 - 1) (c + n) })
/-- A lane receives a good frame (R373). -/
def countReceived (l : Nat) (s : State) : State := pcuCount 0x2000 l 1 s
/-- A lane sends a frame (R373). -/
def countSent (l : Nat) (s : State) : State := pcuCount 0x2002 l 1 s
/-- A counter of R284. -/
def ptpCount (p i k : Nat) (s : State) : State :=
  pcuCount (0x2200 + k) p 1 (s.setPi p i fun x => { x with ctr := vmod x.ctr k fun c => min (2 ^ 32 - 1) (c + 1) })
/-- A counter of R288, at the port of the request. -/
def ntpCount (p k : Nat) (s : State) : State :=
  pcuCount (0x2300 + k) p 1 { s with tpe := { s.tpe with server := { s.tpe.server with
    ctr := vmod s.tpe.server.ctr k fun c => min (2 ^ 32 - 1) (c + 1) } } }

/-! ### Scheduler slots (R39, R40, R300) -/

/-- NTS slots of an imposition; PTP has the rest of 1,024 (R39). -/
def ntsSlots : Imposition → Nat
  | .broadsheet => 768
  | .folio => 512
  | .quarto => 256
  | .octavo => 512

/-- A side finds a slot: of its own, or one that the other side leaves idle (R40). -/
def takeSlot (nts : Bool) (tx : Nat) (s : State) : Option State :=
  let own := if nts then ntsSlots s.cpx.imposition else 1024 - ntsSlots s.cpx.imposition
  let mine := s.aue.slots.filter fun x => x.nts == nts
  let put := fun b => { s with aue := { s.aue with slots := s.aue.slots ++ [{ tx := tx, nts := nts, borrowed := b }] } }
  if 1024 ≤ s.aue.slots.length then none
  else if (mine.filter fun x => !x.borrowed).length + (s.aue.slots.filter fun x => x.nts != nts && x.borrowed).length < own then
    some (put false)
  else some (pcuCount 0x2402 0xFF 1 (put true))

/-- The slot of a transaction returns to its owner. -/
def freeSlot (tx : Nat) (s : State) : State := { s with aue := { s.aue with slots := s.aue.slots.filter fun x => x.tx != tx } }

/-! ### Input queues (R270) -/

/-- How far a port stands behind the one served last, in turn: 0 is the next. -/
def turnOf (s : State) (p : Nat) : Nat := (p + 23 - s.tpe.turn.val) % 24

/-- The pipelines take up a frame of a port (R270): they have served the ports before it in turn, one frame each. A frame that they
serve already, or that passed no queue, changes nothing. -/
def serveFrame (p : Fin 24) (mark : Nat) (s : State) : State :=
  if (s.portOf p.val).queue = 0 ∨ s.tpe.serving = some (p, mark) then s else
  let takes := fun q => decide (turnOf s q ≤ turnOf s p.val) && (s.portOf q).queue != 0
  let n := ((List.range 24).filter takes).length
  { s with tpe := { s.tpe with
      turn := p, serving := some (p, mark), worked := s.tpe.worked + n
      port := s.tpe.port.mapIdx fun q x => if takes q then { x with queue := x.queue - 1 } else x } }

/-- A timing frame joins its port's queue of 512; one that finds it full is dropped and counted as PIPE_FULL (R270, R373). -/
def queueFrame (p : Nat) (s : State) : State :=
  if 512 ≤ (s.portOf p).queue then pcuCount 0x2111 p 1 (ntpCount p 12 s) else s.setPort p fun x => { x with queue := x.queue + 1 }

/-- One frame of every queue, and how many those were. -/
def drainRound (q : Vector TpePort 24) : Nat × Vector TpePort 24 :=
  ((q.toList.filter fun x => x.queue != 0).length, q.map fun x => { x with queue := x.queue - 1 })

/-- Whole turns of the pipelines while they have time left. -/
def drainRounds : Nat → Nat → Vector TpePort 24 → Vector TpePort 24
  | 0, _, q => q
  | n + 1, room, q =>
    let r := drainRound q
    if r.1 = 0 ∨ room < r.1 then q else drainRounds n (room - r.1) r.2

/-- An impression has passed (R270): the pipelines process 4,000 timing frames in it, 32 M a second, received and transmitted ones
alike; those that no command names were served in turn. -/
def drainQueues (s : State) : State :=
  { s with tpe := { s.tpe with worked := 0, port := drainRounds 512 (4000 - s.tpe.worked) s.tpe.port } }

/-! ### Frames that a link loses -/

/-- Every galley frame that a predicate names is discarded as DROP_LINK (R254, R260, R267). -/
def dropLink (p : GalleyFrame → Bool) (s : State) : State :=
  let gone := s.tpe.galley.filter p
  let s := { s with tpe := { s.tpe with galley := s.tpe.galley.filter fun f => !p f } }
  gone.foldl (fun t f =>
    let t := tsCount f.port.val 7 1 t
    match f.tx with
    | some x => freeSlot x t
    | none => t) s

/-! ### PTP port states -/

/-- The code of a port state (R276). -/
def PtpState.code : PtpState → Nat
  | .initializing => 1
  | .faulty => 2
  | .disabled => 3
  | .listening => 4
  | .preMaster => 5
  | .master => 6
  | .passive => 7
  | .uncalibrated => 8
  | .slave => 9
  | .calibrating => 10
  | .passiveSlave => 11

/-- A state in which the port follows a master. -/
def followsMaster (st : PtpState) : Bool := st == .slave || st == .uncalibrated || st == .passiveSlave

/-- Move a port-instance to a state; every change raises interrupt source 14 (R276). -/
def movePi (p i : Nat) (st : PtpState) (s : State) : State :=
  let old := (s.piOf p i).st
  if old = st then s else
  raiseIrq 14 (s.setPi p i fun x =>
    let keep := followsMaster st || (st == .calibrating && followsMaster old)
    { x with st := st, half := if keep then x.half else none, last := if keep then x.last else none
             early := if keep then x.early else none
             annAt := if st == .listening then s.tcr.cycles else x.annAt
             measuredAt := if followsMaster st && !followsMaster old then s.tcr.cycles else x.measuredAt
             offsets := if keep || st == .faulty then x.offsets else [] })

/-- The instance runs on the port. -/
def piEnabled (s : State) (p i : Nat) : Bool := (s.instOf i).enable && (s.piOf p i).enable && s.lanePresent p

/-- The state of a port-instance that follows from its lane alone. -/
def laneState (s : State) (p i : Nat) : PtpState :=
  if !piEnabled s p i then .disabled
  else if !laneUp (s.laneOf p) then .faulty
  else if portFallback s p then .calibrating
  else .listening

/-- The MAC of a port; the second port of a PRP pair uses the first one's (R285). -/
def portMac (s : State) (p : Nat) : BitVec 48 :=
  if p % 2 = 1 ∧ (s.pairOf (p / 2)).enable then (s.portOf (p - 1)).mac else (s.portOf p).mac

/-- clockIdentity of an instance (R274): CLOCK_ID, or the EUI-64 of its lowest-numbered enabled port. -/
def clockIdentity (s : State) (i : Nat) : BitVec 64 :=
  let x := s.instOf i
  if x.clockId ≠ 0 then x.clockId
  else match (List.range 24).find? fun p => (s.piOf p i).enable with
    | some p =>
      let m := (portMac s p).toNat
      BitVec.ofNat 64 (m / 2 ^ 24 * 2 ^ 40 + 0xFFFE * 2 ^ 24 + m % 2 ^ 24)
    | none => 0

/-- sourcePortIdentity of a port-instance. -/
def portIdentity (s : State) (p i : Nat) : BitVec 80 := BitVec.ofNat 80 ((clockIdentity s i).toNat * 65536 + p + 1)

/-- clockClass of an instance while grandmaster (R278). -/
def ptpClass (s : State) (i : Nat) : Nat :=
  let x := s.instOf i
  let v := x.view.val
  let g := (s.domain (recordDomain s v)).ledger
  let telecom := x.profile.val == 4 || x.profile.val == 5
  if !viewValid s v then 248
  else if g.confirmed && !g.holdover then 6
  else if viewBound s v ≤ (s.domain (viewDomain s v)).warnPs then (if telecom && x.role.val == 1 then 135 else 7)
  else if telecom then (if x.role.val == 1 then 165 else x.classHoldOut) else 52

/-- timeSource by the chain class (R278). -/
def ptpTimeSource (cls : Nat) : Nat :=
  match cls with
  | 1 => 0x20
  | 2 => 0x40
  | 3 => 0x50
  | 4 => 0x90
  | 5 => 0x10
  | 6 => 0x60
  | _ => 0xA0

/-- The Announce of an instance while grandmaster (R278). -/
def ownAnnounce (s : State) (i : Nat) : AnnounceBody :=
  let x := s.instOf i
  let v := x.view.val
  let g := (s.domain (recordDomain s v)).ledger
  let d := s.domain (viewDomain s v)
  { gmIdentity := clockIdentity s i
    priority1 := BitVec.ofNat 8 x.priority1
    priority2 := BitVec.ofNat 8 x.priority2
    clockClass := BitVec.ofNat 8 (ptpClass s i)
    accuracy := BitVec.ofNat 8 (clockAccuracy (viewBound s v))
    variance := if g.confirmed && !g.holdover then 0x4E5D else 0xFFFF
    steps := 0
    timeSource := BitVec.ofNat 8 (ptpTimeSource g.chainClass.val)
    utc := { offset := d.utcAt (viewSecond s v), leap := Fin.ofNat 3 (viewLeap s v), leapSecond := d.leapSecond }
    timeTraceable := g.confirmed
    freqTraceable := g.confirmed || g.chainClass == 7 }

/-- What the BMCA compares, first element first: the default order, or the alternate one of profiles 4 and 5 with
localPriority (R273). -/
def bmcaKey (telecom : Bool) (localPriority : Nat) (b : AnnounceBody) (srcPort : Nat) : List Nat :=
  if telecom then
    [b.clockClass.toNat, b.accuracy.toNat, b.variance.toNat, b.priority2.toNat, localPriority, b.gmIdentity.toNat, b.steps, srcPort]
  else
    [b.priority1.toNat, b.clockClass.toNat, b.accuracy.toNat, b.variance.toNat, b.priority2.toNat, b.gmIdentity.toNat,
     b.steps, srcPort]

/-- Lexicographic order. -/
def lexLt : List Nat → List Nat → Bool
  | a :: x, b :: y => decide (a < b) || (a == b && lexLt x y)
  | [], _ :: _ => true
  | _, [] => false

/-- The instance runs a telecom profile. -/
def isTelecom (x : PtpInst) : Bool := x.profile.val == 4 || x.profile.val == 5

/-- The key of the best Announce of a port, if it has one. -/
def foreignKey (s : State) (i p : Nat) : Option (List Nat) :=
  let x := s.piOf p i
  if !piEnabled s p i || x.st == .faulty then none
  else x.foreign.map fun f => bmcaKey (isTelecom (s.instOf i)) x.localPriority f.body f.srcPort.toNat

/-- The port with the best Announce of an instance. -/
def bestPort (s : State) (i : Nat) : Option (Nat × List Nat) :=
  (List.range 24).foldl (fun best p =>
    match foreignKey s i p, best with
    | none, b => b
    | some k, none => some (p, k)
    | some k, some (q, b) => if lexLt k b then some (p, k) else some (q, b)) none

/-- The ports of one PRP pair hear the same grandmaster (R286). -/
def pairMate (s : State) (i p q : Nat) : Bool :=
  p / 2 == q / 2 && p != q && (s.pairOf (p / 2)).enable &&
    (match (s.piOf p i).foreign, (s.piOf q i).foreign with
     | some a, some b => a.body.gmIdentity == b.body.gmIdentity
     | _, _ => false)

/-- The state that the BMCA gives a port (R276, R286). -/
def bmcaState (s : State) (i p : Nat) : PtpState :=
  let x := s.piOf p i
  let own := ownAnnounce s i
  let d0 := bmcaKey (isTelecom (s.instOf i)) 0 own (portIdentity s p i).toNat
  let better := fun (k : List Nat) => lexLt k d0
  let lead : PtpState := if x.portRole = 2 then .listening else .master
  let follow : PtpState :=
    if x.portRole = 1 then .passive
    else if x.st == .slave || x.st == .uncalibrated || (x.st == .passiveSlave && (s.pairOf (p / 2)).enable) then x.st
    else .uncalibrated
  match foreignKey s i p, bestPort s i with
  | none, none => if x.timedOut then lead else if x.st == .master then .master else .listening
  | none, some (_, b) => if better b || x.timedOut || x.st == .master then lead else .listening
  | some k, best =>
    if own.clockClass.toNat ≤ 127 then (if better k then .passive else lead)
    else match best with
      | none => lead
      | some (q, b) =>
        if !better b then lead
        else if q = p then follow
        else if pairMate s i p q then (if (s.piOf q i).st == .passiveSlave then follow else .passiveSlave)
        else if k.take 6 = b.take 6 then .passive
        else lead

/-- Run the BMCA of an instance (R276); it waits while firmware restarts (R303). A transparent clock has no port
states beyond LISTENING. -/
def runBmca (i : Nat) (s : State) : State :=
  if !s.fwRuns then s.setInst i fun x => { x with bmcaDue := true } else
  let s := s.setInst i fun x => { x with bmcaDue := false }
  forAll 24 s fun p t =>
    let base := laneState t p i
    let next := if base != .listening || (t.instOf i).role = 2 then base else bmcaState t i p
    movePi p i next t

/-- A port's lane or latency has changed: its port-instances follow, and the BMCA runs for each (R276). -/
def portChanged (p : Nat) (s : State) : State :=
  forAll 8 s fun i t =>
    if !piEnabled t p i then t else
    let base := laneState t p i
    let t := if base == .faulty then (movePi p i .faulty t).setPi p i fun x => { x with foreign := none, timedOut := false, delay := none, pathDelay := none }
      else if base == .calibrating then movePi p i .calibrating t
      else if (t.piOf p i).st == .faulty || (t.piOf p i).st == .calibrating || (t.piOf p i).st == .initializing then movePi p i .listening t
      else t
    runBmca i t

/-! ### BLOCK resets -/

/-- BLOCK reset of TPE (R267, R303): the galley and the transactions are discarded, every port-instance enters
INITIALIZING; configuration, ledger, jars, counters stay. -/
def resetTpe (s : State) : State :=
  let s := dropLink (fun _ => true) s
  let s := { s with aue := {}, tpe := { s.tpe with serving := none, port := s.tpe.port.map fun x => { x with queue := 0 } } }
  forAll 24 s fun p t => forAll 8 t fun i t =>
    if !piEnabled t p i then t else
    (movePi p i .initializing t).setPi p i fun x =>
      { x with foreign := none, timedOut := false, half := none, last := none, early := none, delay := none, pathDelay := none }

/-- A received message whose AUE work is lost (R288, R300, R303): counted as NO_SLOT; an exchange of a client is missed. -/
def loseWork (w : RxWork) (s : State) : State :=
  match w.msg with
  | .ptp rx _ => ptpCount rx.port.val rx.inst.val 10 s
  | .request rx _ _ _ => ntpCount rx.port.val 10 s
  | .response c rx _ _ => ntpCount rx.port.val 10 (s.setClient c.val fun x => { x with missed := x.missed + 1 })

/-- BLOCK reset of AUE (R267, R303): its jobs are lost; frames to sign stay incomplete. -/
def resetAue (s : State) : State :=
  let lost := s.aue.work
  lost.foldl (fun t w => loseWork w t)
    { s with aue := {}
             tpe := { s.tpe with galley := s.tpe.galley.map fun (f : GalleyFrame) =>
               (if f.complete then f else { f with tx := none } : GalleyFrame) } }

/-! ### Profiles and the message intervals that RIM expects (R124, R273, R295) -/

/-- Transports, delay mechanism, roles and domainNumber range of a profile (R273). -/
structure Profile where
  transports : List Nat
  peer       : Bool
  tc         : Bool
  required   : Bool
  optional   : Bool
  domLo      : Nat
  domHi      : Nat
  logs       : Int × Int × Int

/-- The profiles (R273). -/
def profileOf : Nat → Profile
  | 0 => { transports := [0, 1, 2], peer := false, tc := true, required := false, optional := true, domLo := 0, domHi := 127, logs := (1, 0, 0) }
  | 1 => { transports := [0, 1, 2], peer := true, tc := true, required := false, optional := false, domLo := 0, domHi := 127, logs := (1, 0, 0) }
  | 2 => { transports := [0], peer := true, tc := true, required := false, optional := false, domLo := 0, domHi := 255, logs := (0, 0, 0) }
  | 3 => { transports := [0], peer := true, tc := true, required := false, optional := false, domLo := 0, domHi := 255, logs := (0, 0, 0) }
  | 4 => { transports := [0], peer := false, tc := true, required := false, optional := false, domLo := 24, domHi := 43, logs := (-3, -4, -4) }
  | 5 => { transports := [1, 2], peer := false, tc := false, required := true, optional := false, domLo := 44, domHi := 63, logs := (0, -4, -4) }
  | _ => { transports := [0, 1, 2], peer := false, tc := false, required := false, optional := true, domLo := 0, domHi := 127, logs := (0, -3, -3) }

/-- The profile of an instance. -/
def instProfile (s : State) (i : Nat) : Profile := profileOf (s.instOf i).profile.val

/-- Seconds of a log2 interval. -/
def logSeconds (n : Int) : ℚ := (2 : ℚ) ^ n

/-- CD-TIME cycles of a log2 interval. -/
def logCycles (n : Int) : Nat := ceilNat (logSeconds n * 10 ^ 9)

/-- A grant that the port-instance holds as grantee (R282): 0 Announce, 1 Sync, 2 Delay_Resp. Expiry pauses in a WARM restart
(R303). -/
def heldGrant (s : State) (p i n : Nat) : Option HeldGrant :=
  (vget (s.piOf p i).grants n none).filter fun g => !s.fwRuns || decide (s.tcr.cycles < g.expiry)

/-- The interval at which a port-instance sends to the group (R273, R275): 0 Announce, 1 Sync, 2 delay requests, log2 s. -/
def ownLog (s : State) (p i n : Nat) : Int :=
  let x := s.piOf p i
  let f := (instProfile s i).logs
  let v := if n = 0 then x.logAnnounce else if n = 1 then x.logSync else x.logDelay
  if v = 127 then (if n = 0 then f.1 else if n = 1 then f.2.1 else f.2.2) else v

/-- The interval of the messages that a port-instance hears or asks for: the granted one, or that of the port. -/
def heardLog (s : State) (p i n : Nat) : Int :=
  match heldGrant s p i n with
  | some g => if (s.piOf p i).unicastMaster ≠ 0 then g.log else ownLog s p i n
  | none => ownLog s p i n

/-- The Sync interval in force on a port-instance, log2 s (R124): the granted one under a unicast grant, the port's
logSyncInterval otherwise, which 127 leaves to the profile (R275). -/
def syncLog (s : State) (p i : Nat) : Int := heardLog s p i 1

/-- How long a port-instance waits for an Announce, or a pair for a measurement of its SLAVE (R276, R286). -/
def announceWait (s : State) (p i : Nat) : Nat := (s.piOf p i).annTimeout * logCycles (heardLog s p i 0)

/-- The interval in seconds at which a packet reference expects messages (R124): that of the instance or client that
feeds it. -/
def expectedInterval (s : State) (r : Nat) : ℚ :=
  match (List.range 8).find? fun i => (s.instOf i).enable && (s.instOf i).ref.any fun x => x.val == r with
  | some i => logSeconds (match (s.refEntry r).port with
    | some p => syncLog s p.val i
    | none => (instProfile s i).logs.2.1)
  | none =>
    match (List.range 8).find? fun c => (s.clientOf c).enable && (s.clientOf c).ref.any fun x => x.val == r with
    | some c => logSeconds (s.clientOf c).poll
    | none => 1

end Sys2Proof.Machine
end

