-- ==== Sys2Proof/Machine/Servo.lean ====
section
/-! DEFINITION. Shared operations of the servo: effective calibration (R376), states of a DPLL, entry to HOLDOVER and
to FREERUN with what the ledger takes from it (R116, R120, R143, R430), growth in holdover (R114), and the history
bits and states of a pool entry (R127, R128). -/

namespace Sys2Proof.Machine

/-! ### Calibration (R376, R377) -/

/-- Both layers of the item's class hold a factory value (R377). -/
def calHasFactory (item : Nat) : Bool := [0x01, 0x02, 0x03, 0x04, 0x05, 0x20, 0x21, 0x22, 0x23, 0x24, 0x30, 0x40].contains (item / 256)
/-- The user item, if present. -/
def calUser (s : State) (item : Nat) : Option CalItem := s.cal.user.find? fun c => c.item == item
/-- The user VALUE, zero if absent. -/
def calUserValue (s : State) (item : Nat) : Int :=
  match calUser s item with
  | some c => c.value
  | none => 0
/-- The factory VALUE, zero where the class has none. -/
def calFactoryValue (item : Nat) : Int := if calHasFactory item then Config.factoryValue item else 0
/-- The factory UNC, zero where the class has none. -/
def calFactoryUnc (item : Nat) : Nat := if calHasFactory item then Config.factoryUnc item else 0
/-- The effective value (R376). -/
def calValue (s : State) (item : Nat) : Int := calFactoryValue item + calUserValue s item
/-- The effective uncertainty (R376). -/
def calUnc (s : State) (item : Nat) : Nat :=
  calFactoryUnc item + (match calUser s item with
    | some c => c.unc
    | none => 0)
/-- CALIBRATED of a value whose path has these user items (R379). -/
def calibrated (s : State) (items : List Nat) : Bool := s.cal.crcOk && items.all fun i => (calUser s i).isSome

/-! ### Pool entries -/

/-- Mean of a list of rationals, 0 when empty. -/
def meanQ (l : List ℚ) : ℚ := if l.isEmpty then 0 else l.sum / l.length

/-- Least-squares slope of values one second apart, newest first (R124). -/
def slopeQ (l : List ℚ) : ℚ :=
  let n := l.length
  if n < 2 then 0 else
  let xs := (List.range n).map fun i => -(i : ℚ)
  let mx := meanQ xs
  let my := meanQ l
  let num := ((xs.zip l).map fun p => (p.1 - mx) * (p.2 - my)).sum
  let den := (xs.map fun x => (x - mx) ^ 2).sum
  num / den

/-- Mean frequency offset in ppt over FREQ_WINDOW_S (R124, R130). -/
def refFreq (e : RefEntry) : ℚ := meanQ (e.freqs.take e.freqWindow)
/-- Drift rate in ppt/s over DRIFT_WINDOW_S (R124, R130). -/
def refDrift (e : RefEntry) : ℚ := slopeQ (e.freqs.take e.driftWindow)

/-- History bits of an entry set (R128); a bit that rises and is in IRQ_MASK raises interrupt source 9; its counter
event counts. -/
def setHistory (r bitNo : Nat) (s : State) : State :=
  let e := s.refEntry r
  let b := BitVec.ofNat 16 (2 ^ bitNo)
  let s' := s.setRef r fun e => { e with history := e.history ||| b, histNow := e.histNow ||| b }
  let s' := pcuCount (0x1010 + bitNo) r 1 s'
  if !e.history.getLsbD bitNo && e.irqMask.getLsbD bitNo then raiseIrq 9 s' else s'

/-- Move an entry to a state, with the history bits of R128. -/
def moveRef (r : Nat) (st : RefState) (s : State) : State :=
  let old := (s.refEntry r).st
  let s' := s.setRef r fun e =>
    { e with st := st, clean := if old = st then e.clean else 0, counting := old == st && e.counting
             qualifiedAt := if old ≠ st ∧ st = .qualified then s.cpx.impressions else e.qualifiedAt }
  if old = st then s'
  else match st with
    | .qualified => setHistory r 7 s'
    | .disqualified => setHistory r 9 s'
    | _ => s'

/-- A hard condition of R124 holds now. -/
def hardNow (e : RefEntry) : Bool :=
  e.los || e.freqHardNow || e.jumpNow || e.pdvHardNow || e.gnssFail || e.integHardNow
/-- A soft condition of R124 holds now. -/
def softNow (e : RefEntry) : Bool :=
  e.freqSoftNow || e.driftNow || e.pdvSoftNow || e.integSoftNow

/-- An entry is QUALIFIED or DRIFTING (R127). -/
def selectable (s : State) (r : Nat) : Bool :=
  match (s.refEntry r).st with
  | .qualified | .drifting => true
  | _ => false

/-- An entry marks true time (R121): a KIND 1 input, GNSS, a packet reference, the ensemble while traceable. -/
def isTimeRef (s : State) (r : Nat) : Bool :=
  if r < 12 then (s.refEntry r).timeKind
  else if r < 16 then false
  else if r < 31 then true
  else (s.refEntry 31).timeKind

/-! ### DPLLs -/

/-- The domains that a DPLL disciplines. -/
def domainsOf (s : State) (k : Nat) : List Nat :=
  (List.range 4).filter fun d => (s.domain d).dpll.any fun x => x.val == k

/-- Change the ledger of every domain that a DPLL disciplines. -/
def onDomains (k : Nat) (f : Domain → Domain) (s : State) : State :=
  (domainsOf s k).foldl (fun t d => t.setDom d f) s

/-- Move a DPLL to a state: an entry to or an exit from HOLDOVER raises interrupt source 10 (R131); the offset of
R149 is cleared on leaving FREERUN or HOLDOVER. -/
def moveDpll (k : Nat) (st : DpllState) (s : State) : State :=
  let old := (s.dpllOf k).st
  let clears := old != st && (old == .freerun || old == .holdover)
  let s' := s.setDpll k fun x => { x with st := st, steer := if clears then 0 else x.steer }
  if old != st && (old == .holdover || st == .holdover) then raiseIrq 10 s' else s'

/-- R146: a·t in ppt, with k_T·(T − T_w) beside it, both for a value in use and `t` seconds since the loss. -/
def holdTemp (s : State) (k : Nat) (v : HoldValue) : ℚ :=
  let h := s.holdOf k
  if h.temp then
    (calValue s 0x4000 : ℚ) / 1000 * (((vget s.srt.sensor h.sensor.val {}).now : ℚ) - v.tw) / 64
  else 0

/-- The holdover frequency of R146, units of 0.001 ppt, rounded to the nearest. -/
def holdFreq (s : State) (k : Nat) (v : HoldValue) (t : ℚ) : Int :=
  round ((v.h + v.slope * t + holdTemp s k v) * 1000)

/-- The least integer at least `r + √q` (for `q` not negative). -/
def ceilRoot (r q : ℚ) : Int :=
  let n0 := r.ceil + (Nat.sqrt q.floor.toNat : Int)
  let tries : List Int := [n0 - 1, n0, n0 + 1, n0 + 2]
  match tries.find? (fun n : Int => decide (r ≤ (n : ℚ)) && decide (q ≤ ((n : ℚ) - r) ^ 2)) with
  | some n => n
  | none => n0 + 2

/-- GROWTH_FS in holdover (R114): σf × 1,000 + |a| × t + θ, rounded up. -/
def holdGrowth (s : State) (k : Nat) (v : HoldValue) (t : ℚ) : Int :=
  ceilRoot (v.sigma.lin * 1000 + |v.slope| * 1000 * t + |holdTemp s k v| * 1000) (v.sigma.var * 1000000)

/-- Seconds since the loss instant of a DPLL (R114, R146), counted in impressions. -/
def lostFor (s : State) (x : Dpll) : ℚ := ((s.cpx.impressions - x.lostAt : Nat) : ℚ) / 8000

/-- A domain's record at the entry to HOLDOVER (R116, R120): C_REF frozen, confirmed clears, growth into C_HOLD. -/
def ledgerHoldover (growth : Int) (x : Domain) : Domain :=
  let g := x.ledger
  { x with ledger := { g with confirmed := false, holdover := true, confirming := none, growsRef := false,
                              growthFs := growth,
                              sinceConfirm := if g.confirmed then 0 else g.sinceConfirm
                              sinceImp := if g.confirmed then 0 else g.sinceImp } }

/-- A domain's record at a FREERUN entered from a reference (R430): the bound is unknown, until a confirmation ends. -/
def ledgerFreerun (x : Domain) : Domain :=
  let g := x.ledger
  { x with ledger := { g with confirmed := false, holdover := true, confirming := none, growsRef := false,
                              growthFs := 0, known := false, modelLost := true
                              sinceConfirm := if g.confirmed then 0 else g.sinceConfirm
                              sinceImp := if g.confirmed then 0 else g.sinceImp } }

/-- A DPLL loses its reference or is forced, with the loss instant at the beginning of impression `l`: HOLDOVER on the
precomputed value (R143), or FREERUN without one, with what R116 and R430 make of the ledgers. `followed` says that it
followed a reference before. -/
def enterLostAt (l k : Nat) (followed : Bool) (s : State) : State :=
  let x := s.dpllOf k
  let last := if x.selected.isSome then x.selected else x.lastSelected
  let s := s.setDpll k fun x => { x with lostAt := l }
  match (s.holdOf k).value with
  | some v =>
    let t := lostFor s (s.dpllOf k)
    let f := holdFreq s k v t
    let s := moveDpll k .holdover s
    let s := s.setDpll k fun x => { x with selected := none, lastSelected := last, sw := none, inUse := some f, control := f }
    let s := s.setHold k fun h => { h with used := some v }
    let s := onDomains k (ledgerHoldover (holdGrowth s k v t)) s
    if x.st == .holdover then s else pcuCount 0x1021 k 1 s
  | none =>
    let s := moveDpll k .freerun s
    let s := s.setDpll k fun x => { x with selected := none, lastSelected := last, sw := none, inUse := none, control := 0 }
    if followed then onDomains k ledgerFreerun s else s

/-- A loss in the impression in progress. -/
def enterLost (k : Nat) (followed : Bool) (s : State) : State := enterLostAt s.cpx.impressions k followed s

/-- The DPLL follows a reference (ACQUIRING, LOCKED or SWITCHING). -/
def follows (x : Dpll) : Bool :=
  match x.st with
  | .acquiring | .locked | .switching => true
  | _ => false

/-! ### Moves of a pool entry -/

/-- A condition that rises sets its history bit (R128). -/
def risen (r bitNo : Nat) (was is : Bool) (s : State) : State := if !was && is then setHistory r bitNo s else s

/-- During a WARM restart a DPLL whose reference becomes DISQUALIFIED goes to HOLDOVER in hardware (R406). -/
def warmLoss (r : Nat) (s : State) : State :=
  if s.cpx.warm.isSome && (s.refEntry r).st == .disqualified then
    forAll 8 s fun k t => if (t.dpllOf k).selected.any (fun x => x.val == r) && follows (t.dpllOf k) then enterLost k true t else t
  else s

/-- Move an entry as its conditions stand (R127). -/
def reviewRef (r : Nat) (s : State) : State :=
  let e := s.refEntry r
  if !e.enable then s else
  match e.st with
  | .unqualified => if e.los then s else moveRef r .qualifying s
  | .qualifying => if hardNow e then moveRef r .disqualified s else s
  | .qualified =>
    if hardNow e then warmLoss r (moveRef r .disqualified s) else if softNow e then moveRef r .drifting s else s
  | .drifting => if hardNow e then warmLoss r (moveRef r .disqualified s) else s
  | .disqualified => if hardNow e then s else moveRef r .qualifying s

/-- An entry's LOS condition arises (R124). -/
def loseRef (r : Nat) (s : State) : State :=
  let was := (s.refEntry r).los
  reviewRef r (risen r 0 was true (s.setRef r fun e => { e with los := true }))

end Sys2Proof.Machine
end

