-- ==== Sys2Proof/Machine/LaneOps.lean ====
section
/-! DEFINITION. Shared operations of NLU: states of a lane, squelch of a recovered-clock slot, latency events,
equalisation codes, BLOCK reset (R227–R242). -/

namespace Sys2Proof.Machine

/-- The slots bound to a lane. -/
def slotsOf (s : State) (l : Nat) : List Nat := (List.range 4).filter fun k => (vget s.nlu.slot k none).any fun x => x.val == l

/-- A slot is squelched (R240). -/
def squelched (s : State) (k : Nat) : Bool :=
  match vget s.nlu.slot k none with
  | none => true
  | some l =>
    let x := s.laneOf l.val
    x.st != .up || x.los || x.lol || vget s.fco.block 11 .none == .asserted

/-- The slots of a lane are squelched: RIM declares LOS at once (R240). -/
def squelch (l : Nat) (s : State) : State :=
  (slotsOf s l).foldl (fun t k => if (t.refEntry (12 + k)).enable then loseRef (12 + k) t else t) s

/-- A slot's pool entry returns to UNQUALIFIED (R240). -/
def unqualifySlot (k : Nat) (s : State) : State :=
  let r := 12 + k
  if (s.refEntry r).enable then
    (moveRef r .unqualified s).setRef r fun e => { e with freqs := [], firstStamp := none, lastStamp := none, lastEdge := none, edges := 0 }
  else s

/-- The rate that a lane's receiver runs at (R223, R237): 0 1.25, 1 10.3125, 2 25.78125 GBd. -/
def runRate (x : Lane) : Nat := if x.st == .prbs then x.prbs.rate.val else rateIdx x.mode

/-- 2^20 UI in CD-TIME cycles, rounded up (R232). -/
def codePeriod (x : Lane) : Nat :=
  ceilDiv (2 ^ 20 * 100000) (if runRate x = 0 then 125000 else if runRate x = 1 then 1031250 else 2578125)

/-- The CTLE code as it stands now (R232, R233): towards CTLE_CODE in fixed mode, to a free code that the eye gives in
adaptive mode, at most one step per 2^20 UI since its last change; held while frozen. -/
def settleCode (l : Nat) (s : State) : State :=
  let x := s.laneOf l
  let now := s.tcr.cycles
  if x.frozen || x.st == .down then s else
  let (target, s) := if x.adaptive then
      let (v, s) := drawNat s
      (v % 32, s)
    else (x.ctle, s)
  let start := max x.codeAt (x.codeSeen - codePeriod x)
  let n := (now - start) / codePeriod x
  let moved := min n (if x.code ≤ target then target - x.code else x.code - target)
  s.setLane l fun x =>
    { x with code := if x.code ≤ target then x.code + moved else x.code - moved
             codeAt := if moved = 0 then x.codeAt else start + moved * codePeriod x
             codeSeen := now }

/-- Adaptation goes on after a freeze, or in a new stage: a step that is due may come from now on. -/
def codeFrom (now : Nat) (x : Lane) : Lane := { x with codeSeen := now }

/-- The code in use is kept as the last one of the rate that the lane runs at. -/
def keepCode (x : Lane) : Lane :=
  if x.st == .down then x else { x with rateCode := vmod x.rateCode (runRate x) fun _ => some x.code }

/-- A receiver changes its rate: the code starts from the last one used there, or from CTLE_CODE (R232). -/
def startCode (now idx : Nat) (x : Lane) : Lane :=
  let code := (vget x.rateCode idx none).getD x.ctle
  { x with code := code, codeAt := if code = x.code then x.codeAt else now, codeSeen := now }

/-- LAT_VALID clears: the latencies that applied until now stand for the frames whose markers lie before (R250). -/
def loseLatency (now : Nat) (x : Lane) : Lane :=
  if x.latValid then { x with latValid := false, latLostAt := now, latWas := some (x.rxPs, x.txPs, latIndex x) } else x

/-- A latency event (R236): LAT_VALID clears and the measurement starts or restarts. -/
def latencyEvent (l : Nat) (s : State) : State :=
  let s := pcuCount 0x2006 l 1 s
  let s := s.setLane l fun x => { loseLatency s.tcr.cycles x with latEventAt := s.tcr.cycles }
  if laneUp (s.laneOf l) then portChanged l s else s

/-- FEC that a lane runs at a mode on a module or direct medium (R224). -/
def fecFor (x : Lane) (mode : Fin 4) : Fin 3 := if mode.val = 2 then x.fec10 else if mode.val = 3 then x.fec25 else 0

/-- A lane's stage, or its rate within it, starts: its timer starts again (R227). -/
def startStage (l : Nat) (s : State) : State := s.setLane l fun x => { x with stageAt := s.tcr.cycles }

/-- A change of rate or of FEC mode: a latency event; the code starts from the last one used at that rate (R232, R236). -/
def changeMode (l : Nat) (mode : Fin 4) (fec : Fin 3) (s : State) : State :=
  let s := startStage l s
  let x := s.laneOf l
  if x.mode = mode ∧ x.fec = fec then s else
  let s := (settleCode l s).setLane l fun x =>
    let y := { keepCode (loseLatency s.tcr.cycles x) with mode := mode, fec := fec, aligned := false, fecLock := false }
    if rateIdx mode = runRate x then y else startCode s.tcr.cycles (rateIdx mode) y
  latencyEvent l s

/-- Move a lane to a state (R227): interrupt source 13, the port down or up, the slots squelched; an entry into UP at
another rate requalifies the pool entry (R240). -/
def enterLane (l : Nat) (st : LaneState) (s : State) : State :=
  let x := s.laneOf l
  if x.st = st then s else
  let s := s.setLane l fun x => { x with st := st, stageAt := s.tcr.cycles, winAt := s.tcr.cycles }
  let s := raiseIrq 13 s
  if st == .up then
    let s := s.setLane l fun x => { x with upAt := s.tcr.cycles, lastUp := some x.mode, fallingBack := false }
    let s := if (x.lastUp.map fun m => rateIdx m) != some (rateIdx x.mode) then (slotsOf s l).foldl (fun t k => unqualifySlot k t) s else s
    portChanged l s
  else if x.st == .up then portChanged l (squelch l s)
  else s

/-- The candidates of a lane (R227). -/
def candidates (x : Lane) : BitVec 4 := x.rateMask &&& ~~~x.removed

/-- The next candidate above a mode. -/
def higherMode (x : Lane) (m : Fin 4) : Option (Fin 4) :=
  (List.finRange 4).find? fun k => decide (m < k) && decide (1 < k.val) && (candidates x).getLsbD k.val
/-- The lowest candidate. -/
def lowestMode (x : Lane) : Fin 4 := ((List.finRange 4).find? fun k => (candidates x).getLsbD k.val).getD x.mode

/-- A lane enters LOW: it trains at the lowest candidate (R227). One that leaves PRBS at another rate changes its rate. -/
def enterLow (l : Nat) (s : State) : State :=
  let s := settleCode l s
  let x := s.laneOf l
  let m := lowestMode x
  let s := s.setLane l fun x => { x with qualified := none, fallingBack := false, aligned := false, fecLock := false }
  let t := enterLane l .low (changeMode l m (fecFor x m) s)
  if x.st == .prbs && runRate x != rateIdx m then
    latencyEvent l (t.setLane l fun y => startCode t.tcr.cycles (rateIdx m) { y with rateCode := (keepCode x).rateCode })
  else t

/-- BLOCK reset of NLU (R242): electrical idle, every slot squelched, every LAT_VALID clear, PRBS counters cleared; each
lane that was not in DOWN enters LOW; the frames of a lane that leaves UP are discarded (R267). -/
def resetNlu (s : State) : State :=
  forAll 24 s fun l t =>
    let x := t.laneOf l
    let t := t.setLane l fun x =>
      { loseLatency s.tcr.cycles x with
               recoverDue := none, lowDue := false
               prbs := { x.prbs with bits := 0, errors := 0, resyncs := 0, syncAt := none } }
    let t := squelch l t
    let t := if x.st == .up then dropLink (fun f => f.port.val == l) t else t
    if x.st == .down then t else enterLow l t

end Sys2Proof.Machine
end

