-- ==== Sys2Proof/Machine/OutputOps.lean ====
section
/-! DEFINITION. Shared operations of FSO and PEU: what holds outputs low (R195, R198, R199), the rules of a frequency
plan (R178, R182), what cuts pulses, frames and messages (R203, R205, R222). -/

namespace Sys2Proof.Machine

/-- One PPS output changed. -/
def State.setPps (s : State) (n : Nat) (f : Pps → Pps) : State := { s with peu := { s.peu with pps := vmod s.peu.pps n f } }
/-- One IRIG output changed. -/
def State.setIrig (s : State) (n : Nat) (f : Irig → Irig) : State := { s with peu := { s.peu with irig := vmod s.peu.irig n f } }
/-- One time-of-day output changed. -/
def State.setTod (s : State) (n : Nat) (f : Tod → Tod) : State := { s with peu := { s.peu with tod := vmod s.peu.tod n f } }
/-- One event input changed. -/
def State.setEvt (s : State) (n : Nat) (f : EvtInput → EvtInput) : State := { s with peu := { s.peu with evt := vmod s.peu.evt n f } }

/-! ### Frequency -/

/-- The residual of that word in nHz, rounded to the nearest (R178). -/
def residualNhz (vco : Nat) : Int :=
  round (((feedbackWord vco : ℚ) * 250000000 / 2 ^ 48 - (vco : ℚ) / 65536) * 10 ^ 9)

/-- The frequency of an output with a VCO nominal and a divider, Hz (R182 rule 1). -/
def outHz (vco d : Nat) : ℚ := (vco : ℚ) / 65536 / d

/-- Rules 2 and 3 of R182: the frequency limits of the output, and the ceiling against a frequency. -/
def limitsOk (o vco d ceiling : Nat) : Bool :=
  let top := if o < 16 then 1600000000 else 250000000
  decide (d * 65536 ≤ vco) && decide (vco ≤ top * d * 65536) && decide (10003 * vco ≤ ceiling * 10000 * d * 65536)

/-- The first half of rule 4 of R182: a whole number of Hz. -/
def wholeHz (vco d : Nat) : Bool := vco % (d * 65536) == 0

/-- The other half: a source DPLL that disciplines a domain. -/
def disciplines (s : State) (source : Option (Fin 8)) : Bool :=
  match source with
  | none => false
  | some k => (List.range 4).any fun x => (s.domain x).dpll == some k

/-- Rule 4 of R182. -/
def alignOk (s : State) (source : Option (Fin 8)) (vco d : Nat) : Bool := wholeHz vco d && disciplines s source

/-- An APLL holds its outputs: it is not locked, or its restart has not come (R195, R198). -/
def apllHolds (a : Apll) : Bool := a.loop != .locked || a.restartDue

/-! ### The phase of an output -/

/-- What the VCO of an output turns in one CD-TIME cycle. -/
def vcoRate (s : State) (x : Output) : ℚ := vcoAdvance s (s.apllOf x.apll.val) 1

/-- The period of an output, ps. -/
def outPeriod (s : State) (x : Output) : ℚ := (x.divider * vcoTurn : Nat) / vcoRate s x * 1000

/-- The configured delay of an output, ps (R184): COARSE_HC half-periods of the VCO, and FINE. -/
def configDelay (s : State) (x : Output) : ℚ := x.coarse * ((vcoTurn / 2 : Nat) / vcoRate s x * 1000) + x.fine / 2

/-- The delay from the divider edge to the ball that the engine sets, ps (R184): the configured delay and the accumulated steps,
as far as the stepper has come, less the effective output delay. -/
def outDelay (s : State) (o : Nat) (x : Output) : ℚ :=
  configDelay s x + (x.steps + x.trim - x.delayLeft : Int) / 2 - calValue s (0x2000 + o)

/-- The latest divider rising edge, ps from now (R183): the divider counts VCO cycles at all times. -/
def dividerEdge (s : State) (x : Output) : ℚ :=
  -(((s.apllOf x.apll.val).turns % (x.divider * vcoTurn) : Nat) / vcoRate s x * 1000)

/-- The part of a time that lies in one period from 0. -/
def inPeriod (t period : ℚ) : ℚ := t - period * (t / period).floor

/-- How long ago the latest rising edge of an output left its ball, ps. -/
def sinceRise (s : State) (o : Nat) (x : Output) : ℚ := inPeriod (-(dividerEdge s x + outDelay s o x)) (outPeriod s x)

/-- The domain to which an output aligns (R191): the lowest-numbered one that its APLL's source DPLL disciplines. -/
def alignDomain (s : State) (x : Output) : Option Nat :=
  match (s.apllOf x.apll.val).source with
  | none => none
  | some k => (List.range 4).find? fun d => (s.domain d).dpll == some k

/-- The misalignment of an output, ps, by the shorter direction (R191): its rising edge against the second of its domain and its
configured delay. A move of that delay that the stepper still makes is none. -/
def misalignment (s : State) (o : Nat) (x : Output) : ℚ :=
  match alignDomain s x with
  | none => 0
  | some d =>
    let since : ℚ := ((s.domain d).count % secU : Nat) / (baseInc s d : ℚ) * 1000
    let mis := dividerEdge s x + outDelay s o x + (x.delayLeft : ℚ) / 2 - (configDelay s x - calValue s (0x2000 + o)) + since
    mis - outPeriod s x * round (mis / outPeriod s x)

/-! ### The ceiling gate (R185) -/

/-- The gate passes a rising edge, by the times since the last rising and the last falling edge that it passed, ps. -/
def gateRises (ceiling : Nat) (sinceRise sinceFall : ℚ) : Bool :=
  decide (10 ^ 12 / (ceiling : ℚ) ≤ sinceRise) && decide (10 ^ 12 / (2 * ceiling : ℚ) ≤ sinceFall)

/-- When the gate passes the falling edge after a rising one. -/
def gateFalls (ceiling : Nat) (rise fall : ℚ) : ℚ := max fall (rise + 10 ^ 12 / (2 * ceiling : ℚ))

/-- Now on the CD-TIME scale, ps. -/
def nowPs (s : State) : Int := (s.tcr.cycles : Int) * 1000

/-- Where the high phase of a running output ends if no further rising edge passes (R186, R195). -/
def lastFall (s : State) (o : Nat) (x : Output) : ℚ :=
  let rise := (nowPs s : ℚ) - sinceRise s o x
  gateFalls x.ceiling rise (rise + outPeriod s x / 2)

/-- An output starts (R186): an aligned one takes its aligned phase, and its first rising edge comes at least 1/(2C) after the
driver. -/
def startedOut (s : State) (o : Nat) (x : Output) : Output :=
  let x := { x with st := .running, held := false, startDue := false, aligning := 0, delayLeft := 0, alignAt := s.tcr.cycles }
  let x := if x.align then { x with trim := x.trim - round (2 * misalignment s o x) } else { x with trim := 0 }
  let wait : ℚ := 10 ^ 12 / (2 * x.ceiling : ℚ)
  { x with rose := some ((nowPs s : ℚ) + wait + inPeriod (-(wait + sinceRise s o x)) (outPeriod s x)) }

/-- An output stops (R186): a running step is complete at once, as R189 has it for a stopped output. -/
def stoppedOut (s : State) (o : Nat) (st : OutState) (x : Output) : Output :=
  let fell := if x.st == .running && !x.held then some (lastFall s o x) else x.fell
  { x with st := st, held := false, startDue := false, steps := x.steps + x.left, left := 0, delayLeft := 0, aligning := 0
           fell := fell }

/-! ### Holds -/

/-- The outputs changed, each by its number. -/
def State.mapOuts (s : State) (f : Nat → Output → Output) : State :=
  { s with fso := { s.fso with out := s.fso.out.mapIdx f } }

/-- A RUNNING output is held low; its high phase ends as it would, or at once where the clock fails (R195, R198). -/
def heldOut (s : State) (cut : Bool) (o : Nat) (x : Output) : Output :=
  if x.st != .running then x
  else if x.held then { x with held := true }
  else { x with held := true, fell := some (if cut then min (lastFall s o x) (nowPs s) else lastFall s o x) }

/-- The RUNNING outputs of an APLL are held low (R195 step 2). -/
def holdApll (n : Nat) (s : State) : State := s.mapOuts fun o x => if x.apll.val = n then heldOut s false o x else x

/-- An APLL loses lock or its clock and will relock, on the anchor unless a new nominal is being acquired. -/
def unlockApll (a : Apll) : Apll :=
  { a with loop := if a.loop == .relockNominal then .relockNominal else .relockAnchor, restartDue := true, afterLoss := true }

/-- A clock-monitor fault on FSO (R26, R198): every gate holds its output low, and every APLL has to relock. -/
def holdAll (s : State) : State :=
  let s := s.mapOuts (heldOut s true)
  { s with fso := { s.fso with apll := s.fso.apll.map unlockApll } }

/-- An aborted APLL_RETUNE leaves nothing of itself: the nominal and RAMP_PPM_S of the last completed configuration (R199). -/
def withoutRetune (a : Apll) : Apll :=
  match a.large, a.rampFrom with
  | some g, _ => { a with vco := g.vco, ramp := g.ramp, large := none, rampTo := none, rampFrom := none }
  | none, some (v, r) => { a with vco := v, ramp := r, rampTo := none, rampFrom := none }
  | none, none => a

/-- BLOCK reset of FSO (R199): RUNNING outputs are held, the APLLs relock on their last completed configuration, an
aborted retune leaves nothing; staged dividers and accumulated steps stay. -/
def resetFso (s : State) : State :=
  let s := s.mapOuts fun o x =>
    { heldOut s false o x with
      divider := x.oldDivider.getD x.divider
      staged := if x.oldDivider.isSome then some x.divider else x.staged
      oldDivider := none }
  { s with fso := { s.fso with apll := s.fso.apll.map fun a =>
      { withoutRetune a with loop := .relockNominal, yRest := 0, restartDue := true, afterLoss := false, timedOut := false } } }

/-! ### Generators -/

/-- A pulse in progress ends now (R205, R222). -/
def cutPulse (now : Int) (x : Pps) : Pps := { x with lastEnd := x.lastEnd.map fun e => min e now }

/-- Time on a serial line of `n` bits, ps (R214). -/
def serialPs (n baud : Nat) : Nat := ceilDiv (n * 10 ^ 12) baud

/-- A message has ended: 10 bits a byte, start and stop bit included (R214). -/
def TodLine.ended (m : TodLine) (now : Int) : Bool := decide (m.start + serialPs (10 * m.bytes.length) m.baud ≤ now)

/-- A message in progress is cut off: what it has sent whole is kept (R205, R222). -/
def cutMessage (now : Int) (x : Tod) : Tod :=
  match x.line with
  | none => { x with due := [] }
  | some m => { x with due := [], line := none
                       sent := x.sent ++ [m.bytes.take ((now - m.start).toNat * m.baud / (10 * 10 ^ 12))] }

/-- Every pulse, frame and message in progress is cut off, and the crossings that wait for a message are dropped. -/
def cutGenerators (s : State) : State :=
  { s with peu := { s.peu with
      pps := s.peu.pps.map (cutPulse (nowPs s))
      irig := s.peu.irig.map fun (x : Irig) => ({ x with frame := none } : Irig)
      tod := s.peu.tod.map (cutMessage (nowPs s)) } }

/-- A clock fault on PEU (R205). -/
def peuClockFault (s : State) : State := cutGenerators s

/-- BLOCK reset of PEU (R222): pulses, frames and messages are cut, the inputs are blind. -/
def resetPeu (s : State) : State :=
  let s := cutGenerators s
  { s with peu := { s.peu with
      evt := s.peu.evt.map (fun (x : EvtInput) => ({ x with blind := true } : EvtInput))
      blindSeen := 0xFFFF } }

/-- A step of a domain on PEU (R203, R210): the frames of that time in progress are cut off. -/
def stepPeu (d : Nat) (s : State) : State :=
  { s with peu := { s.peu with irig := s.peu.irig.map fun x =>
      if (viewDomain s x.view.val == d) then { x with frame := none } else x } }

end Sys2Proof.Machine
end

