-- ==== Sys2Proof/Machine/Reset.lean ====
section
/-! DEFINITION. The resets as shared operations (R394–R399): what POR, PIN and CHIP resets wipe and keep, BLOCK resets
of each subsystem as its chapter states, the start of a WARM restart (R70). -/

namespace Sys2Proof.Machine

/-! ### POR, PIN and CHIP resets -/

/-- A rail after a reset: thresholds at their defaults, minimum and maximum start again at the present voltage. -/
def railWiped (r : Fin 8) (x : Rail) : Rail :=
  let d := vget (({} : Srt).rail) r.val x
  { d with now := x.now, low := x.now, high := x.now }

/-- A sensor after a reset. -/
def sensorWiped (x : Sensor) : Sensor := { now := x.now, low := x.now, high := x.now }

/-- Wipe the engine (R399, columns CHIP and PIN, POR): everything to its reset value but the part, the battery
domain (tamper, root secret, coarse seconds), the boot flash and OTP, the latched straps, the reset-cause record given,
and the model's own queue and counter. A commit in progress leaves the copy it was writing invalid (R384). -/
def wipe (cause : ResetCause) (s : State) : State :=
  { ({} : State) with
    intc := { pin := s.srt.straps.spi }
    col := { part := s.col.part }
    cpx := { phase := .inReset }
    srt := { rail := Vector.ofFn fun r => railWiped r s.srt.rail[r]
             sensor := s.srt.sensor.map sensorWiped
             cause := cause
             coarse := s.srt.coarse, coarseNs := s.srt.coarseNs, coarseValid := s.srt.coarseValid
             vbat := s.srt.vbat, straps := s.srt.straps, held := s.srt.held, factoryPor := s.srt.factoryPor }
    sec := { root := s.sec.root, rootNew := s.sec.rootNew, tamper := s.sec.tamper, rootRefused := s.sec.rootRefused
             rollback := s.sec.rollback, slot := s.sec.slot, bootSlot := s.sec.bootSlot, running := s.sec.running
             config := s.sec.config }
    cal := { copy := match s.cal.writing with
                     | some (i, _) => vmod s.cal.copy i.val fun _ => none
                     | none => s.cal.copy }
    pending := s.pending
    fresh := s.fresh }

/-- Coarse seconds for the reset-cause record (R397 word 1). -/
def coarseWord (s : State) : BitVec 32 := if s.srt.coarseValid then BitVec.ofNat 32 s.srt.coarse else 0

/-- The watchdog has reset the chip before the trial slot that runs was confirmed: its attempt has failed (R332). -/
def failTrial (s : State) : State :=
  if s.cpx.hostLoaded || s.cpx.bootHash.isNone then s else
  { s with sec := { s.sec with slot := vmod s.sec.slot s.sec.running.val fun x => { x with failed := x.failed || x.trial } } }

/-- A CHIP reset (R394, R397): kind 3 with a fault source, kind 4 for DEV_CHIP_RESET. -/
def chipResetOp (kind : Nat) (source : Byte) (s : State) : State :=
  let s := if kind = 3 ∧ source = 228 then failTrial s else s
  let s := wipe { kind := BitVec.ofNat 3 kind, detail := source, coarse := coarseWord s,
                  chips := BitVec.ofNat 16 (min 65535 (s.srt.cause.chips.toNat + 1)) } s
  { s with srt := { s.srt with held := 4 } }

/-! ### BLOCK resets -/

/-- R68: every job of a subsystem that is in flight completes ABORTED_BY_RESET, or is marked to do so after the WARM
restart in progress (R406). -/
def abortJobs (b : Fin 16) (s : State) : State :=
  let mine := fun (f : Flight) => jobSubsystem f.job == some b.val
  if s.cpx.warm.isSome then
    { s with mbx := { s.mbx with flights := s.mbx.flights.map fun f => if mine f then { f with hold := .aborted b } else f } }
  else (s.mbx.flights.filter mine).foldl (fun t f => finish f { status := 0x20, r0 := word b.val } t) s

/-- BLOCK reset of RIM (R153): entries start again from empty windows, and each DPLL loses its selection, or the entry that it
is switching to. -/
def resetRim (s : State) : State :=
  let s := { s with rim := { s.rim with ref := s.rim.ref.map fun e =>
    { e with st := .unqualified, freqs := [], delays := [], firstStamp := none, lastStamp := none, lastEdge := none, edges := 0,
             lag := none, lagMark := none, freqNow := none, clean := 0, counting := false, arrived := false, los := true,
             freqSoftNow := false, freqHardNow := false, driftNow := false, jumpNow := false, pdvSoftNow := false,
             pdvHardNow := false } } }
  forAll 8 s fun k t =>
    let x := t.dpllOf k
    if x.selected.isSome || x.st == .switching then enterLost k x.selected.isSome t
    else t.setDpll k fun x => { x with sw := none }

/-- BLOCK reset of DSB (R153): loops and build-out clear; each DPLL restarts in HOLDOVER on the value that EHU holds, which is
the one in use where it was in HOLDOVER, or in FREERUN, as where that mode forces it. -/
def resetDsb (s : State) : State :=
  forAll 8 s fun k t =>
    let x := t.dpllOf k
    let t := t.setDpll k fun x =>
      { x with buildOut := 0, moving := 0, stepMoving := false, phaseErr := 0, errMax := [], inLock := 0, takeoverFor := none }
    if x.mode == .freerun || x.st == .holdover then t else enterLost k (follows x) t

/-- BLOCK reset of EHU (R153): archive, estimates, weights and outlier history clear; configuration stays; reference 31
shows loss. -/
def resetEhu (s : State) : State :=
  let s := { s with
    ehu := { s.ehu with
      member := s.ehu.member.map (fun (m : Member) => ({ m with weight := 0, dew := .none, phasePs := none, est := none } : Member))
      lag := 0, freq := 0, phase := 0
      hold := s.ehu.hold.map (fun (h : Hold1) =>
        ({ h with hist := [], closed := [], value := none, secUsable := false, secSum := 0, secCount := 0 } : Hold1)) }
    rim := { s.rim with ref := s.rim.ref.map (fun (e : RefEntry) => ({ e with outlierNow := false } : RefEntry)) } }
  loseRef 31 s

/-- BLOCK reset of TCR (R396): VALID and the ledgers are lost, slews and pending steps discarded; counters,
configuration and UTC information stay. R396 and R399 say nothing of the snapshot: its words and TSNAP_SEQ return to
their reset value. DESIGN CHOICE, log entry 95. -/
def resetTcr (s : State) : State :=
  { s with
    tcr := { s.tcr with dom := s.tcr.dom.map fun d =>
      { d with valid := false, slew := none, pending := none, returnWaits := false, diverged := false, ledger := {} } }
    tsnap := {} }

/-- BLOCK reset of SEC (R336): the TRNG repeats its start-up tests; keys, table and battery domain stay. -/
def resetSec (s : State) : State := { s with sec := { s.sec with trngReady := false, trngFrom := s.tcr.cycles } }

/-- The receiver moves to a state; every change raises interrupt source 15 (R159). -/
def moveGnss (st : GnssState) (s : State) : State :=
  if s.gtr.st = st then s else raiseIrq 15 { s with gtr := { s.gtr with st := st } }

/-- The receiver starts again from SEARCH, or IDLE without ENABLE: every channel drops (R174, R177). The held position,
the anchor and a standing failure stay. -/
def restartGnss (s : State) : State :=
  let g := s.gtr
  moveGnss (if g.cfg.enable then .search else .idle)
    { s with gtr := { g with channels := [], used := [], epoch := none, survey := none, valid16 := false, valid17 := false,
                             cn0For := 0, posFor := 0, phase := none, cross := [] } }

/-- BLOCK reset of SAU (R350): every channel fills until it re-enters. -/
def resetSau (s : State) : State :=
  let hit := maskOf 32 fun c => (vget s.sau.chan c {}).cfg.enable && !(vget s.sau.chan c {}).under
  let s := { s with sau := { s.sau with
    chan := s.sau.chan.map (fun (c : SampChan) => ({ c with under := c.cfg.enable, clean := 0 } : SampChan))
    underSeen := s.sau.underSeen ||| BitVec.ofNat 32 hit } }
  forAll 32 s fun c t => if hit.testBit c then pcuCount 0x4001 c 1 t else t

/-- What a BLOCK reset does to its own subsystem. -/
def resetUnit (b : Nat) (s : State) : State :=
  match b with
  | 2 => resetSec s
  | 5 => resetRim s
  | 6 => resetTcr s
  | 7 => resetEhu s
  | 8 => resetDsb s
  | 9 => resetFso s
  | 10 => resetPeu s
  | 11 => resetNlu s
  | 12 => resetTpe s
  | 13 => resetAue s
  | 14 => restartGnss s
  | 15 => resetSau s
  | _ => s

/-- The start of a WARM restart (R70, R360): FW_READY clears, RESTARTING and every FROZEN set, every job in flight is
spanned, the shadow of CPX opens. A restart in progress goes on; before firmware runs there is nothing to restart. -/
def warmStart (reload byJob : Bool) (s : State) : State :=
  if !s.fwRuns then s else
  let s := { s with
    cpx := { s.cpx with warm := some { byJob := byJob, reload := reload, since := s.cpx.impressions }, warmDue := none, proof := none }
    mbx := { s.mbx with fwReady := false, restarting := true,
                        rings := s.mbx.rings.map (fun (g : Ring) => ({ g with frozen := true } : Ring)),
                        flights := s.mbx.flights.map (fun (f : Flight) => ({ f with spanned := true } : Flight)) }
    ehu := { s.ehu with hold := s.ehu.hold.map fun (h : Hold1) => ({ h with secUsable := false } : Hold1) } }
  s.setBlock 0 .asserted

/-- A BLOCK reset (R68, R69, R360, R394): none acts on HIF, FCO or SRT; of CPX it is WARM; one already in progress is
not restarted, and its shadow ends no earlier than 64 µs from now (R361). -/
def blockReset (b : Fin 16) (s : State) : State :=
  if b.val = 1 ∨ b.val = 3 ∨ b.val = 4 then s
  else if vget s.fco.block b.val .none = .asserted then s.extendShadow b.val
  else if b.val = 0 then warmStart false false s
  else resetUnit b.val ((abortJobs b s).setBlock b.val .asserted)

end Sys2Proof.Machine
end

