-- ==== Sys2Proof/Machine/FaultOps.lean ====
section
/-! DEFINITION. The reaction of FCO to a fault (R351–R361, R431) as one shared operation. -/

namespace Sys2Proof.Machine

/-- A row of the source table (R351): the owner in colophon order where it is fixed, LEVEL, CAP, ERR_N. -/
structure SourceRow where
  owner : Option Nat
  cfg   : SourceCfg
  deriving DecidableEq, Repr

/-- A row with a fixed owner. -/
def srcRow (owner level cap errn : Nat) : SourceRow :=
  { owner := some owner, cfg := { level := level, cap := cap, errn := errn == 1 } }

/-- The source table (R351); none for a reserved source. The owner of sources 0, 1, 20 and 35 depends on the fault. -/
def sourceRow (src : Nat) : Option SourceRow :=
  if src = 0 then some { owner := none, cfg := { level := 0, cap := 0, errn := false } }
  else if src = 1 then some { owner := none, cfg := { level := 2, cap := 3, errn := true } }
  else if src = 2 then some (srcRow 0 3 4 1)
  else if src = 3 then some (srcRow 0 4 4 1)
  else if 4 ≤ src ∧ src ≤ 19 then
    some (srcRow (src - 4) (if src - 4 = 1 ∨ src - 4 = 3 ∨ src - 4 = 4 then 2 else 3) 3 1)
  else if src = 20 then some { owner := none, cfg := { level := 0, cap := 0, errn := false } }
  else if src = 21 then some (srcRow 2 2 2 1)
  else if src = 32 ∨ src = 33 then some (srcRow 1 1 1 0)
  else if src = 34 then some (srcRow 1 1 2 0)
  else if src = 35 then some { owner := none, cfg := { level := 2, cap := 3, errn := true } }
  else if 64 ≤ src ∧ src ≤ 66 then some (srcRow 4 2 2 1)
  else if src = 67 then some (srcRow 4 1 1 0)
  else if src = 68 then some (srcRow 11 1 1 0)
  else if src = 72 then some (srcRow 14 1 1 0)
  else if 80 ≤ src ∧ src ≤ 83 then some (srcRow 9 1 2 0)
  else if src = 96 then some (srcRow 0 1 1 0)
  else if src = 97 ∨ src = 98 then some (srcRow 6 1 1 0)
  else if src = 99 then some (srcRow 7 1 1 0)
  else if src = 100 then some (srcRow 12 1 2 0)
  else if src = 101 then some (srcRow 6 2 2 1)
  else if 128 ≤ src ∧ src ≤ 134 then some (srcRow 11 1 1 0)
  else if 160 ≤ src ∧ src ≤ 167 then some (srcRow 4 1 1 0)
  else if 168 ≤ src ∧ src ≤ 175 then some (srcRow 4 2 2 1)
  else if 176 ≤ src ∧ src ≤ 180 then some (srcRow 4 1 2 0)
  else if src = 192 then some (srcRow 2 1 1 1)
  else if src = 193 then some (srcRow 2 2 3 1)
  else if src = 194 then some (srcRow 2 1 1 0)
  else if src = 224 ∨ src = 225 then some (srcRow 0 1 1 1)
  else if src = 226 ∨ src = 227 then some (srcRow 0 3 4 1)
  else if src = 228 then some (srcRow 0 4 4 1)
  else if src = 229 then some (srcRow 0 2 3 1)
  else if src = 230 then some (srcRow 0 1 1 0)
  else none

/-- The configuration of a source: as FLT_CONFIG_SOURCE set it, else the default (R351, R362). -/
def sourceCfg (s : State) (src : Nat) : SourceCfg :=
  match s.fco.cfg.find? fun c => c.1 == src with
  | some c => c.2
  | none => match sourceRow src with
    | some r => r.cfg
    | none => { level := 0, cap := 0, errn := false }

/-- Pool areas of an imposition in KB (R37): GNSS store, holdover archive, SV monitor, event/trace, client ledger. -/
def poolSizes : Imposition → List Nat
  | .folio => [896, 1024, 512, 1024, 4608]
  | .broadsheet => [512, 768, 128, 512, 6144]
  | .quarto => [896, 2048, 2048, 1536, 1536]
  | .octavo => [896, 1024, 512, 4096, 1536]

/-- Owners of the pool areas (R37, R351): GTR, EHU, SAU, PEU, TPE. -/
def poolOwners : List Nat := [14, 7, 15, 10, 12]

/-- Walk the pool areas from a base in KB to the owner of an offset. -/
def poolOwner : List (Nat × Nat) → Nat → Nat → Nat
  | [], _, _ => 12
  | (size, owner) :: t, base, kb => if kb < base + size then owner else poolOwner t (base + size) kb

/-- The owner of an SRAM byte address (R304, R351). -/
def sramOwner (s : State) (addr : Nat) : Nat :=
  let kb := addr / 1024
  if kb < 256 then 0
  else if kb < 384 then 1
  else if kb < 1408 then 12
  else if kb < 2176 then 0
  else poolOwner ((poolSizes s.cpx.imposition).zip poolOwners) 2176 kb

/-- Where a fault comes from: capture ADDRESS, MASTER and ACCESS (R358), and the world of its master where R431 takes
it from there. -/
structure Origin where
  addr   : Nat := 0
  master : Nat := 0xFF
  access : Nat := 0
  world  : Option Bool := none
  deriving DecidableEq, Repr

/-- The owner of a fault; none for a pool area of an absent unit (R351). -/
def faultOwner (s : State) (src : Nat) (o : Origin) : Option Nat :=
  let own := if src = 0 ∨ src = 1 then some (sramOwner s o.addr)
    else if src = 20 ∨ src = 35 then some (o.addr % 16)
    else (sourceRow src).bind SourceRow.owner
  own.filter s.present

/-- The world flag of a capture (R431). -/
def captureWorld (s : State) (src : Nat) (o : Origin) : Bool :=
  if src ≤ 3 then s.sec.region.getLsbD (o.addr / (160 * 1024))
  else match o.world with
    | some w => w
    | none => match faultOwner s src o with
      | some b => s.sec.part.getLsbD b
      | none => false

/-- Blocks whose faults a reset block makes consequential, beside its own (R360). -/
def dependents : Nat → List Nat
  | 5 => [8, 6, 7]
  | 6 => [5, 8, 7, 10, 12, 15, 14]
  | 7 => [5, 8]
  | 8 => [6, 7, 9]
  | 11 => [5, 12]
  | 12 => [5, 13]
  | 13 => [12]
  | 2 => [13, 12]
  | 14 => [5, 7]
  | _ => []

/-- The owner lies in the shadow of some reset (R360). -/
def inShadow (s : State) (owner : Nat) : Bool :=
  (List.range 16).any fun b =>
    vget s.fco.block b .none != .none && (b == owner || (dependents b).contains owner)

/-- Sources that are never consequential (R361). -/
def neverConsequential (src : Nat) : Bool :=
  (decide (160 ≤ src) && decide (src < 224)) || (decide (64 ≤ src) && decide (src ≤ 66)) ||
  (decide (226 ≤ src) && decide (src ≤ 228))

/-- The capture record of a fault (R358); without VALID if CD-TIME was faulty (R26). -/
def captureOf (s : State) (src : Nat) (o : Origin) (injected escalated : Bool) (reaction level : Nat) : Capture :=
  { time := timeNow s 4
    addr := BitVec.ofNat 64 o.addr
    source := BitVec.ofNat 8 src
    master := BitVec.ofNat 8 o.master
    access := BitVec.ofNat 8 o.access
    flags := BitVec.ofNat 8 (1 + 2 * bit (captureWorld s src o) + 8 * bit injected + 16 * bit escalated)
    level := BitVec.ofNat 8 (reaction + 8 * level) }

/-- Put a fault in a capture slot: the first fills it, a later one raises its COUNT (R358). -/
def capturePut (c : Capture) : Option Capture → Option Capture
  | none => some c
  | some old => some { old with count := min 65535 (old.count + 1) }

/-- The actions of a reaction level (R354). Where the owner is HIF, FCO or SRT, or there is none, level 3 acts as
level 2. A trap waits while CD-SYS is stopped. -/
def react (src : Nat) (owner : Option Nat) (level : Nat) (s : State) : State :=
  if level = 0 then s
  else if 4 ≤ level then chipResetOp 3 (BitVec.ofNat 8 src) s
  else
    let s := raiseIrq 8 s
    if level = 1 then s else
    let s := raiseIrq 31 s
    let s := if s.clockOk then { s with fco := { s.fco with traps := s.fco.traps + 1 } }
      else { s with fco := { s.fco with trapsDue := s.fco.trapsDue + 1 } }
    if level = 2 then s else
    match owner with
    | none => s
    | some b => blockReset (Fin.ofNat 16 b) s

/-- A real fault rises (R352, R356, R358, R360): consequential in a shadow, else recorded, captured, escalated and
acted on. A source whose owner is absent never rises (R6), nor does any while the engine is held in reset (R402). -/
def raiseFault (src : Nat) (o : Origin) (s : State) : State :=
  let owner := faultOwner s src o
  if s.cpx.phase == .inReset || (sourceRow src).isNone || (owner.isNone && decide (1 < src)) then s else
  let c := src / 32
  let cfg := sourceCfg s src
  if (match owner with
      | some b => inShadow s b
      | none => false) && !neverConsequential src then
    let s := s.setClass c fun k =>
      { k with conseq := min 255 (k.conseq + 1), errnHold := k.errnHold || cfg.errn }
    pcuCount (0x0208 + c) 0xFF 1 s
  else
    let k := vget s.fco.cls c {}
    let reaction := if cfg.level = 0 then 0 else min cfg.cap (cfg.level + k.n)
    let up := decide (cfg.level < reaction)
    let rec' := captureOf s src o false up reaction cfg.level
    let s := s.setClass c fun k =>
      { k with
        pending := k.pending || decide (1 ≤ cfg.level)
        escalated := k.escalated || up
        errnHold := k.errnHold || cfg.errn
        recorded := min 65535 (k.recorded + 1)
        n := if cfg.level = 0 then k.n else min 255 (k.n + 1)
        cap := capturePut rec' k.cap }
    let s := pcuCount (0x0200 + c) 0xFF 1 s
    let s := if up then pcuCount 0x0218 0xFF 1 s else s
    react src owner reaction s

/-- An injected fault rises (R364): its own slot, INJ_SEEN, the configured level, no escalation. R6 has absent units raise
no source, R365 lets a job inject any named source: a source of an absent unit is injected as any other. DESIGN CHOICE,
log entry 93. -/
def injectFault (src : Nat) (addr : Nat) (s : State) : State :=
  let o : Origin := { addr := addr }
  let c := src / 32
  let cfg := sourceCfg s src
  let rec' := captureOf s src o true false cfg.level cfg.level
  let s := s.setClass c fun k =>
    { k with injSeen := true, errnHold := k.errnHold || cfg.errn, inj := capturePut rec' k.inj }
  let s := pcuCount (0x0210 + c) 0xFF 1 s
  react src (faultOwner s src o) cfg.level s

/-- Acknowledge a class (R357): PENDING, ESCALATED, N, counts, both capture slots, INJ_SEEN; ERR_N is released. -/
def ackClass (c : Nat) (s : State) : State := s.setClass c fun _ => {}

/-- Acknowledge the classes of a mask. -/
def ackMask (mask : Nat) (s : State) : State := forAll 8 s fun c t => if mask.testBit c then ackClass c t else t

/-- ERR_N is driven low (R355). -/
def errN (s : State) : Bool := s.fco.cls.toList.any fun k => k.errnHold

end Sys2Proof.Machine
end

