-- ==== Sys2Proof/Machine/Jobs.lean ====
section
/-! DEFINITION. How a job is taken up: the checks of R57 in their order, its effect, its completion; chains, fences
and duplicate tags (R58, R63, R66). Each job is one `JobDef`; its meaning and the ring path both use it. -/

namespace Sys2Proof.Machine

/-- What running a job leads to: a completion, a wait for something named, or (a chip reset) nothing at all. -/
inductive Fate where
  | reply (r : Reply)
  | hold (h : Hold)
  | silent
  deriving DecidableEq, Repr

/-- A job of the catalogue: its parameter table, its rules and its effect. -/
structure JobDef where
  code      : Nat
  /-- how it uses DMA_PARAM; none refuses the flag (R54) -/
  dma       : Option DmaRule := none
  /-- its parameter table (R14) -/
  fields    : List Field := []
  /-- it takes effect at the next impression after its fetch; otherwise in the impression of its fetch -/
  nextImp   : Bool := true
  /-- lowest offsets of rules between fields, or of ranges that depend on the state, that are broken (R429) -/
  rules     : State → Params → List Nat := fun _ _ => []
  /-- shortest result buffer with DMA_PARAM (R54) -/
  minResult : Params → Nat := fun _ => 0
  /-- it is refused with REJECTED_WORLD on an NS ring -/
  nsForbids : State → Params → Bool := fun _ _ => false
  /-- it names an absent unit, lane, port or source (R6, R7) -/
  absent    : State → Params → Bool := fun _ _ => false
  /-- job-specific state and resources (R57) -/
  check     : State → Job → Params → Option Reply := fun _ _ _ => none
  /-- its effect -/
  run       : State → Job → Params → State × Fate

/-- A job that completes at once. -/
def reply (r : Reply) (s : State) : State × Fate := (s, .reply r)
/-- A job that completes DONE at once. -/
def done (s : State) : State × Fate := (s, .reply {})

/-- The parameters of a job: the block with DMA_PARAM where the rule puts them there, the descriptor otherwise. -/
def paramsOf (d : JobDef) (j : Job) : Params :=
  match d.dma with
  | some r => if j.dma && r.inBlock then { w := leNat j.block, len := j.block.length, block := true } else jobInline j
  | none => jobInline j

/-- Parameter blocks stand in the staging areas: SPI mode, but for the jobs of the configuration list (R54, R329). -/
def stagedBlocks (s : State) : Bool := s.srt.straps.spi && s.cpx.list.isNone

/-- Offsets of the descriptor that fail with DMA_PARAM set (R54, R429). -/
def badPointers (s : State) (d : JobDef) (r : DmaRule) (j : Job) : List Nat :=
  let out := stagedBlocks s
  (if j.paramAddr % 64 ≠ 0 ∨ (out ∧ 65536 < j.paramAddr + j.paramLen) then [4] else []) ++
  (if r.lenOk j.paramLen && r.lenRule (paramsOf d j) && decide (j.paramLen < 2 ^ 24) then [] else [12]) ++
  (if j.resultAddr % 64 ≠ 0 ∨ (out ∧ 65536 < j.resultAddr + j.resultLen) then [16] else []) ++
  (if j.resultLen < d.minResult (paramsOf d j) ∨ 2 ^ 24 ≤ j.resultLen then [24] else []) ++
  badFields r.own (jobInline j) 28 64

/-- RESULT0 of REJECTED_PARAM, if the parameters fail (R13, R14, R54, R429). -/
def paramOffence (s : State) (d : JobDef) (j : Job) : Option Word :=
  let p := paramsOf d j
  let header := if j.desc.toNat.testBit 31 then [2] else []
  match d.dma, j.dma with
  | none, true => offence [2] []
  | none, false => offence (header ++ badFields d.fields p 4 64 ++ d.rules s p) []
  | some r, false =>
    offence (header ++ (if r.required then [2] else badFields d.fields p 4 64 ++ d.rules s p)) []
  | some r, true =>
    offence (header ++ badPointers s d r j)
      (if r.inBlock then badFields d.fields p 0 r.covered ++ d.rules s p else d.rules s p)

/-- The first failure of a job, in the order of R57 after the duplicate tag and the broken chain. -/
def firstFailure (s : State) (d : Option JobDef) (j : Job) : Option Reply :=
  match catalogue j.code, d with
  | none, _ => some rejUnknown
  | _, none => some rejUnknown
  | some row, some d =>
    let p := paramsOf d j
    if !j.secure && (row.secure || s.sec.part.getLsbD row.target || d.nsForbids s p) then some rejWorld
    else if row.factory && row.code != 0x0208 && !s.fco.injectUnlocked then some rejMode
    else if row.code == 0x0208 && !s.srt.factoryPor then some rejMode
    else if !s.present (subsystemOf row.target) || d.absent s p then some rejState
    else match paramOffence s d j with
      | some r0 => some (rejParam r0)
      | none => d.check s j p

/-! ### Units under proof (R367) -/

/-- A DPLL in FREERUN with no domain, no APLL and no candidates. -/
def dpllIdle (s : State) (k : Nat) : Bool :=
  (s.dpllOf k).st == .freerun && (s.dpllOf k).cands.isEmpty && (domainsOf s k).isEmpty &&
    !(s.fso.apll.toList.any fun a => a.source.any fun x => x.val == k)
/-- An APLL with no output enabled. -/
def apllIdle (s : State) (n : Nat) : Bool := !(s.fso.out.toList.any fun x => x.apll.val == n && x.st == .running)
/-- A lane in DOWN. -/
def laneIdle (s : State) (l : Nat) : Bool := s.lanePresent l && (s.laneOf l).st == .down
/-- A disabled event input. -/
def inputIdle (s : State) (i : Nat) : Bool := !(vget s.peu.evt i {}).enable

/-- The bit of DEV_PROOF of the idle unit that a job configures, if it does (R367). -/
def proofBit (s : State) (code i : Nat) : Option Nat :=
  if [0x1205, 0x1206, 0x1301, 0x1302, 0x1303, 0x1304].contains code && dpllIdle s i then some 1
  else if (code == 0x1401 || code == 0x1402) && apllIdle s i then some 2
  else if [0x2001, 0x2002, 0x2003, 0x2005, 0x2007].contains code && laneIdle s i then some 3
  else if code == 0x1604 && inputIdle s i then some 4
  else none

/-- A job that configures a unit under proof stops the proof of that unit (R367). -/
def stopProof (bit : Option Nat) (s : State) : State :=
  match bit, s.cpx.proof with
  | some b, some v => { s with cpx := { s.cpx with proof := some { v with skipped := v.skipped ||| (v.units &&& BitVec.ofNat 6 (2 ^ b)) } } }
  | _, _ => s

/-- A job held so has taken effect already: IMPRESSION and SECOND of its completion are those of now (R55; DEDUCED, log
entry 89). -/
def Hold.acted : Hold → Bool
  | .retune _ | .outputs _ _ | .flash | .proof => true
  | _ => false

/-- Run a job's effect; a job that holds stays in flight. -/
def runJob (d : JobDef) (f : Flight) (s : State) : State :=
  let p := paramsOf d f.job
  match d.run (stopProof (proofBit s f.job.code (p.u 4 1)) s) f.job p with
  | (s', .reply r) =>
    let s' := postCompletion f.job (lateReply f r) f.flags s'
    if succeeded r then s' else breakChain f s'
  | (s', .hold h) =>
    if !s'.clocked then s' else
    let took := if h.acted then some (s'.tcr.seq.imp, s'.tcr.seq.second) else f.took
    { s' with mbx := { s'.mbx with flights := s'.mbx.flights ++ [{ f with hold := h, took := took }] } }
  | (s', .silent) => s'

/-- The ring's chain after a job with a number that failed or not (R63). -/
def chainStep (j : Job) (order : Nat) (failed : Bool) (s : State) : State :=
  s.setRing j.ring.val fun g =>
    { g with inChain := j.chain, chainId := if g.inChain then g.chainId else order, chainBroken := j.chain && ((g.inChain && g.chainBroken) || failed) }

/-- The DMA reads the parameter block of a job (R54): from the staging area in SPI mode, else from the bytes that the
host bus gave. Where the bus gives fewer than PARAM_LEN, source 34 rises and the missing bytes are free. -/
def loadBlock (j : Job) (s : State) : Job × State :=
  if !j.dma then (j, s)
  else if stagedBlocks s then
    ({ j with block := Memory.readBytes s.mbx.mem (stagingBase j.secure + j.paramAddr) (min 65536 j.paramLen) }, s)
  else if j.paramLen ≤ j.block.length then ({ j with block := j.block.take j.paramLen }, s)
  else
    let (more, s') := drawBytes (j.paramLen - j.block.length) s
    ({ j with block := j.block ++ more },
     raiseFault 34 { addr := j.paramAddr, master := 5, access := 1, world := some j.secure } s')

/-- Refuse a job at its fetch. -/
def refuse (j : Job) (r : Reply) (f : DoneFlags) (s : State) : State :=
  postCompletion j r f (chainStep j f.order true s)

/-- An earlier job of the same ring has not completed (R66). -/
def ringBusy (s : State) (r : RingId) (order : Nat) : Bool :=
  s.mbx.flights.any (fun f => f.job.ring == r && decide (f.order < order)) ||
  s.mbx.due.any fun d => d.job.ring == r && decide (d.flags.order < order)

/-- The target of a job for the order of R65 (R81): PCU is a target of its own, the steering port belongs to EHU. -/
def jobTarget (j : Job) : Option Nat := (catalogue j.code).map fun row => if row.target = 17 then 7 else row.target

/-- An earlier job of the same ring with the same target has not begun to act (R65). -/
def behind (s : State) (j : Job) (order : Nat) : Bool :=
  s.mbx.flights.any fun f =>
    f.job.ring == j.ring && decide (f.order < order) && f.hold.unbegun && jobTarget f.job == jobTarget j

/-- The descriptor at an index of a ring (R53, R304). -/
def descAt (s : State) (r : RingId) (i : BitVec 16) : Desc :=
  BitVec.ofNat 512 (leNat (Memory.readBytes s.mbx.mem (cqBase r + (i.toNat % 256) * 64) 64))

/-- FENCE_WAIT (R51, R62): the descriptor at HEAD carries FENCE, and a job of its ring has not completed. -/
def fenceWaits (s : State) (r : RingId) : Bool :=
  let g := s.ring r.val
  g.head != g.tail && (descAt s r g.head).getLsbD 26 &&
    (s.mbx.flights.any (fun f => f.job.ring == r) || s.mbx.due.any fun d => d.job.ring == r)

/-- A fetch counts (R61, R373). -/
def countFetch (r : RingId) (s : State) : State :=
  let t := pcuCount 0x010D r.val 1 s
  { t with mbx := { t.mbx with fetched := t.mbx.fetched + 1 } }

/-- A job that its checks let pass begins: directly commanded, it takes effect at once; from a ring, one that asks for
the next impression stays in flight until then (R61, R65, R66, R68). -/
def beginJob (d : JobDef) (direct : Bool) (j : Job) (order : Nat) (chain : Option Nat) (s : State) : State :=
  let f : Flight := { job := j, code := BitVec.ofNat 16 j.code, hold := .effect, order := order, chain := chain }
  let wait := fun h => { s with mbx := { s.mbx with flights := s.mbx.flights ++ [{ f with hold := h }] } }
  let b := (jobSubsystem j).getD 0
  if j.fence && ringBusy s j.ring order then wait .fence
  else if b ≠ 0 ∧ vget s.fco.block b .none = .asserted then wait (.block (Fin.ofNat 16 b))
  else if !direct && (d.nextImp || behind s j order) then wait .effect
  else runJob d f s

/-- A job as it is checked while an earlier job of its ring and target has still to act: rules that may follow the state,
and the job-specific state, wait until that job has acted (R57, R65; DEDUCED, log entry 30). -/
def JobDef.stateless (d : JobDef) : JobDef := { d with rules := fun _ _ => [], check := fun _ _ _ => none }

/-- The first failure of a job at its fetch (R57). -/
def fetchFailure (s : State) (d : Option JobDef) (wait : Bool) (j : Job) : Option Reply :=
  if wait && (firstFailure s (d.map JobDef.stateless) j).isNone then none else firstFailure s d j

/-- The checks of R57 and R58 on a fetched job, in their order. -/
def checkJob (d : Option JobDef) (direct : Bool) (j : Job) (order : Nat) (s : State) : State :=
  let g := s.ring j.ring.val
  if tagInUse s j then
    refuse j rejState { dupTag := true, order := order }
      (raiseIrq 5 (s.setRing j.ring.val fun g => { g with dupTagSeen := true }))
  else if g.inChain && g.chainBroken then refuse j rejState { chainBroken := true, order := order } s
  else match fetchFailure s d (!direct && behind s j order) j, d with
    | some r, _ => refuse j r { order := order } s
    | none, none => refuse j rejUnknown { order := order } s
    | none, some d =>
      let chain := if g.inChain then some g.chainId else if j.chain then some order else none
      beginJob d direct j order chain (chainStep j order false s)

/-- A fetched job is taken up (R54, R57, R58, R61, R63). -/
def takeUp (d : Option JobDef) (direct : Bool) (j : Job) (s : State) : State :=
  let (j, s) := loadBlock j s
  if !s.clocked then s else checkJob d direct j s.mbx.fetched (countFetch j.ring s)

/-- The first failure of a job that has waited: its parameters and its state against what the earlier jobs have left. World,
mode and presence were checked at its fetch and stand (R57, R309; DEDUCED, log entry 30). -/
def stateFailure (s : State) (d : JobDef) (j : Job) : Option Reply :=
  match paramOffence s d j with
  | some r0 => some (rejParam r0)
  | none => d.check s j (paramsOf d j)

/-- A job that has waited begins to act. -/
def resumeJob (d : Option JobDef) (f : Flight) (s : State) : State :=
  let s := dropFlight f s
  match d.bind fun d => stateFailure s d f.job, d with
  | some r, _ => breakChain f (postCompletion f.job r f.flags s)
  | none, none => s
  | none, some d =>
    let b := (jobSubsystem f.job).getD 0
    if b ≠ 0 ∧ vget s.fco.block b .none = .asserted then
      { s with mbx := { s.mbx with flights := s.mbx.flights ++ [{ f with hold := .block (Fin.ofNat 16 b) }] } }
    else runJob d f s

/-- DEV_FENCE jobs complete once what they wait for has (R80). -/
def settle (s : State) : State :=
  s.mbx.flights.foldl (fun t f =>
    match f.hold with
    | .ringFence => if ringBusy t f.job.ring f.order then t else finish f {} t
    | .worldFence =>
      if t.mbx.flights.any (fun g => g.job.secure == f.job.secure && decide (g.order < f.order)) ||
        t.mbx.due.any (fun d => d.job.secure == f.job.secure && decide (d.flags.order < f.order)) then t else finish f {} t
    | _ => t) s

/-- Complete every job with a given hold, and the fences that this lets go. -/
def completeHeld (p : Hold → Bool) (r : Flight → Reply) (s : State) : State := settle (finishHeld p r s)

/-- The engine takes a job of a ring (R62, R70, R403): firmware runs, FW_READY has set, the ring is not frozen, and the
numbers of outstanding jobs leave room. -/
def takesJobs (s : State) (r : RingId) : Bool :=
  s.fwRuns && s.mbx.fwReady && !(s.ring r.val).frozen && decide (outstanding s r.val < 256) &&
  (if r.val = 4 then decide (outstanding s 4 < 64) else decide (nsOutstanding s < 512))

/-- A job with the code of its row. -/
def withCode (code : Nat) (j : Job) : Job :=
  { j with desc := BitVec.ofNat 512 (j.desc.toNat / 65536 * 65536 + code % 65536) }

/-- A job with a byte of its parameters set, the selector of its row: in the block with DMA_PARAM, else in the
descriptor. -/
def withByte (off v : Nat) (j : Job) : Job :=
  let w := j.desc.toNat
  if j.dma then { j with block := j.block.set off (BitVec.ofNat 8 v) }
  else { j with desc := BitVec.ofNat 512 (w - bitsOf w (8 * off) 8 * 2 ^ (8 * off) + v % 256 * 2 ^ (8 * off)) }

/-- A job commanded directly: the engine takes it up, checks it and carries it out (log entry 16). -/
def directJob (d : JobDef) (j : Job) (s : State) : State :=
  if takesJobs s j.ring then settle (takeUp (some d) true (withCode d.code j) s) else s

end Sys2Proof.Machine
end

