-- ==== Sys2Proof/Machine/HostOps.lean ====
section
/-! DEFINITION. Host access as shared operations: the windows (R46–R49, R313), the mailbox registers (R51, R52, R60),
the interrupt registers (R73, R75), the snapshot (R76), the fault registers (R359), the counters (R368–R370), the
colophon (R77), the security registers (R314, R327), ring memory and staging. -/

namespace Sys2Proof.Machine

/-- The host reaches the engine: CD-SYS runs and the ROM has made the registers readable (R403). -/
def hostReady (s : State) : Bool := s.clocked

/-! ### Mailbox registers -/

/-- DOORBELL_ERROR of a ring, with interrupt source 5 (R60, R74). -/
def doorbellError (r : RingId) (s : State) : State :=
  raiseIrq 5 (s.setRing r.val fun g => { g with doorbellError := true })

/-- A TAIL write (R60): refused if it moves TAIL backwards or more than 256 ahead of HEAD. -/
def writeTail (r : RingId) (v : Word) (s : State) : State :=
  let g := s.ring r.val
  let t := BitVec.ofNat 16 v.toNat
  if (t - g.head).toNat ≤ 256 ∧ (g.tail - g.head).toNat ≤ (t - g.head).toNat then
    s.setRing r.val fun g => { g with tail := t }
  else doorbellError r s

/-- A CHEAD write (R60): refused if it passes CTAIL or moves backwards; the completions passed are consumed (R58). -/
def writeChead (r : RingId) (v : Word) (s : State) : State :=
  let g := s.ring r.val
  let c := BitVec.ofNat 16 v.toNat
  if (c - g.chead).toNat ≤ (g.ctail - g.chead).toNat then
    s.setRing r.val fun g => { g with chead := c, unconsumed := g.unconsumed.drop (c - g.chead).toNat }
  else doorbellError r s

/-- MBX_CQn_CTRL (R51); a trigger that holds raises its source. -/
def writeCtrl (r : RingId) (v : Word) (s : State) : State :=
  raiseCompletion r.val (s.setRing r.val fun g =>
    { g with enable := v.getLsbD 0, ccThreshold := v.extractLsb' 8 8, ccHoldoff := v.extractLsb' 16 8 })

/-- MBX_CQn_STATUS, write 1 to clear (R51). -/
def writeRingStatus (r : RingId) (v : Word) (s : State) : State :=
  s.setRing r.val fun g =>
    { g with doorbellError := g.doorbellError && !v.getLsbD 18, dupTagSeen := g.dupTagSeen && !v.getLsbD 19 }

/-- MBX_CQn_STATUS as read (R51). -/
def ringStatus (s : State) (r : RingId) : Word :=
  let g := s.ring r.val
  word (outstanding s r.val % 1024 + bit g.frozen * 2 ^ 16 + bit (fenceWaits s r) * 2 ^ 17 + bit g.doorbellError * 2 ^ 18 +
    bit g.dupTagSeen * 2 ^ 19)

/-- A ring register as read (R51). -/
def readRing (s : State) (r : RingId) (off : Nat) : Word :=
  let g := s.ring r.val
  match off with
  | 0x00 => g.tail.setWidth 32
  | 0x04 => g.head.setWidth 32
  | 0x08 => g.ctail.setWidth 32
  | 0x0C => g.chead.setWidth 32
  | 0x10 => ringStatus s r
  | 0x14 => word (bit g.enable + g.ccThreshold.toNat * 2 ^ 8 + g.ccHoldoff.toNat * 2 ^ 16)
  | _ => 0

/-- A ring register written (R51). -/
def writeRing (r : RingId) (off : Nat) (v : Word) (s : State) : State :=
  match off with
  | 0x00 => writeTail r v s
  | 0x0C => writeChead r v s
  | 0x10 => writeRingStatus r v s
  | 0x14 => writeCtrl r v s
  | _ => s

/-- The code of an imposition (R52). -/
def Imposition.code : Imposition → Nat
  | .folio => 0
  | .broadsheet => 1
  | .quarto => 2
  | .octavo => 3

/-- MBX_GLOBAL_STATUS (R52). -/
def globalStatus (s : State) : Word :=
  word (bit s.mbx.fwReady + 2 * bit s.mbx.restarting + 4 * s.cpx.imposition.code + 16 * bit s.srt.straps.swin +
    32 * bit s.srt.straps.spi + (nsOutstanding s % 1024) * 2 ^ 16)

/-- MBX_IMPRESSION (R52). -/
def impressionReg (s : State) : Word := word (s.tcr.seq.imp + s.tcr.seq.second % 65536 * 65536)

/-! ### Interrupt registers -/

/-- A source that is a condition, and holds now (R73, R74): the completion triggers. Source 5 is taken as an event, though a
DOORBELL_ERROR or DUP_TAG_SEEN bit may still stand: DESIGN CHOICE, log entry 92. -/
def irqCondition (s : State) (n : Nat) : Bool := if n < 5 then ccTrigger (s.ring n) else false

/-- INTC_STATUS, write 1 to clear; a source whose condition still holds sets again at once (R73). -/
def writeIntcStatus (v : Word) (s : State) : State :=
  let s := { s with intc := { s.intc with status := s.intc.status &&& ~~~v } }
  forAll 32 s fun n t => if irqCondition t n then raiseIrq n t else t

/-- Send one message for every source that a predicate names, in rising order (R73). -/
def sendFor (p : Nat → Bool) (i : Intc) : Intc :=
  { i with sent := i.sent ++ ((List.range 32).filter p).map fun n => vget i.map n 0 }

/-- INTC_MASK: bit 31 stays 0; unmasking a source whose status is 1 sends its message (R73, R75). -/
def writeIntcMask (v : Word) (s : State) : State :=
  let i := s.intc
  let i' := { i with mask := v &&& 0x7FFFFFFF }
  { s with intc := if i.pin then i' else sendFor (fun n => !irqPending i n && irqPending i' n) i' }

/-- INTC_MODE: forced to 1 in SPI mode; from pin mode to MSI-X one message is sent for each pending source (R73). -/
def writeIntcMode (v : Word) (s : State) : State :=
  let i := s.intc
  if s.srt.straps.spi then s else
  let i' := { i with pin := v.getLsbD 0 }
  { s with intc := if i.pin && !i'.pin then sendFor (irqPending i') i' else i' }

/-- INTC_MAPm as read (R75). -/
def readMap (i : Intc) (m : Nat) : Word :=
  word ((List.range 4).map fun k => (vget i.map (4 * m + k) 0).toNat * 2 ^ (8 * k)).sum

/-- INTC_MAPm written (R75). -/
def writeMap (m : Nat) (v : Word) (s : State) : State :=
  { s with intc := { s.intc with map := Vector.ofFn fun (n : Fin 32) =>
      if n.val / 4 = m then v.extractLsb' (8 * (n.val % 4)) 5 else s.intc.map[n] } }

/-! ### Snapshot -/

/-- A latch of all four domains (R76). -/
def latchSnapshot (s : State) : State :=
  { s with tsnap :=
      { seq := s.tsnap.seq + 1
        dom := Vector.ofFn fun (d : Fin 4) =>
          { time := timeNow s d.val, bound := BitVec.ofNat 48 (viewBound s d.val),
            growth := BitVec.ofInt 32 (viewGrowth s d.val) } } }

/-- The snapshot registers as read (R76). -/
def readTsnap (t : Tsnap) (off : Nat) : Word :=
  if off = 0x04 then t.seq.setWidth 32
  else if 0x20 ≤ off ∧ off < 0xA0 then
    let x := vget t.dom (off / 0x20 - 1) {}
    match off % 0x20 with
    | 0x00 => x.time.extractLsb' 0 32
    | 0x04 => x.time.extractLsb' 32 32
    | 0x08 => x.time.extractLsb' 64 32
    | 0x0C => x.time.extractLsb' 96 32
    | 0x10 => x.bound.extractLsb' 0 32
    | 0x14 => (x.bound.extractLsb' 32 16).setWidth 32
    | 0x18 => x.growth
    | _ => 0
  else 0

/-! ### Fault registers -/

/-- The 32 bytes of a capture record (R358); in the NS view ADDRESS is zero where the world flag is S (R359). -/
def captureBytes (full : Bool) : Option Capture → List Byte
  | none => List.replicate 32 0
  | some c =>
    leBytes 16 c.time.toNat ++ leBytes 8 (if full || !c.flags.getLsbD 1 then c.addr.toNat else 0) ++
    [c.source, c.master, c.access, c.flags, c.level] ++ leBytes 2 c.count ++ [0]

/-- Word `k` of a byte string. -/
def wordAt (bs : List Byte) (k : Nat) : Word := word (leNat ((bs.drop (4 * k)).take 4))

/-- FCO_STATUS (R359). -/
def fcoStatus (s : State) : Word :=
  let on := fun (p : FaultClass → Bool) => maskOf 8 fun c => p (vget s.fco.cls c {})
  word (on FaultClass.pending + on FaultClass.escalated * 2 ^ 8 + on FaultClass.errnHold * 2 ^ 16 +
    bit (errN s) * 2 ^ 24 + bit s.fco.injectUnlocked * 2 ^ 25)

/-- The fault registers as read (R359); `full` in Window S. -/
def readFco (s : State) (full : Bool) (off : Nat) : Word :=
  if off = 0x000 then fcoStatus s
  else if 0x010 ≤ off ∧ off < 0x030 then
    let k := vget s.fco.cls (off / 4 - 4) {}
    word (k.recorded + k.conseq * 2 ^ 16 + k.n * 2 ^ 24)
  else if off = 0x030 then word (maskOf 8 fun c => (vget s.fco.cls c {}).injSeen)
  else if 0x100 ≤ off ∧ off < 0x300 then
    let k := vget s.fco.cls ((off - 0x100) / 0x40) {}
    let o := (off - 0x100) % 0x40
    wordAt (captureBytes full (if o < 0x20 then k.cap else k.inj)) (o % 0x20 / 4)
  else 0

/-- FCO_ACK: in Window N bits 1 and 6 are ignored (R357, R359). -/
def writeFcoAck (w : Window) (v : Word) (s : State) : State :=
  match w with
  | .n => ackMask (v.toNat % 256 &&& 0xBD) s
  | .s => ackMask (v.toNat % 256) s

/-! ### Counters -/

/-- The latch of a window (R370). -/
def latchIndex : Window → Nat
  | .n => 0
  | .s => 1

/-- A counter that a window may read (R369). -/
def ctrReadable (s : State) (w : Window) (n : Nat) : Bool := w == .s || (vget s.pcu.ctr n {}).userRead

/-- A read of PCU_CNTn_LO (R369, R370): the count, and its upper bits latched. -/
def readCtrLo (w : Window) (n : Fin 64) (s : State) : Word × State :=
  if ctrReadable s w n.val then
    let c := s.pcu.ctr[n]
    (c.count.setWidth 32,
     { s with pcu := { s.pcu with latch := vmod s.pcu.latch (latchIndex w) fun _ => some (n, c.count.extractLsb' 32 16) } })
  else (0, s)

/-- A read of PCU_CNTn_HI (R370): the latched value if this window latched this counter last, else the live bits. -/
def readCtrHi (w : Window) (n : Fin 64) (s : State) : Word × State :=
  if ctrReadable s w n.val then
    match vget s.pcu.latch (latchIndex w) none with
    | some (m, v) =>
      if m = n then (v.setWidth 32, { s with pcu := { s.pcu with latch := vmod s.pcu.latch (latchIndex w) fun _ => none } })
      else ((s.pcu.ctr[n].count.extractLsb' 32 16).setWidth 32, s)
    | none => ((s.pcu.ctr[n].count.extractLsb' 32 16).setWidth 32, s)
  else (0, s)

/-- The counter registers as read (R368). -/
def readPcu (w : Window) (off : Nat) (s : State) : Word × State :=
  if off < 0x200 then
    let n : Fin 64 := Fin.ofNat 64 (off / 8)
    if off % 8 = 0 then readCtrLo w n s else readCtrHi w n s
  else
    let half := fun (b : Nat) (p : Ctr → Bool) => word (maskOf 32 fun i => p (vget s.pcu.ctr (32 * b + i) {}))
    match off with
    | 0x200 => (half 0 Ctr.ovf, s)
    | 0x204 => (half 1 Ctr.ovf, s)
    | 0x208 => (half 0 Ctr.userRead, s)
    | 0x20C => (half 1 Ctr.userRead, s)
    | _ => (0, s)

/-- PCU_OVF, write 1 to clear (R368). -/
def writeOvf (half : Nat) (v : Word) (s : State) : State :=
  { s with pcu := { s.pcu with ctr := Vector.ofFn fun (n : Fin 64) =>
      let c := s.pcu.ctr[n]
      if n.val / 32 = half && v.getLsbD (n.val % 32) then { c with ovf := false } else c } }

/-! ### Colophon and security registers -/

/-- COL_PART [15:0] (R77). -/
def deviceCode : Part → Nat
  | .lt2460 => 0x2460
  | .lt2452 => 0x2452
  | .lt2436 => 0x2436

/-- COL_FWREV (R77). -/
def fwRev (s : State) : Word := if s.col.fwRevValid then word (0x0302 + Config.fwBuild.toNat * 2 ^ 16) else 0

/-- The colophon as read (R77). -/
def readCol (s : State) (off : Nat) : Word :=
  match off with
  | 0x00 => word (deviceCode s.col.part + 0x01 * 2 ^ 16)
  | 0x04 => 0x4200
  | 0x08 => fwRev s
  | 0x0C => word (fuseUnits s.col.part)
  | 0x10 => word (fuseLanes s.col.part)
  | 0x14 => Config.colCalcrc
  | 0x18 =>
    let t := s.srt.straps
    word (t.boot.toNat + 4 * bit t.spi + 8 * bit t.swin + 16 * t.xo.toNat + 64 * bit t.test)
  | _ => 0

/-- The partition registers as read (R314). -/
def readSec (s : State) (off : Nat) : Word :=
  match off with
  | 0x00 => word (s.sec.part.toNat + bit s.sec.locked * 2 ^ 31)
  | 0x04 => s.sec.region.extractLsb' 0 32
  | 0x08 => s.sec.region.extractLsb' 32 32
  | 0x0C => s.sec.denials.setWidth 32
  | _ => 0

/-- SEC_TAMPER_STATUS (R327). -/
def tamperStatus (s : State) : Word :=
  let t := s.sec.tamper
  word (t.seen.toNat + bit s.sec.root.isSome * 2 ^ 8 + bit s.sec.rootNew * 2 ^ 9 + bit t.locked * 2 ^ 10 +
    (t.pins ^^^ ~~~t.level).toNat * 2 ^ 16 + bit (t.standing != 0) * 2 ^ 20)

/-! ### Routing -/

/-- A denied access (R45, R312): source 32, and SEC_DENY_COUNT. -/
def denyAccess (master access addr : Nat) (secure : Bool) (s : State) : State :=
  let s := { s with sec := { s.sec with denials := BitVec.ofNat 16 (min 65535 (s.sec.denials.toNat + 1)) } }
  raiseFault 32 { addr := addr, master := master, access := access, world := some secure } s

/-- Where an access goes (R49, R313). -/
inductive Place where
  | ringReg (r : RingId) (off : Nat)
  | global (off : Nat)
  | intc (off : Nat)
  | tsnap (off : Nat)
  | fco (off : Nat)
  | pcu (off : Nat)
  | col (off : Nat)
  | sec (off : Nat)
  | tamper (off : Nat)
  | memory (addr : Nat)
  | reserved
  deriving DecidableEq, Repr

/-- Window N (R49). -/
def placeN (s : State) (o : Nat) : Place :=
  if o < 0x80 then .ringReg (Fin.ofNat 5 (o / 0x20)) (o % 0x20)
  else if o < 0x1000 then .global o
  else if o < 0x2000 then .intc (o - 0x1000)
  else if o < 0x3000 then .tsnap (o - 0x2000)
  else if o < 0x4000 then .fco (o - 0x3000)
  else if o < 0x5000 then .pcu (o - 0x4000)
  else if 0x10000 ≤ o ∧ o < 0x20000 then .memory (280 * 1024 + (o - 0x10000))
  else if 0x20000 ≤ o ∧ o < 0x28000 then .memory (344 * 1024 + (o - 0x20000))
  else if 0x40000 ≤ o ∧ o < 0x50000 ∧ s.srt.straps.spi then .memory (stagingBase false + (o - 0x40000))
  else if 0x100000 ≤ o ∧ o < 0x101000 then .col (o - 0x100000)
  else .reserved

/-- Window S (R313); the counters lie at 0x4000 in it (R368, log entry 17). -/
def placeS (s : State) (o : Nat) : Place :=
  if o < 0x20 then .ringReg 4 o
  else if o < 0x1000 then .reserved
  else if o < 0x2000 then .fco (o - 0x1000)
  else if o < 0x3000 then .sec (o - 0x2000)
  else if o < 0x4000 then .tamper (o - 0x3000)
  else if o < 0x5000 then .pcu (o - 0x4000)
  else if 0x10000 ≤ o ∧ o < 0x14000 then .memory (256 * 1024 + (o - 0x10000))
  else if 0x14000 ≤ o ∧ o < 0x16000 then .memory (272 * 1024 + (o - 0x14000))
  else if 0x20000 ≤ o ∧ o < 0x30000 ∧ s.srt.straps.spi then .memory (stagingBase true + (o - 0x20000))
  else .reserved

/-- Where an access goes. -/
def placeOf (s : State) (a : HostAccess) : Place :=
  match a.win with
  | .n => placeN s a.off.toNat
  | .s => placeS s a.off.toNat

/-- The access is naturally aligned in a width that its place takes (R47). -/
def aligned (p : Place) (a : HostAccess) : Bool :=
  match p with
  | .memory _ => (a.size == 4 || a.size == 8) && a.off.toNat % a.size == 0
  | _ => a.size == 4 && a.off.toNat % 4 == 0

/-- The access crosses worlds (R306): TSNAP of a secure TCR or the counters of a secure PCU through Window N. -/
def crossesWorlds (s : State) (p : Place) (w : Window) : Bool :=
  w == .n && (match p with
    | .tsnap _ => s.sec.part.getLsbD 6
    | .pcu _ => s.sec.part.getLsbD 16
    | _ => false)

/-- A read of a place. -/
def readPlace (w : Window) (p : Place) (size : Nat) (s : State) : BitVec 64 × State :=
  let plain := fun (v : Word) => (v.setWidth 64, s)
  match p with
  | .ringReg r o => plain (readRing s r o)
  | .global o => plain (if o = 0x100 then globalStatus s else if o = 0x104 then impressionReg s else 0)
  | .intc o =>
    plain (if o = 0x00 then s.intc.status else if o = 0x04 then s.intc.mask
      else if o = 0x08 then s.intc.status &&& ~~~s.intc.mask else if o = 0x0C then word (bit s.intc.pin)
      else if 0x10 ≤ o ∧ o < 0x30 then readMap s.intc (o / 4 - 4) else 0)
  | .tsnap o => plain (readTsnap s.tsnap o)
  | .fco o => plain (readFco s (w == .s) o)
  | .pcu o => let (v, s') := readPcu w o s; (v.setWidth 64, s')
  | .col o => plain (readCol s o)
  | .sec o => plain (readSec s o)
  | .tamper o => plain (if o = 0 then tamperStatus s else if o = 4 then s.sec.tamper.first else 0)
  | .memory a => (BitVec.ofNat 64 (leNat (Memory.readBytes s.mbx.mem a size)), s)
  | .reserved => plain 0

/-- A write of a place. -/
def writePlace (w : Window) (p : Place) (size : Nat) (v : BitVec 64) (s : State) : State :=
  let x : Word := v.setWidth 32
  match p with
  | .ringReg r o => writeRing r o x s
  | .intc o =>
    if o = 0x00 then writeIntcStatus x s else if o = 0x04 then writeIntcMask x s
    else if o = 0x0C then writeIntcMode x s
    else if 0x10 ≤ o ∧ o < 0x30 then writeMap (o / 4 - 4) x s else s
  | .tsnap o => if o = 0 then latchSnapshot s else s
  | .fco o => if o = 4 then writeFcoAck w x s else s
  | .pcu o => if o = 0x200 then writeOvf 0 x s else if o = 0x204 then writeOvf 1 x s else s
  | .memory a => { s with mbx := { s.mbx with mem := Memory.writeBytes s.mbx.mem a (leBytes size v.toNat) } }
  | _ => s

/-- A memory BAR of the PCIe endpoint: its size in KB, and its attributes (R46). -/
structure Bar where
  kb           : Nat
  wide         : Bool
  prefetchable : Bool
  deriving DecidableEq, Repr

/-- The BARs of the endpoint (R46): BAR0 is Window N; BAR2 is Window S, with STRAP_SWIN alone. -/
def barOf (s : State) (n : Nat) : Option Bar :=
  if s.srt.straps.spi then none
  else if n = 0 then some { kb := 16384, wide := true, prefetchable := false }
  else if n = 2 && s.srt.straps.swin then some { kb := 1024, wide := true, prefetchable := false }
  else none

/-- What a BAR register pair reads once the host has written a base address to it (R46): zero where the BAR is not
implemented, else the base in multiples of the size, with the attribute bits of PCI (bits 2:1 two for 64 bits, bit 3
prefetchable). PRESUMED, log entry 91: no row of the step table reaches configuration space. -/
def barRegister (s : State) (n : Nat) (base : BitVec 64) : BitVec 64 :=
  match barOf s n with
  | none => 0
  | some b => (base &&& ~~~BitVec.ofNat 64 (b.kb * 1024 - 1)) ||| BitVec.ofNat 64 (4 * bit b.wide + 8 * bit b.prefetchable)

/-- The window is implemented: in PCIe mode by its BAR, in SPI mode by its commands; Window S only with STRAP_SWIN
(R46, R48). -/
def windowPresent (s : State) (w : Window) : Bool :=
  if s.srt.straps.spi then w == .n || s.srt.straps.swin
  else (barOf s (match w with
    | .n => 0
    | .s => 2)).isSome

/-- The master number of a window (R358). -/
def windowMaster : Window → Nat
  | .n => 1
  | .s => 2

/-- One host access (R45–R49, R306, R312). -/
def hostAccess (a : HostAccess) (s : State) : State :=
  if !hostReady s || !windowPresent s a.win then s else
  let p := placeOf s a
  let read := fun (v : BitVec 64) (t : State) => { t with mbx := { t.mbx with readData := v } }
  let kind := if a.data.isSome then 2 else 1
  if !aligned p a then
    let s := raiseFault 33 { addr := a.off.toNat, master := windowMaster a.win, access := kind,
                             world := some (a.win == .s) } s
    if a.data.isSome then s else read 0 s
  else if crossesWorlds s p a.win then
    let s := denyAccess (windowMaster a.win) kind a.off.toNat (a.win == .s) s
    if a.data.isSome then s else read 0 s
  else match a.data with
    | some v => writePlace a.win p a.size v s
    | none => let (v, s') := readPlace a.win p a.size s; read v s'

/-! ### SPI transactions (R48) -/

/-- Words of a write transaction, from an address that rises by 4; a word that chip select cuts short is not written. -/
def spiWrite (w : Window) : Nat → BitVec 24 → List Byte → State → State
  | 0, _, _, s => s
  | n + 1, a, bs, s =>
    if bs.length < 4 then s else
    spiWrite w n (a + 4) (bs.drop 4)
      (hostAccess { win := w, off := a, size := 4, data := some (BitVec.ofNat 64 (leNat (bs.take 4))) } s)

/-- Words of a read transaction: what the slave drives for `n` bytes after the dummy bytes. -/
def spiRead (w : Window) : Nat → BitVec 24 → Nat → State → List Byte × State
  | 0, _, _, s => ([], s)
  | k + 1, a, n, s =>
    if n = 0 then ([], s) else
    let s := hostAccess { win := w, off := a, size := 4, data := none } s
    let (rest, s') := spiRead w k (a + 4) (n - 4) s
    ((leBytes 4 s.mbx.readData.toNat).take n ++ rest, s')

/-- One SPI transaction, the bytes that the host drives while chip select is low (R48): the command, the byte address, most
significant byte first, the dummy bytes of a read, then words, least significant byte first. A command for a Window S that
is absent, and an unknown one, is ignored. The slave drives zero where the rule names no data (log entry 91). -/
def spiTransaction (wire : List Byte) (s : State) : State :=
  let quiet := fun (s : State) => { s with mbx := { s.mbx with spiOut := List.replicate wire.length 0 } }
  if !hostReady s then s else
  let addr := BitVec.ofNat 24 (leNat ((wire.drop 1).take 3).reverse)
  let put := fun (w : Window) =>
    if windowPresent s w then quiet (spiWrite w wire.length addr (wire.drop 4) s) else quiet s
  let get := fun (w : Window) =>
    if windowPresent s w then
      let (out, t) := spiRead w wire.length addr (wire.length - 8) s
      { t with mbx := { t.mbx with spiOut := List.replicate (min 8 wire.length) 0 ++ out } }
    else quiet s
  match wire.head? with
  | some 0x02 => put .n
  | some 0x03 => get .n
  | some 0x12 => put .s
  | some 0x13 => get .s
  | _ => quiet s

/-- One host access, or in SPI mode one transaction where its bytes are given. -/
def hostReach (a : HostAccess) (s : State) : State :=
  if s.srt.straps.spi && !a.wire.isEmpty then spiTransaction a.wire s else hostAccess a s

/-- A host write to one register, at its own offset. -/
def hostWrite (w : Window) (off : Nat) (v : Word) (s : State) : State :=
  hostAccess { win := w, off := BitVec.ofNat 24 off, size := 4, data := some (v.setWidth 64) } s

end Sys2Proof.Machine
end

