-- ==== Sys2Proof/Machine/SecurityOps.lean ====
section
/-! DEFINITION. Shared operations of SEC: key slots and their use (R315, R316), tamper (R325), images (R328). -/

namespace Sys2Proof.Machine

/-- The second that key times are compared with (R316): the active view while VALID, else the coarse seconds. -/
def keyTime (s : State) : Nat := if viewValid s 4 then viewSecond s 4 else s.srt.coarse

/-- A tamper condition stands (R325). -/
def tamperStands (s : State) : Bool := s.sec.tamper.standing != 0

/-- A slot is usable for a DEST bit (R316). -/
def keyUsable (s : State) (k dest : Nat) : Bool :=
  let x := s.keySlot k
  decide (k < 128) && x.st == .active && x.dest.getLsbD dest && !tamperStands s && (x.expiry == 0 || decide (keyTime s < x.expiry))

/-- The previous key of a slot, until PREV_UNTIL (R315). -/
def prevKey (s : State) (k : Nat) : Option (List Byte) := if keyTime s < (s.keySlot k).prevUntil then (s.keySlot k).prev else none

/-- One use of a slot (R316): USE_COUNT rises, and at USE_LIMIT an active slot is exhausted. A slot emptied since counts none. -/
def useKey (k : Nat) (s : State) : State :=
  s.setKey k fun x =>
    if x.st == .empty then x else
    let n := min (2 ^ 32 - 1) (x.useCount + 1)
    { x with useCount := n, st := if x.st = .active ∧ x.useLimit ≠ 0 ∧ x.useLimit ≤ n then .exhausted else x.st }

/-- Zero every key slot (R323, R325, R333). -/
def zeroKeys (s : State) : State := { s with sec := { s.sec with key := Vector.replicate 128 {} } }

/-- The code of STATE (R315). -/
def KeyState.code : KeyState → Nat
  | .empty => 0
  | .active => 1
  | .expired => 2
  | .exhausted => 3

/-- The attribute record (R315). -/
def keyRecord (x : KeySlot) : List Byte :=
  leBytes 1 (x.st.code + 4 * bit x.prev.isSome) ++ leBytes 1 x.dest.toNat ++ leBytes 1 (bit x.secure) ++ leBytes 1 x.len ++
  leBytes 4 x.keyId.toNat ++ leBytes 4 x.prevKeyId.toNat ++ leBytes 8 x.expiry ++ leBytes 8 x.prevUntil ++
  leBytes 4 x.useLimit ++ leBytes 4 x.useCount ++ leBytes 8 x.written ++ leBytes 4 0

/-- A key length matches DEST (R315): 32 bytes for an NTS cookie or session key, else 16 to 64. -/
def lenMatches (dest len : Nat) : Bool := if dest.testBit 0 || dest.testBit 1 then len == 32 else true

/-- A tamper source acts (R325): root secret and slots are zeroed, its bit is set, the first event is recorded,
CONFIG_LOCKED clears (R326); with the main supplies present, AUE loses its jobs and interrupt source 18 and fault
source 192 rise. -/
def tamperOp (src : Nat) (s : State) : State :=
  let t := s.sec.tamper
  let s := zeroKeys s
  let s := { s with sec := { s.sec with
    root := none
    tamper := { t with
      seen := t.seen ||| BitVec.ofNat 7 (2 ^ src)
      standing := t.standing ||| BitVec.ofNat 7 (2 ^ src)
      first := if t.recorded then t.first else coarseWord s
      recorded := true
      locked := false } } }
  if s.cpx.phase != .inReset then raiseFault 192 {} (raiseIrq 18 (resetAue s)) else s

/-! ### Images (R328) -/

/-- A number in an image header. -/
def hdr (image : List Byte) (off len : Nat) : Nat := leNat ((image.drop off).take len)

/-- The verification code of an image (R328, R331): 0 valid, 1 signature, 2 key hash, 3 rollback, 4 length. -/
def imageCode (s : State) (type : Nat) (image : List Byte) : Nat :=
  let len := hdr image 4 4
  let top := if type = 1 then 1048320 else 261888
  if image.length < 256 ∨ hdr image 0 4 ≠ type ∨ len < 1 ∨ top < len ∨ image.length < 256 + len then 4
  else if Config.sha384 ((image.drop 16).take 96) ≠ Config.otpKeyHash then 2
  else if hdr image 12 1 < s.sec.rollback then 3
  else if Config.ecdsaVerify ((image.drop 16).take 96) ((image.drop 128).take 96)
      (image.take 128 ++ (image.drop 256).take len) then 0
  else 1

/-- The slot that firmware may stage into (R331). -/
def inactiveSlot (s : State) : Nat := 1 - s.sec.bootSlot.val

end Sys2Proof.Machine
end

