-- ==== Sys2Proof/Machine/Faults.lean ====
section
/-! DEFINITION. Meanings of the FLT and PCU jobs and of the fault events (R351–R375). -/

namespace Sys2Proof.Machine

/-! ### Fault jobs -/

/-- A named source (R351). -/
def namedSource (i : Nat) : Bool := (sourceRow i).isSome

/-- FLT_CONFIG_SOURCE (R362). -/
def fltConfigSourceDef : JobDef :=
  { code := 0x0401
    fields := [fAny 4 1, fAny 5 1, fRange 6 1 0 4, fRange 7 1 0 4, fRange 8 1 0 1]
    rules := fun _ p =>
      let f := p.u 4 1
      let l := p.u 5 1
      let range := (List.range 256).filter fun i => decide (f ≤ i) && decide (i ≤ l)
      (if l < f ∨ !(range.any namedSource) ∨ (range.contains 228 ∧ p.u 6 1 < 2) then [4] else []) ++
      (if p.u 7 1 < p.u 6 1 then [6] else [])
    run := fun s _ p =>
      let c : SourceCfg := { level := p.u 6 1, cap := p.u 7 1, errn := p.u 8 1 == 1 }
      let hit := fun i => decide (p.u 4 1 ≤ i) && decide (i ≤ p.u 5 1) && namedSource i
      let cfg := (List.range 256).filterMap fun i => if hit i then some (i, c) else s.fco.cfg.find? fun x => x.1 == i
      reply { r0 := word ((List.range 256).filter hit).length } { s with fco := { s.fco with cfg := cfg } } }

/-- FLT_ACK (R357, R363). -/
def fltAckDef : JobDef :=
  { code := 0x0402
    fields := [fAny 4 1]
    nextImp := false
    nsForbids := fun _ p => p.bit 4 1 || p.bit 4 6
    run := fun s _ p => done (ackMask (p.u 4 1) s) }

/-- FLT_READ_CAPTURE (R363). -/
def fltReadCaptureDef : JobDef :=
  { code := 0x0403
    dma := some dmaSame
    fields := [fRange 4 1 0 7, fRange 5 1 0 1]
    nextImp := false
    minResult := fun _ => 32
    run := fun s j p =>
      let k := vget s.fco.cls (p.u 4 1) {}
      let b := captureBytes j.secure (if p.u 5 1 = 0 then k.cap else k.inj)
      reply { r0 := wordAt b 6, r1 := wordAt b 4, r2 := wordAt b 2, r3 := wordAt b 1, out := b } s }

/-- FLT_INJECT (R364, R365). -/
def fltInjectDef : JobDef :=
  { code := 0x0404
    fields := [{ off := 4, len := 1, ok := namedSource }, fAny 8 8]
    run := fun s _ p => done (injectFault (p.u 4 1) (p.u 8 8) s) }

def execFltConfigSource (j : Job) (s : State) : Host.Outcome State Fault Refusal := .next (directJob fltConfigSourceDef j s)
def execFltAck (j : Job) (s : State) : Host.Outcome State Fault Refusal := .next (directJob fltAckDef j s)
def execFltReadCapture (j : Job) (s : State) : Host.Outcome State Fault Refusal := .next (directJob fltReadCaptureDef j s)
def execFltInject (j : Job) (s : State) : Host.Outcome State Fault Refusal := .next (directJob fltInjectDef j s)

/-! ### Counter jobs -/

/-- An event of the catalogue (R373): its block, and how many instances it has (0: none, so only 0xFF). -/
def eventRow (ev : Nat) : Option (Nat × Nat) :=
  if ev ≤ 1 then some (0, 0)
  else if 0x0100 ≤ ev ∧ ev ≤ 0x010C then some (0, 0)
  else if 0x010D ≤ ev ∧ ev ≤ 0x0110 then some (0, 5)
  else if 0x0200 ≤ ev ∧ ev ≤ 0x0218 then some (3, 0)
  else if 0x1000 ≤ ev ∧ ev ≤ 0x1002 then some (6, 4)
  else if 0x1010 ≤ ev ∧ ev ≤ 0x101E then some (5, 32)
  else if 0x1020 ≤ ev ∧ ev ≤ 0x1022 then some (8, 8)
  else if ev = 0x1500 ∨ ev = 0x1501 then some (9, 24)
  else if ev = 0x1502 ∨ ev = 0x1503 then some (9, 4)
  else if 0x1600 ≤ ev ∧ ev ≤ 0x1602 then some (10, 16)
  else if ev = 0x1603 then some (10, 4)
  else if 0x2000 ≤ ev ∧ ev ≤ 0x2008 then some (11, 24)
  else if (0x2100 ≤ ev ∧ ev ≤ 0x2109) ∨ (0x2110 ≤ ev ∧ ev ≤ 0x2113) then some (12, 24)
  else if (0x2200 ≤ ev ∧ ev ≤ 0x220A) ∨ (0x2300 ≤ ev ∧ ev ≤ 0x230C) then some (12, 24)
  else if 0x2400 ≤ ev ∧ ev ≤ 0x2406 then some (13, 0)
  else if 0x3000 ≤ ev ∧ ev ≤ 0x3004 then some (14, 0)
  else if ev = 0x4000 ∨ ev = 0x4001 then some (15, 32)
  else if ev = 0x4002 then some (15, 16)
  else if ev = 0x4003 ∨ ev = 0x4004 then some (15, 0)
  else if 0x6000 ≤ ev ∧ ev ≤ 0x6008 then some (4, 0)
  else none

/-- Change the counters that a predicate names. -/
def onCounters (p : Nat → Bool) (f : Ctr → Ctr) (s : State) : State :=
  { s with pcu := { s.pcu with ctr := Vector.ofFn fun (n : Fin 64) => if p n.val then f s.pcu.ctr[n] else s.pcu.ctr[n] } }

/-- PCU_SELECT_EVENT (R374). -/
def pcuSelectEventDef : JobDef :=
  { code := 0x0501
    fields := [fRange 4 1 0 63, fAny 5 1, { off := 6, len := 2, ok := fun v => (eventRow v).isSome }]
    rules := fun _ p => match eventRow (p.u 6 2) with
      | some (_, n) => if p.u 5 1 = 0xFF ∨ p.u 5 1 < n then [] else [5]
      | none => []
    nsForbids := fun s p =>
      !(vget s.pcu.ctr (p.u 4 1) {}).userRead ||
      (match eventRow (p.u 6 2) with
       | some (b, _) => s.sec.part.getLsbD b
       | none => false)
    run := fun s _ p =>
      done (onCounters (fun n => n == p.u 4 1)
        (fun c => { c with event := BitVec.ofNat 16 (p.u 6 2), inst := BitVec.ofNat 8 (p.u 5 1), count := 0, ovf := false }) s) }

/-- PCU_SET_ACCESS (R375). -/
def pcuSetAccessDef : JobDef :=
  { code := 0x0502
    fields := [fAny 8 8]
    run := fun s _ p =>
      done { s with pcu := { s.pcu with ctr := Vector.ofFn fun (n : Fin 64) =>
        { s.pcu.ctr[n] with userRead := (p.u 8 8).testBit n.val } } } }

/-- PCU_CLEAR (R375). -/
def pcuClearDef : JobDef :=
  { code := 0x0503
    fields := [fAny 8 8]
    nsForbids := fun s p => (List.range 64).any fun n => (p.u 8 8).testBit n && !(vget s.pcu.ctr n {}).userRead
    run := fun s _ p =>
      done (onCounters (fun n => (p.u 8 8).testBit n) (fun c => { c with count := 0, ovf := false }) s) }

def execPcuSelectEvent (j : Job) (s : State) : Host.Outcome State Fault Refusal := .next (directJob pcuSelectEventDef j s)
def execPcuSetAccess (j : Job) (s : State) : Host.Outcome State Fault Refusal := .next (directJob pcuSetAccessDef j s)
def execPcuClear (j : Job) (s : State) : Host.Outcome State Fault Refusal := .next (directJob pcuClearDef j s)

/-! ### Fault events -/

/-- FCO runs: in CD-MON, whenever the engine is not held in reset (R351, R402). -/
def fcoRuns (s : State) : Bool := s.cpx.phase != .inReset

/-- A fault event while FCO runs. -/
def faultEvent (src : Nat) (o : Origin) (s : State) : State := if fcoRuns s then raiseFault src o s else s

/-- CLOCK_MONITOR_FAULT (R26, R351): source 64, 65 or 66; time values lose VALID, gates and pulses stop. -/
def execClockMonitorFault (k : Fin 3) (s : State) : Host.Outcome State Fault Refusal :=
  .next (if !fcoRuns s || s.tcr.clockBad.getLsbD k.val then s else
    let s := peuClockFault (holdAll s)
    faultEvent (64 + k.val) {} { s with tcr := { s.tcr with clockBad := s.tcr.clockBad ||| BitVec.ofNat 3 (2 ^ k.val) } })

/-- CLOCK_RETURN (R26, R354): the clock is in range again; once all are, the traps that waited are taken. -/
def execClockReturn (k : Fin 3) (s : State) : Host.Outcome State Fault Refusal :=
  let s := { s with tcr := { s.tcr with clockBad := s.tcr.clockBad &&& ~~~BitVec.ofNat 3 (2 ^ k.val) } }
  .next (if s.clockOk then
    { s with fco := { s.fco with traps := s.fco.traps + s.fco.trapsDue, trapsDue := 0 } } else s)

/-- LOCKSTEP_MISMATCH (R18): source 226 for the servo pair, 227 for the service pair. -/
def execLockstepMismatch (pair : Fin 2) (s : State) : Host.Outcome State Fault Refusal :=
  .next (faultEvent (226 + pair.val) {} s)

/-- MEMORY_ECC_ERROR (R351): a class C0 source with the address or the subsystem in ADDRESS. -/
def execMemoryEccError (src : Fin 32) (addr : BitVec 64) (s : State) : Host.Outcome State Fault Refusal :=
  .next (faultEvent src.val { addr := addr.toNat } s)

/-- INTERP_CHECK (R351): source 101. -/
def execInterpCheck (s : State) : Host.Outcome State Fault Refusal := .next (faultEvent 101 {} s)

/-- The watchdog may have expired (R353, R403 step 4): it is armed when firmware starts, the pairs serve it until a WARM
restart begins, and 2,000 impressions pass without service. While CD-SYS has stopped, no impression counts them. -/
def watchdogOut (s : State) : Bool :=
  (match s.cpx.phase with
   | .firmware | .ready => true
   | _ => false) &&
  (match s.cpx.warm with
   | some w => !s.clockOk || decide (w.since + 2000 ≤ s.cpx.impressions)
   | none => true)

/-- WATCHDOG (R353): a pair has given no service for 250 ms; source 228. That a pair of running firmware gives none is an
event from outside. DESIGN CHOICE, log entry 116. -/
def execWatchdog (s : State) : Host.Outcome State Fault Refusal := .next (if watchdogOut s then faultEvent 228 {} s else s)

/-- LREFCLK_FAULT (R351): source 68 with the pin in ADDRESS. -/
def execLrefclkFault (pin : Fin 3) (s : State) : Host.Outcome State Fault Refusal :=
  .next (faultEvent 68 { addr := pin.val } s)

/-- CDAON_FAULT (R351): source 67. -/
def execCdaonFault (s : State) : Host.Outcome State Fault Refusal := .next (faultEvent 67 {} s)

/-- RESET_SHADOW_END (R360, R361): the shadow of a released BLOCK reset ends, 64 µs after the release. -/
def execResetShadowEnd (b : Fin 16) (s : State) : Host.Outcome State Fault Refusal :=
  .next (if s.fco.block[b] = .shadow then atCycle s.fco.shadowTo[b] (fun t => t.setBlock b.val .none) s else s)

end Sys2Proof.Machine
end

