-- ==== Sys2Proof/Machine/Supply.lean ====
section
/-! DEFINITION. Meanings of the supply and temperature events, of the resets and of the SUP jobs (R386–R402). -/

namespace Sys2Proof.Machine

/-- Warning threshold of a rail, mV, rounded up: a whole number of mV lies below it where it lies below the threshold
(R386, R393). -/
def warnMv (r : Fin 8) (x : Rail) : Nat := if r.val = 7 then x.warn else ceilDiv (railNominal r * (1000 - x.warn)) 1000

/-- A voltage measured on a rail. -/
def railSees (mv : Nat) (x : Rail) : Rail := { x with now := mv, low := min x.low mv, high := max x.high mv }

/-- C_SUPPLY of every domain is loaded with its charge (R389), ledger units. -/
def chargeSupply (s : State) : State :=
  forAll 4 s fun d t => t.setDom d fun x => { x with ledger := { x.ledger with cSupply := x.supplyChargePs * psL } }

/-- A rail is detected below its warning threshold (R388, R389): its source rises; the first rail of a dip charges the
ledgers and sets EXCURSION; the archive second is marked. -/
def railCrosses (r : Fin 8) (s : State) : State :=
  let s := s.setRail r.val fun x => { x with below := true, belowAt := s.tcr.cycles, dips := if r.val = 7 then x.dips else min 65535 (x.dips + 1) }
  let s := if r.val = 7 then s else
    let s := pcuCount (0x6000 + r.val) 0xFF 1 s
    let s := if s.srt.dip then s else chargeSupply { s with srt := { s.srt with dip := true, dipAt := s.tcr.cycles } }
    { s with ehu := { s.ehu with hold := s.ehu.hold.map fun h => { h with secExcursion := true } } }
  faultEvent (160 + r.val) {} s

/-- SUPPLY_DIP_START (R388, R389): a rail goes below its warning threshold. -/
def execSupplyDipStart (r : Fin 7) (mv : Nat) (s : State) : Host.Outcome State Fault Refusal :=
  let i : Fin 8 := r.castSucc
  let s := s.setRail i.val (railSees mv)
  let x := s.srt.rail[i]
  .next (if fcoRuns s && !x.below && decide (mv < warnMv i x) then railCrosses i s else s)

/-- What a CD-MON timer does at a CD-TIME cycle; before the clocks run its event alone tells that it has run out. -/
def atMonitor (c : Nat) (act : State → State) (s : State) : State := if s.clocked then atCycle c act s else act s

/-- SUPPLY_DIP_LONG (R389): the rail is still below its warning threshold 1 ms after the dip began; source 168 + r. -/
def execSupplyDipLong (r : Fin 7) (s : State) : Host.Outcome State Fault Refusal :=
  let x := s.srt.rail[r.castSucc]
  .next (if fcoRuns s && s.srt.dip && x.below && !x.long && decide (x.belowAt ≤ s.srt.dipAt + 1000000) then
    atMonitor (s.srt.dipAt + 1000000)
      (fun t => faultEvent (168 + r.val) {} (t.setRail r.val fun x => { x with long := true })) s
  else s)

/-- The dip ends (R388): the rails are 1 % of nominal above their warning thresholds. -/
def endDip (s : State) : State :=
  { s with srt := { s.srt with
    dip := false
    dipEnded := some s.tcr.cycles
    rail := Vector.ofFn fun (r : Fin 8) =>
      let x := s.srt.rail[r]
      if r.val = 7 || !x.below then { x with long := false }
      else railSees (max x.now (warnMv r x + railNominal r / 100)) { x with below := false, long := false } } }

/-- SUPPLY_DIP_END (R388): every rail has stayed above its warning threshold plus 1 % of nominal for 10 µs; EXCURSION
ends. -/
def execSupplyDipEnd (s : State) : Host.Outcome State Fault Refusal :=
  let last := ((s.srt.rail.toList.take 7).map Rail.belowAt).foldl max s.srt.dipAt
  .next (if s.srt.dip then atMonitor (last + 10000) endDip s else s)

/-- VBAT_WARNING (R388): VBAT is below its warning threshold; source 167 and nothing else. -/
def execVbatWarning (mv : Nat) (s : State) : Host.Outcome State Fault Refusal :=
  let s := s.setRail 7 (railSees mv)
  let x := s.srt.rail[(7 : Fin 8)]
  .next (if fcoRuns s && !x.below && decide (mv < warnMv 7 x) then railCrosses 7 s else s)

/-- The battery domain without its supply (R387, R399): root secret, tamper settings and record, coarse seconds are
lost; it starts again with its defaults. -/
def batteryLost (s : State) : State :=
  { s with
    srt := { s.srt with coarse := 0, coarseNs := 0, coarseValid := false }
    sec := { s.sec with root := none, tamper := { pins := s.sec.tamper.pins } } }

/-- VBAT_LOSS (R399): the battery domain and the key slots are lost. -/
def execVbatLoss (s : State) : Host.Outcome State Fault Refusal :=
  let s := zeroKeys (batteryLost s)
  .next { s with srt := { s.srt with vbat := false } }

/-- VBAT_RETURN (R387): VBAT rises from absence; the battery domain starts with its defaults. -/
def execVbatReturn (s : State) : Host.Outcome State Fault Refusal :=
  let s := if s.srt.vbat then s else batteryLost s
  .next ({ s with srt := { s.srt with vbat := true } }.setRail 7 fun x => { x with below := false })

/-- SUPPLY_CHARGE_RELEASE (R113, R116): 16 s after the dip, while a qualified traceable reference is followed and no
confirmation holds it, C_SUPPLY falls to zero. -/
def execSupplyChargeRelease (d : DomId) (s : State) : Host.Outcome State Fault Refusal :=
  let x := s.tcr.dom[d]
  let traceable := match x.dpll with
    | none => false
    | some k => match (s.dpllOf k.val).selected with
      | none => false
      | some r => follows (s.dpllOf k.val) && isTimeRef s r.val && (s.refEntry r.val).st == .qualified
  let at' := (s.srt.dipEnded.map (· + 16 * 10 ^ 9)).getD 0
  .next (if !s.srt.dip && traceable && !x.ledger.holdover && x.ledger.confirming.isNone then
    atCycle at' (fun t => t.setLedger d.val fun g => { g with cSupply := 0 }) s else s)

/-- THERMAL_HIGH (R391): a sensor exceeds its high threshold; source 176 + s. -/
def execThermalHigh (k : Fin 5) (temp : Int) (s : State) : Host.Outcome State Fault Refusal :=
  let s := s.setSensor k.val fun x => { x with now := temp, low := min x.low temp, high := max x.high temp }
  let x := s.srt.sensor[k]
  .next (if fcoRuns s && !x.hot && decide (x.high1 * 64 < temp) then
    faultEvent (176 + k.val) {}
      (s.setSensor k.val fun x => { x with hot := true, crossings := min 65535 (x.crossings + 1) })
  else s)

/-- THERMAL_HIGH_CLEAR (R391): the sensor has fallen 5 °C below its threshold, so it may rise again. -/
def execThermalHighClear (k : Fin 5) (s : State) : Host.Outcome State Fault Refusal :=
  .next (s.setSensor k.val fun x =>
    if x.hot then
      let t := min x.now ((x.high1 - 5) * 64)
      { x with hot := false, now := t, low := min x.low t }
    else x)

/-! ### Resets -/

/-- A POR-class reset is asserted; it ends what SEC_TEST_UNLOCK refused (R333). -/
def porClass (s : State) : State :=
  { s with sec := { s.sec with rootRefused := false }, srt := { s.srt with held := (s.srt.held &&& 2) ||| 1 } }

/-- A POR-class reset with cause SUPPLY (R390, R397). -/
def supplyReset (rail : Nat) (s : State) : State :=
  porClass (wipe { kind := 1, detail := BitVec.ofNat 8 rail, coarse := coarseWord s } s)

/-- SUPPLY_RESET (R390, R397): a rail below its reset threshold causes a POR-class reset with cause SUPPLY. -/
def execSupplyReset (r : Fin 7) (s : State) : Host.Outcome State Fault Refusal :=
  .next (supplyReset r.val s)

/-- POR (R394, R397): POR_N is low; the reset-cause record is cleared. -/
def execPor (s : State) : Host.Outcome State Fault Refusal := .next (porClass (wipe {} s))

/-- PIN_RESET (R394, R397): RST_N is low. Beside a POR the record stays that POR's. DESIGN CHOICE, log entry 117. -/
def execPinReset (s : State) : Host.Outcome State Fault Refusal :=
  let cause := if s.srt.held.getLsbD 0 then s.srt.cause else { kind := 2, coarse := coarseWord s, chips := s.srt.cause.chips }
  let s := wipe cause s
  .next { s with srt := { s.srt with held := (s.srt.held &&& 1) ||| 2 } }

/-- CHIP_RESET (R354, R394, R398): by a fault of level 4, or the DEV_CHIP_RESET that waits; none in a reset. -/
def execChipReset (src : Byte) (s : State) : Host.Outcome State Fault Refusal :=
  .next (if s.cpx.phase = .inReset then s else if s.cpx.chipResetDue then chipResetOp 4 0 s else chipResetOp 3 src s)

/-- A reset that is asserted ends; boot begins once none is (R395, R403). -/
def endReset (b : Nat) (straps : Straps) (s : State) : State :=
  if !s.srt.held.getLsbD b then s else
  let held := s.srt.held &&& ~~~BitVec.ofNat 3 (2 ^ b)
  { s with cpx := { s.cpx with phase := if held = 0 then .starting else s.cpx.phase }
           srt := { s.srt with straps := straps, held := held }, intc := { s.intc with pin := straps.spi } }

/-- POR_END (R395, R401): straps and TEST_EN are sampled, in the order of COL_STRAPS (R77). -/
def execPorEnd (v : BitVec 7) (s : State) : Host.Outcome State Fault Refusal :=
  let s := if s.srt.held.getLsbD 0 then
      { s with srt := { s.srt with factoryPor := v.getLsbD 6 && v.extractLsb' 0 2 == 3 } }
    else s
  .next (endReset 0 { boot := v.extractLsb' 0 2, spi := v.getLsbD 2, swin := v.getLsbD 3, xo := v.extractLsb' 4 2
                      test := v.getLsbD 6 } s)

/-- PIN_RESET_END (R395, R401): the straps are sampled; TEST_EN is sampled at POR only. -/
def execPinResetEnd (v : BitVec 6) (s : State) : Host.Outcome State Fault Refusal :=
  .next (endReset 1 { boot := v.extractLsb' 0 2, spi := v.getLsbD 2, swin := v.getLsbD 3, xo := v.extractLsb' 4 2
                      test := s.srt.straps.test } s)

/-- CHIP_RESET_END (R395): boot begins with the latched straps. -/
def execChipResetEnd (s : State) : Host.Outcome State Fault Refusal := .next (endReset 2 s.srt.straps s)

/-! ### Supply jobs -/

/-- SUP_READ (R392). -/
def supReadDef : JobDef :=
  { code := 0x6001
    fields := [fRange 4 1 0 13, fMask 5 1 1]
    nextImp := false
    rules := fun _ p => if p.u 4 1 = 13 ∧ p.bit 5 0 then [4] else []
    run := fun s _ p =>
      let t := p.u 4 1
      let clear := p.bit 5 0
      if t < 8 then
        let x := vget s.srt.rail t { now := 0, low := 0, high := 0 }
        reply { r0 := word x.now, r1 := word x.low, r2 := word x.high, r3 := word x.dips }
          (if clear then s.setRail t (fun x => { x with low := x.now, high := x.now, dips := 0 }) else s)
      else if t < 13 then
        let x := vget s.srt.sensor (t - 8) {}
        reply { r0 := wordI x.now, r1 := wordI x.low, r2 := wordI x.high, r3 := word x.crossings }
          (if clear then s.setSensor (t - 8) (fun x => { x with low := x.now, high := x.now, crossings := 0 }) else s)
      else
        let c := s.srt.cause
        reply { r0 := word (c.kind.toNat + c.detail.toNat * 256), r1 := c.coarse, r2 := c.chips.setWidth 32 } s }

/-- The ranges of WARN and RESET by target (R393): they follow TARGET, so they are rules between fields (R429). -/
def supRules (p : Params) : List Nat :=
  let t := p.u 4 1
  let w := p.i 8 2
  let r : Int := p.u 10 2
  let ok := if t < 7 then decide (20 ≤ w) && decide (w ≤ 60) && decide (w + 10 ≤ r) && decide (r ≤ 100)
    else if t = 7 then decide (2000 ≤ w) && decide (w ≤ 2500) && r == 0
    else decide (80 ≤ w) && decide (w ≤ 140) && r == 0
  if ok then [] else [4]

/-- SUP_SET_THRESHOLDS (R393): a rail already below a new threshold is treated as if it had just crossed, and so is a sensor
above one (DEDUCED, log entry 121). -/
def supSetThresholdsDef : JobDef :=
  { code := 0x6002
    fields := [fRange 4 1 0 12, fAny 8 2, fAny 10 2]
    rules := fun _ p => supRules p
    run := fun s _ p =>
      let t := p.u 4 1
      if h : t < 8 then
        let r : Fin 8 := ⟨t, h⟩
        let s := s.setRail t fun x => { x with warn := p.u 8 2, rst := p.u 10 2 }
        let x := s.srt.rail[r]
        if t < 7 ∧ x.now < ceilDiv (railNominal r * (1000 - x.rst)) 1000 then
          (supplyReset t s, .silent)
        else done (if !x.below && decide (x.now < warnMv r x) then railCrosses r s else s)
      else
        let k := t - 8
        let s := s.setSensor k fun x => { x with high1 := p.i 8 2 }
        let x := vget s.srt.sensor k {}
        done (if !x.hot && decide (x.high1 * 64 < x.now) then
          faultEvent (176 + k) {}
            (s.setSensor k fun x => { x with hot := true, crossings := min 65535 (x.crossings + 1) })
        else s) }

def execSupRead (j : Job) (s : State) : Host.Outcome State Fault Refusal := .next (directJob supReadDef j s)
def execSupSetThresholds (j : Job) (s : State) : Host.Outcome State Fault Refusal := .next (directJob supSetThresholdsDef j s)

end Sys2Proof.Machine
end

