-- ==== Sys2Proof/Machine/TimeOps.lean ====
section
/-! DEFINITION. Shared operations on time domains: steps, adoption, the return policy, confirmation and the
contributions of the ledger (R90–R96, R111–R116). -/

namespace Sys2Proof.Machine

/-! ### Quantities of a reference (R113, R115, R378) -/

/-- Width of the PDV band (R124): the delay below which PDV_POP_PERMILLE of the exchanges lie, less the minimum. -/
def pdvFloor (e : RefEntry) : Nat :=
  let ds := sortBy (fun a b => decide (a ≤ b)) (e.delays.map Prod.fst)
  match ds with
  | [] => 0
  | m :: _ =>
    let n := max 1 (ceilDiv (ds.length * e.pdvPop) 1000)
    (ds.getD (n - 1) m) - m

/-- The reference's own uncertainty in ps (R113): the PDV floor comes to the upstream bound of a PTP master, not to what an
NTP upstream states. -/
def refUnc (s : State) (r : Nat) : Nat :=
  let e := s.refEntry r
  if r < 12 then e.timeUncPs
  else if 18 ≤ r ∧ r < 31 ∧ e.srcClass ≠ 3 then e.uncPs + pdvFloor e * 1000
  else e.uncPs

/-- Calibration uncertainty of the path of a reference in ps (R378). -/
def refCal (s : State) (r : Nat) : Nat :=
  if r < 12 then calUnc s (0x2400 + r)
  else if r = 16 then ceilDiv (22606 * calUnc s 0x3000 + 12606 * calUnc s 0x3001) 10000
  else if r = 17 then calUnc s 0x3000
  else (s.refEntry r).calPs

/-- Source class of a reference (R115). -/
def refClass (s : State) (r : Nat) : Fin 8 :=
  if !isTimeRef s r then 7
  else if r < 12 then 4
  else if r = 16 ∨ r = 17 then 1
  else if r = 31 then 5
  else (s.refEntry r).srcClass

/-- Hop count of a reference (R115). -/
def refHops (s : State) (r : Nat) : Fin 16 :=
  if 18 ≤ r ∧ isTimeRef s r then Fin.ofNat 16 (min 15 (s.refEntry r).hops) else 0

/-- The reference that a domain follows through its DPLL, if any. -/
def followedRef (s : State) (d : Nat) : Option Nat :=
  match (s.domain d).dpll with
  | none => none
  | some k => if follows (s.dpllOf k.val) then (s.dpllOf k.val).selected.map Fin.val else none

/-- Phase error over the last 64 s, plus one NCO step, ps (R113). -/
def servoPs (s : State) (d : Nat) : Nat :=
  match (s.domain d).dpll with
  | none => 0
  | some k =>
    let x := s.dpllOf k.val
    (x.errMax.foldl max x.phaseErr.natAbs) + Config.ncoStepPs

/-- The contributions that the ledger update supplies at an impression (R22, R113, R116), for one domain. -/
def updateContributions (d : Nat) (s : State) : State :=
  match followedRef s d with
  | none =>
    s.setLedger d fun g =>
      { g with cServo := servoPs s d * psL, updImpression := s.tcr.seq.imp
               updSecond := BitVec.ofNat 48 s.tcr.seq.second }
  | some r =>
    let e := s.refEntry r
    let time := isTimeRef s r
    s.setLedger d fun g =>
      let u := refUnc s r * psL
      let free := g.confirmed && g.confirming.isNone
      { g with
        cRef := if time then (if free then u else max g.cRef u) else g.cRef
        growsRef := !time
        growthFs := if time then 0 else (e.freqUncPpt : Int) * 1000
        confirmed := g.confirmed && time
        confirming := if time then g.confirming else none
        sinceConfirm := if g.confirmed then 0 else g.sinceConfirm
        sinceImp := if g.confirmed then 0 else g.sinceImp
        cServo := servoPs s d * psL
        cCal := refCal s r * psL
        cFallback := e.fallbackPs * psL
        cAsym := e.asymPs * psL
        lastRef := if time then some (Fin.ofNat 32 r) else g.lastRef
        chainClass := refClass s r
        chainHops := refHops s r
        updImpression := s.tcr.seq.imp
        updSecond := BitVec.ofNat 48 s.tcr.seq.second }

/-- A confirmation starts or starts again (R116). -/
def startConfirm (d : Nat) (s : State) : State := s.setLedger d fun g => { g with confirming := some 0 }

/-- An impression of a ledger record in hardware (R115, R116): a confirmation counts while its reference stays QUALIFIED,
and SINCE_CONFIRM_S counts whole seconds. -/
def ledgerImpression (d : Nat) (s : State) : State :=
  let qualified : Bool := match followedRef s d with
    | some r => isTimeRef s r && (s.refEntry r).st == .qualified
    | none => false
  s.setLedger d fun g =>
    let g := { g with confirming := g.confirming.map fun n => if qualified then n + 1 else 0 }
    if g.confirmed || g.sinceConfirm == 0xFFFFFFFF then g
    else if g.sinceImp + 1 < 8000 then { g with sinceImp := g.sinceImp + 1 }
    else { g with sinceImp := 0, sinceConfirm := g.sinceConfirm + 1 }

/-- Every domain that follows a reference restarts its confirmation (R253, R382). -/
def restartConfirm (r : Nat) (s : State) : State :=
  forAll 4 s fun d t =>
    if followedRef t d = some r ∧ isTimeRef t r then startConfirm d t else t

/-- The end of a confirmation (R116): C_HOLD, C_SUPPLY and C_REF take their new values in one impression, confirmed
sets, SINCE_CONFIRM_S returns to zero; a bound that a FREERUN made unknown becomes known with C_SUPPLY zero (R430). R116
does not say what C_SUPPLY becomes when fewer than 16 s have passed since a dip ended, or a dip is in progress: it falls in
the first case, and stays in the second. DESIGN CHOICE, log entry 100. -/
def endConfirm (d : Nat) (s : State) : State :=
  match followedRef s d with
  | none => s
  | some r =>
    s.setLedger d fun g =>
      { g with
        cHold := 0
        cSupply := if s.srt.dip && !g.modelLost then g.cSupply else 0
        cRef := refUnc s r * psL
        confirmed := true, everConfirmed := true, confirming := none, holdover := false
        known := g.known || (s.domain d).valid, modelLost := false
        sinceConfirm := 0, sinceImp := 0
        updImpression := s.tcr.seq.imp
        updSecond := BitVec.ofNat 48 s.tcr.seq.second }

/-! ### Slews and the return policy -/

/-- Expected duration of an offset at a rate, in impressions, saturating (R93, R101). Neither rule says how a part of an
impression counts: it counts as one. DESIGN CHOICE, log entry 97. -/
def durationImp (offset : Int) (ppb : Nat) : Nat := min (2 ^ 32 - 1) (ceilDiv (offset.natAbs * 10 ^ 9) (ppb * impU))

/-- RESULT0–RESULT1 of a signed interval (R84). -/
def intervalWords (x : Int) : Word × Word :=
  let c := toCode 64 (toInterval x)
  (word (c % 2 ^ 32), word (c / 2 ^ 32))

/-- The remainder of a domain's slew in counter units. -/
def slewRemainder (s : State) (d : Nat) : Int :=
  match (s.domain d).slew with
  | none => 0
  | some w => w.remaining

/-- The |remainder| part of C_REF takes its present value (R94): at every impression boundary, and where a job or a step
changes it. -/
def refreshMoving (d : Nat) (s : State) : State := s.setLedger d fun g => { g with moving := movingL s d }

/-- Start a slew, which replaces a running one; offset zero stops it (R93, R94). -/
def startSlew (d ppb : Nat) (offset : Int) (s : State) : State :=
  let s := s.setDom d fun x => { x with slew := if offset = 0 then none else some { ppb := ppb, remaining := offset } }
  let s := refreshMoving d s
  if offset = 0 then s else pcuCount 0x1002 d 1 s

/-- The return policy (R96) for an offset `o` of a domain against its reference, counter units. -/
def returnPolicy (d : Nat) (o : Int) (s : State) : State :=
  let x := s.domain d
  match x.pending with
  | some (.absolute _ _) | some (.relative _ _) => s.setDom d fun x => { x with returnWaits := true }
  | _ =>
    if x.stepAllowed && decide (x.stepThresholdNs * nsU < o.natAbs) then
      s.setDom d fun x => { x with pending := some (.return o), returnWaits := false }
    else
      let s := s.setDom d fun x => { x with returnWaits := false }
      startSlew d (if x.returnSlewPpb = 0 then x.slewMaxPpb else x.returnSlewPpb) (-o) s

/-! ### Steps -/

/-- An entry gives a time of day (R90): one that marks it itself, or an input that a message labels. -/
def givesTod (s : State) (r : Nat) : Bool :=
  let e := s.refEntry r
  (decide (12 ≤ r) || (e.timeKind && e.todSource.isSome)) && e.tod.isSome

/-- Adoption of a time of day (R90): a domain without VALID takes a step at its next second, when its TIME_SOURCE is
QUALIFIED and marks a time. -/
def tryAdopt (d : Nat) (s : State) : State :=
  let x := s.domain d
  match x.timeSource with
  | none => s
  | some r =>
    if !x.valid && x.pending.isNone && (s.refEntry r.val).st == .qualified && givesTod s r.val then
      s.setDom d fun x => { x with pending := some (.adopt r) }
    else s

/-- An adoption that waits for its second is dropped when the domain no longer names the source, or the source no longer
gives a time of day (R90). -/
def dropAdopt (d : Nat) (s : State) : State :=
  let x := s.domain d
  match x.pending with
  | some (.adopt r) => if x.timeSource = some r && givesTod s r.val then s else s.setDom d fun x => { x with pending := none }
  | _ => s

/-- Whole seconds by which a domain's time is ahead of the time of day that its TIME_SOURCE gave last (R90). -/
def wholeAhead (s : State) (d sec cycle : Nat) : Int :=
  let at' : Int := ((s.domain d).count : Int) + ((cycle : Int) - s.tcr.cycles) * nsU
  (at' - (sec * secU : Nat) + (secU / 2 : Nat)) / secU

/-- A whole-second disagreement between a VALID domain and its QUALIFIED TIME_SOURCE (R90, R128): TOD_MISMATCH_SEEN sets,
and the return policy removes it, unless a slew or a step of the domain is already on its way. -/
def checkTod (d : Nat) (s : State) : State :=
  let x := s.domain d
  match x.timeSource with
  | none => s
  | some r =>
    let e := s.refEntry r.val
    match e.tod with
    | none => s
    | some sec =>
      let n := wholeAhead s d sec e.todCycle
      if !(x.valid && e.st == .qualified && givesTod s r.val) || n == 0 then s else
      let s := setHistory r.val 11 s
      if x.slew.isSome || x.pending.isSome || x.returnWaits then s else returnPolicy d (n * secU) s

/-- A domain takes the time of day of its TIME_SOURCE (R90): adoption, or the correction of whole seconds. -/
def followTod (d : Nat) (s : State) : State := checkTod d (tryAdopt d (dropAdopt d s))

/-- The domains whose TIME_SOURCE is an entry take its time of day (R90). -/
def spreadTod (r : Nat) (s : State) : State :=
  forAll 4 s fun d t => if (t.domain d).timeSource.any (fun x => x.val == r) then followTod d t else t

/-- The counter value that a pending step gives a domain. -/
def stepTarget (s : State) (d : Nat) : PendingStep → Nat
  | .absolute sec _ => sec * secU
  | .relative iv _ => (((s.domain d).count : Int) + iv * ivlU).toNat
  | .return o => (((s.domain d).count : Int) - o).toNat
  | .adopt r =>
    let e := s.refEntry r.val
    (((e.tod.getD 0 * secU : Nat) : Int) + ((s.tcr.cycles : Int) - e.todCycle) * nsU).toNat

/-- The ledger at a step (R90, R92, R96): a step onto a bound that R86 or R396 made unknown makes it known; one that a
FREERUN made unknown stays so (R430). -/
def stepLedger (s : State) (d : Nat) (p : PendingStep) (g : Ledger) : Ledger :=
  let fresh := fun (cRef : Nat) (cls : Fin 8) (hops : Fin 16) =>
    { g with known := !g.modelLost, cRef := cRef, cHold := 0, cSupply := 0, chainClass := cls, chainHops := hops
             cServo := servoPs s d * psL }
  let old := g.known || g.modelLost
  match p with
  | .absolute _ b =>
    if old then { g with cRef := b * psL, chainClass := 6, chainHops := 0 } else fresh (b * psL) 6 0
  | .relative _ b => if old then { g with cRef := g.cRef + b * psL } else fresh (b * psL) 6 0
  | .return _ =>
    let b := match followedRef s d with
      | some r => refUnc s r * psL
      | none => match (s.domain d).timeSource with
        | some r => refUnc s r.val * psL
        | none => 0
    if old then { g with cRef := g.cRef + b } else fresh b 6 0
  | .adopt r => fresh (refUnc s r.val * psL) (refClass s r.val) (refHops s r.val)

/-- A pending step lands (R35, R90, R92, R96): the counter takes its value, a running slew is discarded, VALID sets;
a step of the active domain realigns the grid, and a grid line on the stepped domain keeps its course. -/
def landStep (d : Nat) (p : PendingStep) (s : State) : State :=
  let old := (s.domain d).count
  let new := stepTarget s d p
  let shift : Int := (old : Int) - new
  let move := fun (g : GridLine) => if g.dom.val = d then { g with offset := g.offset + shift } else g
  let line := move (gridLine s)
  let g := stepLedger s d p (s.domain d).ledger
  let s := s.setDom d fun x =>
    { x with count := new, valid := true, slew := none, pending := none, ledger := g }
  let s := pcuCount 0x1001 d 1 (refreshMoving d s)
  if s.tcr.active.val = d then startRealign line s
  else s.setSeq fun q => { q with oldLine := q.oldLine.map move }

/-! ### A domain against a reference (R96, R123, R140, R141) -/

/-- The time of a time reference at a CD-TIME cycle, ns: its latest phase measurement, extrapolated with its measured
frequency (R140). -/
def refTimeAt (s : State) (r : Nat) (cycle : Nat) : Option ℚ :=
  let e := s.refEntry r
  e.lag.map fun (x, c) => unsteered s cycle + x + refFreq e * ((cycle : ℚ) - c) / 10 ^ 12

/-- The offset of a counter value at a CD-TIME cycle against a time reference, units of 10^-3 ps: an input that no message
labels marks seconds, not which one. -/
def offsetAgainst (s : State) (r count cycle : Nat) : Option Int :=
  (refTimeAt s r cycle).map fun t =>
    let o : ℚ := (count : ℚ) / nsU - t
    let o := if r < 12 && (s.refEntry r).tod.isNone then o - (round (o / 10 ^ 9) : Int) * 10 ^ 9 else o
    round (o * 10 ^ 6)

/-- The view stands at a whole second: less than two cycles have passed since. -/
def atSecond (s : State) (v : Nat) : Bool := decide (viewCount s v % secU < 2 * nsU)

/-- The next whole second of a view, if it comes in the impression in progress. -/
def toSecond (v : Nat) (s : State) : State :=
  let target := (viewCount s v / secU + 1) * secU
  if viewCount s v % secU < nsU then s
  else runOn (fun n => decide (target ≤ viewCount (advance n s) v)) s

end Sys2Proof.Machine
end

