-- ==== Sys2Proof/Machine/Domains.lean ====
section
/-! DEFINITION. Meanings of the TD jobs and of the time events (R86–R103, R116, R118). -/

namespace Sys2Proof.Machine

/-- A pending TD_HANDOVER names the domain (R89). -/
def handoverTo (s : State) (d : Nat) : Bool :=
  s.mbx.flights.any fun f => f.job.code == 0x1005 && (jobInline f.job).u 4 1 == d

/-- The code of an optional index (0xFF: none). -/
def optCode {n : Nat} : Option (Fin n) → Nat
  | none => 0xFF
  | some i => i.val

/-- The ledger of a domain whose disciplining DPLL has changed: a reference followed has to be confirmed (R116), a DPLL
in HOLDOVER gives its growth (R114), and a domain left without a model after one has an unknown bound, which a step
ends as one of R86 (R92). DESIGN CHOICE, log entry 22. -/
def rebind (old : State) (d : Nat) (s : State) : State :=
  let had : Bool := match (old.domain d).dpll with
    | none => false
    | some k => (old.dpllOf k.val).st != .freerun
  let lost := s.setDom d ledgerFreerun
  let alone := if had then lost.setLedger d fun g => { g with modelLost := false } else s
  match (s.domain d).dpll with
  | none => alone
  | some k =>
    if follows (s.dpllOf k.val) then
      let time : Bool := match followedRef s d with
        | some r => isTimeRef s r
        | none => false
      s.setLedger d fun g => { g with holdover := false, confirming := if time then some 0 else none }
    else match (s.holdOf k.val).used with
      | some v => s.setDom d (ledgerHoldover (holdGrowth s k.val v (lostFor s (s.dpllOf k.val))))
      | none => alone

/-- TD_CONFIG (R89, R90). -/
def tdConfigDef : JobDef :=
  { code := 0x1001
    fields := [fRange 4 1 0 3, fOpt 5 7,
               { off := 6, len := 1, ok := fun v => decide (v ≤ 11) || (decide (16 ≤ v) && decide (v ≤ 31)) || v == 0xFF },
               fOpt 7 3, fRange 8 4 0 86400, fRange 12 4 1 10000, fRange 16 6 1 (2 ^ 48 - 2), fRange 22 6 1 (2 ^ 48 - 2),
               fRange 28 4 0 1000000, fRange 32 4 1 (10 ^ 9)]
    rules := fun _ p => if p.u 22 6 < p.u 16 6 then [16] else []
    absent := fun s p => p.u 6 1 < 32 && !s.refPresent (p.u 6 1)
    check := fun s _ p =>
      let d := p.u 4 1
      let x := s.domain d
      let changes := optCode x.dpll != p.u 5 1 || optCode x.timeSource != p.u 6 1
      let e := s.refEntry (p.u 6 1)
      if (changes && (d == s.tcr.active.val || handoverTo s d)) || (p.u 6 1 < 12 && !(e.timeKind && e.todSource.isSome))
      then some rejState else none
    run := fun old _ p =>
      let d := p.u 4 1
      let s := old.setDom d fun x =>
        { x with dpll := p.opt 5 8, timeSource := p.opt 6 32, divergePeer := p.opt 7 4, confirmS := p.u 8 4
                 slewMaxPpb := p.u 12 4, warnPs := p.u 16 6, limitPs := p.u 22 6, supplyChargePs := p.u 28 4
                 divergeNs := p.u 32 4 }
      let s := if (s.domain d).dpll = (old.domain d).dpll then s else rebind old d s
      done (followTod d s) }

/-- A TD_SET_TIME is pending on a domain (R92). -/
def setTimePending (s : State) (d : Nat) : Bool :=
  match (s.domain d).pending with
  | some (.absolute _ _) | some (.relative _ _) => true
  | _ => false

/-- TD_SET_TIME (R83, R92, R103). -/
def tdSetTimeDef : JobDef :=
  { code := 0x1002
    fields := [fRange 4 1 0 3, fRange 5 1 0 1, fAny 8 16, fRange 24 6 0 (2 ^ 48 - 2)]
    nextImp := false
    rules := fun s p =>
      if p.u 5 1 = 0 then
        let v := p.u 8 16
        if bitsOf v 0 7 ≠ 0 ∨ bitsOf v 14 2 ≠ 0 ∨ bitsOf v 18 16 ≠ 0 ∨ bitsOf v 34 30 ≠ 0 ∨
           bitsOf v 64 64 ≤ viewSecond s (p.u 4 1) then [8] else []
      else (List.range 8).filterMap fun i => if p.u (16 + i) 1 = 0 then none else some (16 + i)
    check := fun s _ p =>
      let d := p.u 4 1
      if setTimePending s d || (d == s.tcr.active.val && s.tcr.remainder != 0) then some rejState else none
    run := fun s _ p =>
      let d := p.u 4 1
      let step : PendingStep := if p.u 5 1 = 0 then .absolute (p.u 16 8) (p.u 24 6) else .relative (p.i 8 8) (p.u 24 6)
      let s := s.setDom d fun x =>
        { x with pending := some step,
                 returnWaits := x.returnWaits || (match x.pending with
                   | some (.return _) => true
                   | _ => false) }
      (s, .hold (.timeStep (p.fin 4 4))) }

/-- TD_SLEW (R93, R94). -/
def tdSlewDef : JobDef :=
  { code := 0x1003
    fields := [fRange 4 1 0 3, fAny 8 4, fAny 16 8]
    rules := fun s p => if (s.domain (p.u 4 1)).slewMaxPpb < p.u 8 4 then [8] else []
    run := fun s _ p =>
      let d := p.u 4 1
      let rate := if p.u 8 4 = 0 then (s.domain d).slewMaxPpb else p.u 8 4
      let off := p.i 16 8 * ivlU
      let old := intervalWords (slewRemainder s d)
      reply { r0 := old.1, r1 := old.2, r2 := word (durationImp off rate) } (startSlew d rate off s) }

/-- TD_SET_UTC_INFO (R97). -/
def tdSetUtcInfoDef : JobDef :=
  { code := 0x1004
    fields := [fRange 4 1 0 3, { off := 5, len := 1, ok := fun v => (decide (16 ≤ v) && decide (v ≤ 30)) || v == 0xFF },
               fSigned 6 2 (-1000) 1000, fRange 8 1 0 2, fAny 16 8]
    rules := fun s p => if p.u 8 1 ≠ 0 ∧ p.u 16 8 < viewSecond s (p.u 4 1) + 2 then [8] else []
    absent := fun s p => p.u 5 1 < 32 && !s.refPresent (p.u 5 1)
    check := fun s _ p =>
      let x := s.domain (p.u 4 1)
      let leap := match x.leap with
        | .none => 0
        | .insert => 1
        | .delete => 2
      let other := x.utcOffset != p.i 6 2 || leap != p.u 8 1 || x.leapSecond != p.u 16 8
      if x.utcSource.isSome && other then some rejState else none
    run := fun s _ p =>
      done (s.setDom (p.u 4 1) fun x =>
        { x with utcSource := p.opt 5 32, utcOffset := p.i 6 2,
                 leap := (if p.u 8 1 = 1 then .insert else if p.u 8 1 = 2 then .delete else .none),
                 leapSecond := p.u 16 8 }) }

/-- The offset of a target against the active view, d of R101. -/
def handoverOffset (s : State) (t : Nat) : Int := ((s.domain t).count : Int) - viewCount s 4

/-- The commit of a handover (R35, R101, R103). -/
def commitHandover (t : Fin 4) (ppb : Nat) (s : State) : State :=
  let d := handoverOffset s t.val
  let line := gridLine s
  let s := { s with tcr := { s.tcr with
    active := t, remainder := -d, slewPpb := ppb
    involved := (List.finRange 4).filter fun x => s.tcr.involved.contains x || x == s.tcr.active || x == t } }
  pcuCount 0x1000 t.val 1 (startRealign line s)

/-- TD_HANDOVER (R100, R101). -/
def tdHandoverDef : JobDef :=
  { code := 0x1005
    fields := [fRange 4 1 0 3, fRange 5 1 0 1, fRange 8 4 1 10000, fRange 12 4 0 (10 ^ 9)]
    check := fun s _ p =>
      let t := p.u 4 1
      if t = s.tcr.active.val then none
      else if !(s.domain t).valid || setTimePending s t || setTimePending s s.tcr.active.val ||
        (p.u 5 1 == 0 && decide (p.u 12 4 * nsU < (handoverOffset s t).natAbs)) then some rejState
      else none
    run := fun s _ p =>
      let t := p.u 4 1
      if t = s.tcr.active.val then done s else
      let d := handoverOffset s t
      let w := intervalWords d
      let hold := viewHoldover s t
      reply { status := if hold then 0x01 else 0x00, r0 := w.1, r1 := w.2, r2 := word (durationImp d (p.u 8 4)),
              r3 := if hold then 1 else 0 } (commitHandover (p.fin 4 4) (p.u 8 4) s) }

/-- TD_READ_LEDGER (R118). -/
def tdReadLedgerDef : JobDef :=
  { code := 0x1006
    dma := some dmaSame
    fields := [fRange 4 1 0 4]
    nextImp := false
    minResult := fun _ => 64
    run := fun s _ p =>
      let v := p.u 4 1
      let b := viewBound s v
      let g := (s.domain (recordDomain s v)).ledger
      let w := intervalWords s.tcr.remainder
      reply { r0 := word (b % 2 ^ 32), r1 := word (b / 2 ^ 32 + chainCode g * 65536)
              r2 := if v < 4 then wordI g.growthFs else w.1
              r3 := if v < 4 then g.sinceConfirm else w.2
              out := ledgerRecord s v } s }

/-- TD_SET_RETURN_POLICY (R95). -/
def tdSetReturnPolicyDef : JobDef :=
  { code := 0x1007
    fields := [fRange 4 1 0 3, fRange 5 1 0 1, fRange 8 4 0 (10 ^ 9), fAny 12 4]
    rules := fun s p => if (s.domain (p.u 4 1)).slewMaxPpb < p.u 12 4 then [12] else []
    run := fun s _ p =>
      done (s.setDom (p.u 4 1) fun x =>
        { x with stepAllowed := p.u 5 1 == 1, stepThresholdNs := p.u 8 4, returnSlewPpb := p.u 12 4 }) }

def execTdConfig (j : Job) (s : State) : Host.Outcome State Fault Refusal := .next (directJob tdConfigDef j s)
/-- TD_SET_TIME with MODE 0 (R92). -/
def execTdSetTimeAbsolute (j : Job) (s : State) : Host.Outcome State Fault Refusal :=
  .next (directJob tdSetTimeDef (withByte 5 0 j) s)
/-- TD_SET_TIME with MODE 1 (R92). -/
def execTdSetTimeRelative (j : Job) (s : State) : Host.Outcome State Fault Refusal :=
  .next (directJob tdSetTimeDef (withByte 5 1 j) s)
def execTdSlew (j : Job) (s : State) : Host.Outcome State Fault Refusal := .next (directJob tdSlewDef j s)
def execTdSetUtcInfo (j : Job) (s : State) : Host.Outcome State Fault Refusal := .next (directJob tdSetUtcInfoDef j s)
def execTdHandover (j : Job) (s : State) : Host.Outcome State Fault Refusal := .next (directJob tdHandoverDef j s)
def execTdReadLedger (j : Job) (s : State) : Host.Outcome State Fault Refusal := .next (directJob tdReadLedgerDef j s)
def execTdSetReturnPolicy (j : Job) (s : State) : Host.Outcome State Fault Refusal :=
  .next (directJob tdSetReturnPolicyDef j s)

/-! ### Time events -/

/-- HANDOVER_REMAINDER_ZERO (R35, R101, R102): time runs on to the moment at which the remainder reaches zero. -/
def execHandoverRemainderZero (s : State) : Host.Outcome State Fault Refusal :=
  .next (if s.clocked then runOn (fun n => remainderAfter s n == 0) s else s)

/-- SLEW_END (R93, R94): time runs on to the moment at which the slew has absorbed its offset; it ends. -/
def execSlewEnd (d : DomId) (s : State) : Host.Outcome State Fault Refusal :=
  let s' := if s.clocked then runOn (fun n => slewRemainder s d.val - slewPart s d.val n == 0) s else s
  .next (if slewRemainder s' d.val = 0 then s'.setDom d.val fun x => { x with slew := none } else s')

/-- CONFIRMATION_END (R116): CONFIRM_S, counted in impressions, has passed with the reference selected; it waits
while firmware restarts (R405). -/
def execConfirmationEnd (d : DomId) (s : State) : Host.Outcome State Fault Refusal :=
  let x := s.tcr.dom[d]
  .next (match x.ledger.confirming with
    | some t => if s.fwRuns && decide (8000 * x.confirmS ≤ t) then endConfirm d.val s else s
    | none => s)

end Sys2Proof.Machine
end

