-- ==== Sys2Proof/Machine/RefOps.lean ====
section
/-! DEFINITION. Shared operations of RIM, DSB and EHU: monitors and entry states (R124–R127), the selection decision
(R135–R139), the precomputed holdover value (R144–R146), the loop of an impression (R134). -/

namespace Sys2Proof.Machine

/-! ### Monitors -/

/-- The conditions of the frequency, drift-rate and PDV monitors of an entry against its limits (R124, R126). -/
def evalConditions (r : Nat) (s : State) : State :=
  let e := s.refEntry r
  let f := |refFreq e|
  let floor := pdvFloor e
  let pdv := decide (18 ≤ r) && decide (r < 31)
  let e' := { e with
    freqSoftNow := decide ((e.freqSoft : ℚ) * 1000 < f)
    freqHardNow := decide ((e.freqHard : ℚ) * 1000 < f)
    driftNow := decide ((e.driftPptS : ℚ) < |refDrift e|)
    pdvSoftNow := pdv && decide (e.pdvSoftNs < floor)
    pdvHardNow := pdv && decide (e.pdvHardNs < floor) }
  let s := s.setRef r fun _ => e'
  let s := risen r 1 e.freqSoftNow e'.freqSoftNow s
  let s := risen r 2 e.freqHardNow e'.freqHardNow s
  let s := risen r 3 e.driftNow e'.driftNow s
  risen r 5 false ((!e.pdvSoftNow && e'.pdvSoftNow) || (!e.pdvHardNow && e'.pdvHardNow)) s

/-- The integrity rows of the ensemble outlier flag (R124, R172), which read INTEG_ACTION at each evaluation; the entries
of GNSS take part with the action 2 alone. -/
def evalIntegrity (r : Nat) (s : State) : State :=
  s.setRef r fun e =>
    { e with integSoftNow := decide (r < 31) && e.outlierNow && e.integAction == 1
             integHardNow := decide (r < 31) && e.outlierNow && e.integAction == 2 }

/-- The nominal period of an entry in ns, if it has one (R122, R223, R239): a recovered-clock slot has the CD-LANE
frequency of its lane's mode. -/
def refPeriod (s : State) (r : Nat) : Option ℚ :=
  let m := if r < 12 then (s.refEntry r).nominalMhz
    else if r < 16 then (match vget s.nlu.slot (r - 12) none with
      | some l => laneMilliHz (s.laneOf l.val).mode
      | none => 0)
    else 0
  if m = 0 then none else some ((10 ^ 12 : ℚ) / m)

/-- The frequency measurement of a second from the stamps of its edges (R123): phase advance over the second. -/
def edgeFreq (s : State) (r : Nat) : Option ℚ :=
  let e := s.refEntry r
  match refPeriod s r, e.firstStamp, e.lastStamp with
  | some p, some a, some b =>
    if b ≤ a then none else
    let n : ℚ := (round ((b - a) / p) : Int)
    some ((n * p - (b - a)) / (b - a) * 10 ^ 12)
  | _, _, _ => none

/-- Clean time of an entry at the end of a second (R127): a whole second counts once it lies in the state, with no condition
at either of its ends. -/
def cleanSecond (e : RefEntry) : RefEntry :=
  match e.st with
  | .qualifying | .drifting =>
    if hardNow e || softNow e then { e with clean := 0, counting := false }
    else if e.counting then { e with clean := e.clean + 1 }
    else { e with clean := 0, counting := true }
  | _ => e

/-- MONITOR_EVALUATION of one entry at the end of a second (R124, R127). -/
def evalRef (r : Nat) (s : State) : State :=
  let e := s.refEntry r
  if !e.enable then s else
  let f := if r < 16 then edgeFreq s r else e.freqNow
  let s := s.setRef r fun e =>
    { e with
      freqs := (match f with
        | some q => (q :: e.freqs)
        | none => e.freqs).take (max e.freqWindow e.driftWindow)
      freqNow := none
      firstStamp := e.lastStamp, edges := 0, lagMark := e.lag
      delays := e.delays.filter fun d => decide (s.tcr.seq.second ≤ d.2 + e.pdvWindow) }
  let s := reviewRef r (evalIntegrity r (evalConditions r s))
  s.setRef r cleanSecond

/-- Something arrives at an entry: LOS ends (R124, R127). -/
def refArrives (r : Nat) (s : State) : State :=
  reviewRef r (s.setRef r fun e => { e with los := false, arrived := true })

/-- Wait-to-restore counts anew from an entry into QUALIFIED (R135). -/
def clearRestored (r : Nat) (s : State) : State :=
  forAll 8 s fun k t => t.setDpll k fun x => { x with restored := x.restored.filter fun c => c.val != r }

/-- The offset that UTC information gives for a TAI second, when it was first given in another one (R97): a leap that has
taken place between the two is in it. -/
def UtcObs.offsetAt (u : UtcObs) (given sec : Nat) : Int :=
  let delta : Int := if u.leap = 1 then 1 else if u.leap = 2 then -1 else 0
  if given < u.leapSecond ∧ u.leapSecond ≤ sec then u.offset + delta else u.offset

/-- UTC information that a reference gives to the domains that name it while it is QUALIFIED (R97). A leap at or
before the domain's current second is ignored as already applied. -/
def giveUtc (r : Nat) (s : State) : State :=
  let e := s.refEntry r
  match e.utc with
  | none => s
  | some u =>
    if e.st != .qualified then s else
    forAll 4 s fun d t =>
      if (t.domain d).utcSource.any fun x => x.val == r then
        let now := viewSecond t d
        let past := decide (u.leapSecond ≤ now)
        t.setDom d fun x =>
          { x with utcOffset := UtcObs.offsetAt u e.utcAt now,
                   leap := (if past then .none else if u.leap = 1 then .insert else if u.leap = 2 then .delete else .none),
                   leapSecond := if past then x.leapSecond else u.leapSecond }
      else t

/-- An entry enters QUALIFIED (R90, R97, R127, R135). -/
def qualify (r : Nat) (s : State) : State :=
  let s := clearRestored r (moveRef r .qualified s)
  let s := giveUtc r s
  spreadTod r s

/-! ### Selection -/

/-- The wait-to-restore of an entry has passed (R135): WTR_S, counted in impressions, since it last became QUALIFIED. -/
def waited (s : State) (k : Nat) (c : Fin 32) : Bool :=
  decide (8000 * (s.dpllOf k).wtrS ≤ s.cpx.impressions - (s.refEntry c.val).qualifiedAt)

/-- A candidate is eligible for a DPLL (R135). -/
def eligible (s : State) (k : Nat) (c : Fin 32) : Bool :=
  let x := s.dpllOf k
  selectable s c.val &&
    (x.st == .freerun || x.st == .holdover || x.wtrS == 0 || (x.restored.contains c && waited s k c) || x.selected == some c)

/-- Position of an entry in the candidate list. -/
def rankOf (x : Dpll) (c : Fin 32) : Nat := (x.cands.findIdx? fun y => y == c).getD x.cands.length

/-- The highest-ranked eligible candidate that a predicate admits: QUALIFIED ones before DRIFTING ones (R135). -/
def bestCandidate (s : State) (k : Nat) (p : Fin 32 → Bool) : Option (Fin 32) :=
  let ok := (s.dpllOf k).cands.filter fun c => eligible s k c && p c
  match ok.find? fun c => (s.refEntry c.val).st == .qualified with
  | some c => some c
  | none => ok.head?

/-- Begin a switch to an entry (R140 step 1). -/
def decideSwitch (k : Nat) (c : Fin 32) (takeover : Bool) (s : State) : State :=
  s.setDpll k fun x =>
    { x with sw := some { target := c, decidedAt := s.cpx.impressions, takeover := takeover
                          fromLost := x.st == .freerun || x.st == .holdover } }

/-- The selected entry or its replacement is lost (R135, R142): a DPLL that a release left frozen takes the freeze as its
loss instant. -/
def loseSelected (k : Nat) (s : State) : State :=
  let x := s.dpllOf k
  enterLostAt (if x.st = .switching then x.frozeAt else s.cpx.impressions) k true s

/-- The selection decision of one DPLL in an impression (R135, R138, R139). A decided switch whose target is no longer
selectable is not frozen, and the decision is taken again (R140 step 2). -/
def decide1 (k : Nat) (s : State) : State :=
  let x := s.dpllOf k
  let stands := match x.sw with
    | some w => w.frozen || selectable s w.target.val
    | none => false
  if x.mode != .automatic || stands then s else
  let s := s.setDpll k fun x => { x with sw := none }
  match x.forced with
  | some f =>
    if x.selected = some f then (if selectable s f.val then s else loseSelected k s)
    else if (if x.selected.isSome then selectable s f.val else (s.refEntry f.val).st == .qualified) then decideSwitch k f false s
    else if x.selected.isSome then loseSelected k s
    else s
  | none =>
    match x.selected with
    | none =>
      match bestCandidate s k fun _ => true with
      | some c => decideSwitch k c false s
      | none => s
    | some c0 =>
      if !selectable s c0.val || !x.cands.contains c0 then
        match bestCandidate s k fun c => c != c0 with
        | some c => decideSwitch k c false s
        | none => loseSelected k s
      else if x.st = .switching then decideSwitch k c0 x.tookOver s
      else if x.revertive && !x.tookOver then
        let st := (s.refEntry c0.val).st
        match bestCandidate s k fun c => c != c0 && decide (rankOf x c < rankOf x c0) && (s.refEntry c.val).st == st with
        | some c => decideSwitch k c false s
        | none => s
      else s

/-- SELECTION_DECISION of every DPLL (R135). -/
def decideAll (s : State) : State := forAll 8 s fun k t => decide1 k t

/-- The eligible QUALIFIED candidate that a drift takeover would switch to (R138), while the selected entry is DRIFTING. -/
def takeoverTarget (s : State) (k : Nat) : Option (Fin 32) :=
  let x := s.dpllOf k
  match x.selected with
  | none => none
  | some c0 =>
    if (s.refEntry c0.val).st == .drifting && x.forced.isNone then
      bestCandidate s k fun c => c != c0 && (s.refEntry c.val).st == .qualified
    else none

/-- The hold-off of a drift takeover counts, in impressions, while such a candidate exists without a break (R138). -/
def noteTakeover (k : Nat) (s : State) : State :=
  let on := (takeoverTarget s k).isSome
  s.setDpll k fun x =>
    { x with takeoverFor := if !on then none else some (match x.takeoverFor with
        | some n => n + 1
        | none => 0) }

/-- The control value that a loop may give (R133, R134): within PULL_IN_PPB of nominal, and in ACQUIRING within
PHASE_SLOPE_PPB of the measured frequency of its reference. DEDUCED, log entry 101. -/
def loopBound (s : State) (x : Dpll) (c : Int) : Int :=
  let near := match x.selected with
    | some r =>
      let f := round (refFreq (s.refEntry r.val) * 1000)
      let slope : Int := x.phaseSlope * 1000000
      max (f - slope) (min (f + slope) c)
    | none => c
  clampSym (pullIn x) (if x.st = .acquiring then near else c)

/-- The bandwidth in which a DPLL acquires (R134). -/
def acquireBw (x : Dpll) : Nat := if x.fastAcq then x.acqBw else x.bw

/-- A DPLL enters ACQUIRING (R134). -/
def acquire (k : Nat) (s : State) : State :=
  (moveDpll k .acquiring s).setDpll k fun x => { x with curBw := acquireBw x, inLock := 0 }

/-- The loop of a following DPLL over an impression (R131, R134): the loop filter gives a free control value within
its bound and a free phase error; a LOCKED DPLL at the limit returns to ACQUIRING. -/
def loopImpression (k : Nat) (s : State) : State :=
  let x := s.dpllOf k
  match x.st with
  | .acquiring | .locked =>
    let (c, s) := drawInt s
    let (e, s) := drawInt s
    let c := loopBound s x c
    let s := s.setDpll k fun x =>
      { x with control := c, phaseErr := e, inLock := if e.natAbs ≤ x.lockNs * 1000 then x.inLock + 1 else 0 }
    if x.st == .locked && decide (pullIn x ≤ (c.natAbs : Int)) then acquire k s else s
  | _ => s

/-! ### Holdover (R143–R146) -/

/-- Archive span in seconds of an imposition (R37). -/
def archiveSpan : Imposition → Nat
  | .folio => 87381
  | .broadsheet => 65536
  | .quarto => 174762
  | .octavo => 87381

/-- Number of archived DPLLs. -/
def archivedCount (s : State) : Nat := ((List.range 8).filter fun k => (s.holdOf k).archive).length

/-- Span of a DPLL's history in seconds (R144). -/
def spanOf (s : State) (k : Nat) : Nat :=
  if (s.holdOf k).archive then archiveSpan s.cpx.imposition / max 1 (archivedCount s) else 256

/-- WINDOW_S in force: reduced to the span less the guard when an imposition has shortened the archive (R38). -/
def windowOf (s : State) (k : Nat) : Nat := min (s.holdOf k).windowS (spanOf s k - (s.holdOf k).guardS)

/-- FREQ of an entry in ppt. -/
def archPpt (e : ArchEntry) : ℚ := (e.freq : ℚ) * 10 ^ 12 / 2 ^ 48

/-- The uncertainty of R145 step 5 from the entries used, newest first, with its floor in ppt. -/
def sigmaOf (fs : List ℚ) (floor : ℚ) : Sigma :=
  let n := fs.length
  if n < 2 then { lin := floor } else
  let m := meanQ fs
  let var := (fs.map fun f => (f - m) ^ 2).sum / ((n : ℚ) - 1) / n
  let h := (n + 1) / 2
  let lin := |meanQ (fs.drop h) - meanQ (fs.take h)|
  if floor - lin ≤ 0 ∨ (floor - lin) ^ 2 ≤ var then { lin := lin, var := var } else { lin := floor }

/-- The precomputed holdover value of a DPLL for a loss in second `l` (R145, R146). -/
def holdoverValue (s : State) (k l : Nat) : Option HoldValue :=
  let h := s.holdOf k
  let w := windowOf s k
  let ok := h.hist.filter fun e => e.usable && !e.drifting && decide (e.second + h.guardS < l)
  let inWin := ok.filter fun e => decide (l ≤ e.second + h.guardS + w)
  let used := if h.minValid * w ≤ inWin.length * 1000 then inWin else ok.take (ceilDiv (h.minValid * w) 1000)
  if used.isEmpty then none else
  let fs := used.map archPpt
  let fit := ok.filter fun e => decide (l ≤ e.second + h.guardS + h.agingFitS)
  let slope : ℚ := match h.aging with
    | 0 => 0
    | 1 =>
      let xs := fit.map fun e => (e.second : ℚ)
      let ys := fit.map archPpt
      let mx := meanQ xs
      let den := (xs.map fun x => (x - mx) ^ 2).sum
      if den = 0 then 0 else ((xs.zip ys).map fun p => (p.1 - mx) * (p.2 - meanQ ys)).sum / den
    | 2 => (h.agingPptDay : ℚ) / 1000 / 86400
  some { h := meanQ fs
         sigma := sigmaOf fs ((h.sigmaFloor : ℚ) / 1000)
         slope := slope
         tw := meanQ (used.map fun e => (e.temp : ℚ)) }

/-- HOLDOVER_ARCHIVE_ENTRY (R144): the entry of the second that has ended. -/
def archiveEntry (s : State) (k second : Nat) (usable : Bool) : ArchEntry :=
  let h := s.holdOf k
  let x := s.dpllOf k
  let mean : ℚ := if h.secCount = 0 then (x.control : ℚ) else (h.secSum : ℚ) / h.secCount
  let steer : ℚ := if s.ehu.steer.dpll.any (fun y => y.val == k) && !s.ehu.steer.outside then s.ehu.steer.applied else 0
  { freq := round ((mean + steer) * 2 ^ 48 / 10 ^ 15)
    temp := (vget s.srt.sensor h.sensor.val {}).now
    ref := x.selected
    usable := usable && h.secUsable
    drifting := h.secDrifting
    excursion := h.secExcursion
    steered := h.secSteered
    secondLo := BitVec.ofNat 16 second
    second := second }

/-- The second of a history ends (R144): its entry waits for the averager, and the next second starts. -/
def closeSecond (k second : Nat) (usable : Bool) (s : State) : State :=
  let e := archiveEntry s k second usable
  let x := s.dpllOf k
  s.setHold k fun h =>
    { h with closed := e :: h.closed
             secUsable := usable && x.st == .locked, secDrifting := false
             secExcursion := s.srt.dip, secSteered := false, secSum := 0, secCount := 0 }

/-- The averager writes the entries that wait, but for the newest `keep`, and keeps the span (R34, R144). -/
def writeEntries (k keep : Nat) (s : State) : State :=
  let span := spanOf s k
  s.setHold k fun h => { h with hist := (h.closed.drop keep ++ h.hist).take span, closed := h.closed.take keep }

/-- What an impression adds to the second in progress of a history (R19, R144). -/
def sampleHold (k : Nat) (s : State) : State :=
  let x := s.dpllOf k
  let drifting := match x.selected with
    | some r => (s.refEntry r.val).st == .drifting
    | none => false
  s.setHold k fun h =>
    { h with secSum := h.secSum + x.control, secCount := h.secCount + 1
             secUsable := h.secUsable && x.st == .locked && s.cpx.warm.isNone
             secDrifting := h.secDrifting || drifting
             secExcursion := h.secExcursion || s.srt.dip }

/-- The 12 bytes of a history entry (R144). -/
def entryBytes (k : Nat) (e : ArchEntry) : List Byte :=
  leBytes 6 (toCode 48 e.freq) ++ leBytes 2 (toCode 16 e.temp) ++ leBytes 1 (optCode e.ref) ++
  leBytes 1 (k + 8 * bit e.usable + 16 * bit e.drifting + 32 * bit e.excursion + 64 * bit e.steered) ++
  leBytes 2 e.secondLo.toNat

/-! ### The ensemble -/

/-- The settings of a member that a later job is checked against (R105): those that wait, else those in force. -/
def memberCfg (s : State) (m : Nat) : MemberCfg :=
  let x := vget s.ehu.member m {}
  match x.next with
  | some c => c
  | none => x.cfg

/-- Some enabled member has an input as its source. -/
def isMemberSource (s : State) (r : Fin 32) : Bool :=
  (List.range 8).any fun m => (memberCfg s m).enable && (memberCfg s m).source == .ref r

/-- The ensemble would steer one of its own members (R136): DPLL `k` with a list that names entry 31. -/
def steersOwnMember (s : State) (k : Nat) (names31 : Bool) : Bool :=
  let t := s.ehu.steer
  names31 && t.outside && t.dpll.any (fun x => x.val == k) &&
    (match t.steeredRef with
     | some r => isMemberSource s r
     | none => false)

/-- Weights with their caps (R106): capped members give what they lose to the others in proportion; if all are
capped, the weights are scaled together. -/
def capWeights : Nat → List (ℚ × ℚ × Bool) → List ℚ
  | 0, ws => ws.map fun w => w.1
  | n + 1, ws =>
    let capped : List (ℚ × ℚ × Bool) := ws.map fun w => (w.1, w.2.1, w.2.2 || (decide (0 < w.1) && decide (w.2.1 < w.1)))
    let fixed : List ℚ := (capped.filter fun w => w.2.2).map fun w => w.2.1
    let free : List ℚ := (capped.filter fun w => !w.2.2).map fun w => w.1
    if free.sum = 0 then
      (if fixed.sum = 0 then ws.map fun _ => 0 else capped.map fun w => if w.2.2 then w.2.1 / fixed.sum else 0)
    else capWeights n (capped.map fun w =>
      if w.2.2 then (w.2.1, w.2.1, true) else (w.1 * (1 - fixed.sum) / free.sum, w.2.1, false))

end Sys2Proof.Machine
end

