-- ==== Sys2Proof/Machine/References.lean ====
section
/-! DEFINITION. Meanings of the REF, DPLL, HOLD, OSC jobs and of the reference and servo events (R121–R152). -/

namespace Sys2Proof.Machine

/-! ### Reference jobs -/

/-- REF_CONFIG (R122). -/
def refConfigDef : JobDef :=
  { code := 0x1201
    fields := [fRange 4 1 0 31, fRange 5 1 0 1, fRange 6 1 0 1,
               { off := 7, len := 1, ok := fun v => (decide (16 ≤ v) && decide (v ≤ 30)) || v == 0xFF },
               { off := 8, len := 8, ok := fun v => v == 0 || (decide (1000 ≤ v) && decide (v ≤ 10 ^ 12)) },
               fRange 16 1 0 1, fRange 17 1 0 1, fRange 18 2 0 0x7FFF, fRange 20 4 0 (10 ^ 9), fRange 24 4 0 (10 ^ 6),
               fRange 28 1 0 2]
    rules := fun _ p =>
      let r := p.u 4 1
      let phys := decide (r < 12)
      let kind := p.u 6 1
      (if !phys && (kind != 0 || p.u 8 8 != 0) then [4] else []) ++
      (if p.u 7 1 != 0xFF && !(phys && kind == 1) then [4] else []) ++
      (if phys && kind == 1 && p.u 8 8 != 1000 then [6] else []) ++
      (if phys && p.u 5 1 == 1 && p.u 8 8 == 0 then [4] else []) ++
      (if (r = 16 ∨ r = 17) ∧ p.u 28 1 ≠ 2 then [4] else [])
    absent := fun s p => (p.u 4 1 < 32 && !s.refPresent (p.u 4 1)) || (p.u 7 1 < 32 && !s.refPresent (p.u 7 1))
    run := fun s _ p =>
      let r := p.u 4 1
      let e := s.refEntry r
      let en := p.u 5 1 == 1
      let back := !en || !e.enable || (decide (r < 12) && (e.timeKind != (p.u 6 1 == 1))) || e.nominalMhz != p.u 8 8
      let s := s.setRef r fun e =>
        { e with enable := en, timeKind := if r < 12 then p.u 6 1 == 1 else e.timeKind, todSource := p.opt 7 32
                 nominalMhz := p.u 8 8, singleEnded := p.u 16 1 == 1, falling := p.u 17 1 == 1
                 irqMask := BitVec.ofNat 16 (p.u 18 2), timeUncPs := p.u 20 4, freqUncPpt := p.u 24 4
                 integAction := p.fin 28 3 }
      let s := if e.enable then s else s.setRef r fun e =>
        { e with arrived := false, los := true, freqs := [], delays := [], firstStamp := none, lastStamp := none
                 lastEdge := none, lag := none, lagMark := none, freqNow := none, tod := none }
      let s := setHistory r 14 s
      let s := if back then reviewRef r (moveRef r .unqualified s) else s
      done (spreadTod r s) }

/-- REF_SET_THRESHOLDS (R125, R126). -/
def refSetThresholdsDef : JobDef :=
  { code := 0x1202
    fields := [fRange 4 1 0 31, fRange 5 1 1 255, fRange 6 2 1 500, fRange 8 4 1 86400, fRange 12 4 1 1000,
               fRange 16 4 1 100000, fRange 20 4 1 100000, fRange 24 4 10 3600, fRange 28 4 1 (10 ^ 6),
               fRange 32 4 1 (10 ^ 9), fRange 36 4 8 1024, fRange 40 4 1 (10 ^ 6), fRange 44 4 1 (10 ^ 6), fRange 48 4 1 3600]
    rules := fun _ p => (if p.u 20 4 < p.u 16 4 then [16] else []) ++ (if p.u 44 4 < p.u 40 4 then [40] else [])
    absent := fun s p => p.u 4 1 < 32 && !s.refPresent (p.u 4 1)
    run := fun s _ p =>
      let r := p.u 4 1
      let s := s.setRef r fun e =>
        { e with losPeriods := p.u 5 1, pdvPop := p.u 6 2, qualS := p.u 8 4, freqWindow := p.u 12 4, freqSoft := p.u 16 4
                 freqHard := p.u 20 4, driftWindow := p.u 24 4, driftPptS := p.u 28 4, phaseJumpNs := p.u 32 4
                 pdvWindow := p.u 36 4, pdvSoftNs := p.u 40 4, pdvHardNs := p.u 44 4, driftClearS := p.u 48 4 }
      let s := setHistory r 14 s
      done (if (s.refEntry r).enable then reviewRef r (evalConditions r s) else s) }

/-- The code of an entry's state (R130). -/
def RefState.code : RefState → Nat
  | .unqualified => 0
  | .qualifying => 1
  | .qualified => 2
  | .drifting => 3
  | .disqualified => 4

/-- The code of a DPLL's state (R131). -/
def DpllState.code : DpllState → Nat
  | .freerun => 0
  | .acquiring => 1
  | .locked => 2
  | .switching => 3
  | .holdover => 4

/-- The code of a DPLL's mode (R132). -/
def DpllMode.code : DpllMode → Nat
  | .automatic => 0
  | .freerun => 1
  | .holdover => 2

/-- The holdover value of a DPLL in ppt, as R131 reports it. -/
def holdReport (s : State) (k : Nat) : Int :=
  let x := s.dpllOf k
  match x.st, (s.holdOf k).value with
  | .holdover, _ => (x.inUse.getD 0).tdiv 1000
  | _, some v => (holdFreq s k v 0).tdiv 1000
  | _, none => 0

/-- REF_READ_STATUS (R130, R131). R130 does not say what RESULT3 [15:0] shows while more than 65,535 s are left: they show
modulo 2^16; nor whether RESULT0 [14] shows an outlier flag whose INTEG_ACTION is 0: it does not, since that flag is a
condition of neither kind. DESIGN CHOICE, log entry 102. -/
def refReadStatusDef : JobDef :=
  { code := 0x1203
    fields := [fAny 4 1, fRange 5 1 0 1]
    nextImp := false
    rules := fun _ p => if (if p.u 5 1 = 0 then 32 else 8) ≤ p.u 4 1 then [4] else []
    absent := fun s p => p.u 5 1 == 0 && p.u 4 1 < 32 && !s.refPresent (p.u 4 1)
    run := fun s _ p =>
      let i := p.u 4 1
      if p.u 5 1 = 0 then
        let e := s.refEntry i
        let left := match e.st with
          | .qualifying => e.qualS - e.clean
          | .drifting => e.driftClearS - e.clean
          | _ => 0
        let floor := min 255 (pdvFloor e / 10)
        let sel := maskOf 8 fun k => (s.dpllOf k).selected.any fun x => x.val == i
        let cond := bit e.los + 2 * bit e.freqSoftNow + 4 * bit e.freqHardNow + 8 * bit e.driftNow + 16 * bit e.pdvSoftNow +
          32 * bit e.pdvHardNow + 64 * bit (e.gnssFail || e.integSoftNow || e.integHardNow)
        reply { r0 := word (e.st.code + cond * 256 + e.history.toNat * 65536), r1 := wordI (round (refFreq e))
                r2 := wordI (round (refDrift e * 100)), r3 := word (left % 65536 + floor * 65536 + sel * 2 ^ 24) } s
      else
        let x := s.dpllOf i
        reply { r0 := word (x.st.code + x.mode.code * 8 + bit x.forced.isSome * 32 + bit (s.holdOf i).value.isSome * 64 +
                  optCode x.selected * 256 + optCode x.lastSelected * 65536)
                r1 := wordI (x.control.tdiv 1000), r2 := wordI x.phaseErr, r3 := wordI (holdReport s i) } s }

/-- REF_CLEAR_HISTORY (R129): a bit whose event has occurred in the impression stays. -/
def refClearHistoryDef : JobDef :=
  { code := 0x1204
    fields := [fOpt 4 31, fRange 6 2 0 0x7FFF]
    absent := fun s p => p.u 4 1 < 32 && !s.refPresent (p.u 4 1)
    run := fun s _ p =>
      let m := BitVec.ofNat 16 (p.u 6 2)
      done (forAll 32 s fun r t =>
        if p.u 4 1 = 0xFF ∨ p.u 4 1 = r then t.setRef r fun e => { e with history := e.history &&& ~~~(m &&& ~~~e.histNow) } else t) }

/-- The candidates that a REF_SET_PRIORITY lists. -/
def listedCands (p : Params) : List Nat := (List.range (min 8 (p.u 5 1))).map fun i => p.u (16 + i) 1

/-- The DPLL is frozen, and its release has yet to come (R140, R142). -/
def inSwitch (x : Dpll) : Bool := x.sw.any fun w => w.frozen

/-- A job for a DPLL in SWITCHING waits for the release boundary (R142); otherwise it acts. -/
def unlessSwitching (k : Nat) (s : State) (act : State → State × Fate) : State × Fate :=
  if inSwitch (s.dpllOf k) then (s, .hold (.release (Fin.ofNat 8 k))) else act s

/-- REF_SET_PRIORITY (R136, R142). -/
def refSetPriorityDef : JobDef :=
  { code := 0x1205
    fields := [fRange 4 1 0 7, fRange 5 1 0 8, fRange 6 1 0 1, fRange 8 4 0 3600, fRange 12 4 0 3600, fOpt 16 31, fOpt 17 31,
               fOpt 18 31, fOpt 19 31, fOpt 20 31, fOpt 21 31, fOpt 22 31, fOpt 23 31]
    rules := fun s p =>
      let l := listedCands p
      let n := p.u 5 1
      (if l.contains 0xFF then [5] else []) ++
      (if (List.range 8).any (fun i => decide (n ≤ i) && p.u (16 + i) 1 != 0xFF) then [5] else []) ++
      ((List.range l.length).filterMap fun i =>
        if l.getD i 0 ≠ 0xFF ∧ (l.drop (i + 1)).contains (l.getD i 0) then some (16 + i) else none) ++
      (if steersOwnMember s (p.u 4 1) (l.contains 31) then [4] else [])
    absent := fun s p => (listedCands p).any fun c => decide (c < 32) && !s.refPresent c
    run := fun s _ p =>
      let k := p.u 4 1
      unlessSwitching k s fun s =>
        let l := (listedCands p).filterMap fun c => if h : c < 32 then some (⟨c, h⟩ : Fin 32) else none
        done (s.setDpll k fun x =>
          { x with cands := l, revertive := p.u 6 1 == 1, wtrS := p.u 8 4, driftHoldoffS := p.u 12 4, tookOver := false
                   restored := (x.restored.filter fun c => l.contains c), sw := none, takeoverFor := none }) }

/-- REF_FORCE_SELECT (R139, R142). -/
def refForceSelectDef : JobDef :=
  { code := 0x1206
    fields := [fRange 4 1 0 7, fOpt 5 31]
    absent := fun s p => p.u 5 1 < 32 && !s.refPresent (p.u 5 1)
    check := fun s _ p =>
      if (s.dpllOf (p.u 4 1)).mode != .automatic || (p.u 5 1 < 32 && !selectable s (p.u 5 1)) then some rejState else none
    run := fun s _ p =>
      let k := p.u 4 1
      unlessSwitching k s fun s =>
        match p.opt 5 32 with
        | none => done (s.setDpll k fun x => { x with forced := none, tookOver := false, sw := none })
        | some r =>
          let s := setHistory r.val 12 s
          let s := s.setDpll k fun x => { x with forced := some r, tookOver := false, sw := none }
          done (if (s.dpllOf k).selected = some r then s else decideSwitch k r false s) }

/-! ### DPLL jobs -/

/-- DPLL_CONFIG (R133). -/
def dpllConfigDef : JobDef :=
  { code := 0x1301
    fields := [fRange 4 1 0 7, fRange 5 1 0 1, fRange 6 1 0 1, fRange 8 4 1 40000000, fRange 12 2 50 1000,
               fRange 16 4 1 40000000, fRange 20 4 1 (10 ^ 6), fRange 24 4 1 3600, fRange 28 4 1 10000, fRange 32 4 1 200000]
    rules := fun _ p => if p.u 16 4 < p.u 8 4 then [8] else []
    run := fun s _ p =>
      done (s.setDpll (p.u 4 1) fun x =>
        { x with pbo := p.u 5 1 == 1, fastAcq := p.u 6 1 == 1, bw := p.u 8 4, damping := p.u 12 2, acqBw := p.u 16 4
                 lockNs := p.u 20 4, lockS := p.u 24 4, phaseSlope := p.u 28 4, pullIn := p.u 32 4
                 curBw := if x.st == .locked || p.u 6 1 == 0 then p.u 8 4 else max (p.u 8 4) (min x.curBw (p.u 16 4)) }) }

/-- DPLL_SET_MODE (R132, R142, R430). A forced mode drops a switch that has not frozen. -/
def dpllSetModeDef : JobDef :=
  { code := 0x1302
    fields := [fRange 4 1 0 7, fRange 5 1 0 2]
    check := fun s _ p => if p.u 5 1 = 2 ∧ (s.holdOf (p.u 4 1)).value.isNone then some rejState else none
    run := fun s _ p =>
      let k := p.u 4 1
      unlessSwitching k s fun s =>
        let x := s.dpllOf k
        match p.u 5 1 with
        | 0 => done (s.setDpll k fun x => { x with mode := .automatic })
        | 1 =>
          let s := s.setDpll k fun x => { x with mode := .freerun, sw := none }
          if x.st == .freerun then done s else
          let s := moveDpll k .freerun s
          let s := s.setDpll k fun y =>
            { y with selected := none, lastSelected := if y.selected.isSome then y.selected else y.lastSelected
                     inUse := none, control := 0, lostAt := s.cpx.impressions }
          done (onDomains k ledgerFreerun s)
        | _ => done (enterLost k true (s.setDpll k fun x => { x with mode := .holdover })) }

/-- The offset that a DPLL_STEER_PPT asks for (R149), units of 0.001 ppt. -/
def steerResult (x : Dpll) (p : Params) : Int := if p.u 5 1 = 1 then x.steer + p.i 8 8 else p.i 8 8

/-- The DPLL is in FREERUN or HOLDOVER. -/
def runsAlone (x : Dpll) : Bool := x.st == .freerun || x.st == .holdover

/-- DPLL_STEER_PPT (R149). -/
def dpllSteerPptDef : JobDef :=
  { code := 0x1303
    fields := [fRange 4 1 0 7, fRange 5 1 0 1, fSigned 8 8 (-200000000000) 200000000000]
    rules := fun s p =>
      let x := s.dpllOf (p.u 4 1)
      if runsAlone x && decide (pullIn x < ((x.control + steerResult x p).natAbs : Int)) then [8] else []
    check := fun s _ p => if runsAlone (s.dpllOf (p.u 4 1)) then none else some rejState
    run := fun s _ p => done (s.setDpll (p.u 4 1) fun x => { x with steer := steerResult x p }) }

/-- DPLL_PHASE_STEP (R150). -/
def dpllPhaseStepDef : JobDef :=
  { code := 0x1304
    fields := [fRange 4 1 0 7, fSigned 8 8 (-65536000000000) 65536000000000]
    run := fun s _ p =>
      let k := p.u 4 1
      unlessSwitching k s fun s =>
        done (s.setDpll k fun x =>
          { x with buildOut := x.buildOut + p.i 8 8, moving := x.moving + p.i 8 8 * ivlU, stepMoving := true }) }

/-! ### Holdover and steering jobs -/

/-- The archived DPLLs after a HOLD_CONFIG. -/
def archivedAfter (s : State) (k : Nat) (on : Bool) : Nat :=
  ((List.range 8).filter fun i => if i = k then on else (s.holdOf i).archive).length

/-- HOLD_CONFIG (R38, R144, R147). -/
def holdConfigDef : JobDef :=
  { code := 0x1305
    fields := [fRange 4 1 0 7, fRange 5 1 0 1, fRange 6 1 0 2, fRange 7 1 0 1, fRange 8 4 1 86400, fRange 12 4 0 3600,
               fAny 16 4, fSigned 20 4 (-1000000000) 1000000000, fRange 24 4 1 (10 ^ 9), fRange 28 2 1 1000,
               fRange 30 1 0 4]
    rules := fun s p =>
      let k := p.u 4 1
      let on := p.u 5 1 == 1
      let span := archiveSpan s.cpx.imposition / max 1 (archivedAfter s k on)
      (if p.u 6 1 = 1 ∧ ¬(3600 ≤ p.u 16 4 ∧ p.u 16 4 ≤ 174762) then [16] else []) ++
      if on then
        (if span < p.u 8 4 + p.u 12 4 then [8] else []) ++
        (if (List.range 8).any (fun i => i != k && (s.holdOf i).archive &&
            decide (span < (s.holdOf i).windowS + (s.holdOf i).guardS)) then [5] else []) ++
        (if p.u 6 1 = 1 ∧ span < p.u 16 4 then [6] else [])
      else (if 256 < p.u 8 4 + p.u 12 4 then [5] else []) ++ (if p.u 6 1 = 1 then [5] else [])
    run := fun s _ p =>
      let k := p.u 4 1
      let on := p.u 5 1 == 1
      let s := s.setHold k fun h =>
        { h with archive := on, aging := p.fin 6 3, temp := p.u 7 1 == 1, windowS := p.u 8 4, guardS := p.u 12 4
                 agingFitS := p.u 16 4, agingPptDay := p.i 20 4, sigmaFloor := p.u 24 4, minValid := p.u 28 2
                 sensor := p.fin 30 5, hist := if h.archive = on then h.hist else []
                 value := if h.archive = on || (s.dpllOf k).st == .holdover then h.value else none }
      done (forAll 8 s fun i t => t.setHold i fun h => { h with hist := h.hist.take (spanOf t i) }) }

/-- The regions of a pool area hold a secure one (R306): area `i` in the order of R37. -/
def poolSecure (s : State) (i : Nat) : Bool :=
  let sizes := poolSizes s.cpx.imposition
  let base := 2176 + (sizes.take i).sum
  let top := base + sizes.getD i 0
  (List.range 64).any fun r => decide (160 * r < top) && decide (base < 160 * (r + 1)) && s.sec.region.getLsbD r

/-- HOLD_READ_ARCHIVE (R148, R306). -/
def holdReadArchiveDef : JobDef :=
  { code := 0x1306
    dma := some { required := true, lenOk := fun n => n == 16, covered := 16 }
    fields := [fAny 0 4, fRange 4 1 0 7, fRange 8 4 1 174762]
    nextImp := false
    rules := fun s p => if s.srt.straps.spi ∧ 5461 < p.u 8 4 then [8] else []
    minResult := fun p => 12 * p.u 8 4
    nsForbids := fun s _ => poolSecure s 1
    run := fun s _ p =>
      let k := p.u 4 1
      let es := ((s.holdOf k).hist.drop (p.u 0 4)).take (p.u 8 4)
      let newest := match es with
        | [] => 0
        | e :: _ => e.second
      reply { r0 := word es.length, r1 := word newest, out := (es.reverse.map (entryBytes k)).flatten } s }

/-- OSC_STEER_CONFIG (R136, R151). -/
def oscSteerConfigDef : JobDef :=
  { code := 0x1307
    fields := [fOpt 4 7, fRange 5 1 0 1, fRange 6 1 8 24, fRange 7 1 0 3, fRange 8 4 0 (2 ^ 24 - 1), fRange 12 4 1 80000,
               fRange 16 4 1 (2 ^ 24), fRange 20 4 1200 921600, fRange 24 1 0 1, fOpt 25 11,
               { off := 32, len := 32, ok := fun v => (List.range 32).all fun i => decide (v / 256 ^ i % 256 < 128) }]
    rules := fun _ p => if p.u 24 1 = 0 ∧ p.u 25 1 ≠ 0xFF then [24] else []
    check := fun s _ p =>
      let named := decide (p.u 4 1 < 8)
      let loop := match p.opt 25 32 with
        | some r => named && p.u 24 1 == 1 && (s.dpllOf (p.u 4 1)).cands.contains 31 && isMemberSource s r
        | none => false
      if named && (steerGain s == 0 || loop) then some rejState else none
    run := fun s _ p =>
      done { s with ehu := { s.ehu with steer := { s.ehu.steer with
        dpll := p.opt 4 8, serial := p.u 5 1 == 1, dacBits := p.u 6 1, spiMode := p.fin 7 4, centre := p.u 8 4
        updateImp := p.u 12 4, maxStep := p.u 16 4, baud := p.u 20 4, outside := p.u 24 1 == 1, steeredRef := p.opt 25 32
        template := p.bytes 32 32 } } } }

def execRefConfig (j : Job) (s : State) : Host.Outcome State Fault Refusal := .next (directJob refConfigDef j s)
def execRefSetThresholds (j : Job) (s : State) : Host.Outcome State Fault Refusal := .next (directJob refSetThresholdsDef j s)
def execRefReadStatus (j : Job) (s : State) : Host.Outcome State Fault Refusal := .next (directJob refReadStatusDef j s)
def execRefClearHistory (j : Job) (s : State) : Host.Outcome State Fault Refusal := .next (directJob refClearHistoryDef j s)
def execRefSetPriority (j : Job) (s : State) : Host.Outcome State Fault Refusal := .next (directJob refSetPriorityDef j s)
/-- REF_FORCE_SELECT that names an entry (R139). -/
def execRefForceSelect (j : Job) (s : State) : Host.Outcome State Fault Refusal := .next (directJob refForceSelectDef j s)
/-- REF_FORCE_SELECT with REF 0xFF (R139). -/
def execRefForceRelease (j : Job) (s : State) : Host.Outcome State Fault Refusal :=
  .next (directJob refForceSelectDef (withByte 5 0xFF j) s)
def execDpllConfig (j : Job) (s : State) : Host.Outcome State Fault Refusal := .next (directJob dpllConfigDef j s)
/-- DPLL_SET_MODE AUTOMATIC (R132). -/
def execDpllSetModeAutomatic (j : Job) (s : State) : Host.Outcome State Fault Refusal :=
  .next (directJob dpllSetModeDef (withByte 5 0 j) s)
/-- DPLL_SET_MODE FREERUN (R132). -/
def execDpllSetModeFreerun (j : Job) (s : State) : Host.Outcome State Fault Refusal :=
  .next (directJob dpllSetModeDef (withByte 5 1 j) s)
/-- DPLL_SET_MODE HOLDOVER (R132). -/
def execDpllSetModeHoldover (j : Job) (s : State) : Host.Outcome State Fault Refusal :=
  .next (directJob dpllSetModeDef (withByte 5 2 j) s)
def execDpllSteerPpt (j : Job) (s : State) : Host.Outcome State Fault Refusal := .next (directJob dpllSteerPptDef j s)
def execDpllPhaseStep (j : Job) (s : State) : Host.Outcome State Fault Refusal := .next (directJob dpllPhaseStepDef j s)
def execHoldConfig (j : Job) (s : State) : Host.Outcome State Fault Refusal := .next (directJob holdConfigDef j s)
def execHoldReadArchive (j : Job) (s : State) : Host.Outcome State Fault Refusal := .next (directJob holdReadArchiveDef j s)
def execOscSteerConfig (j : Job) (s : State) : Host.Outcome State Fault Refusal := .next (directJob oscSteerConfigDef j s)

/-! ### Reference events -/

/-- The domain that an input's edges are measured against: one whose DPLL lists it, else the active domain. -/
def edgeDomain (s : State) (r : Nat) : Nat :=
  match (List.range 4).find? fun d => (s.domain d).dpll.any fun k => (s.dpllOf k.val).cands.any fun c => c.val == r with
  | some d => d
  | none => s.tcr.active.val

/-- The nearest whole second to the time of a KIND 1 edge, less REF_DELAY, in the domain it is measured against (R378). -/
def edgeSecond (s : State) (r stamp : Nat) : Nat :=
  ((timeAtMark s (edgeDomain s r) stamp : Int) - calValue s (0x2400 + r) * psU + (secU / 2 : Nat)).toNat / secU

/-- The TAI second that the TOD_SOURCE of an input gives an edge (R90). -/
def edgeLabel (s : State) (r stamp : Nat) : Option Nat :=
  (s.refEntry r).todSource.bind fun q =>
    let src := s.refEntry q.val
    src.tod.map fun x =>
      (((x * 10 ^ 9 : Nat) : Int) + ((stamp / 128 : Nat) : Int) - src.todCycle + 5 * 10 ^ 8).toNat / 10 ^ 9

/-- The phase measurement of a KIND 1 edge (R90, R123, R378): the second that it marks, which its message labels or which is
the nearest one, stood at the input REF_DELAY before the stamp. -/
def timeEdge (r stamp : Nat) (s : State) : State :=
  let label := edgeLabel s r stamp
  let sec := label.getD (edgeSecond s r stamp)
  let mark : ℚ := (stamp : ℚ) / 128 - (calValue s (0x2400 + r) : ℚ) / 1000
  let lag : ℚ := (sec : ℚ) * 10 ^ 9 - unsteered s mark
  s.setRef r fun e => { e with lag := some (lag, stamp / 128), tod := label, todCycle := stamp / 128 }

/-- PHASE_JUMP (R124): the interval since the last stamp against the nearest whole number of periods at the measured
frequency. For a frequency reference it runs only while PHASE_JUMP_NS is below half the period. -/
def phaseJumped (s : State) (r stamp : Nat) : Bool :=
  let e := s.refEntry r
  match refPeriod s r, e.lastStamp with
  | some p, some b =>
    if !e.timeKind && decide (p ≤ 2 * (e.phaseJumpNs : ℚ)) then false else
    let q := p * (1 - refFreq e / 10 ^ 12)
    let span : ℚ := unsteered s ((stamp : ℚ) / 128) - b
    let n : ℚ := (round (span / q) : Int)
    decide ((e.phaseJumpNs : ℚ) < |span - n * q|)
  | _, _ => false

/-- REF_EDGE (R123, R124, R127): an edge at an input or a recovered-clock slot, with its CD-TIME stamp. -/
def execRefEdge (r : Fin 16) (stamp : Nat) (s : State) : Host.Outcome State Fault Refusal :=
  let e := s.refEntry r.val
  .next (if !(s.blockRuns 5 && e.enable) || (decide (12 ≤ r.val) && squelched s (r.val - 12)) then s else
    let jump := phaseJumped s r.val stamp
    let mark := unsteered s ((stamp : ℚ) / 128)
    let s := risen r.val 4 e.jumpNow jump s
    let s := s.setRef r.val fun e =>
      { e with jumpNow := jump, lastStamp := some mark, lastEdge := some (stamp / 128), edges := e.edges + 1
               firstStamp := if e.firstStamp.isNone then some mark else e.firstStamp }
    let s := if e.timeKind then timeEdge r.val stamp s else s
    let s := refArrives r.val s
    spreadTod r.val s)

/-- Measurements and exchanges of a packet reference discarded since its last arrival (R251, R293, R295): they count towards its
LOS. -/
def discarded (s : State) (r : Nat) : Nat :=
  ((List.range 8).map fun i =>
    (if (s.clientOf i).enable && (s.clientOf i).ref.any (fun x => x.val == r) then (s.clientOf i).missed else 0) +
    (if (s.instOf i).enable && (s.instOf i).ref.any (fun x => x.val == r) then ((List.range 24).map fun p => (s.piOf p i).missed).sum
     else 0)).sum

/-- The CD-TIME cycle at which an entry has missed LOS_PERIODS periods, seconds or intervals (R124); none where nothing
has arrived yet, and for the ensemble, whose loss EHU publishes. -/
def losCycle (s : State) (r : Nat) : Option Nat :=
  let e := s.refEntry r
  if r < 16 then
    (match e.lastEdge, refPeriod s r with
     | some c, some p => some (c + ((e.losPeriods : ℚ) * p).ceil.toNat)
     | _, _ => none)
  else if r < 31 then
    if 18 ≤ r ∧ e.losPeriods ≤ discarded s r then some 0 else
    e.lag.map fun (_, c) => c + ((e.losPeriods : ℚ) * (if r < 18 then 1 else expectedInterval s r) * 10 ^ 9).ceil.toNat
  else none

/-- REF_LOS (R124, R127, R406): LOS_PERIODS have passed without an arrival; time runs on to that moment if it lies in the
impression in progress. A squelched slot is lost at once. -/
def execRefLos (r : RefId) (s : State) : Host.Outcome State Fault Refusal :=
  .next (if !(s.blockRuns 5 && (s.refEntry r.val).enable) || (s.refEntry r.val).los then s
    else if 12 ≤ r.val ∧ r.val < 16 ∧ squelched s (r.val - 12) = true then loseRef r.val s
    else match losCycle s r.val with
      | none => s
      | some c =>
        let s := if s.clocked then runOn (fun n => decide (c ≤ s.tcr.cycles + n)) s else s
        if c ≤ s.tcr.cycles then loseRef r.val s else s)

/-- QUALIFICATION_END (R127): QUAL_S have passed with no condition. -/
def execQualificationEnd (r : RefId) (s : State) : Host.Outcome State Fault Refusal :=
  let e := s.rim.ref[r]
  .next (if e.st == .qualifying && !hardNow e && !softNow e && decide (e.qualS ≤ e.clean) then qualify r.val s else s)

/-- DRIFT_CLEAR (R127): DRIFT_CLEAR_S have passed with no soft condition. -/
def execDriftClear (r : RefId) (s : State) : Host.Outcome State Fault Refusal :=
  let e := s.rim.ref[r]
  .next (if e.st == .drifting && !hardNow e && !softNow e && decide (e.driftClearS ≤ e.clean) then qualify r.val s else s)

/-- WTR_EXPIRY (R135): the wait-to-restore of a candidate has passed: WTR_S since it last became QUALIFIED. -/
def execWtrExpiry (k : DpllId) (r : RefId) (s : State) : Host.Outcome State Fault Refusal :=
  .next (if (s.dpllOf k.val).cands.contains r && selectable s r.val && waited s k.val r &&
      !(s.dpllOf k.val).restored.contains r then
    s.setDpll k.val fun x => { x with restored := x.restored ++ [r] } else s)

/-- DRIFT_TAKEOVER (R138): an eligible QUALIFIED candidate has stood for DRIFT_HOLDOFF_S, counted in impressions, while the
selected entry drifts. -/
def execDriftTakeover (k : DpllId) (s : State) : Host.Outcome State Fault Refusal :=
  let x := s.dpllOf k.val
  .next (match takeoverTarget s k.val, x.takeoverFor with
    | some c, some n =>
      if s.fwRuns && x.mode == .automatic && x.sw.isNone && decide (8000 * x.driftHoldoffS ≤ n) then decideSwitch k.val c true s else s
    | _, _ => s)

/-! ### The switch -/

/-- SWITCH_FREEZE (R138, R140 step 2, R142): at the boundary after the decision, if B is still selectable the switch is
committed; otherwise the decision is taken again. A takeover leaves its entry here. -/
def execSwitchFreeze (k : DpllId) (s : State) : Host.Outcome State Fault Refusal :=
  let x := s.dpllOf k.val
  .next (match x.sw with
    | none => s
    | some w =>
      if w.frozen || decide (s.cpx.impressions ≤ w.decidedAt) then s
      else if !selectable s w.target.val then (if s.fwRuns then decide1 k.val s else s)
      else
        let s := match x.selected with
          | some c =>
            let s := setHistory c.val 10 s
            if w.takeover then pcuCount 0x1022 k.val 1 (setHistory c.val 13 s) else s
          | none => s
        let s := moveDpll k.val .switching s
        let s := s.setDpll k.val fun x =>
          { x with sw := some { w with frozen := true, frozenAt := s.cpx.impressions, edge := s.tcr.began
                                       counts := (List.range 4).map fun d => timeAtMark s d (128 * s.tcr.began) }
                   frozeAt := s.cpx.impressions
                   lastSelected := if x.selected.isSome then x.selected else x.lastSelected }
        pcuCount 0x1020 k.val 1 s)

/-- The VALID domains that a DPLL disciplines. -/
def validDomains (s : State) (k : Nat) : List Nat := (domainsOf s k).filter fun d => (s.domain d).valid

/-- The offsets O of the VALID domains of a DPLL against a time reference, each domain's time minus the reference's, at the
freeze edge (R96, R140, R141), units of 10^-3 ps. -/
def freezeOffsets (s : State) (k : Nat) (w : Switch) : List (Nat × Int) :=
  if isTimeRef s w.target.val then
    (validDomains s k).filterMap fun d =>
      (offsetAgainst s w.target.val (w.counts.getD d (s.domain d).count) w.edge).map fun o => (d, o)
  else []

/-- Δ of R140 and R141 in units of 10^-3 ps: B's latest phase measurement extrapolated to the freeze with B's measured
frequency, minus the DPLL's output phase: the offset of its domain with the sign turned. Free where the DPLL's output phase
is that of no VALID domain, and for a frequency reference (log entry 3). -/
def captureDelta (offsets : List (Nat × Int)) (s : State) : Int × State :=
  match offsets with
  | (_, o) :: _ => (-o, s)
  | [] => drawInt s

/-- Δ as the build-out register takes it (R141), modulo B's period for a frequency reference. -/
def deltaModulo (s : State) (b : Nat) (delta : Int) : Int :=
  match isTimeRef s b, refPeriod s b with
  | false, some p => if round (p * 10 ^ 6) = 0 then 0 else delta % round (p * 10 ^ 6)
  | _, _ => delta

/-- SWITCH_CAPTURE (R140 step 3, R141). -/
def execSwitchCapture (k : DpllId) (s : State) : Host.Outcome State Fault Refusal :=
  .next (match (s.dpllOf k.val).sw with
    | none => s
    | some w =>
      if !w.frozen || w.delta.isSome then s else
      let b := w.target.val
      let os := freezeOffsets s k.val w
      let (d, s) := captureDelta os s
      let d := deltaModulo s b d
      let time := isTimeRef s b
      s.setDpll k.val fun x =>
        { x with sw := some { w with delta := some d, offsets := os }
                 buildOut := if time || x.pbo then (d * 65536).tdiv 1000000 else x.buildOut })

/-- DPLL_BANDWIDTH_HALVING (R134): LOCK_S within LOCK_NS, counted in impressions, have passed; the bandwidth halves towards
BW_DMHZ, and the DPLL is LOCKED when it is reached. -/
def execDpllBandwidthHalving (k : DpllId) (s : State) : Host.Outcome State Fault Refusal :=
  let x := s.dpllOf k.val
  .next (if x.st == .acquiring && decide (8000 * x.lockS ≤ x.inLock) then
    let bw := max x.bw (x.curBw / 2)
    let s := s.setDpll k.val fun x => { x with curBw := bw, inLock := 0 }
    if bw = x.bw then moveDpll k.val .locked s else s
  else s)

/-- PHASE_STEP_MOVEMENT_END (R150): time runs on to the moment at which the movement has ended. -/
def execPhaseStepMovementEnd (k : DpllId) (s : State) : Host.Outcome State Fault Refusal :=
  let s' := if s.clocked then runOn (fun n => (s.dpllOf k.val).moving - movePart s k.val n == 0) s else s
  .next (if (s'.dpllOf k.val).moving = 0 then s'.setDpll k.val fun x => { x with stepMoving := false } else s')

/-! ### Holdover events -/

/-- HOLDOVER_RECOMPUTE (R34, R143–R145, R406): a cycle of the averager writes the entries that wait for it and computes each
precomputed value again; a cycle that is late leaves the newest entry to the next. -/
def execHoldoverRecompute (s : State) : Host.Outcome State Fault Refusal :=
  .next (if !(s.clocked && s.blockRuns 7 && s.fwRuns && s.ehu.holdDue) then s else
    let late := s.ehu.holdLate
    let s := forAll 8 s fun k t =>
      let t := writeEntries k (bit late) t
      let v := holdoverValue t k t.tcr.seq.second
      t.setHold k fun h => { h with value := v }
    { s with ehu := { s.ehu with holdDue := late, holdLate := false } })

/-- HOLDOVER_UPDATE (R114, R146): the holdover model at the present time since the loss; the growth of the domains
follows. -/
def execHoldoverUpdate (k : DpllId) (s : State) : Host.Outcome State Fault Refusal :=
  let x := s.dpllOf k.val
  .next (match x.st, (s.holdOf k.val).used with
    | .holdover, some v =>
      if !s.fwRuns then s else
      let t := lostFor s x
      let f := holdFreq s k.val v t
      let s := s.setDpll k.val fun x => { x with control := f, inUse := some f }
      onDomains k.val (fun d => { d with ledger := { d.ledger with growthFs := holdGrowth s k.val v t } }) s
    | _, _ => s)

/-- The signed decimal value of a steering code (R151). -/
def decimal (n : Int) : List Byte := (toString n).toList.map fun c => BitVec.ofNat 8 c.toNat

/-- TEMPLATE up to its first zero byte with each 0x7E replaced (R151). -/
def serialCommand (template : List Byte) (n : Int) : List Byte :=
  (template.takeWhile fun b => b != 0).flatMap fun b => if b = 0x7E then decimal n else [b]

/-- UPDATE_IMP impressions have passed since the last update (R151). -/
def steerDue (s : State) : Bool :=
  match s.ehu.steer.sentAt with
  | none => true
  | some n => decide (n + s.ehu.steer.updateImp ≤ s.cpx.impressions)

/-- OSC_STEER_UPDATE (R152). -/
def execOscSteerUpdate (s : State) : Host.Outcome State Fault Refusal :=
  let t := s.ehu.steer
  .next (match t.dpll with
    | none => s
    | some k =>
      let g := steerGain s
      if g = 0 ∨ !s.fwRuns ∨ !steerDue s then s else
      let c := (s.dpllOf k.val).control
      let last : Int := (t.lastCode.getD t.centre : Nat)
      let want : Int := t.centre + round ((c : ℚ) / g)
      let near := max (last - t.maxStep) (min (last + t.maxStep) want)
      let code := (max 0 (min (2 ^ t.dacBits - 1) near)).toNat
      let applied := ((code : Int) - t.centre) * g
      let changed := t.lastCode != some code
      let bytes := if t.serial then serialCommand t.template ((code : Int) - t.centre) else []
      { s with ehu := { s.ehu with
        steer := { t with lastCode := some code, applied := applied, residue := c - applied, sentAt := some s.cpx.impressions, sent := t.sent ++ [(code, bytes)] }
        hold := s.ehu.hold.map fun h => { h with secSteered := h.secSteered || changed } } })

end Sys2Proof.Machine
end

