-- ==== Sys2Proof/Machine/Synthesis.lean ====
section
/-! DEFINITION. Meanings of the APLL and OUT jobs and of the synthesis events (R178–R199). -/

namespace Sys2Proof.Machine

/-- The nominal of an APLL: the target of a ramp in progress, else its VCO frequency. -/
def nominal (a : Apll) : Nat := a.rampTo.getD a.vco

/-- The APLL is in a retune (R181, R197). -/
def inRetune (a : Apll) : Bool := a.rampTo.isSome || a.large.isSome

/-- An output on an APLL satisfies a predicate. -/
def anyOut (s : State) (n : Nat) (p : Output → Bool) : Bool :=
  (List.range 24).any fun o => (s.outOf o).apll.val == n && p (s.outOf o)

/-- The APLL holds back the start of its outputs (R187). -/
def holdsStart (s : State) (n : Nat) : Bool := apllHolds (s.apllOf n) || anyOut s n fun x => x.held

/-- VCO_FREQ (R181). -/
def vcoField : Field := fRange 8 8 629145600000000 734003200000000

/-- Words of N and F, with the residual (R181). -/
def wordReply (vco : Nat) : Reply :=
  let w := feedbackWord vco
  { r0 := word (w / 2 ^ 48), r1 := word (w % 2 ^ 32), r2 := word (w % 2 ^ 48 / 2 ^ 32), r3 := wordI (residualNhz vco) }

/-- The control value of a source, units of 0.001 ppt; none runs on the master oscillator (R179). -/
def sourceY (s : State) (k : Option (Fin 8)) : Int :=
  match k with
  | none => 0
  | some k => ncoOffset s k.val

/-- APLL_CONFIG (R181). -/
def apllConfigDef : JobDef :=
  { code := 0x1401
    fields := [fRange 4 1 0 3, fOpt 5 7, fRange 6 2 50 800, vcoField, fRange 16 4 1 10000]
    check := fun s _ p =>
      let a := s.apllOf (p.u 4 1)
      if inRetune a || (p.u 8 8 != a.vco && anyOut s (p.u 4 1) fun x => x.st == .running) then some rejState else none
    run := fun s _ p =>
      let n := p.u 4 1
      let running := anyOut s n fun x => x.st == .running
      reply (wordReply (p.u 8 8)) (s.setApll n fun a =>
        { a with source := p.opt 5 8, loopBw := p.u 6 2, ramp := p.u 16 4
                 yRest := if running then a.yRest + sourceY s a.source - sourceY s (p.opt 5 8) else 0
                 loop := if p.u 8 8 = a.vco then a.loop else .relockNominal
                 vco := p.u 8 8 }) }

/-- An output with a configuration of OUT_CONFIG (R188). -/
def Output.take (x : Output) (c : OutCfg) : Output :=
  { x with apll := c.apll, format := c.format, divider := c.divider, coarse := c.coarse, fine := c.fine, align := c.align
           swingMv := c.swingMv, drive := c.drive, slow := c.slow, alignSlew := c.alignSlew }

/-- An output with the configuration that it will have at its restart (R197). -/
def Output.settled (x : Output) : Output :=
  match x.deferred with
  | none => x
  | some c => { x.take c with deferred := none }

/-- APLL_RETUNE takes the large path (R193, R196). -/
def takesLarge (s : State) (p : Params) : Bool :=
  let a := s.apllOf (p.u 4 1)
  let v := p.u 8 8
  p.u 5 1 == 1 || (anyOut s (p.u 4 1) fun x => x.staged.isSome) || a.timedOut ||
  decide (200 * a.anchor < ((v : Int) - a.anchor).natAbs * 1000000)

/-- APLL_RETUNE (R193–R195). -/
def apllRetuneDef : JobDef :=
  { code := 0x1402
    fields := [fRange 4 1 0 3, fRange 5 1 0 1, vcoField, fRange 16 4 1 10000]
    rules := fun s p =>
      let n := p.u 4 1
      let bad := (List.range 24).any fun o =>
        let x := s.outOf o
        let y := x.settled
        let d := x.staged.getD y.divider
        y.apll.val == n && (!limitsOk o (p.u 8 8) d x.ceiling ||
          (y.align && (!disciplines s (s.apllOf n).source || (takesLarge s p && !wholeHz (p.u 8 8) d))))
      if bad then [8] else []
    check := fun s _ p =>
      let n := p.u 4 1
      if inRetune (s.apllOf n) ||
        (!takesLarge s p && (List.range 24).any fun o =>
          let y := (s.outOf o).settled
          y.apll.val == n && y.align && !wholeHz (p.u 8 8) y.divider)
      then some rejState else none
    run := fun s _ p =>
      let n := p.u 4 1
      if takesLarge s p then
        let s := (holdApll n s).setApll n fun a =>
          { a with vco := p.u 8 8, ramp := p.u 16 4, loop := .relockNominal, restartDue := true, timedOut := false
                   large := some { vco := a.vco, ramp := a.ramp, commit := s.tcr.cycles } }
        let s := s.mapOuts fun _ x =>
          if x.apll.val = n then
            { x with divider := x.staged.getD x.divider, staged := none
                     oldDivider := if x.staged.isSome then some x.divider else none }
          else x
        (pcuCount 0x1502 n 1 s, .hold (.retune (p.fin 4 4)))
      else
        (s.setApll n fun a => { a with rampTo := some (p.u 8 8), rampFrom := some (a.vco, a.ramp), ramp := p.u 16 4 },
          .hold (.retune (p.fin 4 4))) }

/-! ### Output jobs -/

/-- The configuration that an OUT_CONFIG describes. -/
def outCfgOf (p : Params) : OutCfg :=
  { apll := p.fin 6 4, format := p.fin 7 3, divider := p.u 8 8, coarse := p.u 16 2, fine := p.u 18 1
    align := p.u 19 1 == 1, swingMv := p.u 20 2, drive := p.fin 22 4, slow := p.u 23 1 == 1, alignSlew := p.u 24 4 }

/-- The output that an OUT_CONFIG describes. -/
def configured (p : Params) (x : Output) : Output := x.take (outCfgOf p)

/-- The output runs and is not held. -/
def outRuns (x : Output) : Bool := x.st == .running && !x.held

/-- How far a change of COARSE_HC and FINE moves the phase, units of 0.5 ps, rounded to the nearest (R184, R188). -/
def delayMove (s : State) (old new : Output) : Int :=
  let half : ℚ := 10 ^ 12 / ((s.apllOf old.apll.val).vco / 65536)
  round (((new.coarse : ℚ) - old.coarse) * half) + ((new.fine : Int) - old.fine)

/-- Jobs that wait for outputs (R187): the outputs of a mask have reached their states, or a later job has cancelled their
start, which then is no change of state of the job that waits. -/
def outputsSettle (m : BitVec 24) (reached : Bool) (s : State) : State :=
  let s := { s with mbx := { s.mbx with flights := s.mbx.flights.map fun (f : Flight) =>
    match f.hold with
    | .outputs w c => ({ f with hold := .outputs (w &&& ~~~m) (if reached then c else c &&& ~~~(w &&& m)) } : Flight)
    | _ => f } }
  completeHeld (fun h => match h with
    | .outputs w _ => w == 0
    | _ => false) (fun f => match f.hold with
    | .outputs _ c => { r0 := c.setWidth 32 }
    | _ => {}) s

/-- The outputs of a mask have reached RUNNING (R187). -/
def outputsReached (m : BitVec 24) (s : State) : State := outputsSettle m true s

/-- An output whose start waited for an APLL that it has left starts, unless its new one holds starts as well. -/
def startFreed (o : Nat) (s : State) : State :=
  let x := s.outOf o
  if x.startDue && !holdsStart s x.apll.val then
    outputsReached (BitVec.ofNat 24 (2 ^ o)) (s.setOut o fun x => startedOut s o x)
  else s

/-- OUT_CONFIG (R182, R188, R197). -/
def outConfigDef : JobDef :=
  { code := 0x1501
    fields := [fRange 4 1 0 23, fRange 5 1 0 1, fRange 6 1 0 3, fRange 7 1 0 2, fRange 8 8 6 (2 ^ 34 - 1), fAny 16 2,
               fRange 18 1 0 200, fRange 19 1 0 1,
               { off := 20, len := 2, ok := fun v => decide (200 ≤ v) && decide (v ≤ 900) && v % 50 == 0 },
               fRange 22 1 0 3, fRange 23 1 0 1, fRange 24 4 1 10000]
    rules := fun s p =>
      let o := p.u 4 1
      let x := s.outOf o
      let a := s.apllOf (p.u 6 1)
      (if 16 ≤ o ∧ p.u 7 1 ≠ 0 then [4] else []) ++
      (if p.u 5 1 = 1 then
        (if { configured p x.settled with divider := x.settled.divider } = x.settled then [] else [5])
      else
        (if limitsOk o (nominal a) (p.u 8 8) x.ceiling then [] else [4]) ++
        (if p.u 19 1 = 1 ∧ !alignOk s a.source (nominal a) (p.u 8 8) then [6] else []))
    check := fun s _ p =>
      let x := s.outOf (p.u 4 1)
      let y := configured p x
      if p.u 5 1 == 0 && outRuns x && (y.apll != x.apll || y.format != x.format || y.divider != x.divider)
      then some rejState else none
    run := fun s _ p =>
      let o := p.u 4 1
      if p.u 5 1 = 1 then done (s.setOut o fun x => { x with staged := some (p.u 8 8) })
      else
        let x := s.outOf o
        let y := configured p x
        done (if outRuns x then
            s.setOut o fun x =>
              { y with aligning := if y.align then x.aligning else 0, delayLeft := x.delayLeft + delayMove s x y }
          else if x.held then s.setOut o fun x => { x with deferred := some (outCfgOf p) }
          else startFreed o (s.setOut o fun _ => y)) }

/-- OUT_ENABLE (R186, R187). -/
def outEnableDef : JobDef :=
  { code := 0x1502
    fields := [fRange 4 3 1 0xFFFFFF, fRange 7 1 0 2]
    run := fun s _ p =>
      let m := p.u 4 3
      let target : OutState := match p.u 7 1 with
        | 0 => .highz
        | 1 => .low
        | _ => .running
      let changes := fun o => m.testBit o && (s.outOf o).st != target && !((s.outOf o).startDue && target == .running)
      let waits := fun o => m.testBit o && target == .running && (s.outOf o).st != .running && holdsStart s (s.outOf o).apll.val
      let changed := BitVec.ofNat 24 (maskOf 24 changes)
      let waiting := BitVec.ofNat 24 (maskOf 24 waits)
      let s := forAll 24 s fun o t =>
        if !m.testBit o then t
        else if waits o then t.setOut o fun x => { x with startDue := true }
        else t.setOut o fun x =>
          if target != .running then (stoppedOut t o target x).settled
          else if x.st == .running then x
          else startedOut t o x
      let s := if target == .running then s else outputsSettle (BitVec.ofNat 24 m) false s
      if waiting = 0 then reply { r0 := changed.setWidth 32 } s else (s, .hold (.outputs waiting changed)) }

/-- The frequency of an output at its nominal, Hz. -/
def outFreq (s : State) (o : Nat) : ℚ := outHz (nominal (s.apllOf (s.outOf o).apll.val)) (s.outOf o).divider

/-- The largest substep of at most `m` units of 0.5 ps that keeps the cycle rule of R189. -/
def cycleLimit (s : State) (o m : Nat) : Nat :=
  let room : ℚ := (1 / outFreq s o - 1 / (s.outOf o).ceiling) * (2 * 10 ^ 12)
  min m room.floor.toNat

/-- OUT_PHASE_STEP (R189, R197). -/
def outPhaseStepDef : JobDef :=
  { code := 0x1503
    fields := [fRange 4 1 0 23, fRange 5 1 1 100, fSigned 8 4 (-2000000000) 2000000000, fRange 12 4 1 (2 ^ 24)]
    rules := fun s p => if cycleLimit s (p.u 4 1) (p.u 5 1) < p.u 5 1 then [5] else []
    check := fun s _ p => if (s.outOf (p.u 4 1)).align then some rejState else none
    run := fun s _ p =>
      let o := p.u 4 1
      let x := s.outOf o
      if outRuns x then
        let substeps := ceilDiv (p.i 8 4).natAbs (p.u 5 1)
        let dur : ℚ := (substeps * p.u 12 4 : Nat) / outFreq s o * 8000
        reply { r0 := word (min (2 ^ 32 - 1) (ceilNat dur)), r1 := wordI x.left }
          (s.setOut o fun x =>
            { x with left := p.i 8 4, stepMax := p.u 5 1, spacing := p.u 12 4, paced := (0, (s.apllOf x.apll.val).turns) })
      else done (s.setOut o fun x => { x with steps := x.steps + p.i 8 4 }) }

/-- OUT_SET_CEILING (R190). -/
def outSetCeilingDef : JobDef :=
  { code := 0x1504
    fields := [fRange 4 1 0 23, fRange 8 4 1 1700000000]
    rules := fun s p =>
      let o := p.u 4 1
      let x := s.outOf o
      let y := x.settled
      let v := nominal (s.apllOf y.apll.val)
      let c := p.u 8 4
      let top := if o < 16 then 1700000000 else 270000000
      let holds := fun d => decide (10003 * v ≤ c * 10000 * d * 65536)
      (if c ≤ top then [] else [4]) ++ (if holds y.divider ∧ holds (x.staged.getD y.divider) then [] else [8])
    run := fun s _ p => done (s.setOut (p.u 4 1) fun x => { x with ceiling := p.u 8 4 }) }

def execApllConfig (j : Job) (s : State) : Host.Outcome State Fault Refusal := .next (directJob apllConfigDef j s)
def execApllRetune (j : Job) (s : State) : Host.Outcome State Fault Refusal := .next (directJob apllRetuneDef j s)
/-- OUT_CONFIG with APPLY 0 (R188). -/
def execOutConfig (j : Job) (s : State) : Host.Outcome State Fault Refusal := .next (directJob outConfigDef (withByte 5 0 j) s)
/-- OUT_CONFIG with APPLY 1 (R188). -/
def execOutConfigStage (j : Job) (s : State) : Host.Outcome State Fault Refusal := .next (directJob outConfigDef (withByte 5 1 j) s)
def execOutEnable (j : Job) (s : State) : Host.Outcome State Fault Refusal := .next (directJob outEnableDef j s)
def execOutPhaseStep (j : Job) (s : State) : Host.Outcome State Fault Refusal := .next (directJob outPhaseStepDef j s)
def execOutSetCeiling (j : Job) (s : State) : Host.Outcome State Fault Refusal := .next (directJob outSetCeilingDef j s)

/-! ### Events -/

/-- APLL_LOCK_LOST (R180, R198): the outputs are held and the APLL relocks; outside a retune source 80 + n rises. -/
def execApllLockLost (n : ApllId) (s : State) : Host.Outcome State Fault Refusal :=
  let a := s.fso.apll[n]
  .next (if !s.blockRuns 9 || a.loop != .locked then s else
    let s := pcuCount 0x1503 n.val 1 ((holdApll n.val s).setApll n.val unlockApll)
    if inRetune a then s else faultEvent (80 + n.val) {} s)

/-- APLL_LOCK (R179, R195, R198): lock is declared; a new nominal becomes the anchor. -/
def execApllLock (n : ApllId) (s : State) : Host.Outcome State Fault Refusal :=
  .next (if !s.blockRuns 9 || !s.clockOk || s.fso.apll[n].loop == .locked then s else s.setApll n.val fun a =>
    { a with anchor := if a.loop == .relockNominal then a.vco else a.anchor
             loop := .locked, lockedAt := s.tcr.cycles, timedOut := false
             large := a.large.map fun g => { g with relock := g.relock.or (some ((s.tcr.cycles - g.commit) / 1000)) } })

/-- The restart of an output (R195 step 4, R197): a configuration that waited applies, an unfinished step is complete. One that
now belongs to an APLL that holds its outputs waits for that one. -/
def restartedOut (s : State) (o : Nat) (x : Output) : Output :=
  let y := { x.settled with steps := x.steps + x.left, left := 0 }
  if y.apll != x.apll && holdsStart s y.apll.val then { y with held := x.held } else startedOut s o y

/-- OUTPUT_RESTART (R195 step 4, R198): the dividers of a locked APLL restart on one VCO edge and its held outputs at their
target phase; after a loss of lock once lock has held for 1 ms. Starts that wait for the APLL come with it. -/
def execOutputRestart (n : ApllId) (s : State) : Host.Outcome State Fault Refusal :=
  let a := s.fso.apll[n]
  .next (if !s.blockRuns 9 || !s.clockOk || a.loop != .locked ||
      (a.afterLoss && decide (s.tcr.cycles < a.lockedAt + 1000000)) then s else
    let mine := fun o => (s.outOf o).apll == n
    let restarts := BitVec.ofNat 24 (maskOf 24 fun o => mine o && (s.outOf o).held)
    let starts := BitVec.ofNat 24 (maskOf 24 fun o => mine o && (s.outOf o).startDue)
    let s := s.setApll n.val fun a =>
      { a with turns := if a.restartDue then 0 else a.turns, restartDue := false, afterLoss := false
               yRest := if a.restartDue then 0 else a.yRest
               large := a.large.map fun g => { g with restarted := some (g.restarted.getD 0 ||| restarts) } }
    outputsReached starts (s.mapOuts fun o x =>
      if x.apll = n then (if x.held || x.startDue then restartedOut s o x else x) else x))

/-- The reply of a large-path retune (R193). -/
def retuneReply (status : Nat) (a : Apll) (g : LargeRetune) : Reply :=
  { status := status, r0 := 1, r1 := word (g.relock.getD 0), r2 := (g.restarted.getD 0).setWidth 32
    r3 := wordI (residualNhz a.vco) }

/-- APLL_RETUNE_TIMEOUT (R196): the retune has not locked within 10 ms of its commit; its job completes TIMEOUT, frequency and
dividers stay. -/
def execApllRetuneTimeout (n : ApllId) (s : State) : Host.Outcome State Fault Refusal :=
  let a := s.fso.apll[n]
  .next (match a.large with
    | some g =>
      if g.relock.isSome || decide (s.tcr.cycles < g.commit + 10 ^ 7) then s else
      let s := (s.setApll n.val fun a => { a with large := none, timedOut := true }).mapOuts fun _ x =>
        if x.apll = n then { x with oldDivider := none } else x
      completeHeld (fun h => h == .retune n) (fun _ => retuneReply 0x22 a g) s
    | none => s)

/-- APLL_RAMP_END (R181, R194): a small-path ramp or a source ramp reaches its target, within what it moves in one
impression. -/
def execApllRampEnd (n : ApllId) (s : State) : Host.Outcome State Fault Refusal :=
  let a := s.fso.apll[n]
  let settles := fun (a : Apll) => { a with yRest := if a.yRest.natAbs ≤ sourceStep a 125000 then 0 else a.yRest }
  .next (if !s.blockRuns 9 then s else
    match a.rampTo with
    | some v =>
      if rampStep a 125000 < ((v : Int) - a.vco).natAbs then s else
      let s := s.setApll n.val fun a => settles { a with vco := v, rampTo := none, rampFrom := none }
      completeHeld (fun h => h == .retune n) (fun _ => { r3 := wordI (residualNhz v) }) s
    | none => s.setApll n.val settles)

/-- The stepper may make its next substep (R189): one every SPACING output cycles. The VCO's turns are those of the latest
boundary, so one impression is added to them. -/
def paceOk (s : State) (x : Output) : Bool :=
  let a := s.apllOf x.apll.val
  decide (x.paced.1 * x.divider * vcoTurn + x.paced.2 ≤ a.turns + vcoAdvance s a 125000)

/-- What ALIGN_SLEW_PPB allows the aligner since it last moved the output, units of 0.5 ps. -/
def alignRoom (s : State) (x : Output) : Nat := (s.tcr.cycles - x.alignAt) * x.alignSlew * 2 / 10 ^ 6

/-- A substep of `m` units of 0.5 ps changes one cycle; the gate swallows the pulse of a cycle that is too short (R185). -/
def gateStep (s : State) (o : Nat) (x : Output) (m : Int) (t : State) : State :=
  let cycle := outPeriod s x + (m : ℚ) / 2
  let t := pcuCount 0x1501 o 1 t
  if gateRises x.ceiling cycle (cycle - outPeriod s x / 2) then t else pcuCount 0x1500 o 1 t

/-- OUTPUT_PHASE_SUBSTEP (R185, R188, R189, R191, R192): the stepper changes one cycle by at most STEP_MAX, or 50 ps for a move
of the delay or a correction; a substep that advances the phase keeps the cycle rule. Corrections stop in a retune. -/
def execOutputPhaseSubstep (o : OutId) (s : State) : Host.Outcome State Fault Refusal :=
  let x := s.fso.out[o]
  let keeps := fun (want : Int) (top : Nat) => clampSym (if want < 0 then cycleLimit s o.val top else top) want
  .next (if !s.blockRuns 9 || !outRuns x then s
    else if x.left ≠ 0 then
      if !paceOk s x then s else
      let m := keeps x.left x.stepMax
      gateStep s o.val x m (s.setOut o.val fun x =>
        { x with left := x.left - m, steps := x.steps + m, paced := (x.paced.1 + x.spacing, x.paced.2) })
    else if x.delayLeft ≠ 0 then
      let m := keeps x.delayLeft 100
      gateStep s o.val x m (s.setOut o.val fun x => { x with delayLeft := x.delayLeft - m })
    else if x.aligning = 0 || inRetune (s.apllOf x.apll.val) || alignRoom s x = 0 then s
    else
      let m := keeps x.aligning (min 100 (alignRoom s x))
      gateStep s o.val x m (s.setOut o.val fun x =>
        { x with aligning := x.aligning - m, trim := x.trim + m
                 alignAt := x.alignAt + ceilDiv (m.natAbs * 10 ^ 6) (2 * x.alignSlew) }))

/-- OUTPUT_ALIGN_MEASURE (R191, R192): once per second the aligner measures the phase of an aligned output against the counter
of its domain; a misalignment above 2 ps is corrected by the shorter direction. The measurement errs by what is given, within
the ±150 ps of R200. DESIGN CHOICE, log entry 118. -/
def execOutputAlignMeasure (o : OutId) (errPs : Int) (s : State) : Host.Outcome State Fault Refusal :=
  let x := s.fso.out[o]
  .next (if !s.blockRuns 9 || !s.clockOk || !x.align || !outRuns x || inRetune (s.apllOf x.apll.val) then s else
    let mis := misalignment s o.val x + (max (-150) (min 150 errPs) : Int)
    s.setOut o.val fun x =>
      { x with aligning := if |mis| ≤ 2 then 0 else round (-(2 * mis))
               alignAt := if x.aligning = 0 then s.tcr.cycles else x.alignAt })

end Sys2Proof.Machine
end

