-- ==== Sys2Proof/Machine/Pulses.lean ====
section
/-! DEFINITION. Meanings of the PPS, IRIG, TOD and EVT jobs and of the pulse and event events (R201–R222). -/

namespace Sys2Proof.Machine

/-! ### Jobs -/

/-- STATE of a generator (R201). -/
def genState (v : Nat) : GenState := if v = 0 then .highz else if v = 1 then .idle else .running

/-- PPS_CONFIG (R206, R208). -/
def ppsConfigDef : JobDef :=
  { code := 0x1601
    fields := [fRange 4 1 0 3, fRange 5 1 0 4, fRange 6 1 0 2, fRange 7 1 0 2, fRange 8 4 1 3600, fRange 12 4 0 3599,
               fRange 16 4 100 900000000, fSigned 20 4 (-500000000) 500000000, fRange 24 1 0 1]
    rules := fun _ p => if p.u 8 4 ≤ p.u 12 4 then [8] else []
    run := fun s _ p =>
      done (s.setPps (p.u 4 1) fun x =>
        { x with view := p.fin 5 5, st := genState (p.u 6 1), gate := p.fin 7 3, period := p.u 8 4, phase := p.u 12 4
                 widthNs := p.u 16 4, delayPs := p.i 20 4, inverted := p.u 24 1 == 1
                 startFrom := if x.st == .running then x.startFrom else s.tcr.cycles + 1000000 }) }

/-- The expression has control functions (R213). -/
def exprCf (e : Nat) : Bool := e % 4 == 0 || e % 4 == 1
/-- The expression has straight binary seconds (R213). -/
def exprSbs (e : Nat) : Bool := e % 4 == 0 || e % 4 == 3

/-- IRIG_CONFIG (R213). -/
def irigConfigDef : JobDef :=
  { code := 0x1602
    fields := [fRange 4 1 0 1, fRange 5 1 0 4, fRange 6 1 0 2, fRange 7 1 0 2, fRange 8 1 0 1, fRange 9 1 0 7, fRange 10 1 0 1,
               fRange 11 1 0 3,
               { off := 12, len := 2, ok := fun v => decide ((signed 16 v).natAbs ≤ 930) && (signed 16 v).natAbs % 30 == 0 },
               fSigned 14 4 (-500000000) 500000000]
    rules := fun _ p => if p.u 10 1 = 1 ∧ !exprCf (p.u 9 1) then [9] else []
    run := fun s _ p =>
      done (s.setIrig (p.u 4 1) fun x =>
        { x with view := p.fin 5 5, st := genState (p.u 6 1), gate := p.fin 7 3, manchester := p.u 8 1 == 1
                 expression := p.fin 9 8, extension := p.u 10 1 == 1, dst := BitVec.ofNat 2 (p.u 11 1)
                 localOffset := p.i 12 2, delayPs := p.i 14 4 }) }

/-- TOD_CONFIG (R216). -/
def todConfigDef : JobDef :=
  { code := 0x1603
    fields := [fRange 4 1 0 1, fRange 5 1 0 4, fRange 6 1 0 2, fRange 7 1 0 2, fRange 8 4 9600 921600, fRange 12 2 1 900]
    run := fun s _ p =>
      done (s.setTod (p.u 4 1) fun x =>
        { x with view := p.fin 5 5, st := genState (p.u 6 1), gate := p.fin 7 3, baud := p.u 8 4, startDelayMs := p.u 12 2
                 due := if p.u 6 1 = 2 then x.due else [] }) }

/-- Records that the event FIFO holds (R37, R218). -/
def fifoCapacity (s : State) : Nat := (poolSizes s.cpx.imposition).getD 3 0 * 32

/-- EVT_CONFIG (R220). -/
def evtConfigDef : JobDef :=
  { code := 0x1604
    fields := [fOpt 4 15, fRange 5 1 0 4, fRange 6 1 0 1, fRange 7 1 0 2, fRange 8 4 0 1000000, fAny 12 4]
    rules := fun s p =>
      if p.u 4 1 = 0xFF then
        (if p.u 5 7 = 0 then [] else [4]) ++ (if 1 ≤ p.u 12 4 ∧ p.u 12 4 ≤ fifoCapacity s then [] else [12])
      else if 1 ≤ p.u 12 4 ∧ p.u 12 4 ≤ fifoCapacity s then [] else [12]
    run := fun s _ p =>
      if p.u 4 1 = 0xFF then done { s with peu := { s.peu with threshold := p.u 12 4 } }
      else
        let s := { s with peu := { s.peu with threshold := p.u 12 4 } }
        done (s.setEvt (p.u 4 1) fun x =>
          { x with view := p.fin 5 5, enable := p.u 6 1 == 1, edge := p.fin 7 3, filterNs := p.u 8 4 }) }

/-- EVT_DRAIN (R221, R306). -/
def evtDrainDef : JobDef :=
  { code := 0x1605
    dma := some { required := true, lenOk := fun n => n == 8, covered := 8 }
    fields := [fRange 0 4 1 131072, fMask 4 1 1]
    rules := fun s p => if s.srt.straps.spi ∧ 2048 < p.u 0 4 then [0] else []
    minResult := fun p => 32 * p.u 0 4
    nsForbids := fun s _ => poolSecure s 3
    run := fun s _ p =>
      let out := s.peu.fifo.take (p.u 0 4)
      let rest := s.peu.fifo.drop (p.u 0 4)
      let r : Reply :=
        { r0 := word out.length, r1 := word rest.length, r2 := word (min (2 ^ 32 - 1) s.peu.drops)
          r3 := word (bit s.peu.overflow + s.peu.blindSeen.toNat * 65536)
          out := out.flatMap fun e => leBytes 32 e.toNat }
      let u := { s.peu with fifo := rest }
      reply r { s with peu := if p.bit 4 0 then { u with drops := 0, overflow := false, blindSeen := 0 } else u } }

def execPpsConfig (j : Job) (s : State) : Host.Outcome State Fault Refusal := .next (directJob ppsConfigDef j s)
def execIrigConfig (j : Job) (s : State) : Host.Outcome State Fault Refusal := .next (directJob irigConfigDef j s)
def execTodConfig (j : Job) (s : State) : Host.Outcome State Fault Refusal := .next (directJob todConfigDef j s)
def execEvtConfig (j : Job) (s : State) : Host.Outcome State Fault Refusal := .next (directJob evtConfigDef j s)
/-- EVT_CONFIG with EVT 0xFF (R220). -/
def execEvtConfigThreshold (j : Job) (s : State) : Host.Outcome State Fault Refusal :=
  .next (directJob evtConfigDef (withByte 4 0xFF j) s)
def execEvtDrain (j : Job) (s : State) : Host.Outcome State Fault Refusal := .next (directJob evtDrainDef j s)

/-! ### Crossings -/

/-- GATE admits an emission (R202). -/
def gateOpen (s : State) (v : Nat) (gate : Fin 3) : Bool :=
  gate == 0 || (viewValid s v && (gate == 1 || decide (viewBound s v ≤ (s.domain (viewDomain s v)).limitPs)))

/-- Half a second on the CD-TIME scale, ps. -/
def halfSecondPs : Int := 500000000000

/-- The moment at which a view passed the whole second that it stands at, on the CD-TIME scale, ps (R203). -/
def crossingPs (s : State) (v : Nat) : Int :=
  nowPs s - (viewCount s v % secU * 1000 / baseInc s (viewDomain s v) : Nat)

/-- PPS_PULSE (R204, R207): the pulse of a crossing, or its omission. -/
def ppsCross (n v sec : Nat) (s : State) : State :=
  let x := vget s.peu.pps n {}
  if !(x.st == .running && x.view.val == v && sec % x.period == x.phase && decide (x.startFrom ≤ s.tcr.cycles) &&
       gateOpen s v x.gate) then s else
  let edge := crossingPs s v + x.delayPs - calValue s (0x2100 + n)
  if x.last.any fun l => decide (edge - l < halfSecondPs) then pcuCount 0x1603 n 1 s
  else s.setPps n fun x =>
    { x with last := some edge, lastEnd := some (edge + x.widthNs * 1000), lastInverted := x.inverted }

/-- Days since 1970-01-01 as year and day of year (R211). -/
def yearDay (days : Nat) : Nat × Nat :=
  let z := days + 719468
  let era := z / 146097
  let doe := z % 146097
  let yoe := (doe - doe / 1460 + doe / 36524 - doe / 146096) / 365
  let y := yoe + era * 400
  let doy := doe - (365 * yoe + yoe / 4 - yoe / 100)
  if 306 ≤ doy then (y + 1, doy - 305)
  else (y, doy + 60 + (if y % 4 = 0 ∧ (y % 100 ≠ 0 ∨ y % 400 = 0) then 1 else 0))

/-- A field of an IRIG frame: its first position, its length and its value, least significant bit first. -/
def irigField (first len v : Nat) : Nat := v % 2 ^ len * 2 ^ first

/-- A leap is pending in the frame of a TAI second (R212 LSP). -/
def irigLsp (x : Domain) (sec : Nat) : Bool :=
  match x.leap with
  | .none => false
  | .insert => decide (x.leapSecond ≤ sec + 61) && decide (sec + 2 ≤ x.leapSecond)
  | .delete => decide (x.leapSecond ≤ sec + 60) && decide (sec + 1 ≤ x.leapSecond)

/-- The elements of the frame that labels a TAI second of a view (R210–R212). -/
def irigFrame (s : State) (x : Irig) (sec : Nat) : BitVec 100 :=
  let v := x.view.val
  let d := s.domain (viewDomain s v)
  let inserted := d.insertedAt sec
  let t := (utcSeconds s v sec + x.localOffset * 60).toNat
  let day := t % 86400
  let yd := yearDay (t / 86400)
  let ss := day % 60 + bit inserted
  let mm := day / 60 % 60
  let hh := day / 3600
  let yy := yd.1 % 100
  let e := x.expression.val
  let toy := irigField 1 4 (ss % 10) + irigField 6 3 (ss / 10) + irigField 10 4 (mm % 10) + irigField 15 3 (mm / 10) +
    irigField 20 4 (hh % 10) + irigField 25 2 (hh / 10) + irigField 30 4 (yd.2 % 10) + irigField 35 4 (yd.2 / 10 % 10) +
    irigField 40 2 (yd.2 / 100)
  let year := if 4 ≤ e then irigField 50 4 (yy % 10) + irigField 55 4 (yy / 10) else 0
  let off := x.localOffset.natAbs
  let lsp := irigLsp d sec
  let ext := exprCf e && x.extension
  let cf := if ext then
      irigField 60 1 (bit lsp) + irigField 61 1 (bit (lsp && d.leap == .delete)) + irigField 62 1 (x.dst.toNat / 2) +
      irigField 63 1 x.dst.toNat + irigField 64 1 (bit (decide (0 < x.localOffset))) + irigField 65 4 (off / 60) +
      irigField 70 1 (off % 60 / 30) + irigField 71 4 (irigQuality s v)
    else 0
  let parity := if ext then irigField 75 1 (popCount 75 (toy + year + cf)) else 0
  let cont := if ext then irigField 76 3 (irigContinuous (viewBound s v)) else 0
  let sbs := day + bit inserted
  let bin := if exprSbs e then irigField 80 9 sbs + irigField 90 8 (sbs / 512) else 0
  BitVec.ofNat 100 (toy + year + cf + parity + cont + bin)

/-- IRIG_FRAME (R204, R210, R213): the frame of a crossing. -/
def irigCross (n v sec : Nat) (s : State) : State :=
  let x := vget s.peu.irig n {}
  let start := crossingPs s v + x.delayPs - calValue s (0x2200 + n)
  let early := x.last.any fun l => decide (start - l < halfSecondPs)
  if x.view.val == v && x.st == .running && gateOpen s v x.gate && !early then
    s.setIrig n fun x => { x with frame := some (irigFrame s x sec), frameManchester := x.manchester, last := some start }
  else s

/-- A crossing that a time-of-day output labels (R204, R214). -/
def todCross (n v sec : Nat) (s : State) : State :=
  let x := vget s.peu.tod n {}
  let early := x.last.any fun l => decide (s.tcr.cycles < l + 500000000)
  if x.view.val == v && x.st == .running && gateOpen s v x.gate && !early then
    s.setTod n fun x => { x with due := x.due ++ [(sec, s.tcr.cycles)], last := some s.tcr.cycles }
  else s

/-- The view passes a whole second in normal counting (R203): it stands at one, and no step of its domain lands there. -/
def crosses (s : State) (v : Nat) : Bool := atSecond s v && (s.domain (viewDomain s v)).pending.isNone

/-- SECOND_CROSSING (R202–R205, R207, R210, R214): time runs on to the whole second of the view if it lies in the
impression in progress, and every generator that follows the view emits as its gate allows. -/
def execSecondCrossing (v : ViewId) (s : State) : Host.Outcome State Fault Refusal :=
  .next (if !s.clocked then s else
    let s := toSecond v.val s
    if !s.blockRuns 10 || !s.clockOk || !crosses s v.val then s else
    let sec := viewSecond s v.val
    let s := forAll 4 s fun n t => ppsCross n v.val sec t
    let s := forAll 2 s fun n t => irigCross n v.val sec t
    forAll 2 s fun n t => todCross n v.val sec t)

/-- CRC-16 with polynomial 0x1021 over bytes (R215). -/
def crc16 (bs : List Byte) : Nat :=
  bs.foldl (fun crc b =>
    (List.range 8).foldl (fun c _ => if 32768 ≤ c then (c * 2 ^^^ 0x1021) % 65536 else c * 2 % 65536)
      (crc ^^^ (b.toNat * 256))) 0xFFFF

/-- The time-of-day message that labels a second (R215). -/
def todMessage (s : State) (x : Tod) (sec : Nat) : List Byte :=
  let v := x.view.val
  let d := s.domain (viewDomain s v)
  let st := recordStatus s v
  let g := (s.domain (recordDomain s v)).ledger
  let f1 := bit (viewValid s v) + 2 * bit (viewHoldover s v) + 4 * bit s.cal.crcOk + 8 * bit s.srt.dip +
    16 * bit (viewSlewing s v) + 32 * (st % 2) + 64 * (st / 32 % 2) + 128 * (st / 64 % 2)
  let f2 := viewLeap s v + 4 * bit (d.insertedAt sec) + 8 * bit d.utcSource.isSome + 16 * v
  let body := beBytes 2 0x4C54 ++ beBytes 1 1 ++ beBytes 1 40 ++ beBytes 6 sec ++ beBytes 2 (toCode 16 (d.utcAt sec)) ++
    beBytes 1 f1 ++ beBytes 1 f2 ++ beBytes 4 (boundNs (viewBound s v)) ++ beBytes 4 (toCode 32 (viewGrowth s v)) ++
    beBytes 2 (chainCode g) ++ beBytes 4 g.sinceConfirm.toNat ++ beBytes 1 (lastRefCode g) ++ beBytes 1 x.seq.toNat ++
    beBytes 6 (if d.leap = .none ∨ d.leapSecond ≤ viewSecond s v then 0 else d.leapSecond) ++ beBytes 2 0
  body ++ beBytes 2 (crc16 body)

/-- The CD-TIME cycle at which the oldest labelled crossing's message may begin (R214): START_DELAY_MS after the crossing, and
not before the message on the line has ended. -/
def todStart (x : Tod) (crossing : Nat) : Nat :=
  max (crossing + x.startDelayMs * 1000000) (match x.line with
    | some m => ((m.start + serialPs (10 * m.bytes.length) m.baud + 999) / 1000).toNat
    | none => 0)

/-- TOD_MESSAGE_SEND (R214, R215): time runs on to the moment at which the oldest labelled crossing's message begins, if it
lies in the impression in progress, and the message is formatted and goes out. -/
def execTodMessageSend (n : Fin 2) (s : State) : Host.Outcome State Fault Refusal :=
  let x := s.peu.tod[n]
  .next (match x.due with
    | [] => s
    | (sec, c) :: rest =>
      if !s.blockRuns 10 || !s.clockOk || x.st != .running then s else
      atCycle (todStart x c) (fun s => s.setTod n.val fun y =>
        { y with due := rest, seq := y.seq + 1
                 line := some { start := nowPs s, baud := y.baud, bytes := todMessage s x sec }
                 sent := y.sent ++ (match y.line with
                   | some m => [m.bytes]
                   | none => []) }) s)

/-! ### Lines -/

/-- Level of a line (R201): high-impedance, low or high. -/
inductive Level where
  | highz
  | low
  | high
  deriving DecidableEq, Repr

/-- A driven level. -/
def driven (b : Bool) : Level := if b then .high else .low

/-- PEU holds its lines (R205, R222): its reset or a clock fault stands. -/
def peuHeld (s : State) : Bool := !s.blockRuns 10 || !s.clockOk

/-- A pulse that the coming crossing starts early by a negative delay (R207): the generator anticipates the crossing. -/
def anticipates (s : State) (n : Nat) : Bool :=
  let x := vget s.peu.pps n {}
  let v := x.view.val
  let sec := viewSecond s v + 1
  let edge := nowPs s + (((sec * secU - viewCount s v) * 1000 / baseInc s (viewDomain s v) : Nat) : Int) + x.delayPs -
    calValue s (0x2100 + n)
  x.st == .running && sec % x.period == x.phase && gateOpen s v x.gate && (s.domain (viewDomain s v)).pending.isNone &&
    decide (edge ≤ nowPs s) && !(x.last.any fun l => decide (edge - l < halfSecondPs))

/-- The line of a PPS output (R201, R205–R208): a pulse in progress ends with its width and polarity whatever the output's
configuration has become. -/
def ppsLine (s : State) (n : Nat) : Level :=
  let x := vget s.peu.pps n {}
  let pulse : Bool := match x.last, x.lastEnd with
    | some a, some b => decide (a ≤ nowPs s) && decide (nowPs s < b)
    | _, _ => false
  if pulse && !peuHeld s then driven (!x.lastInverted)
  else match x.st with
    | .highz => .highz
    | .idle => .low
    | .running => if peuHeld s then .low else driven (anticipates s n != x.inverted)

/-- What an element of an IRIG frame carries (R210, R211): the reference marker and position identifiers at 0, 9, 19, … 99. -/
inductive IrigElement where
  | zero
  | one
  | position
  deriving DecidableEq, Repr

/-- The element at a position. -/
def irigElement (f : BitVec 100) (i : Nat) : IrigElement :=
  if i = 0 ∨ i % 10 = 9 then .position else if f.getLsbD i then .one else .zero

/-- How long an element stays high in its 10 ms slot, in ps (R210). -/
def IrigElement.highPs : IrigElement → Nat
  | .zero => 2000000000
  | .one => 5000000000
  | .position => 8000000000

/-- The signal of a frame some ps after its start: DCLS, or, PRESUMED of IRIG 200, DCLS with a 1 kHz square wave in antiphase on
its high parts (log entry 103). -/
def irigSignal (f : BitVec 100) (manchester : Bool) (ps : Nat) : Bool :=
  let dcls := decide (ps % 10000000000 < (irigElement f (ps / 10000000000)).highPs)
  if manchester then dcls != decide (ps % 1000000000 < 500000000) else dcls

/-- The line of an IRIG output (R201, R205, R210, R213): a frame in progress goes on to its end. -/
def irigLine (s : State) (n : Nat) : Level :=
  let x := vget s.peu.irig n {}
  let at' := match x.frame, x.last with
    | some f, some l => if l ≤ nowPs s ∧ nowPs s < l + 10 ^ 12 then some (f, (nowPs s - l).toNat) else none
    | _, _ => none
  match at', x.st with
  | some (f, ps), _ => if peuHeld s then .low else driven (irigSignal f x.frameManchester ps)
  | none, .highz => .highz
  | none, _ => .low

/-- The bits of a byte on a serial line (R214): start bit, data bits from the least significant on, stop bit. -/
def serialBits (b : Byte) : List Bool := [false] ++ ((List.range 8).map fun i => b.getLsbD i) ++ [true]

/-- The line of a time-of-day output (R201, R205, R214): the mark level between messages. -/
def todLine (s : State) (n : Nat) : Level :=
  let x := vget s.peu.tod n {}
  match x.line with
  | some m =>
    if m.ended (nowPs s) then (if x.st == .highz then .highz else .high)
    else if peuHeld s then .high
    else driven ((m.bytes.flatMap serialBits).getD ((nowPs s - m.start).toNat * m.baud / 10 ^ 12) true)
  | none => if x.st == .highz then .highz else .high

/-! ### Event capture -/

/-- EVENT_DROP (R218). -/
def dropEvent (input : Nat) (s : State) : State :=
  let s := { s with peu := { s.peu with drops := min (2 ^ 32 - 1) (s.peu.drops + 1), overflow := true } }
  raiseIrq 12 (pcuCount 0x1602 input 1 s)

/-- A stamp taken while EXCURSION is set (R373 0x6008). -/
def countExcursion (s : State) : State := if s.srt.dip then pcuCount 0x6008 0xFF 1 s else s

/-- The record of an accepted edge (R219): the time and the bound of its domain at the stamp. -/
def eventRecord (s : State) (i : Nat) (x : EvtInput) (falling : Bool) (stamp levelNs : Nat) : BitVec 256 :=
  let v := x.view.val
  let p := viewAt s v stamp
  let count := ((p.1 : Int) - calValue s (0x2300 + i) * psU).toNat
  let time := timeWord (s.domain p.2.dom) p.2.dom count p.2.flags .event (calibrated s [0x2300 + i])
  BitVec.ofNat 256 (time.toNat + 2 ^ 128 * (i + 16 * bit falling) + 2 ^ 136 * bit x.blind +
    2 ^ 144 * x.seq.toNat + 2 ^ 160 * p.2.bound + 2 ^ 224 * min (2 ^ 32 - 1) levelNs)

/-- EVENT_EDGE (R217–R219): an edge with its stamp (units of 2^-7 ns), the time for which the new level held, and the
duration of the level before it. A pulse shorter than FILTER_NS goes whole: its first edge counts it, and its second edge,
before which its level stood too short, is discarded with it. -/
def execEventEdge (i : Fin 16) (falling : Bool) (stamp heldNs levelNs : Nat) (s : State) :
    Host.Outcome State Fault Refusal :=
  let x := s.peu.evt[i]
  let wanted := x.edge == 2 || (x.edge == 1) == falling
  .next (if !s.blockRuns 10 || !x.enable then s
    else if heldNs < x.filterNs then pcuCount 0x1601 i.val 1 s
    else if levelNs < x.filterNs || !wanted then s
    else
      let s := countExcursion (pcuCount 0x1600 i.val 1 s)
      let s := s.setEvt i.val fun x => { x with seq := x.seq + 1 }
      if 64 ≤ x.queue.length then dropEvent i.val s
      else s.setEvt i.val fun y => { y with queue := y.queue ++ [eventRecord s i.val x falling stamp levelNs], blind := false })

/-- A record enters the event FIFO, or is dropped where it is full (R218). -/
def fifoPut (input : Nat) (e : BitVec 256) (s : State) : State :=
  if fifoCapacity s ≤ s.peu.fifo.length then dropEvent input s
  else
    let s := { s with peu := { s.peu with fifo := s.peu.fifo ++ [e] } }
    if s.peu.fifo.length = s.peu.threshold then raiseIrq 12 s else s

/-- EVENT_QUEUE_DRAIN (R218): the input queues empty into the FIFO. -/
def execEventQueueDrain (s : State) : Host.Outcome State Fault Refusal :=
  .next (if !s.blockRuns 10 then s else
    forAll 16 s fun i t =>
      let q := (vget t.peu.evt i {}).queue
      q.foldl (fun t e => fifoPut i e t) (t.setEvt i fun x => { x with queue := [] }))

end Sys2Proof.Machine
end

