-- ==== Sys2Proof/Machine/Lanes.lean ====
section
/-! DEFINITION. Meanings of the LANE jobs and of the lane events (R225–R242). -/

namespace Sys2Proof.Machine

/-! ### Jobs -/

/-- The lane of a job is absent (R6). -/
def laneAbsent (s : State) (p : Params) : Bool := decide (p.u 4 1 < 24) && !s.lanePresent (p.u 4 1)

/-- LANE_CONFIG (R226). -/
def laneConfigDef : JobDef :=
  { code := 0x2001
    fields := [fRange 4 1 0 23, fRange 5 1 0 2,
               { off := 6, len := 1, ok := fun v => decide (1 ≤ v) && decide (v ≤ 15) && v % 4 != 3 },
               fRange 7 1 0 2, fRange 8 1 0 1, fRange 9 1 0 1, fRange 10 1 0 2, fRange 11 1 0 1, fRange 12 1 0 3, fOpt 13 3,
               { off := 14, len := 1, ok := fun v => v == 0 || (decide (8 ≤ v) && decide (v ≤ 0x77)) },
               fRange 15 1 0 7, fRange 16 2 10 10000, fRange 18 2 10 10000, fRange 20 2 1 1000, fAny 22 2, fRange 24 2 0 10000]
    rules := fun s p =>
      (if p.u 6 1 % 4 ≠ 0 ∧ p.u 11 1 = 1 then [6] else []) ++
      (if (List.range 24).any (fun l => l != p.u 4 1 && s.lanePresent l && (s.laneOf l).txref.val == p.u 10 1 &&
          (s.laneOf l).txref161 != (p.u 11 1 == 1)) then [10] else [])
    absent := laneAbsent
    check := fun s _ p => if (s.laneOf (p.u 4 1)).st == .down then none else some rejState
    run := fun s _ p =>
      done (s.setLane (p.u 4 1) fun x =>
        { x with medium := p.fin 5 3, rateMask := BitVec.ofNat 4 (p.u 6 1), fec25 := p.fin 7 3, fec10 := p.fin 8 3
                 an1g := p.u 9 1 == 1, txref := p.fin 10 3, txref161 := p.u 11 1 == 1, polarity := BitVec.ofNat 2 (p.u 12 1)
                 modBus := p.opt 13 4, muxAddr := p.u 14 1, muxChan := p.fin 15 8, trainMs := p.u 16 2, stepMs := p.u 18 2
                 qualMs := p.u 20 2, qualErrors := p.u 22 2, relockMs := p.u 24 2 }) }

/-- What a lane forgets when it leaves DOWN (R230, R241, R265). -/
def leaveDown (l : Nat) (s : State) : State :=
  s.setLane l fun x =>
    { x with removed := 0, failed := 0, recovers := 0, measures := 0, reason := 0, moduleRead := false, moduleRate := 0 }

/-- A lane leaves DOWN for LOW (R227). -/
def startLane (l : Nat) (s : State) : State := enterLow l (leaveDown l s)

/-- LANE_ENABLE (R231, R402). -/
def laneEnableDef : JobDef :=
  { code := 0x2002
    fields := [fRange 4 1 0 23]
    absent := laneAbsent
    check := fun s _ p => if (s.laneOf (p.u 4 1)).st == .down then none else some rejState
    run := fun s _ p =>
      let l := p.u 4 1
      let s := startLane l s
      done { s with nlu := { s.nlu with driven := s.nlu.driven ||| BitVec.ofNat 24 (2 ^ l) } } }

/-- LANE_DISABLE (R231). -/
def laneDisableDef : JobDef :=
  { code := 0x2003
    fields := [fRange 4 1 0 23]
    absent := laneAbsent
    run := fun s _ p =>
      let l := p.u 4 1
      done (enterLane l .down ((settleCode l s).setLane l keepCode)) }

/-- The code of a lane's state (R227). -/
def LaneState.code : LaneState → Nat
  | .down => 0
  | .low => 1
  | .learn => 2
  | .step => 3
  | .up => 4
  | .recover => 5
  | .prbs => 6

/-- Alignment is gained (R229 condition 2): block lock, and FEC lock where FEC runs. -/
def gained (x : Lane) : Bool := x.aligned && (x.fec == 0 || x.fecLock)

/-- LANE_READ_STATUS (R241). The density of the last block is zero in a loss of signal, else the signal's: a free value. -/
def laneReadStatusDef : JobDef :=
  { code := 0x2004
    fields := [fRange 4 1 0 23]
    nextImp := false
    absent := laneAbsent
    run := fun s _ p =>
      let l := p.u 4 1
      let (d, s) := drawNat (settleCode l s)
      let x := s.laneOf l
      let density := if x.los then 0 else d % 256
      reply { r0 := word (x.st.code + x.mode.val * 8 + x.fec.val * 32 + bit x.los * 128 + bit x.lol * 256 + bit (gained x) * 512 +
                bit x.latValid * 1024 + bit x.frozen * 2048 + bit x.txLocked * 4096 + bit x.moduleRead * 8192 +
                x.slip % 8192 * 16384 + x.removed.toNat * 2 ^ 28)
              r1 := word (x.code % 32 + x.reason.val * 32 + density * 256 + x.moduleRate % 65536 * 65536)
              r2 := word (if x.st == .up then min (2 ^ 32 - 1) ((s.tcr.cycles - x.upAt) / 10 ^ 9) else 0)
              r3 := word (min 65535 x.recovers + min 65535 x.qualErrs * 65536) } s }

/-- LANE_PRBS_CONFIG (R231, R237). -/
def lanePrbsConfigDef : JobDef :=
  { code := 0x2005
    fields := [fRange 4 1 0 23, fRange 5 1 0 3, fRange 6 1 0 4, fRange 7 1 0 2, fRange 8 1 0 3, fRange 9 1 0 2, fRange 10 1 1 255,
               fAny 12 4]
    absent := laneAbsent
    check := fun s _ p =>
      match (s.laneOf (p.u 4 1)).st with
      | .down | .up | .prbs => none
      | _ => some rejState
    run := fun s _ p =>
      let l := p.u 4 1
      let x := s.laneOf l
      if p.u 5 1 = 0 then done (if x.st == .prbs then enterLow l s else s)
      else
        let keeps := x.st == .prbs && x.prbs.mode.val == p.u 5 1 && x.prbs.pattern.val == p.u 6 1 && x.prbs.rate.val == p.u 7 1
        let s := if x.st == .down then leaveDown l s else settleCode l s
        let x' := s.laneOf l
        let s := s.setLane l fun x =>
          { x with prbs :=
            { mode := p.fin 5 4, pattern := p.fin 6 5, rate := p.fin 7 3, invert := BitVec.ofNat 2 (p.u 8 1), inject := p.fin 9 3
              burst := p.u 10 1, interval := p.u 12 4
              bits := if keeps then x.prbs.bits else 0, errors := if keeps then x.prbs.errors else 0
              resyncs := if keeps then x.prbs.resyncs else 0, syncAt := if keeps then x.prbs.syncAt else none } }
        let kept := s.setLane l fun y => { y with rateCode := (keepCode x').rateCode }
        let t := enterLane l .prbs kept
        done (if runRate x = p.u 7 1 then t else latencyEvent l (t.setLane l (startCode t.tcr.cycles (p.u 7 1)))) }

/-- Bits that the checker has counted up to now (R237, R238). -/
def prbsBits (s : State) (x : Prbs) : Nat :=
  let rate := if x.rate = 0 then 125000 else if x.rate = 1 then 1031250 else 2578125
  match x.syncAt with
  | some c => x.bits + (s.tcr.cycles - c) * rate / 100000
  | none => x.bits

/-- The errors that the checker has met while synchronised (R237): the received bits are no operand of a command, so
their number is free, at most one error a bit. -/
def settleErrors (l : Nat) (s : State) : State :=
  let x := (s.laneOf l).prbs
  if x.syncAt.isNone then s else
  let (v, s) := drawNat s
  s.setLane l fun y =>
    { y with prbs := { y.prbs with errors := x.errors + v % (prbsBits s x - x.errors + 1) } }

/-- LANE_PRBS_READ (R238). -/
def lanePrbsReadDef : JobDef :=
  { code := 0x2006
    fields := [fRange 4 1 0 23, fMask 5 1 1]
    nextImp := false
    absent := laneAbsent
    check := fun s _ p => if (s.laneOf (p.u 4 1)).st == .prbs then none else some rejState
    run := fun s _ p =>
      let l := p.u 4 1
      let s := settleErrors l s
      let x := (s.laneOf l).prbs
      let b := min (2 ^ 48 - 1) (prbsBits s x)
      let e := min (2 ^ 48 - 1) x.errors
      let s := if p.bit 5 0 then s.setLane l fun y =>
          { y with prbs := { y.prbs with bits := 0, errors := 0, resyncs := 0, syncAt := y.prbs.syncAt.map fun _ => s.tcr.cycles } }
        else s
      reply { r0 := word (b % 2 ^ 32), r1 := word (b / 2 ^ 32 + e % 65536 * 65536), r2 := word (e / 65536)
              r3 := word (bit x.syncAt.isSome + min 255 x.resyncs * 256) } s }

/-- LANE_EQ_CONFIG (R232, R234). -/
def laneEqConfigDef : JobDef :=
  { code := 0x2007
    fields := [fRange 4 1 0 23, fRange 5 1 0 1, fRange 6 1 0 31, fRange 7 1 1 128,
               { off := 8, len := 2, ok := fun v => decide (400 ≤ v) && decide (v ≤ 1000) && v % 50 == 0 },
               fRange 10 1 0 15, fRange 11 1 0 23, fRange 12 1 50 200]
    absent := laneAbsent
    run := fun s _ p =>
      let l := p.u 4 1
      done ((settleCode l s).setLane l fun x =>
        { x with adaptive := p.u 5 1 == 1, ctle := p.u 6 1, densityMin := p.u 7 1, txSwing := p.u 8 2, txPre := p.u 10 1
                 txPost := p.u 11 1, losMv := p.u 12 1, codeSeen := s.tcr.cycles }) }

/-- LANE_RECOVERED_CLOCK_SELECT (R239, R240). -/
def laneRecoveredClockSelectDef : JobDef :=
  { code := 0x2008
    fields := [fRange 4 1 0 3, fOpt 5 23]
    rules := fun s p =>
      if (List.range 4).any (fun k => k != p.u 4 1 && p.u 5 1 < 24 && (vget s.nlu.slot k none).any fun x => x.val == p.u 5 1)
      then [4] else []
    absent := fun s p => decide (p.u 5 1 < 24) && !s.lanePresent (p.u 5 1)
    run := fun s _ p =>
      let k := p.u 4 1
      if vget s.nlu.slot k none = p.opt 5 24 then done s else
      let s := { s with nlu := { s.nlu with slot := vmod s.nlu.slot k fun _ => p.opt 5 24 } }
      let s := unqualifySlot k s
      done (if squelched s k && (s.refEntry (12 + k)).enable then loseRef (12 + k) s else s) }

def execLaneConfig (j : Job) (s : State) : Host.Outcome State Fault Refusal := .next (directJob laneConfigDef j s)
def execLaneEnable (j : Job) (s : State) : Host.Outcome State Fault Refusal := .next (directJob laneEnableDef j s)
def execLaneDisable (j : Job) (s : State) : Host.Outcome State Fault Refusal := .next (directJob laneDisableDef j s)
def execLaneReadStatus (j : Job) (s : State) : Host.Outcome State Fault Refusal := .next (directJob laneReadStatusDef j s)
/-- LANE_PRBS_CONFIG with a MODE other than 0 (R237). -/
def execLanePrbsConfig (j : Job) (s : State) : Host.Outcome State Fault Refusal := .next (directJob lanePrbsConfigDef j s)
/-- LANE_PRBS_CONFIG with MODE 0 (R237). -/
def execLanePrbsLeave (j : Job) (s : State) : Host.Outcome State Fault Refusal :=
  .next (directJob lanePrbsConfigDef (withByte 5 0 j) s)
def execLanePrbsRead (j : Job) (s : State) : Host.Outcome State Fault Refusal := .next (directJob lanePrbsReadDef j s)
def execLaneEqConfig (j : Job) (s : State) : Host.Outcome State Fault Refusal := .next (directJob laneEqConfigDef j s)
def execLaneRecoveredClockSelect (j : Job) (s : State) : Host.Outcome State Fault Refusal :=
  .next (directJob laneRecoveredClockSelectDef j s)

/-! ### Loss and alignment -/

/-- NLU acts on a lane: the unit runs and the lane is present. -/
def laneActs (s : State) (l : LaneId) : Bool := s.blockRuns 11 && s.lanePresent l.val
/-- Firmware moves the lane's stage: the stages stop during a WARM restart (R242). -/
def stageActs (s : State) (l : LaneId) : Bool := laneActs s l && s.fwRuns

/-- A lane leaves UP for RECOVER with its fault source and reason (R231); during a WARM restart it waits, for the first such
event (R242). -/
def loseUp (l : LaneId) (src : Fin 256) (reason : Fin 8) (s : State) : State :=
  let x := s.nlu.lane[l]
  if x.st != .up || x.recoverDue.isSome then s
  else
    let s := s.setLane l.val fun x => { x with reason := reason }
    if !s.fwRuns then s.setLane l.val fun x => { x with recoverDue := some src }
    else
      let s := s.setLane l.val fun x => { x with recovers := min 65535 (x.recovers + 1) }
      let s := pcuCount 0x2007 l.val 1 (enterLane l.val .recover s)
      faultEvent src.val { addr := l.val } s

/-- A condition of the qualification changes (R229): the window starts where they are complete. -/
def restartWindow (l : Nat) (s : State) : State := s.setLane l fun x => { x with winAt := s.tcr.cycles }

/-- What a WARM restart of some cycles held back (R242): the timers of the stages go on, lanes re-enter LOW, lanes enter
RECOVER. -/
def lanesAfterWarm (cycles : Nat) (s : State) : State :=
  forAll 24 s fun l t =>
    let t := t.setLane l fun x =>
      { x with recoverDue := none, lowDue := false, stageAt := x.stageAt + min cycles (t.tcr.cycles - x.stageAt) }
    match (s.laneOf l).lowDue, (s.laneOf l).recoverDue with
    | true, _ => enterLow l t
    | false, some src => loseUp (Fin.ofNat 24 l) src (s.laneOf l).reason t
    | false, none => t

/-- Adaptation freezes on its last code (R233). -/
def freezeCode (l : Nat) (s : State) : State :=
  let was := (s.laneOf l).frozen
  let s := (settleCode l s).setLane l fun x => { x with frozen := true }
  if was then s else pcuCount 0x2008 l 1 s

/-- LOS_ASSERT (R231, R233, R235, R240). -/
def execLosAssert (l : LaneId) (s : State) : Host.Outcome State Fault Refusal :=
  .next (if !laneActs s l || (s.laneOf l.val).los then s else
    let s := freezeCode l.val (raiseIrq 13 (s.setLane l.val fun x => { x with los := true, aligned := false, fecLock := false }))
    let s := portChanged l.val (squelch l.val s)
    loseUp l 128 3 s)

/-- LOS_DEASSERT (R235). -/
def execLosDeassert (l : LaneId) (s : State) : Host.Outcome State Fault Refusal :=
  .next (if !laneActs s l || !(s.laneOf l.val).los then s else
    portChanged l.val (raiseIrq 13 (s.setLane l.val fun x => { x with los := false })))

/-- LOL_ASSERT (R231, R235, R240). -/
def execLolAssert (l : LaneId) (s : State) : Host.Outcome State Fault Refusal :=
  .next (if !laneActs s l || (s.laneOf l.val).lol then s else
    let s := raiseIrq 13 (s.setLane l.val fun x => { x with lol := true, aligned := false, fecLock := false })
    let s := portChanged l.val (squelch l.val s)
    loseUp l 129 4 s)

/-- LOL_DEASSERT (R235, R236): a CDR lock, which is a latency event. -/
def execLolDeassert (l : LaneId) (s : State) : Host.Outcome State Fault Refusal :=
  .next (if !laneActs s l || !(s.laneOf l.val).lol then s else
    let s := raiseIrq 13 (s.setLane l.val fun x => { x with lol := false })
    portChanged l.val (latencyEvent l.val s))

/-- Slip positions of a lane (R236). -/
def slipTop (x : Lane) : Nat :=
  if x.mode.val < 2 then 9 else if x.fec.val = 1 then 2111 else if x.fec.val = 2 then 5279 else 65

/-- ALIGNMENT_GAINED (R236): a latency event with its slip position. -/
def execAlignmentGained (l : LaneId) (slip : Nat) (s : State) : Host.Outcome State Fault Refusal :=
  .next (if !laneActs s l then s else
    latencyEvent l.val (restartWindow l.val (s.setLane l.val fun x => { x with aligned := true, slip := min (slipTop x) slip })))

/-- ALIGNMENT_LOST (R229, R231). -/
def execAlignmentLost (l : LaneId) (s : State) : Host.Outcome State Fault Refusal :=
  .next (if !laneActs s l then s else loseUp l 130 6 (s.setLane l.val fun x => { x with aligned := false }))

/-- HI_BER (R231): of the BASE-R modes. -/
def execHiBer (l : LaneId) (s : State) : Host.Outcome State Fault Refusal :=
  .next (if !laneActs s l || decide ((s.laneOf l.val).mode.val < 2) then s else loseUp l 131 5 s)

/-- FEC_LOCK_CHANGE (R236): a latency event; qualification needs the FEC lock again (R229). -/
def execFecLockChange (l : LaneId) (gained : Bool) (s : State) : Host.Outcome State Fault Refusal :=
  .next (if !laneActs s l || (s.laneOf l.val).fec == 0 then s else
    latencyEvent l.val (restartWindow l.val (s.setLane l.val fun x => { x with fecLock := gained })))

/-! ### Bring-up -/

/-- The lane moves on to a step (R227). -/
def stepTo (l : Nat) (m : Fin 4) (s : State) : State := enterLane l .step (changeMode l m (fecFor (s.laneOf l) m) s)

/-- Learning is done (R227): a step to the next higher candidate, else UP. -/
def learned (l : Nat) (s : State) : State :=
  match higherMode (s.laneOf l) (s.laneOf l).mode with
  | some m => stepTo l m s
  | none => enterLane l .up s

/-- The lane's module-management bus is accessed (R226, R402). -/
def accessModule (l : Nat) (s : State) : State :=
  match (s.laneOf l).medium, (s.laneOf l).modBus with
  | 0, some b => { s with nlu := { s.nlu with modUsed := s.nlu.modUsed ||| BitVec.ofNat 4 (2 ^ b.val) } }
  | _, _ => s

/-- A lane enters LEARN (R228): the module is read, a direct 1.25 GBd link negotiates, and otherwise nothing is
learned. -/
def enterLearn (l : Nat) (s : State) : State :=
  let s := accessModule l (enterLane l .learn s)
  let x := s.laneOf l
  let waits := (x.medium = 0 ∧ x.modBus.isSome) ∨ (x.medium = 2 ∧ x.an1g ∧ x.mode.val < 2)
  if waits then s else learned l s

/-- A number of ms since a CD-TIME cycle has passed. -/
def msPassed (s : State) (since ms : Nat) : Bool := decide (since + ms * 10 ^ 6 ≤ s.tcr.cycles)

/-- LANE_QUALIFIED (R227, R229, R230): the window of QUAL_MS ends with its error count; a window with too many errors starts
again. A backplane lane leaves LOW by its exchange alone (R228). Source 132 is raised where a
failed step ends in UP at the last qualified rate, since only lanes in UP raise it (R231). -/
def execLaneQualified (l : LaneId) (errors : Nat) (s : State) : Host.Outcome State Fault Refusal :=
  let x := s.nlu.lane[l]
  .next (if !stageActs s l || x.los || x.lol || !gained x || !msPassed s x.winAt x.qualMs then s else
    let s' := restartWindow l.val (s.setLane l.val fun x => { x with qualErrs := min 65535 errors })
    let ok := s'.setLane l.val fun x => { x with qualified := some x.mode }
    match x.st with
    | .low => if x.medium = 1 then s else if errors ≤ x.qualErrors then enterLearn l.val ok else s'
    | .step =>
      if x.qualErrors < errors then s'
      else if x.fallingBack then faultEvent 132 { addr := l.val } (enterLane l.val .up ok)
      else learned l.val ok
    | .recover => if errors ≤ x.qualErrors then enterLane l.val .up s' else s'
    | _ => s)

/-- TRAIN_TIMEOUT (R227): LOW at the next higher candidate, after the highest again from the lowest. -/
def execTrainTimeout (l : LaneId) (s : State) : Host.Outcome State Fault Refusal :=
  let x := s.nlu.lane[l]
  .next (if !stageActs s l || x.st != .low || !msPassed s x.stageAt x.trainMs then s else
    let s := s.setLane l.val fun x => { x with reason := 1 }
    if x.medium = 1 then startStage l.val s else
    let m := (higherMode x x.mode).getD (lowestMode x)
    changeMode l.val m (fecFor x m) s)

/-- STEP_TIMEOUT (R230). -/
def execStepTimeout (l : LaneId) (s : State) : Host.Outcome State Fault Refusal :=
  let x := s.nlu.lane[l]
  .next (if !stageActs s l || x.st != .step || !msPassed s x.stageAt x.stepMs then s else
    let s := s.setLane l.val fun x => { x with reason := 2 }
    if x.fallingBack then enterLow l.val s else
    let s := s.setLane l.val fun x => 
      { x with removed := x.removed ||| BitVec.ofNat 4 (2 ^ x.mode.val), failed := x.failed ||| BitVec.ofNat 4 (2 ^ x.mode.val) }
    match higherMode x x.mode, x.qualified with
    | some m, _ => changeMode l.val m (fecFor x m) s
    | none, some q =>
      changeMode l.val q (fecFor x q) (s.setLane l.val fun x => { x with fallingBack := true })
    | none, none => enterLow l.val s)

/-- RELOCK_TIMEOUT (R227). -/
def execRelockTimeout (l : LaneId) (s : State) : Host.Outcome State Fault Refusal :=
  .next (if !stageActs s l || (s.laneOf l.val).st != .recover ||
      !msPassed s (s.laneOf l.val).stageAt (s.laneOf l.val).relockMs then s else enterLow l.val s)

/-- Nominal rate that a module reports, units of 1 MBd (R228). -/
def moduleMbd (rate100 rate250 : Byte) : Nat := if rate100 = 0xFF then rate250.toNat * 250 else rate100.toNat * 100

/-- MODULE_READ_DONE (R228): candidates whose line rate exceeds 1.01 × the module's rate are removed; a failed or
unknown module removes none and raises source 133. -/
def execModuleReadDone (l : LaneId) (r : ModuleRead) (s : State) : Host.Outcome State Fault Refusal :=
  let x := s.nlu.lane[l]
  .next (if !stageActs s l || x.st != .learn || x.medium != 0 then s else
    let unread := fun (_ : Unit) =>
      faultEvent 133 { addr := l.val } (learned l.val (s.setLane l.val fun x => { x with moduleRead := false, moduleRate := 0 }))
    match r with
    | .failed => unread ()
    | .ok ident a b =>
      if ident = 0x03 ∨ ident = 0x0C ∨ ident = 0x0D ∨ ident = 0x11 then
        let mbd := moduleMbd a b
        let fast := maskOf 4 fun m => decide (101 * mbd * 100 < 100 * lineRate (Fin.ofNat 4 m))
        learned l.val (s.setLane l.val fun x =>
          { x with moduleRead := true, moduleRate := mbd / 100
                   removed := x.failed ||| (x.rateMask &&& BitVec.ofNat 4 fast) })
      else unread ())

/-- FEC that a backplane lane advertised (R224, R228). -/
def fecAdvertised (x : Lane) (mode : Fin 4) (fec : Fin 3) : Fin 3 :=
  if fec = 0 ∨ fec = fecFor x mode then fec else 0

/-- AUTONEG_COMPLETE (R224, R228): Clause 73 fixes the candidate set of a backplane lane, Clause 37 lets a direct lane
leave LEARN. -/
def execAutonegComplete (l : LaneId) (r : AutonegResult) (s : State) : Host.Outcome State Fault Refusal :=
  let x := s.nlu.lane[l]
  let mismatch := s.setLane l.val fun x => { x with reason := 7 }
  .next (if !stageActs s l then s else
    match r with
    | .backplane m fec =>
      if x.st != .low || x.medium != 1 then s
      else if !(x.rateMask &&& ~~~x.failed).getLsbD m.val then mismatch
      else
        let s := enterLane l.val .learn s
        let s := s.setLane l.val fun x => 
          { x with removed := x.failed ||| (x.rateMask &&& ~~~BitVec.ofNat 4 (2 ^ m.val)) }
        enterLane l.val .step (changeMode l.val m (fecAdvertised x m fec) s)
    | .direct => if x.st == .learn && x.medium == 2 then learned l.val s else s
    | .sgmii mbps =>
      if x.st != .learn || x.medium != 2 then s
      else if mbps = 1000 then learned l.val s else mismatch)

/-- LATENCY_MEASUREMENT_END (R236, R250, R251, R276): LAT_VALID sets with the measured latencies; the FALLBACK charge of
the references on the port ends. -/
def execLatencyMeasurementEnd (l : LaneId) (rxPs txPs : Int) (s : State) : Host.Outcome State Fault Refusal :=
  .next (if !laneActs s l || (s.laneOf l.val).latValid then s else
    let s := s.setLane l.val fun x =>
      { x with latValid := true, latAt := s.tcr.cycles, rxPs := rxPs, txPs := txPs, measures := min 65535 (x.measures + 1) }
    let s := forAll 32 s fun r t => if (t.refEntry r).port = some l then t.setRef r fun e => { e with fallbackPs := 0 } else t
    portChanged l.val (raiseIrq 13 s))

/-- LANE_TXPLL_UNLOCK (R225): source 134; electrical idle until the PLL relocks. -/
def execLaneTxpllUnlock (l : LaneId) (s : State) : Host.Outcome State Fault Refusal :=
  .next (if !laneActs s l || !(s.laneOf l.val).txLocked then s else
    let s := portChanged l.val (s.setLane l.val fun x => { x with txLocked := false })
    faultEvent 134 { addr := l.val } s)

/-- TXPLL_RELOCK (R225): the lane re-enters bring-up from LOW. -/
def execTxpllRelock (l : LaneId) (s : State) : Host.Outcome State Fault Refusal :=
  .next (if !laneActs s l || (s.laneOf l.val).txLocked then s else
    let s := s.setLane l.val fun x => { x with txLocked := true }
    match (s.laneOf l.val).st with
    | .down | .prbs => s
    | _ => if s.fwRuns then enterLow l.val s else s.setLane l.val fun x => { x with lowDue := true })

/-- ADAPTATION_FREEZE (R233): more than 16 blocks below DENSITY_MIN. -/
def execAdaptationFreeze (l : LaneId) (density : Nat) (s : State) : Host.Outcome State Fault Refusal :=
  .next (if !laneActs s l || decide ((s.laneOf l.val).densityMin ≤ density) then s else freezeCode l.val s)

/-- ADAPTATION_RESUME (R233): 16 blocks at or above DENSITY_MIN; never during LOS, whose density is zero. The code was held
until now. -/
def execAdaptationResume (l : LaneId) (density : Nat) (s : State) : Host.Outcome State Fault Refusal :=
  .next (if !laneActs s l || (s.laneOf l.val).los || decide (density < (s.laneOf l.val).densityMin) ||
      !(s.laneOf l.val).frozen then s else
    s.setLane l.val fun x => { codeFrom s.tcr.cycles x with frozen := false })

/-! ### PRBS -/

/-- A lane's checker runs (R237). -/
def checkerRuns (s : State) (l : LaneId) : Bool :=
  laneActs s l && (s.laneOf l.val).st == .prbs && decide (2 ≤ (s.laneOf l.val).prbs.mode.val)

/-- PRBS_CHECKER_SYNC (R237): the checker counts from here on. -/
def execPrbsCheckerSync (l : LaneId) (s : State) : Host.Outcome State Fault Refusal :=
  .next (if checkerRuns s l && (s.laneOf l.val).prbs.syncAt.isNone then
    s.setLane l.val fun x => { x with prbs := { x.prbs with syncAt := some s.tcr.cycles } } else s)

/-- PRBS_CHECKER_RESYNC (R237): at least 512 of 1,024 bits are in error; synchronisation is lost. -/
def execPrbsCheckerResync (l : LaneId) (errors : Nat) (s : State) : Host.Outcome State Fault Refusal :=
  .next (if checkerRuns s l && (s.laneOf l.val).prbs.syncAt.isSome && decide (512 ≤ errors) then
    (settleErrors l.val s).setLane l.val fun x =>
      { x with prbs := { x.prbs with bits := prbsBits s x.prbs, errors := x.prbs.errors + errors
                                     resyncs := min 255 (x.prbs.resyncs + 1), syncAt := none } }
  else s)

/-- PRBS_ERROR_INJECT (R237): the generator inverts one bit or a burst; with INTERVAL 0 once. -/
def execPrbsErrorInject (l : LaneId) (s : State) : Host.Outcome State Fault Refusal :=
  let x := (s.laneOf l.val).prbs
  .next (if laneActs s l && (s.laneOf l.val).st == .prbs && (x.mode == 1 || x.mode == 3) && x.inject != 0 &&
      (x.interval != 0 || x.injected == 0) then
    s.setLane l.val fun y => { y with prbs := { y.prbs with injected := y.prbs.injected + if x.inject = 1 then 1 else x.burst } }
  else s)

end Sys2Proof.Machine
end

