-- ==== Sys2Proof/Machine/GalleyOps.lean ====
section
/-! DEFINITION. Shared operations of TPE: frame stamps (R244–R253), the galley's reservations, authentication work and
rebuilds (R255–R263, R300), host frames (R272). -/

namespace Sys2Proof.Machine

/-! ### Stamps -/

/-- A counter value at the stamp resolution of 2^-7 ns (R83). -/
def stampGrid (c : Nat) : Nat := c / (nsU / 128) * (nsU / 128)

/-- From the receive marker to the ball for a frame whose marker lies at `mark` (R245, R250): RX_LAT + F_RX + U_RX, with the
latency measured before E for a marker before it; RX_NOM + U_RX from E until V. With it, whether the stamp is FALLBACK. -/
def rxPath (s : State) (p mark : Nat) : Int × Bool :=
  let x := s.laneOf p
  let now := 6 * p + latIndex x
  let user := calValue s (0x1000 + p)
  let nominal := (calValue s (0x0300 + now) + user, true)
  if mark / 128 < x.latLostAt then
    match x.latWas with
    | some (rx, _, i) => (rx + calValue s (0x0100 + 6 * p + i) + user, false)
    | none => nominal
  else if x.latValid && decide (x.latAt ≤ mark / 128) then (x.rxPs + calValue s (0x0100 + now) + user, false)
  else nominal

/-- The ingress stamp of a frame is FALLBACK (R248, R250). -/
def rxFallback (s : State) (p mark : Nat) : Bool := (rxPath s p mark).2

/-- TX_LAT + F_TX + U_TX, or TX_NOM + U_TX in FALLBACK, ps (R245). -/
def txDelay (s : State) (p : Nat) : Int :=
  let x := s.laneOf p
  let i := 6 * p + latIndex x
  (if x.latValid then x.txPs + calValue s (0x0200 + i) else calValue s (0x0400 + i)) + calValue s (0x1100 + p)

/-- The ingress stamp of a frame in a view (R245, R246): its raw marker in CD-TIME, units of 2^-7 ns, less the delays. -/
def ingressStamp (s : State) (p mark v : Nat) : Nat :=
  stampGrid ((timeAtMark s v mark : Int) - (rxPath s p mark).1 * psU).toNat

/-- CALIBRATED of a port's stamps (R248). -/
def portCalibrated (s : State) (p : Nat) : Bool := calibrated s [0x1000 + p, 0x1100 + p]

/-- Effective asymmetry A of a port, ps (R253). -/
def asymmetry (s : State) (p : Nat) : Int := calUserValue s (0x1200 + p) + (s.portOf p).asymPs

/-- Units of 2^-16 ns of a counter value. -/
def ticks (c : Nat) : Int := ((c / ivlU : Nat) : Int)
/-- Units of 2^-16 ns of ps, rounded towards zero. -/
def ticksOfPs (ps : Int) : Int := (ps * 65536).tdiv 1000
/-- ps of units of 2^-16 ns, rounded towards zero. -/
def psOfTicks (t : Int) : Int := (t * 1000).tdiv 65536

/-- The PTP timestamp of a counter value (R85). -/
def ptpTime (c : Nat) : PtpTime := { sec := BitVec.ofNat 48 (secondsOf c), ns := BitVec.ofNat 32 (nsOf c) }
/-- A PTP timestamp in units of 2^-16 ns. -/
def ptpTicks (t : PtpTime) : Int := ((t.sec.toNat * 10 ^ 9 + t.ns.toNat : Nat) : Int) * 65536

/-- A frame is stamped at ingress (R249): counted when FALLBACK, and when EXCURSION is set. -/
def stampFrame (p mark : Nat) (s : State) : State :=
  countExcursion (if rxFallback s p mark then tsCount p 0 1 s else s)

/-! ### Contents that follow the launch -/

/-- The contents of a frame with its launch time written (R256, R262, R263, R277). A Follow_Up carries the launch of the
message before it, which its sender gives. A peer delay response holds the ingress of its request in `time`. -/
def written (s : State) (f : GalleyFrame) (launch : Nat) : FrameKind :=
  match f.kind with
  | .ptp i t m =>
    let two := (s.instOf i.val).twoStep
    match t with
    | .sync => .ptp i t { m with time := if two then { sec := 0, ns := 0 } else ptpTime launch }
    | .pdelayResp =>
      if two then .ptp i t m
      else .ptp i t { m with time := { sec := 0, ns := 0 }, correction := m.correction + ticks launch - ptpTicks m.time }
    | _ => .ptp i t m
  | .forwarded i t m ing q c =>
    if (s.instOf i.val).twoStep || !c || !isEvent t then f.kind
    else .forwarded i t { m with correction := m.correction + ticks launch - ticks ing } ing q c
  | .signaling _ _ _ _ => f.kind
  | .ntpResponse m c => .ntpResponse { m with xmit := ntpTimestamp s f.view.val launch } c
  | .ntpRequest c m => .ntpRequest c { m with xmit := ntpTimestamp s f.view.val launch }

/-! ### Reservation (R256, R257) -/

/-- Time of one byte on the line of a lane, units of 10^-33 ns. -/
def byteU (x : Lane) : Nat := (if x.mode.val < 2 then 800 else if x.mode.val = 2 then 80 else 32) * (nsU / 100)

/-- The first position of the start grid, whose phase the transmit clock gives, at or after an instant. -/
def gridUp (grid phase x : Nat) : Nat := x + (phase % grid + grid - x % grid) % grid

/-- Two frames on a port overlap, each with its preamble of 8 bytes and its gap of 12: starts and byte counts. -/
def overlaps (b x nx y ny : Nat) : Bool := decide (x < y + (ny + 20) * b) && decide (y < x + (nx + 20) * b)

/-- The first start position of a lane at or after an instant (R256); with RS-FEC those that alignment markers occupy are not
offered (R266). -/
def startUp (s : State) (p phase : Nat) : Nat → Nat → Nat
  | 0, x => gridUp (startGrid (s.laneOf p)) phase x
  | n + 1, x =>
    let lane := s.laneOf p
    let y := gridUp (startGrid lane) phase x
    if lane.mode = 3 ∧ lane.fec = 2 ∧ Config.markerAt p y then startUp s p phase n (y + startGrid lane) else y

/-- The first free position among the frames reserved on the port, in the order of their launches. -/
def firstFree (up : Nat → Nat) (b nx : Nat) : List (Nat × Nat) → Nat → Nat
  | [], x => x
  | (y, ny) :: t, x => firstFree up b nx t (if overlaps b x nx y ny then up (y + (ny + 20) * b) else x)

/-- A position for a frame: none where the galley has no room for it. The phase of the grid is free. -/
def findPosition (f : GalleyFrame) (s : State) : Option Nat × State :=
  let c := s.portOf f.port.val
  let x := s.laneOf f.port.val
  let (g, s) := drawNat s
  let now := viewCount s f.view.val
  let proposed := now + c.leadNs * nsU
  let others := (s.tpe.galley.filter fun o => o.port == f.port && o.id != f.id).map fun o =>
    (now + (o.launch - viewCount s o.view.val), o.bytes)
  let sorted := sortBy (fun a b => decide (a.1 ≤ b.1)) others
  let up := startUp s f.port.val g 16
  let host := ((now : Int) + ((c.hostEnd : Int) - s.tcr.cycles) * nsU + txDelay s f.port.val * psU).toNat
  let at' := firstFree up (byteU x) f.bytes sorted (up (max proposed host))
  if c.depth ≤ others.length ∨ 8192 ≤ (s.tpe.galley.filter fun o => o.id != f.id).length ∨ proposed + c.reserveNs * nsU < at' then (none, s)
  else (some at', s)

/-! ### Signatures and seals -/

/-- The octets of an extension field: type, length with the header, body (R289, RFC 7822). -/
def extField (type : Nat) (body : List Byte) : List Byte := beBytes 2 type ++ beBytes 2 (body.length + 4) ++ body

/-- A message signed under a slot (R280): the ICV is HMAC-SHA256 truncated to its first 16 bytes over the message. -/
def signPtp (s : State) (k : Nat) (t : PtpType) (m : PtpMsg) : PtpMsg :=
  match m.auth with
  | none => m
  | some a =>
    let bytes := Config.ptpWire t.code { m with auth := some { a with icv := 0, covered := [] } }
    let mac := Config.hmacSha256 (s.keySlot k).key bytes
    { m with auth := some { a with icv := mac.extractLsb' 128 128, covered := bytes } }

/-- An NTP message sealed with AEAD_AES_SIV_CMAC_256 (R290, R293): the cookies stand in the encrypted part. -/
def sealNts (key nonce : List Byte) (cookies : List (List Byte)) (m : NtpMsg) : NtpMsg :=
  match m.nts with
  | none => m
  | some n =>
    let bytes := Config.ntpWire m
    { m with nts := some { n with nonce := nonce, covered := bytes
                                  cipher := Config.sivSeal key nonce bytes (cookies.flatMap fun c => extField 0x0204 c) } }

/-! ### Authentication work -/

/-- The C2S slot under which a client request is authenticated (R293). -/
def requestSlot (s : State) : FrameKind → Option Nat
  | .ntpRequest c _ => ((s.clientOf c.val).c2s).map Fin.val
  | _ => none

/-- The frame can be authenticated now: its key is usable (R280, R293, R316). -/
def keyReady (s : State) (f : GalleyFrame) : Bool :=
  match f.auth with
  | .none => true
  | .ptp k _ => keyUsable s k 2
  | .nts _ => match requestSlot s f.kind with
    | some k => keyUsable s k 1
    | none => true

/-- The signature or the seal over the contents of a frame is asked of AUE; while AUE is in a BLOCK reset the job is lost (R267),
and the frame stays incomplete. -/
def askAue (f : GalleyFrame) (tx : Nat) (s : State) : GalleyFrame × State :=
  if s.blockRuns 13 then ({ f with complete := false, tx := some tx }, s)
  else ({ f with complete := false, tx := none }, freeSlot tx s)

/-- A PTP operation of AUE on a message of some bytes: one longer than 192 counts as two (R334). -/
def ptpOps (n : Nat) (s : State) : State := pcuCount 0x2401 0xFF (if 192 < n then 2 else 1) s

/-- NTS work of AUE in quarters of a unit (R301): whole units are counted. -/
def ntsUnits (quarters : Nat) (s : State) : State :=
  let q := s.aue.quarters + quarters
  pcuCount 0x2400 0xFF (q / 4) { s with aue := { s.aue with quarters := q % 4 } }

/-- Bytes of a message under the ICV, with the ICV. -/
def signedBytes : FrameKind → Nat
  | .ptp _ _ m | .forwarded _ _ m _ _ _ | .signaling _ m _ _ => (match m.auth with
    | some a => a.covered.length + 16
    | none => 0)
  | _ => 0

/-- Start the AUE job of a frame under a transaction that holds its slot (R256 step 4, R280, R290, R293, R300): the
signature or the seal over its contents, with a fresh nonce for NTS. The frame is complete when AUE returns. -/
def startAuth (f : GalleyFrame) (tx : Nat) (s : State) : GalleyFrame × State :=
  match f.auth with
  | .none => ({ f with complete := true, tx := none }, s)
  | .ptp k _ =>
    let kind := match f.kind with
      | .ptp i t m => .ptp i t (signPtp s k t m)
      | .forwarded i t m g q c => .forwarded i t (signPtp s k t m) g q c
      | .signaling i m t a => .signaling i (signPtp s k .signaling m) t a
      | x => x
    askAue { f with kind := kind } tx (ptpOps (signedBytes kind) (useKey k s))
  | .nts key =>
    let (nonce, s) := drawBytes 16 s
    let n := match f.kind with
      | .ntpResponse _ c => 3 + max 1 c.length
      | _ => 4
    let kind := match f.kind with
      | .ntpResponse m c => .ntpResponse (sealNts key nonce c m) c
      | .ntpRequest c m => .ntpRequest c (sealNts key nonce [] m)
      | x => x
    let s := match requestSlot s f.kind with
      | some k => useKey k s
      | none => s
    askAue { f with kind := kind } tx (ntsUnits n s)

/-- What a pipeline's attempt to send a frame led to. -/
inductive SendResult where
  | reserved (id : Nat)
  | noSlot
  | noKey
  | full
  | portOff
  deriving DecidableEq, Repr

/-- The instance whose counters a frame belongs to; none for NTP. -/
def kindInst : FrameKind → Option Nat
  | .ptp i _ _ => some i.val
  | .forwarded i _ _ _ _ _ => some i.val
  | .signaling i _ _ _ => some i.val
  | _ => none

/-- A message to send that finds no scheduler slot (R284, R288, R300). -/
def countNoSlot (p : Nat) (k : FrameKind) (s : State) : State :=
  match kindInst k with
  | some i => ptpCount p i 10 s
  | none => ntpCount p 10 s

/-- The slot that the AUE work of a frame needs. -/
def slotFor (f : GalleyFrame) (tx : Nat) (s : State) : Option State :=
  match f.auth with
  | .none => some s
  | .ptp _ _ => takeSlot false tx s
  | .nts _ => takeSlot true tx s

/-- A frame whose key is no longer usable is not sent (R280). -/
def countNoKey (f : GalleyFrame) (s : State) : State :=
  match kindInst f.kind with
  | some i => ptpCount f.port.val i 6 s
  | none => s

/-- An NTP or NTS frame on a PRP pair takes the next RCT of 6 bytes (R285); PTP carries none. -/
def takeRct (f : GalleyFrame) (s : State) : GalleyFrame × State :=
  let n := f.port.val / 2
  if (s.pairOf n).enable && (kindInst f.kind).isNone then
    ({ f with rct := some (s.pairOf n).rctSeq, bytes := f.bytes + 6 },
     { s with tpe := { s.tpe with prp := vmod s.tpe.prp n fun x => { x with rctSeq := x.rctSeq + 1 } } })
  else (f, s)

/-- A pipeline sends a frame (R255–R257, R280, R300): key, scheduler slot, position, launch time, AUE. -/
def sendFrame (f : GalleyFrame) (s : State) : SendResult × State :=
  let p := f.port.val
  if !s.blockRuns 12 || !(s.portOf p).enable || !s.lanePresent p then (.portOff, s)
  else if !keyReady s f then
    (.noKey, countNoKey f s)
  else
    let id := s.tpe.built
    let s := { s with tpe := { s.tpe with built := id + 1 } }
    match slotFor f id s with
    | none => (.noSlot, countNoSlot p f.kind s)
    | some s =>
      let (f, s) := takeRct { f with id := id, fallback := portFallback s p, predicted := txDelay s p } s
      match findPosition f s with
      | (none, s) => (.full, tsCount p 6 1 (freeSlot id s))
      | (some l, s) =>
        let f := { f with launch := l, kind := written s f l }
        let (f, s) := startAuth f id s
        (.reserved id, { s with tpe := { s.tpe with galley := s.tpe.galley ++ [f] } })

/-- Replace a galley frame. -/
def putFrame (f : GalleyFrame) (s : State) : State :=
  { s with tpe := { s.tpe with galley := s.tpe.galley.map fun g => if g.id = f.id then f else g } }
/-- Remove galley frames by their numbers, with the Follow_Ups of a Sync (R263). -/
def removeFrame (id : Nat) (s : State) : State :=
  let gone := s.tpe.galley.filter fun g => g.id == id || g.follows == some id
  let s := { s with tpe := { s.tpe with galley := s.tpe.galley.filter fun g => !(g.id == id || g.follows == some id) } }
  gone.foldl (fun t g => match g.tx with
    | some x => freeSlot x t
    | none => t) s

/-- The transaction of a frame goes on under a new number: a frame whose AUE work has not returned keeps its slot, a
complete one takes a slot again (R262 step 5, R300). -/
def renewSlot (f : GalleyFrame) (tx : Nat) (s : State) : Option State :=
  match f.tx with
  | some old => some { s with aue := { s.aue with slots := s.aue.slots.map fun x => if x.tx = old then { x with tx := tx } else x } }
  | none => slotFor f tx s

/-- Rebuild one frame under R256 with a new transaction. A transparent-clock frame and a peer delay response keep
their ingress times apart from the launch (R262, R263). -/
def reReserve (f : GalleyFrame) (s : State) : State :=
  let back : FrameKind := match f.kind with
    | .forwarded i t m ing q c =>
      if (s.instOf i.val).twoStep || !c || !isEvent t then f.kind
      else .forwarded i t { m with correction := m.correction - (ticks f.launch - ticks ing) } ing q c
    | .ptp i .pdelayResp m =>
      if (s.instOf i.val).twoStep then f.kind
      else .ptp i .pdelayResp { m with time := ptpTime 0, correction := m.correction - ticks f.launch }
    | k => k
  let tx := s.tpe.built
  if !keyReady s f then countNoKey f (removeFrame f.id s) else
  let s := { s with tpe := { s.tpe with built := tx + 1 } }
  match renewSlot f tx s with
  | none => countNoSlot f.port.val f.kind (removeFrame f.id s)
  | some s =>
    let f := { f with tx := if f.auth == .none then none else some tx }
    let s := putFrame f s
    match findPosition f s with
    | (none, s) => tsCount f.port.val 6 1 (removeFrame f.id s)
    | (some l, s) =>
      let f := { f with rebuilds := f.rebuilds + 1, launch := l, kind := back
                        fallback := portFallback s f.port.val, predicted := txDelay s f.port.val }
      let f := { f with kind := written s f l }
      let (f, s) := startAuth f tx s
      putFrame f s

/-- LAUNCH_REBUILD (R262, R263): a missed frame is counted by its cause, dropped at the limit, else rebuilt; a reserved
Follow_Up is rebuilt after its Sync with the Sync's launch time. -/
def missFrame (f : GalleyFrame) (cause : Nat) (s : State) : State :=
  let s := tsCount f.port.val cause 1 s
  if (s.portOf f.port.val).maxRebuilds ≤ f.rebuilds then tsCount f.port.val 5 1 (removeFrame f.id s)
  else
    let s := reReserve f s
    match s.tpe.galley.find? fun g => g.id == f.id with
    | none => s
    | some g =>
      (s.tpe.galley.filter fun h => h.follows == some f.id).foldl (fun t h =>
        reReserve { h with kind := match h.kind with
          | .ptp i ty m => .ptp i ty { m with time := ptpTime g.launch }
          | .forwarded i ty m ing q true =>
            .forwarded i ty { m with correction := m.correction + ticks g.launch - ticks f.launch } ing q true
          | k => k } t) s

/-- A step of a domain on the galley (R258): every frame of that domain whose launch lies at or after the step's
boundary is rebuilt with cause STEP; a Follow_Up goes with its Sync where that is rebuilt too (R263). `old` is the
counter before the step. -/
def stepGalley (d old : Nat) (s : State) : State :=
  let hit := s.tpe.galley.filter fun f => viewDomain s f.view.val == d && !f.committed && decide (old ≤ f.launch)
  (hit.filter fun f => !(hit.any fun g => f.follows == some g.id)).foldl (fun t f => missFrame f 4 t) s

/-! ### The uplink (R272) -/

/-- The host uplink, if a port is configured as one. -/
def uplink (s : State) : Option Nat := (List.range 24).find? fun p => (s.portOf p).hostPath == 1

/-- Bytes on the line of a frame to the host (R272): outer header, host tag, inner frame without its FCS, FCS. -/
def ToHost.lineBytes (x : ToHost) : Nat := max 64 (42 + (match x.inner with
  | some f => f.bytes - 4
  | none => 0))

/-- Frames to the host leave the packet buffers at the line rate of the uplink while its lane is up (R272). -/
def drainHost (s : State) : State :=
  let now := s.tcr.cycles
  match uplink s with
  | some u =>
    let gone := (now - s.tpe.hostFillAt) * nsU / byteU (s.laneOf u)
    let at' := if s.tpe.hostFill ≤ gone then now else s.tpe.hostFillAt + gone * byteU (s.laneOf u) / nsU
    if laneUp (s.laneOf u) then { s with tpe := { s.tpe with hostFill := s.tpe.hostFill - gone, hostFillAt := at' } }
    else { s with tpe := { s.tpe with hostFillAt := now } }
  | none => { s with tpe := { s.tpe with hostFillAt := now } }

/-- The packet buffers, 1,024 KB (R37, R272). -/
def hostRoom : Nat := 1048576

/-- A frame goes to the host (R268, R272); one that finds the packet buffers full, or no uplink, is dropped as HOST_DROP. -/
def toHost (x : ToHost) (s : State) : State :=
  let s := drainHost s
  match uplink s with
  | none => pcuCount 0x2112 x.port 1 s
  | some u =>
  if hostRoom < s.tpe.hostFill + x.lineBytes then pcuCount 0x2112 x.port 1 s else
  let s := s.setPort x.port fun y => { y with toHost := min (2 ^ 32 - 1) (y.toHost + 1) }
  let x := { x with dst := (s.portOf u).hostMac, src := portMac s u }
  countSent u { s with tpe := { s.tpe with hostOut := s.tpe.hostOut ++ [x], hostFill := s.tpe.hostFill + x.lineBytes } }

end Sys2Proof.Machine
end

