-- ==== Sys2Proof/Machine/Delivery.lean ====
section
/-! DEFINITION. What GTR and the client instances deliver to RIM (R123, R283, R295), the path of a packet reference and
declared corrections (R253, R378, R382). -/

namespace Sys2Proof.Machine

/-- One delivery to a pool entry of 16–30. -/
structure Delivery where
  /-- Time of the reference less the CD-TIME count, ns -/
  lag      : ℚ
  /-- Frequency against the unsteered master oscillator, ppt, where the deliverer measures it (R163) -/
  freq     : Option ℚ := none
  /-- Path delay, ns (entries 18–30) -/
  delay    : Option Nat := none
  /-- The reference's own uncertainty, ps (R113) -/
  uncPs    : Nat
  cls      : Fin 8
  hops     : Nat := 0
  utc      : Option UtcObs := none
  /-- The port that delivers, for a packet reference -/
  port     : Option (Fin 24) := none
  fallback : Bool := false
  deriving DecidableEq, Repr

/-- User items of a port's delays, and the calibration uncertainty of its path, ps (R378). -/
def pathUnc (s : State) (p : Nat) : Nat :=
  let i := 6 * p + latIndex (s.laneOf p)
  calUnc s (0x0100 + i) + calUnc s (0x0200 + i) + calUnc s (0x1000 + p) + calUnc s (0x1100 + p)

/-- C_ASYM of a packet reference on a port, ps (R252, R378). -/
def asymUncOf (s : State) (p : Nat) : Nat := (s.portOf p).asymUnc + (match calUser s (0x1200 + p) with
  | some c => c.unc
  | none => 0)

/-- PHASE_JUMP of a delivery (R124): its change of phase after the measured frequency is removed. -/
def deliveryJump (e : RefEntry) (lag : ℚ) (now : Nat) : Bool :=
  match e.lag with
  | none => false
  | some (x, c) => decide ((e.phaseJumpNs : ℚ) < |lag - x - refFreq e * ((now - c : Nat) : ℚ) / 10 ^ 12|)

/-- Mean frequency since the start of the second, ppt (R123); the applied steering is out of both phases. -/
def deliveryFreq (mark : Option (ℚ × Nat)) (lag : ℚ) (now : Nat) : Option ℚ :=
  match mark with
  | none => none
  | some (x, c) => if now ≤ c then none else some ((lag - x) / ((now - c : Nat) : ℚ) * 10 ^ 12)

/-- The next TAI second of a reference whose time is `lag` ahead of the CD-TIME count, and its CD-TIME cycle (R90). -/
def nextMark (lag : ℚ) (now : Nat) : Nat × Nat :=
  let sec := ((lag + (now : ℚ)).floor.toNat) / 10 ^ 9 + 1
  (sec, (((sec * 10 ^ 9 : Nat) : ℚ) - lag).ceil.toNat)

/-- RIM takes a delivery (R123, R124, R127, R90, R97). -/
def deliver (r : Nat) (d : Delivery) (s : State) : State :=
  let e := s.refEntry r
  if !(e.enable && s.blockRuns 5) then s else
  let now := s.tcr.cycles
  let lag := d.lag + now - unsteered s now
  let jump := deliveryJump e lag now
  let s := risen r 4 e.jumpNow jump s
  let mark := nextMark d.lag now
  let s := s.setRef r fun e =>
    { e with
      jumpNow := jump
      freqNow := (match d.freq.or (deliveryFreq e.lagMark lag now) with
        | some f => some f
        | none => e.freqNow)
      lag := some (lag, now)
      lagMark := some (e.lagMark.getD (lag, now))
      delays := (match d.delay with
        | some n => (n, s.tcr.seq.second) :: e.delays
        | none => e.delays)
      uncPs := d.uncPs, srcClass := d.cls, hops := d.hops
      utc := d.utc, utcAt := if d.utc = e.utc then e.utcAt else mark.1 - 1
      tod := some mark.1, todCycle := mark.2
      port := d.port
      calPs := (match d.port with
        | some p => pathUnc s p.val
        | none => e.calPs)
      asymPs := (match d.port with
        | some p => asymUncOf s p.val
        | none => e.asymPs)
      fallbackPs := (match d.port with
        | some p => if d.fallback then fallbackCharge (s.laneOf p.val) else 0
        | none => e.fallbackPs) }
  let s := refArrives r s
  let s := giveUtc r s
  spreadTod r s

/-- A declared correction of a reference's measured phase by some ps (R253, R286, R382): neither the phase-jump monitor
nor the frequency measurement counts it. -/
def declareCorrection (r : Nat) (ps : Int) (s : State) : State :=
  let ns : ℚ := (ps : ℚ) / 1000
  s.setRef r fun e =>
    { e with lag := e.lag.map fun x => (x.1 - ns, x.2)
             lagMark := e.lagMark.map fun x => (x.1 - ns, x.2) }

/-- The pool entries whose measurements a port delivers. -/
def refsOnPort (s : State) (p : Nat) : List Nat :=
  (List.range 31).filter fun r => decide (18 ≤ r) && (s.refEntry r).port.any fun x => x.val == p

/-- A port's effective asymmetry has changed by some ps (R253): the clients' offsets take it off, and C_ASYM follows
at this impression. -/
def asymChanged (p : Nat) (change : Int) (s : State) : State :=
  (refsOnPort s p).foldl (fun t r =>
    (declareCorrection r (-change) t).setRef r fun e => { e with asymPs := asymUncOf t p }) s

end Sys2Proof.Machine
end

