-- ==== Sys2Proof/Machine/Galley.lean ====
section
/-! DEFINITION. Meanings of the TS jobs, of the galley's events, of received frames and of the host path (R244–R272). -/

namespace Sys2Proof.Machine

/-! ### Jobs -/

/-- TS_PORT_CONFIG (R254). -/
def tsPortConfigDef : JobDef :=
  { code := 0x2101
    fields := [fRange 4 1 0 23, fRange 5 1 0 1, fRange 6 1 0 4, fRange 7 1 0 3, fRange 8 1 0 1]
    absent := laneAbsent
    run := fun s _ p =>
      let n := p.u 4 1
      let s := s.setPort n fun x =>
        { x with enable := p.u 5 1 == 1, hostView := p.fin 6 5, fbService := BitVec.ofNat 2 (p.u 7 1), refUseFallback := p.u 8 1 == 1 }
      done (if p.u 5 1 = 0 then dropLink (fun f => f.port.val == n) s else s) }

/-- Frames now in a port's galley queue. -/
def galleyFill (s : State) (p : Nat) : Nat := (s.tpe.galley.filter fun f => f.port.val == p).length

/-- The port record (R265). -/
def latencyRecord (s : State) (n : Nat) : List Byte :=
  let x := s.laneOf n
  let i := 6 * n + latIndex x
  leBytes 4 (toCode 32 x.rxPs) ++ leBytes 4 (toCode 32 x.txPs) ++ leBytes 4 (toCode 32 (calValue s (0x0300 + i))) ++
  leBytes 4 (toCode 32 (calValue s (0x0400 + i))) ++
  leBytes 2 (bit x.latValid + 2 * bit (portCalibrated s n) + 4 * bit (portFallback s n)) ++ leBytes 2 (min 2048 (galleyFill s n)) ++
  ((s.portOf n).ctr.toList.flatMap fun c => leBytes 4 c) ++ leBytes 2 x.slip ++ leBytes 2 0

/-- TS_READ_LATENCY (R265). -/
def tsReadLatencyDef : JobDef :=
  { code := 0x2102
    dma := some dmaSame
    fields := [fRange 4 1 0 23, fMask 5 1 1]
    nextImp := false
    minResult := fun _ => 64
    absent := laneAbsent
    run := fun s _ p =>
      let n := p.u 4 1
      let x := s.laneOf n
      let r : Reply :=
        { r0 := wordI x.rxPs, r1 := wordI x.txPs
          r2 := word (bit x.latValid + 2 * bit (portCalibrated s n) + 4 * (x.slip % 8192) + 65536 * min 65535 x.measures)
          r3 := word (min (2 ^ 32 - 1) ((s.tcr.cycles - x.latEventAt) / 10 ^ 9)), out := latencyRecord s n }
      reply r (if p.bit 5 0 then s.setPort n fun y => { y with ctr := Vector.replicate 10 0 } else s) }

/-- TS_SET_ASYMMETRY (R252, R253). -/
def tsSetAsymmetryDef : JobDef :=
  { code := 0x2103
    fields := [fRange 4 1 0 23, fSigned 8 4 (-1000000000) 1000000000, fRange 12 4 0 (10 ^ 9)]
    absent := laneAbsent
    run := fun s _ p =>
      let n := p.u 4 1
      let old := asymmetry s n
      let s := s.setPort n fun x => { x with asymPs := p.i 8 4, asymUnc := p.u 12 4 }
      done (asymChanged n (asymmetry s n - old) s) }

/-- Sum of PORT_DEPTH over the present ports after a TS_LAUNCH_CONFIG (R264). -/
def depthSum (s : State) (p : Params) : Nat :=
  (((List.range 24).filter s.lanePresent).map fun n =>
    if p.u 4 1 = 0xFF ∨ p.u 4 1 = n then p.u 6 2 else (s.portOf n).depth).sum

/-- TS_LAUNCH_CONFIG (R264). -/
def tsLaunchConfigDef : JobDef :=
  { code := 0x2104
    fields := [fOpt 4 23, fRange 5 1 0 7, fRange 6 2 16 2048, fRange 8 4 20000 1000000, fRange 12 4 0 10000,
               fRange 16 4 1000 1000000, fRange 20 2 64 9216]
    rules := fun s p => if 8192 < depthSum s p then [6] else []
    absent := laneAbsent
    run := fun s _ p =>
      done (forAll 24 s fun n t =>
        if t.lanePresent n && (p.u 4 1 == 0xFF || p.u 4 1 == n) then
          t.setPort n fun x => { x with maxRebuilds := p.u 5 1, depth := p.u 6 2, leadNs := p.u 8 4, guardNs := p.u 12 4
                                        reserveNs := p.u 16 4, hostMax := p.u 20 2 }
        else t) }

def execTsPortConfig (j : Job) (s : State) : Host.Outcome State Fault Refusal := .next (directJob tsPortConfigDef j s)
def execTsReadLatency (j : Job) (s : State) : Host.Outcome State Fault Refusal := .next (directJob tsReadLatencyDef j s)
def execTsSetAsymmetry (j : Job) (s : State) : Host.Outcome State Fault Refusal := .next (directJob tsSetAsymmetryDef j s)
def execTsLaunchConfig (j : Job) (s : State) : Host.Outcome State Fault Refusal := .next (directJob tsLaunchConfigDef j s)

/-! ### The galley's events -/

/-- A galley frame by its number. -/
def frameOf (s : State) (id : Nat) : Option GalleyFrame := s.tpe.galley.find? fun g => g.id == id

/-- The PTP message that a frame carries, with its instance. -/
def kindPtp : FrameKind → Option (Nat × PtpType)
  | .ptp i t _ => some (i.val, t)
  | .forwarded i t _ _ _ _ => some (i.val, t)
  | .signaling i _ _ _ => some (i.val, .signaling)
  | _ => none

/-- Launch accuracy of a lane's mode and FEC, ps (R266). -/
def launchAccuracy (x : Lane) : Nat :=
  if x.mode.val < 2 then 200 else if x.mode.val = 2 then (if x.fec = 0 then 100 else 110) else 75

/-- A frame is committed (R260, R265, R284). -/
def commitFrame (f : GalleyFrame) (ePs : Int) (s : State) : State :=
  let p := f.port.val
  let s := tsCount p 1 1 (putFrame { f with committed := true } s)
  let s := if launchAccuracy (s.laneOf p) < ePs.natAbs then tsCount p 8 1 s else s
  match kindPtp f.kind with
  | some (i, t) => ptpCount p i (if isEvent t then 2 else 3) s
  | none => s

/-- The commit point of a frame, 1,500 ns before its launch (R260): case by case, with e the predicted egress time of its
position by the latency in force, less the launch time. `movedPs` is how far the transmit clock has moved the position. -/
def commitPoint (f : GalleyFrame) (movedPs : Int) (s : State) : State :=
  let p := f.port.val
  let e := movedPs + txDelay s p - f.predicted
  if !laneUp (s.laneOf p) || !(s.portOf p).enable then dropLink (fun g => g.id == f.id || g.follows == some f.id) s
  else if !f.complete then missFrame f 2 s
  else if 1000 < e.natAbs then missFrame f 3 s
  else commitFrame f e s

/-- LAUNCH_COMMIT (R250, R260, R262): time runs on to the commit point of the frame if it lies in the impression in progress. -/
def execLaunchCommit (frame : Nat) (movedPs : Int) (s : State) : Host.Outcome State Fault Refusal :=
  .next (match frameOf s frame with
    | none => s
    | some f =>
      if f.committed || !s.blockRuns 12 then s else atCount f.view.val (f.launch - 1500 * nsU) (commitPoint f movedPs) s)

/-- What a client instance keeps of a launch: T3 of a delay request, T1 of an NTP request, less the asymmetry (R253,
R283, R295). -/
def keepLaunch (f : GalleyFrame) (s : State) : State :=
  let p := f.port.val
  let t := ticks f.launch - ticksOfPs (asymmetry s p)
  match f.kind with
  | .ptp i .delayReq m | .ptp i .pdelayReq m =>
    s.setPi p i.val fun x =>
      match x.delay with
      | some d => if d.seq = m.seq then { x with delay := some { d with t3 := some t, fallback := d.fallback || f.fallback } } else x
      | none => x
  | .ntpRequest c m =>
    s.setClient c.val fun x => { x with t1 := some t, t1Ntp := some m.xmit, uid := m.nts.map NtsFields.uid, t1Fallback := f.fallback }
  | _ => s

/-- A committed frame leaves (R255, R261); source 100 where the egress stamp is more than 1 ns off. -/
def launchFrame (f : GalleyFrame) (errPs : Int) (s : State) : State :=
  let s := { s with tpe := { s.tpe with galley := s.tpe.galley.filter (fun g => g.id != f.id), sent := s.tpe.sent ++ [f] } }
  let s := countSent f.port.val (keepLaunch f { s with tpe := { s.tpe with worked := s.tpe.worked + 1 } })
  if 1000 < errPs.natAbs then faultEvent 100 { addr := f.port.val } s else s

/-- FRAME_LAUNCH (R245, R255, R261): a committed frame leaves at its launch time. -/
def execFrameLaunch (frame : Nat) (errPs : Int) (s : State) : Host.Outcome State Fault Refusal :=
  .next (match frameOf s frame with
    | none => s
    | some f => if f.committed then atCount f.view.val f.launch (launchFrame f errPs) s else s)

/-! ### The host path -/

/-- The ingress stamp of a frame for the host, in HOST_DOMAIN, with the flags of that domain at its moment (R246, R248, R249,
R254). -/
def hostIngress (s : State) (p mark : Nat) : BitVec 128 :=
  let v := (s.portOf p).hostView.val
  let q := (viewAt s v mark).2
  timeWord (s.domain q.dom) q.dom (ingressStamp s p mark v) q.flags (if rxFallback s p mark then .fallback else .main)
    (portCalibrated s p)

/-- The egress stamp of a host frame that starts now (R245, R248, R249, R254). -/
def hostEgress (s : State) (p : Nat) : BitVec 128 :=
  let v := (s.portOf p).hostView.val
  timeValue s v ((viewCount s v : Int) + txDelay s p * psU).toNat (if portFallback s p then .fallback else .launch) (portCalibrated s p)

/-- The next reserved position on a port leaves room for a host frame with its gap and the guard (R259). -/
def hostFits (s : State) (p bytes : Nat) : Bool :=
  let b := byteU (s.laneOf p)
  (s.tpe.galley.filter fun f => f.port.val == p).all fun f =>
    decide ((viewCount s f.view.val : Int) + txDelay s p * psU + ((bytes + 20) * b + (s.portOf p).guardNs * nsU : Nat) ≤ f.launch)

/-- HOST_FRAME_TRANSMIT (R249, R259, R272): the oldest waiting host frame of a port starts if it fits; it is stamped
at egress, and an egress report goes to the host if it asked for one. -/
def execHostFrameTransmit (port : LaneId) (s : State) : Host.Outcome State Fault Refusal :=
  let p := port.val
  .next (match (s.portOf p).hostQueue with
    | [] => s
    | h :: rest =>
      if !(laneUp (s.laneOf p) && s.blockRuns 12 && decide ((s.portOf p).hostEnd ≤ s.tcr.cycles) && hostFits s p h.bytes) then s else
      let time := if (s.portOf p).enable then hostEgress s p else 0
      let s := s.setPort p fun x =>
        { x with hostQueue := rest, hostEnd := s.tcr.cycles + ((h.bytes + 20) * byteU (s.laneOf p) + nsU - 1) / nsU
                 fromHost := min (2 ^ 32 - 1) (x.fromHost + 1) }
      let s := countSent p (tsCount p 9 1 s)
      if h.report then toHost { type := 2, port := p, handle := h.handle, time := time, inner := none } s else s)

/-- A frame that is refused or discarded is counted at its port (R268, R272). -/
def discardFrame (p : Nat) (s : State) : State := s.setPort p fun x => { x with discarded := min (2 ^ 32 - 1) (x.discarded + 1) }

/-- HOST_UPLINK_FRAME_RECEIVE (R259, R272, R285): a TYPE 1 frame waits on its front port, on both ports
of a PRP pair with one RCT. -/
def execHostUplinkFrameReceive (h : HostTagged) (s : State) : Host.Outcome State Fault Refusal :=
  let u := h.uplink.val
  let p := h.port.toNat
  .next (if !(s.blockRuns 12 && laneUp (s.laneOf u) && (s.portOf u).hostPath == 1) then s
    else if h.version != 1 || h.type != 1 || !decide (p < 24) || !s.lanePresent p || (s.portOf p).hostPath != 2 ||
      decide ((s.portOf p).hostMax < h.bytes) then discardFrame u s
    else
      let pair := s.pairOf (p / 2)
      let f := fun (rep : Bool) => ({ handle := h.handle, report := rep, bytes := h.bytes + (if pair.enable then 6 else 0)
                                      rct := if pair.enable then some pair.rctSeq else none } : HostFrame)
      let put := fun (q : Nat) (rep : Bool) (t : State) => t.setPort q fun x => { x with hostQueue := x.hostQueue ++ [f rep] }
      let s := put p (h.flags.getLsbD 0) s
      if !pair.enable then s else
      put (if p % 2 = 0 then p + 1 else p - 1) false
        { s with tpe := { s.tpe with prp := vmod s.tpe.prp (p / 2) fun x => { x with rctSeq := x.rctSeq + 1 } } })

/-! ### Received frames -/

/-- The IPv4 or IPv6 address of a port, IPv4-mapped; none when it is zero. The second port of a PRP pair uses the
first one's (R271, R285). -/
def portAddr (s : State) (p : Nat) (ipv6 : Bool) : Option (BitVec 128) :=
  let q := if p % 2 = 1 ∧ (s.pairOf (p / 2)).enable then p - 1 else p
  let x := s.portOf q
  if ipv6 then (if x.ipv6 = 0 then none else some x.ipv6)
  else if x.ipv4 = 0 then none else some (BitVec.ofNat 128 (0xFFFF * 2 ^ 32 + x.ipv4.toNat))

/-- The destination of a PTP frame over UDP (R268): the port's address, 224.0.1.129, 224.0.0.107, FF0X::181, FF02::6B. -/
def ptpIpDst (s : State) (p : Nat) (ipv6 : Bool) (dst : BitVec 128) : Bool :=
  portAddr s p ipv6 == some dst ||
  (if ipv6 then
    (dst.toNat / 2 ^ 116 == 0xFF0 && dst.toNat % 2 ^ 112 == 0x181) || dst == BitVec.ofNat 128 (0xFF02 * 2 ^ 112 + 0x6B)
  else dst == BitVec.ofNat 128 (0xFFFF * 2 ^ 32 + 0xE0000181) || dst == BitVec.ofNat 128 (0xFFFF * 2 ^ 32 + 0xE000006B))

/-- The enabled port-instance of a transport on the frame's VLAN, the lowest-numbered one. -/
def vlanInst (s : State) (p transport : Nat) (f : Frame) : Option Nat :=
  (List.range 8).find? fun i =>
    piEnabled s p i && (s.piOf p i).transport.val == transport && (s.piOf p i).vlan == (if f.tags = 0 then none else some f.vlan)

/-- Where the classifier sends a frame (R268). -/
inductive FrameClass where
  | ptp (inst : Nat) (ok : Bool)
  | ntpServer (ok : Bool)
  | ntpClient (ok : Bool)
  | esmc
  | prp
  | rest
  deriving DecidableEq, Repr

/-- The enabled NTP client on a port that expects a datagram (R268, R294). -/
def clientFor (s : State) (p : Nat) (ipv6 : Bool) (src : BitVec 128) (dport : Nat) : Option Nat :=
  (List.range 8).find? fun c =>
    let x := s.clientOf c
    x.enable && (x.port.val == p || (x.port.val / 2 == p / 2 && (s.pairOf (p / 2)).enable)) && x.ipv6 == ipv6 && x.server == src && x.udpPort == dport

/-- The classifier (R268). -/
def classify (s : State) (p : Nat) (f : Frame) : FrameClass :=
  if 1 < f.tags then .rest else
  match f.body with
  | .ptpL2 =>
    if f.dst == portMac s p || f.dst == 0x011B19000000 || f.dst == 0x0180C200000E then
      (match vlanInst s p 0 f with
       | some i => .ptp i true
       | none => .rest)
    else .rest
  | .udp six dst src sport dport ok zero =>
    let good := ok && !(zero && six)
    if (dport == 319 || dport == 320) && ptpIpDst s p six dst then
      (match vlanInst s p (if six then 2 else 1) f with
       | some i => .ptp i good
       | none => .rest)
    else if dport == 123 && portAddr s p six == some dst && s.tpe.server.enable && s.tpe.server.portMask.getLsbD p then .ntpServer good
    else if sport == 123 && portAddr s p six == some dst && (clientFor s p six src dport.toNat).isSome then .ntpClient good
    else .rest
  | .slow sub => if sub = 0x0A ∧ f.dst = 0x0180C2000002 then .esmc else .rest
  | .prpSupervision => if (s.pairOf (p / 2)).enable then .prp else .rest
  | _ => .rest

/-- A copy of a frame that the pair has taken within ENTRY_FORGET_MS (R285). -/
def prpCopy (s : State) (p : Nat) (f : Frame) : Bool :=
  let x := s.pairOf (p / 2)
  match f.rctSeq with
  | none => false
  | some q => x.enable && x.seen.any fun e => e.1 == f.src && e.2.1 == q && decide (s.tcr.cycles ≤ e.2.2 + x.forgetMs * 10 ^ 6)

/-- A pair remembers the first copy of a frame (R285). -/
def rememberCopy (p : Nat) (f : Frame) (s : State) : State :=
  match f.rctSeq with
  | none => s
  | some q =>
    if !(s.pairOf (p / 2)).enable then s else
    { s with tpe := { s.tpe with prp := vmod s.tpe.prp (p / 2) fun x =>
      { x with seen := (x.seen.filter fun e => decide (s.tcr.cycles ≤ e.2.2 + x.forgetMs * 10 ^ 6)) ++ [(f.src, q, s.tcr.cycles)] } } }

/-- A frame that is no timing frame (R268, R272, R285): from a front port to the host with its stamp, else discarded. -/
def hostPath (p : Nat) (time : BitVec 128) (f : Frame) (s : State) : State :=
  if (s.portOf p).hostPath != 2 then discardFrame p s
  else if prpCopy s p f then s
  else toHost { type := 0, port := p, handle := 0, time := time, inner := some f } (rememberCopy p f s)

/-- A timing frame with a wrong checksum (R268). -/
def malformed (p : Nat) (s : State) : State := pcuCount 0x2113 p 1 s

/-- A classified frame meets its policers (R269), the PTP port and the NTP port limits of a second, and a timing frame that
passes joins the input queue of its port (R270). -/
def policeFrame (p : Nat) (f : Frame) (s : State) : FrameClass → State
  | .ptp i ok =>
    if !ok then malformed p s else
    let s := pcuCount 0x2110 p 1 s
    if (s.portOf p).ptpLimit * 1000 ≤ (s.portOf p).ptpSeen then ptpCount p i 7 s
    else queueFrame p (s.setPort p fun x => { x with ptpSeen := x.ptpSeen + 1 })
  | .ntpServer ok =>
    if !ok then ntpCount p 11 (malformed p s) else
    let s := pcuCount 0x2110 p 1 s
    if prpCopy s p f then s else
    let s := rememberCopy p f s
    if (s.portOf p).ntpLimit * 1000 ≤ (s.portOf p).ntpSeen then ntpCount p 6 s
    else queueFrame p (s.setPort p fun x => { x with ntpSeen := x.ntpSeen + 1 })
  | .ntpClient ok =>
    if !ok then malformed p s else
    let s := pcuCount 0x2110 p 1 s
    if prpCopy s p f then s else queueFrame p (rememberCopy p f s)
  | .esmc | .prp | .rest => pcuCount 0x2110 p 1 s

/-- FRAME_RECEIVE (R249, R268–R272, R373): a frame that the MAC accepts is counted at its lane, stamped and classified. Timing frames pass their
policers and go to their pipelines, whose commands follow. -/
def execFrameReceive (port : LaneId) (mark : Nat) (f : Frame) (s : State) : Host.Outcome State Fault Refusal :=
  let p := port.val
  let x := s.portOf p
  .next (if !(s.lanePresent p && laneUp (s.laneOf p)) then s
    else
    let s := countReceived p s
    if !s.blockRuns 12 then s else
    let s := if x.enable then stampFrame p mark s else s
    if x.hostPath == 1 then (if f.body == .hostTagged then s else discardFrame p s)
    else if !x.enable then hostPath p 0 f s
    else
      let time := hostIngress s p mark
      match classify s p f with
      | .rest => hostPath p time f s
      | c => policeFrame p f s c)

/-! ### PRP supervision (R285) -/

/-- PRP_SUPERVISION_RECEIVE (R285): counted, not forwarded. -/
def execPrpSupervisionReceive (port : LaneId) (s : State) : Host.Outcome State Fault Refusal :=
  .next (if s.blockRuns 12 && laneUp (s.laneOf port.val) && (s.pairOf (port.val / 2)).enable then
    s.setPort port.val fun x => { x with supRx := x.supRx + 1 } else s)

/-- A supervision frame leaves on both ports of a pair. -/
def sendSupervision (pair : Nat) (s : State) : State :=
  [2 * pair, 2 * pair + 1].foldl (fun t p => if laneUp (t.laneOf p) then countSent p (t.setPort p fun x =>
      { x with supTx := x.supTx + 1, supSent := x.supSent ++ [BitVec.ofNat 48 (0x01154E000100 + (s.pairOf pair).supLsb.toNat)] }) else t)
    { s with tpe := { s.tpe with prp := vmod s.tpe.prp pair fun x => { x with supAt := some s.tcr.cycles } } }

/-- PRP_SUPERVISION_SEND (R285, R303): every LIFE_CHECK_MS, a supervision frame on both ports of a pair. -/
def execPrpSupervisionSend (pair : Fin 12) (s : State) : Host.Outcome State Fault Refusal :=
  let x := s.pairOf pair.val
  .next (if !(s.fwRuns && s.blockRuns 12 && x.enable) then s else
    atCycle (match x.supAt with
      | some c => c + x.lifeCheckMs * 10 ^ 6
      | none => 0) (sendSupervision pair.val) s)

end Sys2Proof.Machine
end

