-- ==== Sys2Proof/Machine/LedgerOps.lean ====
section
/-! DEFINITION. Shared operations of the client ledger (R296–R299) and the composition of PTP frames that TPE sends
(R256, R271, R277, R280, R285). -/

namespace Sys2Proof.Machine

/-! ### Records -/

/-- Records of an imposition (R298). -/
def ledgerSize : Imposition → Nat
  | .folio => 196608
  | .broadsheet => 262144
  | .quarto => 65536
  | .octavo => 65536

/-- PTP grant cap of an imposition (R298). -/
def grantCap : Imposition → Nat
  | .folio => 32768
  | .broadsheet => 16384
  | .quarto => 49152
  | .octavo => 16384

/-- SECONDS [15:0], the time of the records (R297), in the active view. -/
def now16 (s : State) : Nat := viewSecond s 4 % 65536

/-- How long ago a time of the records lies, modulo 2^16 s (R297). -/
def age16 (s : State) (x : BitVec 16) : Nat := (now16 s + 65536 - x.toNat) % 65536

/-- A grant has passed its expiry (R297, R298); expiry pauses in a WARM restart (R303). -/
def grantExpired (s : State) (g : LedgerRec) : Bool := s.fwRuns && decide (age16 s g.tokens < 32768)

/-- Put a record at its index in a list that rises. -/
def insertRec (i : Nat) (g : LedgerRec) : List (Nat × LedgerRec) → List (Nat × LedgerRec)
  | [] => [(i, g)]
  | (j, h) :: t => if i < j then (i, g) :: (j, h) :: t else if i = j then (i, g) :: t else (j, h) :: insertRec i g t

/-- The lowest index from `n` on that a rising list leaves free. -/
def firstGap : List (Nat × LedgerRec) → Nat → Nat
  | [], n => n
  | (j, _) :: t, n => if j = n then firstGap t (n + 1) else n

/-- The ledger changed. -/
def State.setRecords (s : State) (f : List (Nat × LedgerRec) → List (Nat × LedgerRec)) : State :=
  { s with tpe := { s.tpe with ledger := f s.tpe.ledger } }
/-- One record written. -/
def putRec (i : Nat) (g : LedgerRec) (s : State) : State := s.setRecords (insertRec i g)
/-- Records freed. -/
def freeRecs (p : Nat → LedgerRec → Bool) (s : State) : State := s.setRecords fun l => l.filter fun x => !p x.1 x.2

/-- A free record, if there is one. -/
def freeIndex (s : State) : Option Nat :=
  let i := firstGap s.tpe.ledger 0
  if i < ledgerSize s.cpx.imposition then some i else none

/-- The NTP or NTS record with the oldest LAST_SERVED, the lowest index among equals (R298). -/
def oldestClient (s : State) : Option Nat :=
  (s.tpe.ledger.foldl (fun (best : Option (Nat × Nat)) x =>
    if x.2.type = 3 then best
    else match best with
      | some (_, a) => if a < age16 s x.2.last then some (x.1, age16 s x.2.last) else best
      | none => some (x.1, age16 s x.2.last)) none).map Prod.fst

/-- Grant records in use, of all instances or of one. -/
def grantCount (s : State) (inst : Option Nat) : Nat :=
  (s.tpe.ledger.filter fun x => x.2.type == 3 && (match inst with
    | some i => x.2.inst.val == i
    | none => true)).length

/-- FLAGS of a record (R297): of an NTP or NTS client, whether a kiss was sent within KOD_MIN_S. -/
def recFlags (s : State) (g : LedgerRec) : Nat :=
  if g.type = 3 then g.flags.toNat
  else bit (g.flags.getLsbD 0 && decide (s.tcr.cycles / 10 ^ 9 < g.kissAt + (s.portOf g.port.val).kodMin))

/-- The 24 bytes of a record (R297); the address is an octet string in network order. -/
def recBytes (s : State) (g : LedgerRec) : List Byte :=
  beBytes 16 g.addr.toNat ++ leBytes 1 (g.port.val + 32 * g.type.val) ++ leBytes 1 (g.inst.val + 8 * g.transport.val) ++
  leBytes 2 g.last.toNat ++ leBytes 2 g.tokens.toNat ++ leBytes 1 g.interval.toNat ++ leBytes 1 (recFlags s g)

/-- The address of a client as the records hold it (R297): the MAC over L2. -/
def clientAddr (transport : Fin 3) (mac : BitVec 48) (addr : BitVec 128) : BitVec 128 :=
  if transport = 0 then BitVec.ofNat 128 mac.toNat else addr

/-! ### PTP frames -/

/-- Bytes of a PTP frame on the wire, FCS included: Ethernet, VLAN tag, IP and UDP headers, the message and its TLVs;
at least 64 (log entry 21). -/
def ptpFrameBytes (s : State) (p i : Nat) (t : PtpType) (m : PtpMsg) : Nat :=
  let x := s.piOf p i
  let body := match t with
    | .sync | .delayReq | .followUp => 44
    | .delayResp | .pdelayReq | .pdelayResp | .pdelayRespFollowUp => 54
    | .announce => 64
    | .signaling => 54
  let ip := if x.transport = 1 then 28 else if x.transport = 2 then 48 else 0
  max 64 (18 + (if x.vlan.isSome then 4 else 0) + ip + body + (if m.assurance.isSome then 30 else 0) +
    (if m.auth.isSome then 26 else 0))

/-- A message of a port-instance with its header fields, to be signed if the instance signs (R277, R280). -/
def ptpMessage (s : State) (p i : Nat) (t : PtpType) (seq : BitVec 16) : PtpMsg :=
  let x := s.instOf i
  { domain := BitVec.ofNat 8 x.domainNumber, seq := seq, twoStep := x.twoStep && (t == .sync || t == .pdelayResp)
    correction := 0, srcPort := portIdentity s p i, reqPort := 0, time := { sec := 0, ns := 0 }
    announce := none, inaccuracy := none
    l1Sync := if x.profile.val = 6 ∧ t = .signaling then some (s.piOf p i).l1Sync else none
    assurance := none
    auth := if x.auth = 0 then none else some { spp := x.spp, keyId := x.txKeyId, icv := 0, covered := [] } }

/-- The AUE work of a message that an instance sends (R280). -/
def instAuth (s : State) (i : Nat) : FrameAuth :=
  let x := s.instOf i
  if x.auth = 0 then .none else .ptp x.txSlot x.txKeyId

/-- The destination MAC address of a PTP frame (R268, R271, R275): the group of the transport (PRESUMED, log entry 110), the client's
MAC over L2, NEXT_HOP_MAC for unicast IP. -/
def ptpDa (s : State) (p i : Nat) (t : PtpType) (dst : BitVec 128) : BitVec 48 :=
  let x := s.piOf p i
  let peer := t == .pdelayReq || t == .pdelayResp || t == .pdelayRespFollowUp
  if dst ≠ 0 then (if x.transport = 0 then dst.setWidth 48 else (s.portOf p).nextHop)
  else if x.transport = 0 then
    (if peer || ((s.instOf i).profile == 4 && x.dest) then 0x0180C200000E else 0x011B19000000)
  else if x.transport = 1 then (if peer then 0x01005E00006B else 0x01005E000181)
  else if peer then 0x33330000006B else 0x333300000181

/-- The message type of a frame kind. -/
def kindType : FrameKind → PtpType
  | .ptp _ t _ | .forwarded _ t _ _ _ _ => t
  | _ => .signaling

/-- A frame of an instance, to be reserved. -/
def ptpFrame (s : State) (p i : Nat) (kind : FrameKind) (auth : FrameAuth) (bytes : Nat) (dst : BitVec 128) : GalleyFrame :=
  { id := 0, port := Fin.ofNat 24 p, view := (s.instOf i).view, kind := kind, auth := auth, launch := 0, fallback := false
    bytes := bytes, dst := dst, da := ptpDa s p i (kindType kind) dst, tag := (s.piOf p i).vlan.map fun v => (v, (s.piOf p i).pcp) }

/-- The port may send frames of its own (R254, R271). -/
def mayOriginate (s : State) (p : Nat) : Bool := s.blockRuns 12 && (s.portOf p).enable && portMac s p != 0

/-- Send a message of a port-instance (R255, R256, R280). -/
def sendPtp (p i : Nat) (t : PtpType) (m : PtpMsg) (dst : BitVec 128) (follows : Option Nat) (s : State) : SendResult × State :=
  if !mayOriginate s p then (.portOff, s) else
  sendFrame { ptpFrame s p i (.ptp (Fin.ofNat 8 i) t m) (instAuth s i) (ptpFrameBytes s p i t m) dst with follows := follows } s

/-- Send a reply: to a unicast requester it goes to the MAC address that asked (R271). -/
def sendReply (p i : Nat) (t : PtpType) (m : PtpMsg) (dst : BitVec 128) (mac : BitVec 48) (s : State) : SendResult × State :=
  if !mayOriginate s p then (.portOff, s) else
  let f := ptpFrame s p i (.ptp (Fin.ofNat 8 i) t m) (instAuth s i) (ptpFrameBytes s p i t m) dst
  sendFrame { f with da := if dst = 0 then f.da else mac } s

/-- Send an event message and, in two-step, the message that carries its launch time (R263, R277). -/
def sendTwoStep (p i : Nat) (t next : PtpType) (m follow : PtpMsg) (dst : BitVec 128) (s : State) : State :=
  match sendPtp p i t m dst none s with
  | (.reserved id, s) =>
    if !(s.instOf i).twoStep then s else
    let launch := match frameOf s id with
      | some f => f.launch
      | none => 0
    (sendPtp p i next { follow with time := ptpTime launch } dst (some id) s).2
  | (_, s) => s

/-- Send a unicast negotiation TLV (R282). -/
def sendSignaling (p i : Nat) (msgType : BitVec 4) (a : GrantAction) (dst : BitVec 128) (s : State) : State :=
  if !mayOriginate s p then s else
  let m := ptpMessage s p i .signaling (s.piOf p i).seqSignal
  let s := s.setPi p i fun x => { x with seqSignal := x.seqSignal + 1 }
  (sendFrame (ptpFrame s p i (.signaling (Fin.ofNat 8 i) m msgType a) (instAuth s i) (ptpFrameBytes s p i .signaling m) dst) s).2

/-- Free the grants that a predicate names, each grantee with a CANCEL (R274, R282, R299). -/
def cancelGrants (p : LedgerRec → Bool) (s : State) : State :=
  let gone := s.tpe.ledger.filter fun x => x.2.type == 3 && p x.2
  let s := gone.foldl (fun t x =>
    sendSignaling x.2.port.val x.2.inst.val (BitVec.ofNat 4 x.2.flags.toNat) .cancel x.2.addr t) s
  freeRecs (fun _ g => g.type == 3 && p g) s

end Sys2Proof.Machine
end

