-- ==== Sys2Proof/Machine/PtpJobs.lean ====
section
/-! DEFINITION. Meanings of the PTP jobs (R271–R276, R282, R284, R285). -/

namespace Sys2Proof.Machine

/-- A key slot that an NS job names belongs to the secure world (R316). -/
def secureSlot (s : State) (k : Nat) : Bool := decide (k < 128) && (s.keySlot k).secure

/-! ### Instances -/

/-- A pool entry is fed by another instance or by another client (R274, R294). -/
def refTaken (s : State) (r : Nat) (inst client : Option Nat) : Bool :=
  (List.range 8).any fun i =>
    (some i != inst && (s.instOf i).enable && (s.instOf i).ref.any fun x => x.val == r) ||
    (some i != client && (s.clientOf i).enable && (s.clientOf i).ref.any fun x => x.val == r)

/-- A job that changes an enabled instance more than it may (R274). -/
def instLocked (x : PtpInst) (p : Params) : Bool :=
  x.enable && p.u 5 1 == 1 &&
  (x.profile.val != p.u 6 1 || x.role.val != p.u 7 1 || x.twoStep != (p.u 8 1 == 2) || x.domainNumber != p.u 9 1 ||
   x.view.val != p.u 10 1 || optCode x.ref != p.u 11 1 || x.clockId.toNat != p.u 16 8)

/-- Every enabled port-instance of an instance or of a port returns to INITIALIZING (R271, R275). -/
def initPi (p i : Nat) (s : State) : State :=
  if !piEnabled s p i then movePi p i .disabled s else
  (movePi p i .initializing s).setPi p i fun x =>
    { x with foreign := none, timedOut := false, half := none, last := none, early := none, delay := none, pathDelay := none
             l1Sync := false }

/-- PTP_INSTANCE_CONFIG (R273, R274, R316). -/
def ptpInstanceConfigDef : JobDef :=
  { code := 0x2201
    fields := [fRange 4 1 0 7, fRange 5 1 0 1, fRange 6 1 0 6, fRange 7 1 0 2, fOne 8 1 [1, 2], fAny 9 1, fRange 10 1 0 4,
               { off := 11, len := 1, ok := fun v => (decide (18 ≤ v) && decide (v ≤ 30)) || v == 0xFF }, fAny 12 1, fAny 13 1,
               fRange 14 1 0 2, fAny 15 1, fAny 16 8, fRange 24 1 0 127, fRange 25 1 0 1, fOne 26 1 [140, 150, 160], fMask 27 1 1,
               fAny 28 4, fOpt 32 127, fOpt 33 127, fOpt 34 127, fOpt 35 127, fAny 36 4, fAny 40 4, fAny 44 4, fAny 48 4]
    rules := fun s p =>
      let f := profileOf (p.u 6 1)
      let named := p.u 11 1 != 0xFF
      (if p.u 6 1 ≤ 6 ∧ ¬(f.domLo ≤ p.u 9 1 ∧ p.u 9 1 ≤ f.domHi) then [6] else []) ++
      (if p.u 6 1 ≤ 6 ∧ p.u 7 1 = 2 ∧ !f.tc then [6] else []) ++
      (if named && p.u 7 1 == 2 then [7] else []) ++
      (if named && p.u 10 1 == 4 then [10] else []) ++
      (if named && refTaken s (p.u 11 1) (some (p.u 4 1)) none then [11] else [])
    nsForbids := fun s p =>
      (p.u 14 1 != 0 && secureSlot s (p.u 24 1)) || (List.range 4).any fun n => secureSlot s (p.u (32 + n) 1)
    check := fun s _ p => if instLocked (s.instOf (p.u 4 1)) p then some rejState else none
    run := fun s _ p =>
      let i := p.u 4 1
      let old := s.instOf i
      let stops := old.enable && p.u 5 1 == 0
      let s := if stops then cancelGrants (fun g => g.inst.val == i) s else s
      let s := s.setInst i fun x =>
        { x with enable := p.u 5 1 == 1, profile := p.fin 6 7, role := p.fin 7 3, twoStep := p.u 8 1 == 2, domainNumber := p.u 9 1
                 view := p.fin 10 5, ref := p.opt 11 32, priority1 := p.u 12 1, priority2 := p.u 13 1, auth := p.fin 14 3
                 spp := BitVec.ofNat 8 (p.u 15 1), clockId := BitVec.ofNat 64 (p.u 16 8), txSlot := p.u 24 1
                 tcPolicy := p.u 25 1 == 1, classHoldOut := p.u 26 1, assurance := p.bit 27 0
                 txKeyId := BitVec.ofNat 32 (p.u 28 4)
                 verifySlot := Vector.ofFn fun (n : Fin 4) => p.opt (32 + n.val) 128
                 verifyId := Vector.ofFn fun (n : Fin 4) => BitVec.ofNat 32 (p.u (36 + 4 * n.val) 4) }
      done (if old.enable && p.u 5 1 == 1 then runBmca i s
        else if stops || p.u 5 1 == 1 then
          forAll 24 s fun q t => if (t.piOf q i).enable && t.lanePresent q then initPi q i t else t
        else s) }

/-! ### Port-instances and the port form -/

/-- The fields of the port-instance form (R275) and of the port form (R271). -/
def portFields (form : Bool) : List Field :=
  if form then
    [fRange 4 1 0 23, fRange 5 1 0xFF 0xFF, fRange 6 1 0 2, fRange 7 1 0 3, { off := 8, len := 6, ok := fun v => !v.testBit 40 },
     fRange 14 1 0 7, fRange 15 1 0 15, fRange 16 1 0 15, fRange 17 1 0 1, fRange 18 2 1 40000, fAny 20 4, fAny 24 16, fAny 40 6,
     fAny 46 6]
  else
    [fRange 4 1 0 23, fRange 5 1 0 7, fRange 6 1 0 1, fRange 7 1 0 2, { off := 8, len := 2, ok := fun v => decide (v ≤ 4094) || v == 0xFFFF },
     fRange 10 1 0 7, fRange 11 1 0 2,
     { off := 12, len := 1, ok := fun v => (decide (-3 ≤ signed 8 v) && decide (signed 8 v ≤ 4)) || v == 127 },
     { off := 13, len := 1, ok := fun v => (decide (-7 ≤ signed 8 v) && decide (signed 8 v ≤ 4)) || v == 127 },
     { off := 14, len := 1, ok := fun v => (decide (-7 ≤ signed 8 v) && decide (signed 8 v ≤ 5)) || v == 127 },
     fRange 15 1 2 10, fRange 16 1 1 255, fRange 17 1 0 1, fAny 20 16]

/-- A VLAN field, 0xFFFF for none. -/
def vlanOf (v : Nat) : Option (BitVec 12) := if v = 0xFFFF then none else some (BitVec.ofNat 12 v)

/-- The port form takes effect (R271). -/
def runPortForm (s : State) (p : Params) : State :=
  let n := p.u 4 1
  let old := s.portOf n
  let s := s.setPort n fun x =>
    { x with hostPath := p.fin 6 3, esmcMode := BitVec.ofNat 2 (p.u 7 1), mac := BitVec.ofNat 48 (p.u 8 6), esmcDpll := p.fin 14 8
             qlLocked := BitVec.ofNat 4 (p.u 15 1), qlHold := BitVec.ofNat 4 (p.u 16 1), esmcFixed := p.u 17 1 == 1
             ptpLimit := p.u 18 2, ipv4 := BitVec.ofNat 32 (p.u 20 4), ipv6 := BitVec.ofNat 128 (p.u 24 16)
             nextHop := BitVec.ofNat 48 (p.u 40 6), hostMac := BitVec.ofNat 48 (p.u 46 6)
             esmcHeardAt := if p.bit 7 0 && !x.esmcMode.getLsbD 0 then s.tcr.cycles else x.esmcHeardAt }
  let x := s.portOf n
  if x.mac != old.mac || x.ipv4 != old.ipv4 || x.ipv6 != old.ipv6 || x.hostPath != old.hostPath then
    forAll 8 s fun i t => if piEnabled t n i then initPi n i t else t
  else s

/-- The port-instance form takes effect (R275): LOCAL_PRIORITY and ANNOUNCE_TIMEOUT apply in place. -/
def runPortInst (s : State) (p : Params) : State :=
  let n := p.u 4 1
  let i := p.u 5 1
  let old := s.piOf n i
  let new : PortInst :=
    { old with enable := p.u 6 1 == 1, transport := p.fin 7 3, vlan := vlanOf (p.u 8 2), pcp := p.fin 10 8, portRole := p.fin 11 3
               logAnnounce := p.i 12 1, logSync := p.i 13 1, logDelay := p.i 14 1, annTimeout := p.u 15 1, localPriority := p.u 16 1
               dest := p.u 17 1 == 1, unicastMaster := BitVec.ofNat 128 (p.u 20 16) }
  let s := s.setPi n i fun _ => new
  if { new with annTimeout := old.annTimeout, localPriority := old.localPriority } = old then runBmca i s else initPi n i s

/-- PTP_PORT_CONFIG (R271, R273, R275). -/
def ptpPortConfigDef : JobDef :=
  { code := 0x2202
    fields := [fAny 4 60]
    rules := fun s p =>
      let form := p.u 5 1 == 0xFF
      badFields (portFields form) p 4 64 ++
      (if form then
        (if p.u 6 1 = 1 ∧ (List.range 24).any (fun n => n != p.u 4 1 && (s.portOf n).hostPath == 1) then [6] else [])
      else if p.u 5 1 ≤ 7 ∧ p.u 7 1 ≤ 2 ∧ !(instProfile s (p.u 5 1)).transports.contains (p.u 7 1) then [7] else [])
    absent := laneAbsent
    run := fun s _ p => done (if p.u 5 1 = 0xFF then runPortForm s p else runPortInst s p) }

/-! ### Status -/

/-- The Announce that an instance follows, with the port that hears it. -/
def parentOf (s : State) (i : Nat) : Option Foreign :=
  ((List.range 24).find? fun p => (s.piOf p i).st == .slave || (s.piOf p i).st == .uncalibrated).bind fun p => (s.piOf p i).foreign

/-- The grandmaster that an instance serves: class, accuracy, stepsRemoved, identity, parent (R278, R284). -/
def gmOf (s : State) (i : Nat) : AnnounceBody × BitVec 80 :=
  match parentOf s i with
  | some f => ({ f.body with steps := min 65535 (f.body.steps + 1) }, f.srcPort)
  | none => (ownAnnounce s i, BitVec.ofNat 80 ((clockIdentity s i).toNat * 65536))

/-- The SSM code that a port sends (R302). -/
def esmcCode (s : State) (p : Nat) : BitVec 4 :=
  let x := s.portOf p
  let k := s.dpllOf x.esmcDpll.val
  let own : Bool := match k.selected with
    | some r => decide (12 ≤ r.val) && decide (r.val < 16) && (vget s.nlu.slot (r.val - 12) none).any fun l => l.val == p
    | none => false
  if own then 0xF else if x.esmcFixed || follows k then x.qlLocked else x.qlHold

/-- PTP_READ_PORT_STATE (R284). -/
def ptpReadPortStateDef : JobDef :=
  { code := 0x2203
    dma := some dmaSame
    fields := [fRange 4 1 0 23, fOpt 5 7]
    nextImp := false
    minResult := fun _ => 64
    absent := laneAbsent
    run := fun s _ p =>
      let n := p.u 4 1
      let i := p.u 5 1
      if i = 0xFF then
        let x := s.portOf n
        reply { r0 := word (x.ssm.toNat + 16 * bit x.esmcTimeout + 256 * x.essm.toNat + 65536 * (x.ssmSent.getD 0).toNat)
                r1 := word (min (2 ^ 32 - 1) x.esmcRx), r2 := word x.toHost, r3 := word x.fromHost } s
      else
        let x := s.piOf n i
        let (g, parent) := gmOf s i
        let live := (s.tpe.ledger.filter fun e => e.2.type == 3 && e.2.port.val == n && e.2.inst.val == i && !grantExpired s e.2).length
        let delay := min (2 ^ 32 - 1) (psOfTicks (x.pathDelay.getD 0)).toNat
        let off := max (-(2 ^ 31)) (min (2 ^ 31 - 1) (psOfTicks x.offset))
        reply { r0 := word (x.st.code + 256 * min 255 g.steps + 65536 * g.clockClass.toNat + 2 ^ 24 * g.accuracy.toNat)
                r1 := word delay, r2 := wordI off
                r3 := word (min 65535 live + 65536 * bit ((List.range 3).all fun k => (heldGrant s n i k).isSome) + 131072 * bit x.l1Sync)
                out := leBytes 8 g.gmIdentity.toNat ++ leBytes 10 parent.toNat ++ leBytes 2 0 ++
                  x.ctr.toList.flatMap fun c => leBytes 4 c } s }

/-! ### Policy and pairs -/

/-- PTP_UNICAST_POLICY (R282, R298). -/
def ptpUnicastPolicyDef : JobDef :=
  { code := 0x2204
    fields := [fRange 4 1 0 7, fRange 5 1 0 1, fSigned 6 1 (-7) 4, fSigned 7 1 (-3) 4, fSigned 8 1 (-7) 4, fRange 10 2 60 1000,
               fAny 12 4, fRange 16 2 60 1000, fSigned 18 1 (-7) 4, fSigned 19 1 (-3) 4, fSigned 20 1 (-7) 4]
    rules := fun s p => if grantCap s.cpx.imposition < p.u 12 4 then [12] else []
    run := fun s _ p =>
      done (s.setInst (p.u 4 1) fun x =>
        { x with grantor := p.u 5 1 == 1, minSync := p.i 6 1, minAnnounce := p.i 7 1, minDelay := p.i 8 1, grantMax := p.u 10 2
                 maxGrants := some (p.u 12 4), reqDuration := p.u 16 2, reqSync := p.i 18 1, reqAnnounce := p.i 19 1
                 reqDelay := p.i 20 1 }) }

/-- PTP_PRP_PAIR (R285). -/
def ptpPrpPairDef : JobDef :=
  { code := 0x2205
    fields := [fRange 4 1 0 11, fRange 5 1 0 1, fAny 6 1, fRange 8 2 100 10000, fRange 10 2 100 10000]
    absent := fun s p => decide (p.u 4 1 < 12) && !(s.lanePresent (2 * p.u 4 1) && s.lanePresent (2 * p.u 4 1 + 1))
    run := fun s _ p =>
      let s := { s with tpe := { s.tpe with prp := vmod s.tpe.prp (p.u 4 1) fun x =>
        { x with enable := p.u 5 1 == 1, supLsb := BitVec.ofNat 8 (p.u 6 1), lifeCheckMs := p.u 8 2, forgetMs := p.u 10 2
                 seen := if p.u 5 1 = 1 then x.seen else [] } } }
      done (forAll 8 s fun i t => if (t.instOf i).enable then runBmca i t else t) }

def execPtpInstanceConfig (j : Job) (s : State) : Host.Outcome State Fault Refusal := .next (directJob ptpInstanceConfigDef j s)
def execPtpPortConfig (j : Job) (s : State) : Host.Outcome State Fault Refusal := .next (directJob ptpPortConfigDef j s)
/-- PTP_PORT_CONFIG with INSTANCE 0xFF (R271). -/
def execPtpPortConfigPortForm (j : Job) (s : State) : Host.Outcome State Fault Refusal :=
  .next (directJob ptpPortConfigDef (withByte 5 0xFF j) s)
def execPtpReadPortState (j : Job) (s : State) : Host.Outcome State Fault Refusal := .next (directJob ptpReadPortStateDef j s)
def execPtpUnicastPolicy (j : Job) (s : State) : Host.Outcome State Fault Refusal := .next (directJob ptpUnicastPolicyDef j s)
def execPtpPrpPair (j : Job) (s : State) : Host.Outcome State Fault Refusal := .next (directJob ptpPrpPairDef j s)

end Sys2Proof.Machine
end

