-- ==== Sys2Proof/Machine/Ptp.lean ====
section
/-! DEFINITION. Meanings of the PTP messages received and sent, of the grants, of PRP takeover and of ESMC (R269,
R276–R286, R302, R303). -/

namespace Sys2Proof.Machine

/-! ### Reception -/

/-- The port takes part in the message's instance, and its domainNumber is the instance's (R268, R273). -/
def ptpHears (s : State) (rx : PtpRx) : Bool :=
  let p := rx.port.val
  let i := rx.inst.val
  s.blockRuns 12 && s.lanePresent p && laneUp (s.laneOf p) && (s.portOf p).enable && (s.portOf p).hostPath != 1 && piEnabled s p i &&
    rx.msg.domain.toNat == (s.instOf i).domainNumber && (s.piOf p i).st != .initializing

/-- The slot that verifies a keyID, if its key is usable (R280). -/
def verifySlotFor (s : State) (x : PtpInst) (keyId : BitVec 32) : Option Nat :=
  (List.finRange 4).findSome? fun n =>
    match x.verifySlot[n] with
    | some k => if x.verifyId[n] = keyId ∧ keyUsable s k.val 2 then some k.val else none
    | none => none

/-- The ICV of a message under a key (R280). -/
def icvMatches (key : List Byte) (a : AuthTlv) : Bool := (Config.hmacSha256 key a.covered).extractLsb' 128 128 == a.icv

/-- What the AUTH of an instance asks of a received message (R280). -/
inductive AuthPlan where
  | plain
  | missing
  | check (slot : Nat) (tlv : AuthTlv)
  deriving DecidableEq, Repr

/-- Verification of a received message under AUTH (R280). -/
def authPlan (s : State) (i : Nat) (m : PtpMsg) : AuthPlan :=
  let x := s.instOf i
  if x.auth != 2 then .plain else
  match m.auth with
  | none => .missing
  | some a =>
    if a.spp != x.spp then .missing else
    match verifySlotFor s x a.keyId with
    | none => .missing
    | some k => .check k a

/-- The transaction of a message to verify starts (R280, R300, R315, R334): it takes a scheduler slot or is dropped as NO_SLOT, and
its AUE job runs under the current key of its slot. One that fails during an overlap will be repeated under the previous key. -/
def startVerify (rx : PtpRx) (c : RxCont) (k : Nat) (a : AuthTlv) (s : State) : State :=
  let p := rx.port.val
  let i := rx.inst.val
  let tx := s.tpe.built
  match (if s.blockRuns 13 then takeSlot false tx s else none) with
  | none => ptpCount p i 10 s
  | some s =>
    let x := s.keySlot k
    let w : RxWork :=
      { tx := tx, pass := icvMatches x.key a, again := (prevKey s k).map fun old => icvMatches old a, key := k
        ingress := ingressStamp s p rx.mark (s.instOf i).view.val, fallback := rxFallback s p rx.mark, msg := .ptp rx c }
    ptpOps (a.covered.length + 16) (useKey k { s with tpe := { s.tpe with built := tx + 1 }, aue := { s.aue with work := s.aue.work ++ [w] } })

/-- A verified message reaches its instance: counted (R280, R284), its L1_SYNC state noted (R273). -/
def noteMessage (t : PtpType) (rx : PtpRx) (s : State) : State :=
  let p := rx.port.val
  let i := rx.inst.val
  let s := ptpCount p i (if isEvent t then 0 else 1) s
  match rx.msg.l1Sync with
  | some b => if (s.instOf i).profile.val = 6 then s.setPi p i fun x => { x with l1Sync := b } else s
  | none => s

/-- A received message goes to its instance, at once or after its verification (R280, R300). -/
def receiveMessage (rx : PtpRx) (c : RxCont) (now : State → State) (s : State) : State :=
  match authPlan s rx.inst.val rx.msg with
  | .plain => now s
  | .missing => ptpCount rx.port.val rx.inst.val 5 s
  | .check k a => startVerify rx c k a s

/-- The instance is a transparent clock. -/
def isTc (s : State) (i : Nat) : Bool := (s.instOf i).role == 2

/-- Ingress time of a message in its instance's domain (R246). -/
def rxStamp (s : State) (rx : PtpRx) : Nat := ingressStamp s rx.port.val rx.mark (s.instOf rx.inst.val).view.val
/-- An ingress time less the asymmetry of its port, units of 2^-16 ns (R253). -/
def rxClient (s : State) (p ing : Nat) : Int := ticks ing - ticksOfPs (asymmetry s p)

/-! ### Measurements (R283) -/

/-- The upstream's bound, ps (R113): its assurance TLV, or the limit of its clockAccuracy, unknown where that has none. -/
def upstreamUnc (f : Foreign) : Nat :=
  match f.assurance with
  | some a => a.boundPs.toNat
  | none =>
    let c := f.body.accuracy.toNat
    if 0x17 ≤ c ∧ c < 0x17 + accuracyLimits.length then ceilDiv (accuracyLimits.getD (c - 0x17) 0) 10 else boundUnknown

/-- The delivery of an offset (upstream less own time, units of 2^-16 ns) to the instance's pool entry (R283). -/
def ptpDelivery (s : State) (p i : Nat) (f : Foreign) (off delay : Int) (fallback : Bool) : Delivery :=
  let m : ℚ := (off : ℚ) / 65536
  { lag := (viewCount s (s.instOf i).view.val : ℚ) / nsU - s.tcr.cycles + m
    delay := some (delay.toNat / 65536)
    uncPs := upstreamUnc f, cls := 2, hops := f.body.steps + 1, utc := some f.body.utc
    port := some (Fin.ofNat 24 p), fallback := fallback }

/-- A complete Sync with a current path delay is one measurement (R251, R276, R283, R286). A port in UNCALIBRATED that
has delivered one becomes SLAVE. -/
def measure (p i : Nat) (r : SyncRec) (s : State) : State :=
  let x := s.piOf p i
  match x.pathDelay, x.foreign with
  | some d, some f =>
    let off := r.t1 + d - r.t2
    let fb := r.fallback || x.pathFallback
    if fb && !(s.portOf p).refUseFallback then s.setPi p i fun y => { y with missed := y.missed + 1 } else
    let now := s.tcr.seq.second
    let s := s.setPi p i fun y =>
      { y with measuredAt := s.tcr.cycles, missed := 0, offsets := (now, off) :: y.offsets.filter fun o => decide (now < o.1 + 16) }
    if x.st == .passiveSlave || (x.st == .calibrating && !followsMaster (bmcaState s i p)) then s else
    let s := match (s.instOf i).ref with
      | some q => deliver q.val (ptpDelivery s p i f off d fb) (s.setPi p i fun y => { y with offset := off })
      | none => s
    if x.st == .uncalibrated then movePi p i .slave s else s
  | _, _ => s

/-- A Sync is complete. -/
def completeSync (p i : Nat) (r : SyncRec) (s : State) : State :=
  measure p i r (s.setPi p i fun x => { x with last := some r, half := none, early := none })

/-- The message comes from the master that the port follows. -/
def fromParent (x : PortInst) (m : PtpMsg) : Bool :=
  (followsMaster x.st || x.st == .calibrating) && x.foreign.any fun f => f.srcPort == m.srcPort

/-- A Sync has reached its instance (R283). -/
def takeSync (rx : PtpRx) (ing : Nat) (fb : Bool) (s : State) : State :=
  let p := rx.port.val
  let i := rx.inst.val
  let m := rx.msg
  if isTc s i || !fromParent (s.piOf p i) m then s else
  let r : SyncRec := { seq := m.seq, t1 := m.correction, t2 := rxClient s p ing, fallback := fb }
  if m.twoStep then
    match (s.piOf p i).early.filter fun e => e.seq == m.seq && e.srcPort == m.srcPort with
    | some e => completeSync p i { r with t1 := r.t1 + e.t1 } s
    | none => s.setPi p i fun x => { x with half := some r }
  else completeSync p i { r with t1 := r.t1 + ptpTicks m.time } s

/-! ### Transparent clocks (R277, R279, R281) -/

/-- How a transparent clock treats a frame whose correctionField it would change (R281). -/
inductive TcPlan where
  /-- it forwards the frame, with the correction or without it -/
  | forward (correct : Bool)
  | drop
  /-- it verifies the frame, corrects it and signs it again -/
  | check (slot : Nat) (tlv : AuthTlv)
  deriving DecidableEq, Repr

/-- The treatment of a frame (R281). -/
def tcPlan (s : State) (i : Nat) (m : PtpMsg) : TcPlan :=
  let x := s.instOf i
  match m.auth with
  | none => .forward true
  | some a =>
    match (if a.spp = x.spp then verifySlotFor s x a.keyId else none) with
    | some k => .check k a
    | none => if x.tcPolicy then .forward false else .drop

/-- A frame that a transparent clock forwards: at once, or after its verification; the signature of a corrected frame names the
slot and the keyID of R281. -/
def forwardPlan (rx : PtpRx) (c : RxCont) (go : Bool → FrameAuth → State → State) (s : State) : State :=
  let p := rx.port.val
  let i := rx.inst.val
  match tcPlan s i rx.msg with
  | .forward true => go true .none s
  | .forward false => go false .none (ptpCount p i 9 s)
  | .drop => ptpCount p i 5 s
  | .check k a => startVerify rx c k a s

/-- The authentication of a frame that a transparent clock signs again (R281). -/
def tcAuth (s : State) (rx : PtpRx) : FrameAuth :=
  match rx.msg.auth with
  | none => .none
  | some a => .ptp (s.instOf rx.inst.val).txSlot a.keyId

/-- Forward a message of a transparent clock on a port, a Follow_Up after its Sync (R263). -/
def forward (q i : Nat) (t : PtpType) (m : PtpMsg) (ingress inPort : Nat) (correct : Bool) (auth : FrameAuth) (follows : Option Nat)
    (s : State) : State :=
  (sendFrame { ptpFrame s q i (.forwarded (Fin.ofNat 8 i) t m ingress (Fin.ofNat 24 inPort) correct) auth
    (ptpFrameBytes s q i t m) 0 with follows := follows } s).2

/-- Forward a message that is not changed to every other port of the instance. -/
def forwardAll (p i : Nat) (t : PtpType) (m : PtpMsg) (s : State) : State :=
  forAll 24 s fun q u => if q ≠ p ∧ piEnabled u q i ∧ laneUp (u.laneOf q) then forward q i t m 0 p false .none none u else u

/-- Peer delay of the ingress port that a peer delay transparent clock adds to Sync (R277). -/
def peerAdd (s : State) (p i : Nat) : Int := if (instProfile s i).peer then (s.piOf p i).pathDelay.getD 0 else 0

/-- Forwarded event messages of an instance that a predicate on type and message names: frame, egress and ingress port, residence
time. -/
def residences (s : State) (i : Nat) (pick : PtpType → PtpMsg → Bool) : List (Nat × Nat × Nat × Int) :=
  (s.tpe.sent ++ s.tpe.galley).filterMap fun f =>
    match f.kind with
    | .forwarded j t m ing q _ => if j.val = i ∧ pick t m then some (f.id, f.port.val, q.val, ticks f.launch - ticks ing) else none
    | _ => none

/-- Forward a general message with the residence times of its event message added (R277, R281): to every port that the event
message went to, or back to the port that a Delay_Req came from. -/
def forwardGeneral (t : PtpType) (rx : PtpRx) (correct : Bool) (auth : FrameAuth) (s : State) : State :=
  let p := rx.port.val
  let i := rx.inst.val
  let m := rx.msg
  let send := fun (q : Nat) (add : Int) (id : Nat) (u : State) =>
    forward q i t (if correct then { m with correction := m.correction + add } else m) 0 p correct auth (some id) u
  if t == .followUp then
    (residences s i fun t n => t == .sync && n.srcPort == m.srcPort && n.seq == m.seq).foldl
      (fun u r => send r.2.1 (r.2.2.2 + peerAdd u p i) r.1 u) s
  else
    (residences s i fun t n => t == .delayReq && n.srcPort == m.reqPort && n.seq == m.seq).foldl
      (fun u r => send r.2.2.1 r.2.2.2 r.1 u) s

/-- A general message at a transparent clock (R277): in two-step its correctionField takes the residence time, else it passes
unchanged. -/
def tcGeneral (t : PtpType) (rx : PtpRx) (s : State) : State :=
  if !ptpHears s rx then s else
  let s := ptpCount rx.port.val rx.inst.val 1 s
  if (s.instOf rx.inst.val).twoStep then forwardPlan rx (.tcGeneral t) (forwardGeneral t rx) s
  else forwardGeneral t rx false .none s

/-- Forward an event message (R277, R281). -/
def forwardEvent (delayReq : Bool) (rx : PtpRx) (q ing : Nat) (correct : Bool) (auth : FrameAuth) (s : State) : State :=
  let p := rx.port.val
  let i := rx.inst.val
  let add := if correct && !delayReq then peerAdd s p i else 0
  forward q i (if delayReq then .delayReq else .sync) { rx.msg with correction := rx.msg.correction + add } ing p correct auth none s

/-- PTP_TC_FORWARD (R277, R281): an event message; in two-step the residence time goes into the message that follows. -/
def execPtpTcForward (delayReq : Bool) (rx : PtpRx) (egress : LaneId) (s : State) : Host.Outcome State Fault Refusal :=
  let p := rx.port.val
  let i := rx.inst.val
  let q := egress.val
  let s := serveFrame rx.port rx.mark s
  .next (if !(ptpHears s rx && isTc s i && q != p && piEnabled s q i) then s else
    let s := ptpCount p i 0 s
    let ing := rxStamp s rx
    if (s.instOf i).twoStep then forward q i (if delayReq then .delayReq else .sync) rx.msg ing p false .none none s
    else forwardPlan rx (.tcEvent delayReq egress) (forwardEvent delayReq rx q ing) s)

/-- A Follow_Up has reached its instance (R280, R283); one that verifies before its Sync waits for it. -/
def takeFollowUp (rx : PtpRx) (s : State) : State :=
  let p := rx.port.val
  let i := rx.inst.val
  let m := rx.msg
  let t1 := ptpTicks m.time + m.correction
  if !fromParent (s.piOf p i) m then s else
  match (s.piOf p i).half.filter fun r => r.seq == m.seq with
  | some r => completeSync p i { r with t1 := r.t1 + t1 } s
  | none => s.setPi p i fun x => { x with early := some { seq := m.seq, srcPort := m.srcPort, t1 := t1 } }

/-! ### Announce -/

/-- An Announce has reached its instance (R97, R276, R279). -/
def takeAnnounce (rx : PtpRx) (s : State) : State :=
  let p := rx.port.val
  let i := rx.inst.val
  let m := rx.msg
  match m.announce with
  | none => s
  | some b =>
    if m.srcPort.toNat / 65536 = (clockIdentity s i).toNat then s else
    let x := s.piOf p i
    let f : Foreign := { body := b, srcPort := m.srcPort, assurance := m.assurance }
    let key := fun (g : Foreign) => bmcaKey (isTelecom (s.instOf i)) x.localPriority g.body g.srcPort.toNat
    let better := match x.foreign with
      | none => true
      | some g => g.srcPort == m.srcPort || lexLt (key f) (key g)
    let s := if better then s.setPi p i fun y => { y with foreign := some f, timedOut := false, annAt := s.tcr.cycles } else s
    let s := match (s.instOf i).ref with
      | some r => if fromParent (s.piOf p i) m then giveUtc r.val (s.setRef r.val fun e => { e with utc := some b.utc }) else s
      | none => s
    runBmca i s

/-! ### Delay exchanges -/

/-- A port acts as a master (R254, R276): in MASTER, or in CALIBRATING under FALLBACK_SERVICE where the BMCA gives it
that state. -/
def actsMaster (s : State) (p i : Nat) : Bool :=
  let st := (s.piOf p i).st
  st == .master || (st == .calibrating && (s.portOf p).fbService.getLsbD 0 && bmcaState s i p == .master)

/-- The live grant of a client for a message type (R282, R297). -/
def grantOf (s : State) (p i : Nat) (addr : BitVec 128) (msgType : Nat) : Option (Nat × LedgerRec) :=
  s.tpe.ledger.find? fun x =>
    x.2.type == 3 && x.2.port.val == p && x.2.inst.val == i && x.2.addr == addr && x.2.flags.toNat == msgType && !grantExpired s x.2

/-- Interval of a record in ns (R297). -/
def intervalNs (g : LedgerRec) : Nat :=
  let li := signed 8 g.interval.toNat
  if 0 ≤ li then 10 ^ 9 * 2 ^ li.toNat else 10 ^ 9 / 2 ^ (-li).toNat

/-- The policer of a Delay_Resp grant (R269): twice the granted rate, a burst of 4; the record less the request, or none. -/
def policeGrant (s : State) (g : LedgerRec) : Option LedgerRec :=
  let add := (s.tcr.cycles - g.filledAt) * 512 / intervalNs g
  let b := min 1024 (g.bucket + add)
  if b < 256 then none else some { g with bucket := b - 256, filledAt := s.tcr.cycles, last := BitVec.ofNat 16 (now16 s) }

/-- A Delay_Req is answered (R277). -/
def takeDelayReq (rx : PtpRx) (dst : BitVec 128) (ing : Nat) (s : State) : State :=
  let p := rx.port.val
  let i := rx.inst.val
  if !actsMaster s p i then s else
  let m := { ptpMessage s p i .delayResp rx.msg.seq with
    correction := rx.msg.correction, reqPort := rx.msg.srcPort, time := ptpTime ing }
  (sendReply p i .delayResp m dst rx.mac s).2

/-- The delay exchange of a port ends with a path delay. -/
def pathDone (p i : Nat) (d : Int) (fallback : Bool) (s : State) : State :=
  s.setPi p i fun x => { x with pathDelay := some d, pathFallback := fallback, delay := none }

/-- A Delay_Resp has reached its instance (R253, R283): meanPathDelay of the request whose launch stands. -/
def takeDelayResp (rx : PtpRx) (s : State) : State :=
  let p := rx.port.val
  let i := rx.inst.val
  let m := rx.msg
  let x := s.piOf p i
  match x.delay, x.last with
  | some d, some y =>
    match d.t3 with
    | none => s
    | some t3 =>
      if (instProfile s i).peer || d.seq != m.seq || m.reqPort != portIdentity s p i || !fromParent x m then s else
      let t4 := ptpTicks m.time - m.correction
      pathDone p i (((y.t2 - y.t1) + (t4 - t3)).tdiv 2) (d.fallback || y.fallback) s
  | _, _ => s

/-- A port answers Pdelay_Req (R276). -/
def answersPdelay (s : State) (p i : Nat) : Bool :=
  (instProfile s i).peer && !((s.piOf p i).st == .calibrating && !(s.portOf p).fbService.getLsbD 0)

/-- A Pdelay_Req is answered (R277). -/
def takePdelayReq (rx : PtpRx) (ing : Nat) (s : State) : State :=
  let p := rx.port.val
  let i := rx.inst.val
  if !answersPdelay s p i then s else
  let two := (s.instOf i).twoStep
  let m := { ptpMessage s p i .pdelayResp rx.msg.seq with
    reqPort := rx.msg.srcPort, time := ptpTime ing
    correction := if two then 0 else rx.msg.correction - (ticks ing - ptpTicks (ptpTime ing)) }
  let f := { ptpMessage s p i .pdelayRespFollowUp rx.msg.seq with reqPort := rx.msg.srcPort, correction := rx.msg.correction }
  sendTwoStep p i .pdelayResp .pdelayRespFollowUp m f 0 s

/-- A Pdelay_Resp, or the follow-up of a two-step one, has reached its instance (R277). -/
def takePdelayResp (rx : PtpRx) (ing : Nat) (fallback : Bool) (s : State) : State :=
  let p := rx.port.val
  let i := rx.inst.val
  let m := rx.msg
  match (s.piOf p i).delay with
  | none => s
  | some d =>
    if !(instProfile s i).peer || d.seq != m.seq || m.reqPort != portIdentity s p i then s else
    let fb := d.fallback || fallback
    let t4 := rxClient s p ing
    match d.t3, d.half with
    | some t3, some h => pathDone p i ((h - t3 - ptpTicks m.time - m.correction).tdiv 2) fb s
    | some t3, none =>
      if m.twoStep then
        s.setPi p i fun x => { x with delay := some { d with half := some (t4 + ptpTicks m.time - m.correction), fallback := fb } }
      else pathDone p i ((t4 - t3 - m.correction).tdiv 2) fb s
    | none, _ => s

/-! ### Messages at their instance -/

/-- A message acts on its instance (R276, R277, R283), with the ingress time and the FALLBACK noted at its reception. -/
def takeMessage (t : PtpType) (dst : BitVec 128) (rx : PtpRx) (ing : Nat) (fb : Bool) (s : State) : State :=
  let s := noteMessage t rx s
  match t with
  | .sync => takeSync rx ing fb s
  | .followUp => takeFollowUp rx s
  | .announce => takeAnnounce rx s
  | .delayReq => takeDelayReq rx dst ing s
  | .delayResp => takeDelayResp rx s
  | .pdelayReq => takePdelayReq rx ing s
  | .pdelayResp | .pdelayRespFollowUp => takePdelayResp rx ing fb s
  | .signaling => s

/-- A message is received for its instance: verified where AUTH asks for it, then it acts. -/
def hearMessage (t : PtpType) (dst : BitVec 128) (rx : PtpRx) (s : State) : State :=
  if !ptpHears s rx then s else
  receiveMessage rx (.message t dst) (fun u => takeMessage t dst rx (rxStamp u rx) (rxFallback u rx.port.val rx.mark) u) s

/-- PTP_SYNC_RECEIVE (R280, R283). -/
def execPtpSyncReceive (rx : PtpRx) (s : State) : Host.Outcome State Fault Refusal :=
  .next (hearMessage .sync 0 rx (serveFrame rx.port rx.mark s))

/-- PTP_FOLLOW_UP_RECEIVE (R277, R283). -/
def execPtpFollowUpReceive (rx : PtpRx) (s : State) : Host.Outcome State Fault Refusal :=
  let s := serveFrame rx.port rx.mark s
  .next (if isTc s rx.inst.val then tcGeneral .followUp rx s else hearMessage .followUp 0 rx s)

/-- PTP_ANNOUNCE_RECEIVE (R97, R276, R279, R280); a transparent clock passes it on. -/
def execPtpAnnounceReceive (rx : PtpRx) (s : State) : Host.Outcome State Fault Refusal :=
  let p := rx.port.val
  let i := rx.inst.val
  let s := serveFrame rx.port rx.mark s
  .next (
    if isTc s i then (if ptpHears s rx then forwardAll p i .announce rx.msg (ptpCount p i 1 s) else s)
    else hearMessage .announce 0 rx s)

/-- PTP_DELAY_REQ_RECEIVE (R269, R276, R277): the policers of unicast requests come first; a port that acts as a master answers. -/
def execPtpDelayReqReceive (rx : PtpRx) (s : State) : Host.Outcome State Fault Refusal :=
  let p := rx.port.val
  let i := rx.inst.val
  let s := serveFrame rx.port rx.mark s
  let addr := clientAddr (s.piOf p i).transport rx.mac rx.addr
  let hear := fun (dst : BitVec 128) (t : State) => if actsMaster t p i then hearMessage .delayReq dst rx t else t
  .next (if !ptpHears s rx || isTc s i || (instProfile s i).peer then s else
    if !rx.unicast then hear 0 s else
    match grantOf s p i addr 0x9 with
    | none => if (instProfile s i).required then ptpCount p i 7 s else hear addr s
    | some (k, g) =>
      match policeGrant s g with
      | none => ptpCount p i 7 s
      | some g => hear addr (putRec k g s))

/-- PTP_DELAY_RESP_RECEIVE (R253, R277, R283); a transparent clock sends it back with the residence time of the request. -/
def execPtpDelayRespReceive (rx : PtpRx) (s : State) : Host.Outcome State Fault Refusal :=
  let s := serveFrame rx.port rx.mark s
  .next (if isTc s rx.inst.val then tcGeneral .delayResp rx s else hearMessage .delayResp 0 rx s)

/-- PTP_PDELAY_REQ_RECEIVE (R276, R277). -/
def execPtpPdelayReqReceive (rx : PtpRx) (s : State) : Host.Outcome State Fault Refusal :=
  let p := rx.port.val
  let i := rx.inst.val
  let s := serveFrame rx.port rx.mark s
  .next (if !ptpHears s rx || !answersPdelay s p i then s
    else hearMessage .pdelayReq 0 rx s)

/-- PTP_PDELAY_RESP_RECEIVE (R277): a Pdelay_Resp, or the follow-up of a two-step one. -/
def execPtpPdelayRespReceive (rx : PtpRx) (s : State) : Host.Outcome State Fault Refusal :=
  .next (hearMessage .pdelayResp 0 rx (serveFrame rx.port rx.mark s))

/-! ### Unicast negotiation (R282) -/

/-- The fastest interval that an instance grants for a message type, if it grants the type. -/
def fastest (x : PtpInst) (msgType : BitVec 4) : Option Int :=
  if msgType = 0x0 then some x.minSync else if msgType = 0xB then some x.minAnnounce else if msgType = 0x9 then some x.minDelay else none

/-- A request for a grant is answered (R282, R298). -/
def answerRequest (sg : Signaling) (li : Int) (dur : Nat) (s : State) : State :=
  let p := sg.rx.port.val
  let i := sg.rx.inst.val
  let x := s.instOf i
  let addr := clientAddr (s.piOf p i).transport sg.rx.mac sg.rx.addr
  let old := s.tpe.ledger.find? fun e =>
    e.2.type == 3 && e.2.port.val == p && e.2.inst.val == i && e.2.addr == addr && e.2.flags.toNat == sg.msgType.toNat
  let cap := grantCap s.cpx.imposition
  let room := match old with
    | some (k, _) => some k
    | none =>
      if cap ≤ grantCount s none ∨ min cap (x.maxGrants.getD cap) ≤ grantCount s (some i) then none else freeIndex s
  let deny := sendSignaling p i sg.msgType (.granted li 0) addr (ptpCount p i 8 s)
  match fastest x sg.msgType, room with
  | none, _ | _, none => deny
  | some fast, some k =>
    if li < fast ∨ ((s.piOf p i).transport ≠ 0 ∧ (s.portOf p).nextHop = 0) then deny else
    let d := min dur x.grantMax
    let g : LedgerRec :=
      { addr := addr, port := sg.rx.port, type := 3, inst := sg.rx.inst, transport := (s.piOf p i).transport
        last := BitVec.ofNat 16 (now16 s), tokens := BitVec.ofNat 16 (now16 s + d), interval := BitVec.ofInt 8 li
        flags := BitVec.ofNat 8 sg.msgType.toNat
        filledAt := match old with
          | some (_, o) => o.filledAt
          | none => if sg.msgType = 0x9 then s.tcr.cycles else 0
        bucket := match old with
          | some (_, o) => o.bucket
          | none => 1024 }
    sendSignaling p i sg.msgType (.granted li d) addr (putRec k g s)

/-- Index of a message type among the grants that a grantee holds: Announce, Sync, Delay_Resp. -/
def grantIdx (msgType : BitVec 4) : Nat := if msgType = 0xB then 0 else if msgType = 0x0 then 1 else 2

/-- The profile of an instance knows unicast negotiation (R273). -/
def negotiates (s : State) (i : Nat) : Bool := (instProfile s i).required || (instProfile s i).optional

/-- One negotiation TLV acts (R282). -/
def negotiate (sg : Signaling) (s : State) : State :=
  let p := sg.rx.port.val
  let i := sg.rx.inst.val
  let x := s.piOf p i
  let master := x.unicastMaster != 0 && clientAddr x.transport sg.rx.mac sg.rx.addr == x.unicastMaster
  match sg.action with
  | .request li dur => if (s.instOf i).grantor && negotiates s i then answerRequest sg li dur s else s
  | .granted li dur =>
    if !(master && negotiates s i) then s else
    s.setPi p i fun y =>
      { y with grants := vmod y.grants (grantIdx sg.msgType) fun _ =>
          if dur = 0 then none else some { expiry := s.tcr.cycles + dur * 10 ^ 9, duration := dur, log := li } }
  | .cancel =>
    let addr := clientAddr x.transport sg.rx.mac sg.rx.addr
    let s := freeRecs (fun _ g => g.type == 3 && g.port.val == p && g.inst.val == i && g.addr == addr && g.flags.toNat == sg.msgType.toNat) s
    if master then s.setPi p i fun y => { y with grants := vmod y.grants (grantIdx sg.msgType) fun _ => none } else s

/-- A Signaling message has reached its instance; negotiation waits for the end of a WARM restart (R282, R303). -/
def takeSignaling (sg : Signaling) (s : State) : State :=
  let s := noteMessage .signaling sg.rx s
  if s.fwRuns then negotiate sg s else { s with tpe := { s.tpe with held := s.tpe.held ++ [sg] } }

/-- PTP_SIGNALING_RECEIVE (R282, R303). -/
def execPtpSignalingReceive (sg : Signaling) (s : State) : Host.Outcome State Fault Refusal :=
  let s := serveFrame sg.rx.port sg.rx.mark s
  .next (if isTc s sg.rx.inst.val || !ptpHears s sg.rx then s
    else receiveMessage sg.rx (.signaling sg) (takeSignaling sg) s)

/-- The negotiation that a WARM restart held back (R303). -/
def releaseHeld (s : State) : State :=
  s.tpe.held.foldl (fun t sg => negotiate sg t) { s with tpe := { s.tpe with held := [] } }

/-- The grantee asks for a grant that it does not hold, or of whose duration 25 % or less remain (R282). -/
def wantsGrant (s : State) (p i n : Nat) : Bool :=
  match heldGrant s p i n with
  | none => true
  | some g => decide (4 * (g.expiry - s.tcr.cycles) ≤ g.duration * 10 ^ 9)

/-- UNICAST_GRANT_RENEW (R282): the grantee asks its master for the grants that it wants, of Announce, Sync and Delay_Resp. -/
def execUnicastGrantRenew (inst : PtpId) (port : LaneId) (s : State) : Host.Outcome State Fault Refusal :=
  let p := port.val
  let i := inst.val
  let x := s.piOf p i
  let y := s.instOf i
  let ask := fun (n : Nat) (msgType : BitVec 4) (log : Int) (t : State) =>
    if wantsGrant s p i n then sendSignaling p i msgType (.request log y.reqDuration) x.unicastMaster t else t
  .next (if !(s.fwRuns && s.blockRuns 12 && piEnabled s p i && negotiates s i && x.unicastMaster != 0) then s else
    ask 2 0x9 y.reqDelay (ask 1 0x0 y.reqSync (ask 0 0xB y.reqAnnounce s)))

/-- UNICAST_GRANT_EXPIRY (R282, R297, R303): a grant past its expiry ends. -/
def execUnicastGrantExpiry (record : Nat) (s : State) : Host.Outcome State Fault Refusal :=
  .next (if s.fwRuns then freeRecs (fun k g => k == record && g.type == 3 && grantExpired s g) s else s)

/-- Serve the grantees of a message type whose interval has passed (R282). -/
def serveGrants (p i msgType : Nat) (send : BitVec 128 → State → State) (s : State) : State :=
  (s.tpe.ledger.filter fun e =>
    e.2.type == 3 && e.2.port.val == p && e.2.inst.val == i && e.2.flags.toNat == msgType && !grantExpired s e.2 &&
      decide (e.2.filledAt + intervalNs e.2 ≤ s.tcr.cycles)).foldl
    (fun t e => putRec e.1 { e.2 with filledAt := t.tcr.cycles, last := BitVec.ofNat 16 (now16 t) } (send e.2.addr t)) s

/-! ### Sending -/

/-- The bound that a served message carries (R251): with the port's charge where its launch, or the ingress of what it answers,
is FALLBACK. -/
def servedBound (s : State) (p v : Nat) (fallback : Bool) : Nat :=
  let b := viewBound s v
  if b = boundUnknown ∨ !(fallback || portFallback s p) then b else min (2 ^ 48 - 2) (b + fallbackCharge (s.laneOf p))

/-- The Announce that a port sends (R278, R279). -/
def announceMessage (s : State) (p i : Nat) : PtpMsg :=
  let x := s.instOf i
  let v := x.view.val
  let b := servedBound s p v false
  let slave := (List.range 24).any fun q => (s.piOf q i).st == .slave
  let body := match slave, parentOf s i with
    | true, some f => { f.body with steps := f.body.steps + 1 }
    | _, _ => { ownAnnounce s i with accuracy := BitVec.ofNat 8 (clockAccuracy b) }
  { ptpMessage s p i .announce (s.piOf p i).seqAnnounce with
    announce := some body
    inaccuracy := if x.profile.val = 3 then some (BitVec.ofNat 32 (boundNs b)) else none
    assurance := if x.assurance then some { assuranceOf s v with boundPs := BitVec.ofNat 48 b } else none }

/-- The port-instance has not sent to the group for its interval (R275): 0 Announce, 1 Sync, 2 delay requests. -/
def sendDue (s : State) (p i n : Nat) (log : Int) : Bool :=
  match vget (s.piOf p i).sentAt n none with
  | none => true
  | some c => decide (c + logCycles log ≤ s.tcr.cycles)

/-- The port-instance sends now. -/
def noteSent (p i n : Nat) (s : State) : State := s.setPi p i fun x => { x with sentAt := vmod x.sentAt n fun _ => some s.tcr.cycles }

/-- Send to the multicast group at the interval of the port, unless the profile asks for negotiation, and to the grantees at theirs
(R273, R275, R282). -/
def sendStream (p i n msgType : Nat) (send : BitVec 128 → State → State) (s : State) : State :=
  serveGrants p i msgType send
    (if !(instProfile s i).required && sendDue s p i n (ownLog s p i n) then send 0 (noteSent p i n s) else s)

/-- The Announce that a port sends next: firmware's, which becomes the galley's template; during a WARM restart the template of a port
in MASTER with the quality, the UTC information and the bound of now (R303). -/
def nextAnnounce (s : State) (p i : Nat) : Option PtpMsg :=
  let new := announceMessage s p i
  if s.fwRuns then some new else
  if (s.piOf p i).st != .master then none else
  (s.piOf p i).template.map fun m =>
    { m with
      seq := new.seq
      announce := (match m.announce, new.announce with
        | some a, some b => some { a with
            clockClass := b.clockClass, accuracy := b.accuracy, variance := b.variance, timeSource := b.timeSource
            timeTraceable := b.timeTraceable, freqTraceable := b.freqTraceable, utc := b.utc }
        | a, _ => a)
      inaccuracy := if m.inaccuracy.isSome then new.inaccuracy else none
      assurance := if m.assurance.isSome then new.assurance else none }

/-- PTP_ANNOUNCE_SEND (R276, R278, R279, R303). -/
def execPtpAnnounceSend (inst : PtpId) (port : LaneId) (s : State) : Host.Outcome State Fault Refusal :=
  let p := port.val
  let i := inst.val
  .next (if !(piEnabled s p i && actsMaster s p i) then s else
    sendStream p i 0 0xB (fun dst t =>
      match nextAnnounce t p i with
      | none => t
      | some m => (sendPtp p i .announce m dst none (t.setPi p i fun x => { x with seqAnnounce := x.seqAnnounce + 1, template := some m })).2) s)

/-- PTP_SYNC_SEND (R256, R276, R277). -/
def execPtpSyncSend (inst : PtpId) (port : LaneId) (s : State) : Host.Outcome State Fault Refusal :=
  let p := port.val
  let i := inst.val
  .next (if !(piEnabled s p i && actsMaster s p i) then s else
    sendStream p i 1 0x0 (fun dst t =>
      let q := (t.piOf p i).seqSync
      let t := t.setPi p i fun x => { x with seqSync := x.seqSync + 1 }
      sendTwoStep p i .sync .followUp (ptpMessage t p i .sync q) (ptpMessage t p i .followUp q) dst t) s)

/-- PTP_DELAY_REQ_SEND (R273, R275, R277): a Delay_Req of a port that follows a master, or a Pdelay_Req, at its interval. -/
def execPtpDelayReqSend (inst : PtpId) (port : LaneId) (s : State) : Host.Outcome State Fault Refusal :=
  let p := port.val
  let i := inst.val
  let x := s.piOf p i
  let peer := (instProfile s i).peer
  let runs := x.st != .disabled && x.st != .faulty && x.st != .initializing
  let follows := followsMaster x.st || (x.st == .calibrating && x.last.isSome)
  .next (if !(piEnabled s p i && (if peer then runs else follows && !isTc s i) && sendDue s p i 2 (heardLog s p i 2)) then s else
    let t : PtpType := if peer then .pdelayReq else .delayReq
    let m := ptpMessage s p i t x.seqDelay
    match sendPtp p i t m x.unicastMaster none (noteSent p i 2 (s.setPi p i fun y => { y with seqDelay := y.seqDelay + 1 })) with
    | (.reserved _, s) => s.setPi p i fun y => { y with delay := some { seq := x.seqDelay } }
    | (_, s) => s)

/-! ### Timers -/

/-- ANNOUNCE_RECEIPT_TIMEOUT (R275, R276): ANNOUNCE_TIMEOUT intervals have passed since the last Announce; the port loses it, and
the BMCA runs. -/
def execAnnounceReceiptTimeout (inst : PtpId) (port : LaneId) (s : State) : Host.Outcome State Fault Refusal :=
  let p := port.val
  let i := inst.val
  .next (if !(piEnabled s p i && s.blockRuns 12) then s else
    atCycle ((s.piOf p i).annAt + announceWait s p i)
      (fun t => runBmca i (t.setPi p i fun x => { x with foreign := none, timedOut := true })) s)

/-- Mean of the offsets of a port over the last 16 s. -/
def meanOffset (x : PortInst) : ℚ := meanQ (x.offsets.map fun o => (o.2 : ℚ))

/-- The PASSIVE_SLAVE port of a pair becomes SLAVE (R286); the mean difference of the offsets reaches RIM as a declared
correction. -/
def swapSlaves (i old new : Nat) (s : State) : State :=
  let x := s.piOf old i
  let y := s.piOf new i
  let diff := meanOffset y - meanOffset x
  let s := match (s.instOf i).ref with
    | some r => if x.offsets.isEmpty || y.offsets.isEmpty then s
        else declareCorrection r.val (-(round (diff * 1000 / 65536))) s
    | none => s
  let s := if x.st == .slave || x.st == .uncalibrated then movePi old i .passiveSlave s else s
  movePi new i .slave s

/-- The SLAVE port of a pair has lost its lane, or delivers no measurement for ANNOUNCE_TIMEOUT Announce intervals (R286). -/
def takeOver (i old new : Nat) (s : State) : State :=
  let x := s.piOf old i
  if !laneUp (s.laneOf old) || !(x.st == .slave || x.st == .uncalibrated) then swapSlaves i old new s
  else atCycle (x.measuredAt + announceWait s old i) (swapSlaves i old new) s

/-- PRP_SLAVE_TAKEOVER (R286). -/
def execPrpSlaveTakeover (inst : PtpId) (pair : Fin 12) (s : State) : Host.Outcome State Fault Refusal :=
  let i := inst.val
  let a := 2 * pair.val
  .next (if !((s.pairOf pair.val).enable && s.blockRuns 12) then s
    else if (s.piOf a i).st == .passiveSlave then takeOver i (a + 1) a s
    else if (s.piOf (a + 1) i).st == .passiveSlave then takeOver i a (a + 1) s
    else s)

/-- LEDGER_SWEEP (R298, R303): NTP and NTS records idle for IDLE_S and grants past their expiry are freed. -/
def execLedgerSweep (s : State) : Host.Outcome State Fault Refusal :=
  .next (if !(s.fwRuns && s.blockRuns 12) then s else
    freeRecs (fun _ g => if g.type = 3 then grantExpired s g else decide (s.tpe.idleS ≤ age16 s g.last)) s)

/-! ### ESMC (R302) -/

/-- The received code or the timeout has changed (R302): interrupt source 13. -/
def setSsm (p : Nat) (ssm : BitVec 4) (essm : Byte) (timeout : Bool) (s : State) : State :=
  let x := s.portOf p
  let s := s.setPort p fun y => { y with ssm := ssm, essm := essm, esmcTimeout := timeout }
  if x.ssm ≠ ssm ∨ x.essm ≠ essm ∨ x.esmcTimeout ≠ timeout then raiseIrq 13 s else s

/-- The port reads or sends ESMC (R271, R272, R302). -/
def esmcOn (s : State) (p bitNo : Nat) : Bool :=
  s.blockRuns 12 && laneUp (s.laneOf p) && (s.portOf p).esmcMode.getLsbD bitNo && (s.portOf p).hostPath != 1

/-- ESMC_PDU_RECEIVE (R302): an information PDU ends the timeout and starts it again; an event PDU brings its code alone. -/
def execEsmcPduReceive (port : LaneId) (ssm : EsmcPdu) (enhanced : Option Byte) (s : State) :
    Host.Outcome State Fault Refusal :=
  let p := port.val
  .next (if !esmcOn s p 0 then s else
    setSsm p ssm.code (enhanced.getD 0xFF) (ssm.event && (s.portOf p).esmcTimeout)
      (s.setPort p fun x => { x with esmcRx := min (2 ^ 32 - 1) (x.esmcRx + 1)
                                     esmcHeardAt := if ssm.event then x.esmcHeardAt else s.tcr.cycles }))

/-- An ESMC PDU leaves (R302). -/
def sendEsmc (p : Nat) (event : Bool) (s : State) : State :=
  let c := esmcCode s p
  countSent p (s.setPort p fun x => { x with esmcSent := x.esmcSent ++ [(event, c)], ssmSent := some c
                                             esmcSentAt := if event then x.esmcSentAt else some s.tcr.cycles })

/-- ESMC_INFO_SEND (R302, R303): every second. -/
def execEsmcInfoSend (port : LaneId) (s : State) : Host.Outcome State Fault Refusal :=
  let p := port.val
  .next (if esmcOn s p 1 && s.fwRuns && portMac s p != 0 then
      atCycle (match (s.portOf p).esmcSentAt with
        | some c => c + 10 ^ 9
        | none => 0) (sendEsmc p false) s
    else s)

/-- ESMC_EVENT_SEND (R302, R303): the code has changed since it was last sent. -/
def execEsmcEventSend (port : LaneId) (s : State) : Host.Outcome State Fault Refusal :=
  let p := port.val
  .next (if esmcOn s p 1 && s.fwRuns && portMac s p != 0 && (s.portOf p).ssmSent != some (esmcCode s p) then sendEsmc p true s else s)

/-- ESMC_TIMEOUT (R302): 5 s without an information PDU. -/
def execEsmcTimeout (port : LaneId) (s : State) : Host.Outcome State Fault Refusal :=
  let p := port.val
  .next (if s.blockRuns 12 && (s.portOf p).esmcMode.getLsbD 0 then
      atCycle ((s.portOf p).esmcHeardAt + 5 * 10 ^ 9) (fun t => setSsm p 0xF (t.portOf p).essm true t) s
    else s)

end Sys2Proof.Machine
end

