-- ==== Sys2Proof/Machine/Ntp.lean ====
section
/-! DEFINITION. Meanings of the NTP, NTS and LEDGER jobs, of the server's requests and of the clients' exchanges
(R287–R299). -/

namespace Sys2Proof.Machine

/-! ### Jobs -/

/-- Fields of NTP_SERVER_CONFIG (R288). -/
def serverFields : List Field :=
  [fRange 4 1 0 1, fRange 5 1 0 4, fRange 6 1 0 2, fRange 7 1 1 3, fRange 8 1 1 15, fRange 9 1 0 1, fRange 10 1 0 1, fAny 12 3]

/-- NTP_SERVER_CONFIG (R288). -/
def ntpServerConfigDef : JobDef :=
  { code := 0x2301
    dma := some dmaSame
    fields := [fAny 4 60]
    minResult := fun _ => 64
    rules := fun _ p =>
      if p.u 10 1 = 1 then
        (if p.block then (List.range 60).filterMap fun k => if k ≠ 6 ∧ p.u (4 + k) 1 ≠ 0 then some (4 + k) else none else [10])
      else badFields serverFields p 4 64
    absent := fun s p => (List.range 24).any fun l => (p.u 12 3).testBit l && !s.lanePresent l
    run := fun s _ p =>
      let s := if p.u 10 1 = 1 then s else
        { s with tpe := { s.tpe with server := { s.tpe.server with
          enable := p.u 4 1 == 1, view := p.fin 5 5, gate := p.fin 6 3, versions := BitVec.ofNat 2 (p.u 7 1)
          manualStratum := p.u 8 1, hostModes := p.u 9 1 == 1, portMask := BitVec.ofNat 24 (p.u 12 3) } } }
      reply { out := (s.tpe.server.ctr.toList.flatMap fun c => leBytes 4 c) ++ leBytes 12 0 } s }

/-- Cookie entries of an NTS_CONFIG block (R292). -/
def cookieEntries (p : Params) : Nat := (p.len - 64) / 260

/-- NTS_CONFIG (R292, R316). -/
def ntsConfigDef : JobDef :=
  { code := 0x2302
    dma := some { lenOk := fun n => decide (64 ≤ n) && (n - 64) % 260 == 0 && decide (n ≤ 64 + 260 * 8) }
    fields := [fAny 4 60]
    rules := fun _ p =>
      let form := p.u 4 1
      (if p.block && form == 0 then [4] else []) ++
      badFields [fRange 4 1 0 1, fRange 5 1 0 (if form = 0 then 127 else 7), fRange 6 1 (if form = 0 then 1 else 0) (if form = 0 then 8 else 127),
        fRange 7 1 0 (if form = 0 then 1 else 127), fRange 8 1 0 1] p 4 64 ++
      (if p.block then (List.range (cookieEntries p)).flatMap fun k =>
        let o := 64 + 260 * k
        (if 4 ≤ p.u o 2 ∧ p.u o 2 ≤ 256 ∧ p.u o 2 % 4 = 0 then [] else [o]) ++
        (if p.u (o + 2) 1 = 0 then [] else [o + 2]) ++ (if p.u (o + 3) 1 = 0 then [] else [o + 3])
      else [])
    nsForbids := fun s p => if p.u 4 1 = 0 then secureSlot s (p.u 5 1) else secureSlot s (p.u 6 1) || secureSlot s (p.u 7 1)
    check := fun s _ p =>
      let has := fun k b => (s.keySlot k).dest.getLsbD b
      if (if p.u 4 1 = 0 then has (p.u 5 1) 0 else has (p.u 6 1) 1 && has (p.u 7 1) 1) then none else some rejState
    run := fun s _ p =>
      if p.u 4 1 = 0 then
        done { s with tpe := { s.tpe with nts :=
          { slot := p.opt 5 128, maxCookies := p.u 6 1, nak := p.u 7 1 == 1, require := p.u 8 1 == 1 } } }
      else
        let new := if p.block then (List.range (cookieEntries p)).map fun k => p.bytes (64 + 260 * k + 4) (p.u (64 + 260 * k) 2) else []
        done (s.setClient (p.u 5 1) fun c =>
          { c with c2s := p.opt 6 128, s2c := p.opt 7 128, jar := ((if p.u 8 1 = 1 then [] else c.jar) ++ new).take 8 }) }

/-- NTP_CLIENT_CONFIG (R294, R295, R316): with NTS the job names the slots of its client. -/
def ntpClientConfigDef : JobDef :=
  { code := 0x2303
    fields := [fRange 4 1 0 7, fRange 5 1 0 1, fRange 6 1 18 30, fRange 7 1 0 23, fRange 8 1 0 3, fRange 9 1 0 1, fSigned 10 1 (-6) 10,
               fRange 11 1 0 1, { off := 12, len := 2, ok := fun v => decide (v ≤ 4094) || v == 0xFFFF },
               { off := 14, len := 2, ok := fun v => v == 123 || decide (1024 ≤ v) }, fAny 16 16]
    rules := fun s p => if refTaken s (p.u 6 1) none (some (p.u 4 1)) then [6] else []
    absent := fun s p => decide (p.u 7 1 < 24) && !s.lanePresent (p.u 7 1)
    nsForbids := fun s p =>
      p.u 9 1 == 1 && [(s.clientOf (p.u 4 1)).c2s, (s.clientOf (p.u 4 1)).s2c].any fun k => k.any fun n => secureSlot s n.val
    run := fun s _ p =>
      done (s.setClient (p.u 4 1) fun c =>
        let new := { c with
          enable := p.u 5 1 == 1, ref := p.opt 6 32, port := p.fin 7 24, dom := p.fin 8 4, nts := p.u 9 1 == 1, logPoll := p.i 10 1
          ipv6 := p.u 11 1 == 1, vlan := vlanOf (p.u 12 2), udpPort := p.u 14 2, server := BitVec.ofNat 128 (p.u 16 16)
          poll := p.i 10 1, stopped := false }
        if { new with logPoll := c.logPoll, poll := c.poll, stopped := c.stopped } = c then new
        else { new with t1 := none, t1Ntp := none, uid := none, t1Fallback := false, missed := 0, polledAt := none }) }

/-- NTP_RATE_POLICY (R296). -/
def ntpRatePolicyDef : JobDef :=
  { code := 0x2304
    fields := [fOpt 4 23, fRange 5 1 0 1, fRange 6 1 0 1, fRange 7 1 1 255, fRange 8 2 1 65535, fRange 10 2 1 3600, fRange 12 4 1 40000,
               fRange 16 4 60 32768]
    absent := laneAbsent
    run := fun s _ p =>
      let s := forAll 24 s fun n t =>
        if t.lanePresent n && (p.u 4 1 == 0xFF || p.u 4 1 == n) then
          t.setPort n fun x => { x with monitor := p.u 5 1 == 1, kiss := p.u 6 1 == 1, burst := p.u 7 1, rate := p.u 8 2
                                        kodMin := p.u 10 2, ntpLimit := p.u 12 4 }
        else t
      done { s with tpe := { s.tpe with idleS := p.u 16 4 } } }

/-- A record matches an address, a port (0xFF any) and a type (0 any) of a ledger job (R299). -/
def recMatches (addr : Option Nat) (port type : Nat) (g : LedgerRec) : Bool :=
  (match addr with
   | some a => g.addr.toNat == a
   | none => true) &&
  (port == 0xFF || g.port.val == port) && (type == 0 || g.type.val == type)

/-- The ADDRESS field of a ledger job: octets in network order (R297). -/
def addrField (p : Params) (off : Nat) : Nat := leNat (p.bytes off 16).reverse

/-- LEDGER_QUERY (R299, R306). -/
def ledgerQueryDef : JobDef :=
  { code := 0x2401
    fields := [fAny 4 16, fOpt 20 23, fRange 21 1 0 3]
    nextImp := false
    absent := fun s p => decide (p.u 20 1 < 24) && !s.lanePresent (p.u 20 1)
    nsForbids := fun s _ => poolSecure s 4
    run := fun s _ p =>
      let hits := s.tpe.ledger.filter fun e => recMatches (some (addrField p 4)) (p.u 20 1) (p.u 21 1) e.2
      match hits with
      | [] => reply { r1 := 0xFFFFFFFF } s
      | e :: _ =>
        let b := recBytes s e.2
        reply { r0 := word hits.length, r1 := word e.1, r2 := word (leNat ((b.drop 16).take 4)), r3 := word (leNat (b.drop 20)) } s }

/-- LEDGER_EVICT (R299, R306). -/
def ledgerEvictDef : JobDef :=
  { code := 0x2402
    fields := [fRange 4 1 0 2, fAny 8 16, fOpt 24 23, fRange 25 1 0 3]
    absent := fun s p => decide (p.u 24 1 < 24) && !s.lanePresent (p.u 24 1)
    nsForbids := fun s _ => poolSecure s 4
    run := fun s _ p =>
      let hit := fun (g : LedgerRec) =>
        if p.u 4 1 = 2 then true
        else recMatches (if p.u 4 1 = 0 then some (addrField p 8) else none) (p.u 24 1) (p.u 25 1) g
      let n := (s.tpe.ledger.filter fun e => hit e.2).length
      reply { r0 := word n } (freeRecs (fun _ g => hit g) (cancelGrants hit s)) }

/-- LEDGER_EXPORT (R299, R306). -/
def ledgerExportDef : JobDef :=
  { code := 0x2403
    dma := some { required := true, lenOk := fun n => n == 12, covered := 12 }
    fields := [fAny 0 4, fRange 4 4 1 262144, fRange 8 1 0 3]
    nextImp := false
    rules := fun s p => if s.srt.straps.spi ∧ 2730 < p.u 4 4 then [4] else []
    minResult := fun p => 24 * p.u 4 4
    nsForbids := fun s _ => poolSecure s 4
    run := fun s _ p =>
      let hits := s.tpe.ledger.filter fun e => decide (p.u 0 4 ≤ e.1) && recMatches none 0xFF (p.u 8 1) e.2
      let out := hits.take (p.u 4 4)
      let next := match hits.drop (p.u 4 4) with
        | [] => 0xFFFFFFFF
        | e :: _ => e.1
      reply { r0 := word out.length, r1 := word next, out := out.flatMap fun e => recBytes s e.2 } s }

def execNtpServerConfig (j : Job) (s : State) : Host.Outcome State Fault Refusal := .next (directJob ntpServerConfigDef j s)
/-- NTP_SERVER_CONFIG with READ_ONLY (R288). -/
def execNtpServerRead (j : Job) (s : State) : Host.Outcome State Fault Refusal :=
  .next (directJob ntpServerConfigDef (withByte 10 1 j) s)
/-- NTS_CONFIG FORM 0 (R292). -/
def execNtsConfigServer (j : Job) (s : State) : Host.Outcome State Fault Refusal := .next (directJob ntsConfigDef (withByte 4 0 j) s)
/-- NTS_CONFIG FORM 1 (R292). -/
def execNtsConfigClient (j : Job) (s : State) : Host.Outcome State Fault Refusal := .next (directJob ntsConfigDef (withByte 4 1 j) s)
def execNtpClientConfig (j : Job) (s : State) : Host.Outcome State Fault Refusal := .next (directJob ntpClientConfigDef j s)
def execNtpRatePolicy (j : Job) (s : State) : Host.Outcome State Fault Refusal := .next (directJob ntpRatePolicyDef j s)
def execLedgerQuery (j : Job) (s : State) : Host.Outcome State Fault Refusal := .next (directJob ledgerQueryDef j s)
def execLedgerEvict (j : Job) (s : State) : Host.Outcome State Fault Refusal := .next (directJob ledgerEvictDef j s)
def execLedgerExport (j : Job) (s : State) : Host.Outcome State Fault Refusal := .next (directJob ledgerExportDef j s)

/-! ### The server (R287) -/

/-- Stratum that the server shows (R287). -/
def serverStratum (s : State) (v : Nat) : Nat :=
  let g := (s.domain (recordDomain s v)).ledger
  if !viewValid s v then 16
  else match g.chainClass.val with
    | 1 | 2 | 4 | 5 => 1
    | 3 => min 16 (g.chainHops.val + 1)
    | 6 | 7 => s.tpe.server.manualStratum
    | _ => 16

/-- Reference ID of the upstream NTP server (R287). -/
def upstreamId (s : State) (r : Option (Fin 32)) : Nat :=
  match (List.range 8).find? fun c => (s.clientOf c).enable && (s.clientOf c).ref == r && r.isSome with
  | none => 0
  | some c => if (s.clientOf c).ipv6 then (Config.md5Head (s.clientOf c).server).toNat else (s.clientOf c).server.toNat % 2 ^ 32

/-- Reference ID (R287). -/
def serverRefId (s : State) (v : Nat) : BitVec 32 :=
  let g := (s.domain (recordDomain s v)).ledger
  BitVec.ofNat 32 (match g.chainClass.val with
    | 1 => 0x474E5353
    | 2 => 0x50545000
    | 3 => upstreamId s g.lastRef
    | 4 => 0x50505300
    | 5 => 0x454E5300
    | 6 | 7 => 0x4C4F434C
    | _ => 0)

/-- Reference timestamp (R287): the last confirmation. -/
def serverRefTime (s : State) (v : Nat) : BitVec 64 :=
  let g := (s.domain (recordDomain s v)).ledger
  if g.everConfirmed then ntpTimestamp s v ((viewSecond s v - g.sinceConfirm.toNat) * secU) else 0

/-- Ingress time of a request in the server's domain (R246). -/
def serverStamp (s : State) (rx : NtpRx) : Nat := ingressStamp s rx.port.val rx.mark s.tpe.server.view.val

/-- The response to a request with its ingress time, but for its transmit timestamp (R287). -/
def serverMessage (s : State) (rx : NtpRx) (ing : Nat) : NtpMsg :=
  let v := s.tpe.server.view.val
  let p := rx.port.val
  { leap := Fin.ofNat 4 (ntpLeap s v), version := rx.msg.version, mode := 4, stratum := BitVec.ofNat 8 (serverStratum s v)
    poll := rx.msg.poll, rootDelay := 0, rootDisp := BitVec.ofNat 32 (rootDispersion (servedBound s p v (rxFallback s p rx.mark)))
    precision := BitVec.ofInt 8 (-30), refId := serverRefId s v, refTime := serverRefTime s v, orig := rx.msg.xmit
    recv := ntpTimestamp s v ing, xmit := 0, nts := none, bytes := 48 }

/-- A kiss code in a response (R289, R296). -/
def kissMessage (s : State) (rx : NtpRx) (ing : Nat) (code : BitVec 32) (nts : Option NtsFields) : NtpMsg :=
  { serverMessage s rx ing with
    leap := 3, stratum := 0, refId := code, nts := nts
    bytes := 48 + (match nts with
      | some n => 4 + n.uid.length
      | none => 0) }

/-- Bytes of an NTP frame on the wire, FCS included. -/
def ntpFrameBytes (ipv6 tagged : Bool) (payload : Nat) : Nat :=
  max 64 (18 + (if tagged then 4 else 0) + (if ipv6 then 48 else 28) + payload)

/-- Send a response to a client (R256, R285). -/
def sendResponse (rx : NtpRx) (m : NtpMsg) (cookies : List (List Byte)) (auth : FrameAuth) (s : State) : SendResult × State :=
  if !mayOriginate s rx.port.val then (.portOff, s) else
  sendFrame { id := 0, port := rx.port, view := s.tpe.server.view, kind := .ntpResponse m cookies, auth := auth, launch := 0
              fallback := false, bytes := ntpFrameBytes rx.ipv6 false m.bytes, dst := rx.addr, da := rx.mac } s

/-- The server takes requests on a port (R254, R268, R288). -/
def serves (s : State) (p : Nat) : Bool :=
  s.blockRuns 12 && s.lanePresent p && laneUp (s.laneOf p) && (s.portOf p).enable && (s.portOf p).hostPath != 1 &&
    s.tpe.server.enable && s.tpe.server.portMask.getLsbD p

/-- The frame of a request, as the host path carries it (R287). -/
def requestFrame (s : State) (rx : NtpRx) : Frame :=
  { dst := portMac s rx.port.val, src := rx.mac, tags := 0, vlan := 0
    body := .udp rx.ipv6 ((portAddr s rx.port.val rx.ipv6).getD 0) rx.addr 123 123 true false, bytes := rx.msg.bytes, rctSeq := none }

/-- A new client's record: a full bucket (R296). -/
def newClient (s : State) (rx : NtpRx) (nts : Bool) : LedgerRec :=
  { addr := rx.addr, port := rx.port, type := if nts then 2 else 1, transport := if rx.ipv6 then 2 else 1
    last := BitVec.ofNat 16 (now16 s), tokens := BitVec.ofNat 16 ((s.portOf rx.port.val).burst * 256), interval := 0, flags := 0
    filledAt := s.tcr.cycles }

/-- The bucket of a record as it stands now (R296). -/
def refill (s : State) (g : LedgerRec) : LedgerRec :=
  let x := s.portOf g.port.val
  let add := (s.tcr.cycles - g.filledAt) * x.rate / 10 ^ 9
  let top := x.burst * 256
  if top ≤ g.tokens.toNat + add then { g with tokens := BitVec.ofNat 16 top, filledAt := s.tcr.cycles }
  else { g with tokens := BitVec.ofNat 16 (g.tokens.toNat + add), filledAt := g.filledAt + add * 10 ^ 9 / x.rate }

/-- The record of a client, its own or one that it takes (R298). -/
def clientRecord (s : State) (rx : NtpRx) (nts : Bool) : Option (Nat × LedgerRec) :=
  match s.tpe.ledger.find? fun e =>
      e.2.addr == rx.addr && e.2.port == rx.port && e.2.type == (if nts then 2 else 1 : Fin 4) with
  | some e => some (e.1, refill s e.2)
  | none =>
    match freeIndex s with
    | some k => some (k, newClient s rx nts)
    | none => (oldestClient s).map fun k => (k, newClient s rx nts)

/-- The policer of one client (R269, R296): whether the request is admitted; a plain one over the limit may draw a kiss
code RATE. -/
def rateLimit (rx : NtpRx) (nts : Bool) (s : State) : Bool × State :=
  let x := s.portOf rx.port.val
  if !x.monitor then (true, s) else
  match clientRecord s rx nts with
  | none => (true, s)
  | some (k, g) =>
    if 256 ≤ g.tokens.toNat then
      (true, putRec k { g with tokens := g.tokens - 256, last := BitVec.ofNat 16 (now16 s) } s)
    else
      let g := { g with interval := if g.interval = 0xFF then 0xFF else g.interval + 1 }
      let s := ntpCount rx.port.val 6 s
      let sec := s.tcr.cycles / 10 ^ 9
      if nts || !x.kiss || (g.flags.getLsbD 0 && decide (sec < g.kissAt + x.kodMin)) then (false, putRec k g s)
      else
        let s := putRec k { g with flags := 1, kissAt := sec } s
        (false, match sendResponse rx (kissMessage s rx (serverStamp s rx) 0x52415445 none) [] .none s with
          | (.reserved _, s) => ntpCount rx.port.val 7 s
          | (_, s) => s)

/-- Version and mode of a request (R287): none where it goes no further. -/
def admitMode (rx : NtpRx) (s : State) : Bool × State :=
  let p := rx.port.val
  let m := rx.msg
  if m.mode = 6 ∨ m.mode = 7 then
    (false, if s.tpe.server.hostModes then
      hostPath p (hostIngress s p rx.mark) (requestFrame s rx) s else s)
  else if m.mode ≠ 3 then (false, s)
  else if !((m.version == 3 && s.tpe.server.versions.getLsbD 0) || (m.version == 4 && s.tpe.server.versions.getLsbD 1)) then
    (false, ntpCount p 9 s)
  else (true, s)

/-- GATE and FALLBACK_SERVICE of the server (R202, R254, R288). -/
def admitGate (rx : NtpRx) (s : State) : Bool × State :=
  let p := rx.port.val
  if !gateOpen s s.tpe.server.view.val s.tpe.server.gate then (false, ntpCount p 8 s)
  else (!portFallback s p || (s.portOf p).fbService.getLsbD 1, s)

/-! ### NTS (R289–R291) -/

/-- The number that octets in network order spell. -/
def beNat (b : List Byte) : Nat := leNat b.reverse

/-- The cookie master key that a KEY_ID names (R291): the current key of a COOKIE slot, or its previous key. -/
def cookieKey (s : State) (keyId : Nat) : Option (Nat × List Byte) :=
  match (List.range 128).find? fun k => keyUsable s k 0 && (s.keySlot k).keyId.toNat == keyId with
  | some k => some (k, (s.keySlot k).key)
  | none =>
    ((List.range 128).find? fun k => keyUsable s k 0 && (prevKey s k).isSome && (s.keySlot k).prevKeyId.toNat == keyId).map fun k =>
      (k, (prevKey s k).getD [])

/-- Length of a server cookie (R291). -/
def cookieLen : Nat := 104

/-- Open a cookie (R289, R291): its C2S and S2C keys. -/
def openCookie (c : List Byte) (s : State) : Option (List Byte × List Byte) × State :=
  match cookieKey s (beNat (c.take 4)) with
  | none => (none, s)
  | some (k, key) =>
    let s := useKey k s
    match Config.sivOpen key ((c.drop 4).take 16) (c.take 4) (c.drop 20) with
    | none => (none, s)
    | some plain =>
      if c.length = cookieLen ∧ beNat (plain.take 2) = 15 ∧ plain.length = 68 then
        (some ((plain.drop 4).take 32, (plain.drop 36).take 32), s)
      else (none, s)

/-- Seal a fresh cookie under the current cookie master key (R290, R291). -/
def newCookie (k : Nat) (c2s s2c : List Byte) (s : State) : List Byte × State :=
  let (nonce, s) := drawBytes 16 s
  let ad := beBytes 4 (s.keySlot k).keyId.toNat
  let plain := beBytes 2 15 ++ beBytes 2 0 ++ c2s ++ s2c
  (ad ++ nonce ++ Config.sivSeal (s.keySlot k).key nonce ad plain, useKey k s)

/-- `n` fresh cookies. -/
def newCookies (k : Nat) (c2s s2c : List Byte) : Nat → State → List (List Byte) × State
  | 0, s => ([], s)
  | n + 1, s =>
    let (c, s) := newCookie k c2s s2c s
    let (cs, s) := newCookies k c2s s2c n s
    (c :: cs, s)

/-- An NTS NAK (R289). -/
def ntsNak (rx : NtpRx) (ing : Nat) (n : NtsFields) (s : State) : State :=
  if !s.tpe.nts.nak then s else
  let only : NtsFields := { n with cookies := [], placeholders := [], nonce := [], cipher := [], covered := [] }
  match sendResponse rx (kissMessage s rx ing 0x4E54534E (some only)) [] .none s with
  | (.reserved _, s) => ntpCount rx.port.val 4 s
  | (_, s) => s

/-- A valid NTS request is answered (R290). -/
def ntsAnswer (rx : NtpRx) (ing : Nat) (n : NtsFields) (c2s s2c : List Byte) (s : State) : State :=
  let want := min s.tpe.nts.maxCookies (1 + (n.placeholders.filter fun l => l == cookieLen).length)
  let (cookies, s) := match s.tpe.nts.slot with
    | some k => if keyUsable s k.val 0 then newCookies k.val c2s s2c want s else ([], s)
    | none => ([], s)
  let only : NtsFields := { n with cookies := [], placeholders := [], nonce := [], cipher := [], covered := [] }
  let m := { serverMessage s rx ing with nts := some only, bytes := 48 + 4 + n.uid.length + 40 + cookies.length * (4 + cookieLen) }
  match sendResponse rx m cookies (.nts s2c) s with
  | (.reserved _, s) => ntpCount rx.port.val 1 (ntpCount rx.port.val 3 s)
  | (_, s) => s

/-- An NTS request past its policers (R289, R300): its transaction takes a scheduler slot or is dropped as NO_SLOT; its first AUE
job opens the cookie. -/
def serveNts (rx : NtpRx) (n : NtsFields) (s : State) : State :=
  let p := rx.port.val
  let tx := s.tpe.built
  match (if s.blockRuns 13 then takeSlot true tx s else none) with
  | none => ntpCount p 10 s
  | some s =>
    let (keys, s) := openCookie (n.cookies.headD []) s
    let w : RxWork :=
      { tx := tx, pass := keys.isSome, key := 0, ingress := ingressStamp s p rx.mark s.tpe.server.view.val, fallback := rxFallback s p rx.mark
        msg := .request rx n keys false }
    { s with tpe := { s.tpe with built := tx + 1 }, aue := { s.aue with work := s.aue.work ++ [w] } }

/-- A request reaches the server (R287–R290, R296). -/
def serveRequest (rx : NtpRx) (s : State) : State :=
  let p := rx.port.val
  if !serves s p then s else
  match admitMode rx s with
  | (false, s) => s
  | (true, s) =>
    let s := ntpCount p 0 s
    match rx.msg.nts with
    | none =>
      if s.tpe.nts.require then s else
      match admitGate rx s with
      | (false, s) => s
      | (true, s) =>
        match rateLimit rx false s with
        | (false, s) => s
        | (true, s) =>
          match sendResponse rx (serverMessage s rx (serverStamp s rx)) [] .none s with
          | (.reserved _, s) => ntpCount p 1 s
          | (_, s) => s
    | some n =>
      let s := ntpCount p 2 s
      if !n.wellFormed then ntpCount p 11 s else
      match admitGate rx s with
      | (false, s) => s
      | (true, s) =>
        match rateLimit rx true s with
        | (false, s) => s
        | (true, s) => serveNts rx n s

/-- NTP_REQUEST_RECEIVE (R287, R296). -/
def execNtpRequestReceive (rx : NtpRx) (s : State) : Host.Outcome State Fault Refusal :=
  .next (serveRequest rx (serveFrame rx.port rx.mark s))
/-- NTS_REQUEST_RECEIVE (R289, R290). -/
def execNtsRequestReceive (rx : NtpRx) (s : State) : Host.Outcome State Fault Refusal :=
  .next (serveRequest rx (serveFrame rx.port rx.mark s))

/-! ### The clients (R293–R295) -/

/-- The port on which a client sends (R285): port 2n of an enabled pair. -/
def clientPort (s : State) (c : NtpClient) : Nat :=
  if (s.pairOf (c.port.val / 2)).enable then 2 * (c.port.val / 2) else c.port.val

/-- A client sends a request with a fresh transmit timestamp (R256, R285, R293, R295); with NTS it uses the oldest cookie and a
fresh Unique Identifier. -/
def pollClient (client : Fin 8) (s : State) : State :=
  let c := s.clientOf client.val
  let p := clientPort s c
  let base : NtpMsg :=
    { leap := 0, version := 4, mode := 3, stratum := 0, poll := BitVec.ofInt 8 c.poll, rootDelay := 0, rootDisp := 0, precision := 0
      refId := 0, refTime := 0, orig := 0, recv := 0, xmit := 0, nts := none, bytes := 48 }
  let send := fun (m : NtpMsg) (auth : FrameAuth) (s : State) =>
    (sendFrame { id := 0, port := Fin.ofNat 24 p, view := Fin.ofNat 5 c.dom.val, kind := .ntpRequest client m, auth := auth, launch := 0
                 fallback := false, bytes := ntpFrameBytes c.ipv6 c.vlan.isSome m.bytes, dst := c.server
                 da := (s.portOf p).nextHop, tag := c.vlan.map fun v => (v, 0) }
      (s.setClient client.val fun x => { x with t1 := none, t1Ntp := none, uid := none, t1Fallback := false })).2
  if !(c.enable && !c.stopped && mayOriginate s p) then s else
  let s := s.setClient client.val fun x => { x with polledAt := some s.tcr.cycles }
  if !c.nts then send base .none s
  else match c.jar, c.c2s with
      | cookie :: rest, some k =>
        if !keyUsable s k.val 1 then s else
        let (uid, s) := drawBytes 32 s
        let s := s.setClient client.val fun x => { x with jar := rest }
        let fill := List.replicate (7 - rest.length) cookie.length
        let n : NtsFields :=
          { wellFormed := true, uid := uid, cookies := [cookie], placeholders := fill, nonce := [], cipher := [], covered := [] }
        send { base with nts := some n, bytes := 48 + 36 + (4 + cookie.length) * (1 + fill.length) + 40 } (.nts (s.keySlot k.val).key) s
      | _, _ => s

/-- NTP_CLIENT_POLL (R295): at the poll interval in use. -/
def execNtpClientPoll (client : Fin 8) (s : State) : Host.Outcome State Fault Refusal :=
  let c := s.clientOf client.val
  .next (atCycle (match c.polledAt with
    | some t => t + logCycles c.poll
    | none => 0) (pollClient client) s)

/-- An exchange that counts towards LOS (R293, R295). -/
def missExchange (c : Nat) (s : State) : State := s.setClient c fun x => { x with missed := x.missed + 1 }

/-- The cookies in the decrypted extension fields of a response (R290, R293). -/
def parseCookies : Nat → List Byte → List (List Byte)
  | 0, _ => []
  | n + 1, b =>
    if b.length < 4 then [] else
    let len := beNat ((b.drop 2).take 2)
    let rest := parseCookies n (b.drop (max 4 len))
    if beNat (b.take 2) = 0x0204 then ((b.drop 4).take (len - 4)) :: rest else rest

/-- An NTP timestamp less a time of a domain in units of 2^-16 ns, across the eras (R85, R295). -/
def ntpLess (s : State) (d : Nat) (a : BitVec 64) (t : Int) : Int :=
  let era : Int := 2 ^ 32 * 10 ^ 9 * 65536
  let own := t + (2208988800 + (utcSeconds s d (t.toNat / (10 ^ 9 * 65536)) - (t.toNat / (10 ^ 9 * 65536) : Nat))) * 10 ^ 9 * 65536
  let diff := (((a.toNat * 10 ^ 9 / 65536 : Nat) : Int) - own) % era
  if diff < era / 2 then diff else diff - era

/-- UTC information that an upstream's leap indicator gives (R97): the leap at the end of the current UTC day. -/
def leapInfo (s : State) (d li : Nat) : UtcObs :=
  let x := s.domain d
  let off := x.utcAt (viewSecond s d)
  let day : Int := (((viewSecond s d : Int) - off) / 86400 + 1) * 86400
  { offset := off, leap := if li = 1 then 1 else if li = 2 then 2 else 0
    leapSecond := if li = 1 then (day + off + 1).toNat else if li = 2 then (day + off - 1).toNat else 0 }

/-- The exchange of a client is complete: offset and delay go to RIM (R251, R253, R295). -/
def clientMeasure (client : Nat) (rx : NtpRx) (t1 : Int) (ing : Nat) (fallback : Bool) (s : State) : State :=
  let c := s.clientOf client
  let d := c.dom.val
  let p := rx.port.val
  let m := rx.msg
  let s := s.setClient client fun x => { x with t1 := none, t1Ntp := none, uid := none, t1Fallback := false }
  let fb := c.t1Fallback || fallback
  if m.leap = 3 ∨ m.stratum = 0 ∨ m.stratum = 16 ∨ (fb ∧ !(s.portOf p).refUseFallback) then missExchange client s else
  let t4 := ticks ing - ticksOfPs (asymmetry s p)
  let out := ntpLess s d m.recv t1
  let back := ntpLess s d m.xmit t4
  let off := (out + back).tdiv 2
  let delay := out - back
  let ns : ℚ := (off : ℚ) / 65536
  let s := s.setClient client fun x => { x with missed := 0 }
  match c.ref with
  | none => s
  | some r => deliver r.val
      { lag := (viewCount s d : ℚ) / nsU - s.tcr.cycles + ns, delay := some (delay.toNat / 65536)
        uncPs := ceilDiv ((2 * m.rootDisp.toNat + m.rootDelay.toNat) * 10 ^ 12) 131072
        cls := 3, hops := m.stratum.toNat, utc := some (leapInfo s d m.leap.val), port := some rx.port, fallback := fb } s

/-- A kiss code of the upstream (R293, R295): NTSN empties the jar, RATE doubles the interval, DENY and RSTR stop the
client. -/
def takeKiss (client : Nat) (code : BitVec 32) (s : State) : State :=
  s.setClient client fun x =>
    let x := { x with t1 := none, t1Ntp := none, uid := none, missed := x.missed + 1 }
    if code = 0x4E54534E then { x with jar := [] }
    else if code = 0x52415445 then { x with poll := min 10 (x.poll + 1) }
    else if code = 0x44454E59 ∨ code = 0x52535452 then { x with stopped := true }
    else x

/-- Ingress time of a response in its client's domain (R246, R295). -/
def clientStamp (s : State) (client : Nat) (rx : NtpRx) : Nat := ingressStamp s rx.port.val rx.mark (s.clientOf client).dom.val

/-- The response of an upstream has reached its client (R293, R295). -/
def takeResponse (client : Fin 8) (rx : NtpRx) (t1 : Int) (ing : Nat) (fallback : Bool) (s : State) : State :=
  if rx.msg.stratum == 0 then takeKiss client.val rx.msg.refId s else clientMeasure client.val rx t1 ing fallback s

/-- A response to open (R293, R300): its transaction takes a scheduler slot; without one the exchange is missed. -/
def startOpen (client : Fin 8) (rx : NtpRx) (n : NtsFields) (k : Nat) (t1 : Int) (s : State) : State :=
  let tx := s.tpe.built
  match (if s.blockRuns 13 then takeSlot true tx s else none) with
  | none => missExchange client.val s
  | some s =>
    let plain := Config.sivOpen (s.keySlot k).key n.nonce n.covered n.cipher
    let w : RxWork :=
      { tx := tx, pass := plain.isSome, key := k, ingress := clientStamp s client.val rx, fallback := rxFallback s rx.port.val rx.mark
        msg := .response client rx t1 (plain.getD []) }
    ntsUnits 4 (useKey k { s with tpe := { s.tpe with built := tx + 1 }, aue := { s.aue with work := s.aue.work ++ [w] } })

/-- NTP_RESPONSE_RECEIVE (R293, R295). -/
def execNtpResponseReceive (client : Fin 8) (rx : NtpRx) (s : State) : Host.Outcome State Fault Refusal :=
  let s := serveFrame rx.port rx.mark s
  let c := s.clientOf client.val
  let p := rx.port.val
  let m := rx.msg
  .next (if !(c.enable && !c.stopped && s.blockRuns 12 && laneUp (s.laneOf p) && (s.portOf p).enable) then s else
    match c.t1, c.t1Ntp with
    | some t1, some echo =>
      if m.orig ≠ echo then missExchange client.val s
      else if !c.nts then takeResponse client rx t1 (clientStamp s client.val rx) (rxFallback s p rx.mark) s
      else match m.nts, c.uid, c.s2c with
        | some n, some uid, some k =>
          if n.uid ≠ uid then missExchange client.val s
          else if m.stratum == 0 && m.refId == 0x4E54534E then takeKiss client.val m.refId s
          else if !keyUsable s k.val 1 then missExchange client.val s
          else startOpen client rx n k.val t1 s
        | _, _, _ => missExchange client.val s
    | _, _ => missExchange client.val s)

end Sys2Proof.Machine
end

