-- ==== Sys2Proof/Machine/Aue.lean ====
section
/-! DEFINITION. Meaning of AUE_JOB_COMPLETE (R256, R262, R280, R289, R293, R300, R315): what follows the work of AUE on a frame to
send, and on a received message. -/

namespace Sys2Proof.Machine

/-- A verified PTP message goes on (R277, R280, R281), while its instance is still there. -/
def ptpVerified (rx : PtpRx) (c : RxCont) (w : RxWork) (s : State) : State :=
  let p := rx.port.val
  let i := rx.inst.val
  if !(s.blockRuns 12 && piEnabled s p i && (s.piOf p i).st != .initializing) then s else
  match c with
  | .message t dst => takeMessage t dst rx w.ingress w.fallback s
  | .signaling sg => takeSignaling sg s
  | .tcEvent delayReq egress => forwardEvent delayReq rx egress.val w.ingress true (tcAuth s rx) s
  | .tcGeneral t => forwardGeneral t rx true (tcAuth s rx) s

/-- A transaction has done its last job: its slot is free. -/
def endWork (w : RxWork) (s : State) : State :=
  freeSlot w.tx { s with aue := { s.aue with work := s.aue.work.filter fun x => x.tx != w.tx } }

/-- A transaction goes on with another job. -/
def nextWork (w : RxWork) (s : State) : State :=
  { s with aue := { s.aue with work := s.aue.work.map fun x => if x.tx = w.tx then w else x } }

/-- A job of a transaction on a received message ends, with its result (R280, R289, R290, R293, R315). -/
def stepWork (w : RxWork) (pass : Bool) (s : State) : State :=
  match w.msg with
  | .ptp rx c =>
    if pass then ptpVerified rx c w (endWork w s)
    else match w.again with
      | some r =>
        let n := match rx.msg.auth with
          | some a => a.covered.length + 16
          | none => 0
        pcuCount 0x2405 0xFF 1 (ptpOps n (useKey w.key (nextWork { w with pass := r, again := none } s)))
      | none => ptpCount rx.port.val rx.inst.val 4 (endWork w s)
  | .request rx n keys false =>
    match keys with
    | some (c2s, s2c) =>
      if pass then
        nextWork { w with pass := (Config.sivOpen c2s n.nonce n.covered n.cipher).isSome, msg := .request rx n (some (c2s, s2c)) true } s
      else ntsNak rx w.ingress n (endWork w s)
    | none => ntsNak rx w.ingress n (endWork w s)
  | .request rx n keys true =>
    match keys with
    | some (c2s, s2c) =>
      if pass then ntsAnswer rx w.ingress n c2s s2c (endWork w s) else ntpCount rx.port.val 5 (endWork w s)
    | none => endWork w s
  | .response c rx t1 plain =>
    let s := endWork w s
    if !pass || !(s.clientOf c.val).enable then missExchange c.val s
    else takeResponse c rx t1 w.ingress w.fallback
      (s.setClient c.val fun x => { x with jar := (x.jar ++ parseCookies 8 plain).take 8 })

/-- AUE_JOB_COMPLETE (R256, R262, R300, R334, R336): a transaction on a received message goes on with its result; the frame whose
work it was is complete; a result of an earlier building is discarded. A job that needs a nonce waits for the TRNG. -/
def execAueJobComplete (tx : Nat) (ok : Bool) (s : State) : Host.Outcome State Fault Refusal :=
  .next (if !s.blockRuns 13 then s else
    match s.aue.work.find? fun w => w.tx == tx with
    | some w => stepWork w (w.pass && ok) s
    | none =>
      match s.tpe.galley.find? fun g => g.tx == some tx with
      | none => freeSlot tx s
      | some f =>
        let nts := match f.auth with
          | .nts _ => true
          | _ => false
        if nts && !s.sec.trngReady then s
        else
          let s := freeSlot tx s
          putFrame { f with tx := none, complete := ok } s)

end Sys2Proof.Machine
end

