-- ==== Sys2Proof/Machine/Gnss.lean ====
section
/-! DEFINITION. GTR: meanings of the GNSS events and jobs (R154–R177). -/

namespace Sys2Proof.Machine

/-! ### Shared operations -/

/-- GTR changed. -/
def State.setGtr (s : State) (f : Gtr → Gtr) : State := { s with gtr := f s.gtr }

/-- GTR runs: present, clocked, not in a BLOCK reset. -/
def gtrRuns (s : State) : Bool := s.blockRuns 14

/-- A transfer of the control port (R156): the first address bit is 1 for a read, so 0 for a write. -/
def feTransfer (read : Bool) (addr : BitVec 16) (v : Byte) : BitVec 24 :=
  BitVec.ofNat 24 (bit read * 2 ^ 23 + addr.toNat % 2 ^ 15 * 2 ^ 8 + v.toNat)

/-- The writes of the front-end list go out on the control port, in list order (R156). -/
def sendFrontEnd (s : State) : State :=
  s.setGtr fun g => { g with feSent := g.feSent ++ g.feList.map fun x => feTransfer false x.1 x.2 }

/-- An integrity failure is reported (R172): INTEGRITY_SEEN on entries 16 and 17, both held DISQUALIFIED, interrupt
source 15. -/
def gnssFailure (s : State) : State :=
  if s.gtr.integrity then s else
  let s := pcuCount 0x3001 0xFF 1 (raiseIrq 15 (s.setGtr fun g => { g with integrity := true, cleanFor := 0, windowBad := true }))
  [16, 17].foldl (fun t r => reviewRef r (setHistory r 6 (t.setRef r fun e => { e with gnssFail := true }))) s

/-- Systems of a set of satellites. -/
def systemsOf (l : List (Fin 4 × Fin 64)) : Nat :=
  ((List.range 4).filter fun k => l.any fun x => x.1.val == k).length

/-- Satellites that a timing solution needs (R159): in HOLD one; else four, and one for each further system used. A
receiver in SEARCH with a held position solves for time alone (log entry 34). -/
def satsNeeded (g : Gtr) (l : List (Fin 4 × Fin 64)) : Nat :=
  match g.st with
  | .hold => 1
  | .search => if g.held.isSome then 1 else 4 + (systemsOf l - 1)
  | _ => 4 + (systemsOf l - 1)

/-- The channels of R157: the enabled systems and bands, satellites in order of elevation, both bands of each, 128. -/
def channelsOf (g : Gtr) (l : List SatObs) : List SatObs :=
  let on := l.filter fun o => g.cfg.systems.getLsbD o.system.val && (o.band.val == 0 || g.cfg.lower)
  let before := fun (a b : SatObs) =>
    if a.elev ≠ b.elev then decide (b.elev < a.elev)
    else decide (a.system.val * 128 + a.sat.val * 2 + a.band.val ≤ b.system.val * 128 + b.sat.val * 2 + b.band.val)
  (sortBy before on).take 128

/-- The name of a satellite. -/
def satKey (o : SatObs) : Fin 4 × Fin 64 := (o.system, o.sat)

/-- A satellite is excluded (R167). -/
def satExcluded (g : Gtr) (k : Fin 4 × Fin 64) : Bool := g.excluded.any fun x => x.1 == k.1 && x.2.1 == k.2

/-- The record of a satellite's loaded ephemeris (R175). -/
def isEphemerisOf (k : Fin 4 × Fin 64) (r : AidRecord) : Bool :=
  r.type == 2 && r.body.getD 0 0 == BitVec.ofNat 8 k.1.val && r.body.getD 1 0 == BitVec.ofNat 8 k.2.val

/-- An ephemeris of the satellite may enter a solution (R175): its own broadcast, heard, or a loaded one whose issue of data
the broadcast has confirmed. -/
def ephemerisValid (g : Gtr) (o : SatObs) : Bool :=
  o.ephemeris || g.heard.contains (satKey o) || g.store.any fun r => isEphemerisOf (satKey o) r && r.confirmed

/-- What the broadcasts of an epoch say of the ephemerides (R175): a loaded one is confirmed while the issue of data that its
satellite broadcasts is its own, and a satellite's own ephemeris is held from its reception on. -/
def hearBroadcasts (ch : List SatObs) (g : Gtr) : Gtr :=
  { g with
    heard := g.heard ++ ((ch.filter fun o => o.ephemeris && !g.heard.contains (satKey o)).map satKey).eraseDups
    store := g.store.map fun r =>
      match ch.find? fun o => o.tracking && o.iod.isSome && isEphemerisOf (satKey o) r with
      | some o => { r with confirmed := o.iod == some (Config.issueOfData r.body) }
      | none => r }

/-- A satellite enters the solution (R158, R167, R175). -/
def satUsable (g : Gtr) (o : SatObs) : Bool :=
  o.tracking && decide ((g.limits.elevMask : Int) ≤ o.elev) && decide (g.limits.cn0Mask * 100 ≤ o.cn0) && o.healthy &&
  ephemerisValid g o && !satExcluded g (satKey o)

/-- Satellites used in the upper band. -/
def usedUpper (g : Gtr) (ch : List SatObs) : List (Fin 4 × Fin 64) :=
  (ch.filter fun o => o.band.val == 0 && satUsable g o).map satKey
/-- Satellites used in both bands. -/
def usedDual (g : Gtr) (ch : List SatObs) : List (Fin 4 × Fin 64) :=
  (usedUpper g ch).filter fun k => ch.any fun o => o.band.val == 1 && satKey o == k && satUsable g o

/-- Used satellites whose residual exceeds five times its expected standard deviation (R167). -/
def residualBad (g : Gtr) (ch : List SatObs) : List (Fin 4 × Fin 64) :=
  (usedUpper g ch).filter fun k => ch.any fun o => satKey o == k && satUsable g o && decide (5 * o.sigma < o.residual.natAbs)

/-- The calibrated delay of a solution in ps (R154, R163, R376): the ionosphere-free combination for entry 16. -/
def gnssDelay (s : State) (dual : Bool) : Int :=
  if dual then (22606 * calValue s 0x3000 - 12606 * calValue s 0x3001).tdiv 10000 else calValue s 0x3000

/-- The estimate of a solution in ps (R163). -/
def gnssEstimate (g : Gtr) (o : SolObs) : Nat :=
  3 * o.postfitPs + (match g.st, g.held with
    | .hold, some h => Config.posTimeEffectPs h.2
    | _, _ => 0)

/-- TAI less the time of a system, s (R157): GPS, Galileo, BeiDou, QZSS. -/
def taiMinus (system : Fin 4) : Int := if system.val = 2 then 33 else 19

/-- The offsets of a solution from TAI by each system that has a satellite in it, ps (R157, R164). -/
def taiOffsets (sats : List (Fin 4 × Fin 64)) (sol : SolObs) : List (Fin 4 × Int) :=
  (sol.offsets.filter fun x => sats.any fun k => k.1 == x.1).map fun x => (x.1, x.2 - taiMinus x.1 * 10 ^ 12)

/-- The bias of a system in a solution (R164): none for the TIMESCALE system, else the last estimated, which the manual leaves
open before the first estimate. -/
def biasOf (g : Gtr) (dual : Bool) (system : Fin 4) : Int :=
  if system.val + 1 = g.cfg.timescale then 0
  else match (vget g.bias (bit (!dual)) []).find? fun x => x.1 == system with
    | some x => x.2
    | none => Config.interSystemBias system.val g.cfg.timescale

/-- The offset from TAI that a solution reports (R164): that of the TIMESCALE system; without a satellite of it, that of the
first system with one, with the bias carried. DEDUCED, log entry 104. -/
def reportedOffset (g : Gtr) (dual : Bool) (l : List (Fin 4 × Int)) : Option Int :=
  match l.find? fun x => x.1.val + 1 == g.cfg.timescale with
  | some x => some x.2
  | none => l.head?.map fun x => x.2 + biasOf g dual x.1

/-- The biases that a solution estimates (R164): each system's offset against the reported one. -/
def estimateBias (dual : Bool) (t : Int) (l : List (Fin 4 × Int)) (g : Gtr) : Gtr :=
  let old := vget g.bias (bit (!dual)) []
  let new := l.map fun x => (x.1, t - x.2)
  { g with bias := vmod g.bias (bit (!dual)) fun _ => new ++ old.filter fun x => !new.any fun y => y.1 == x.1 }

/-! ### Checks (R171) -/

/-- What the checks of a second say: failing, unarmed, D. -/
structure CheckResult where
  fail : Bool
  arm  : Bool
  deriving DecidableEq, Repr

/-- The first part of the time check: |D| > TIME_CHECK_NS + σf_A × elapsed, exactly. -/
def timePart1 (g : Gtr) (a : Anchor) (d : Int) (elapsed : ℚ) : Bool :=
  let x : ℚ := (d.natAbs : ℚ) - g.limits.timeNs * 1000 - a.sigma.lin * elapsed
  decide (0 < x) && decide (elapsed ^ 2 * a.sigma.var < x ^ 2)

/-- Reference 31 is QUALIFIED, with weight from members other than entries 16 and 17. -/
def ensembleIndependent (s : State) : Bool :=
  (s.refEntry 31).st == .qualified &&
    s.ehu.member.toList.any fun m => decide (0 < m.weight) && m.cfg.source != .ref 16 && m.cfg.source != .ref 17

/-- The second part: GNSS against reference 31. `lag` is GNSS time less the CD-TIME count, ns, at a CD-TIME cycle. -/
def timePart2 (s : State) (lag : ℚ) (cycle : Nat) : Bool :=
  match refTimeAt s 31 cycle with
  | none => false
  | some t =>
    let diff := lag + cycle - t
    decide (((s.gtr.limits.timeNs * 1000 + refUnc s 31 : Nat) : ℚ) < |diff| * 1000)

/-- Elapsed time since the anchor, s. -/
def sinceAnchor (a : Anchor) (cycle : Nat) : ℚ := (((cycle : Int) - a.cycle : Int) : ℚ) / 10 ^ 9

/-- D of the time check in ps, rounded to the nearest (R171). -/
def timeD (a : Anchor) (phasePs : Int) (cycle : Nat) : Int :=
  round (((phasePs - a.phasePs : Int) : ℚ) - a.h * sinceAnchor a cycle)

/-- The precomputed holdover value of CHECK_DPLL. -/
def checkValue (s : State) : Option HoldValue :=
  match s.gtr.limits.checkDpll with
  | none => none
  | some k => (s.holdOf k.val).value

/-- The time check. -/
def checkTime (s : State) (phase : Option (Int × ℚ)) (cycle : Nat) : CheckResult :=
  match phase with
  | none => { fail := false, arm := false }
  | some (ps, lag) =>
    let g := s.gtr
    let one := match checkValue s, g.anchor with
      | some _, some a => some (timePart1 g a (timeD a ps cycle) (sinceAnchor a cycle))
      | _, _ => none
    let two := if ensembleIndependent s && (s.refEntry 31).lag.isSome then some (timePart2 s lag cycle) else none
    { fail := one == some true || two == some true, arm := one.isSome || two.isSome }

/-- The condition of the C/N0 check in one second, and whether it is armed. -/
def cn0Condition (g : Gtr) (ch : List SatObs) : CheckResult :=
  let v := (ch.filter fun o => o.band.val == 0 && satUsable g o).map fun o => (o.cn0 : ℚ)
  let enough := decide (g.limits.cn0MinSats ≤ v.length)
  let high := v.any fun x => decide ((g.limits.cn0Max * 100 : Nat) < x)
  let m := meanQ v
  let var := meanQ (v.map fun x => (x - m) ^ 2)
  { fail := high || (enough && decide (var < ((g.limits.cn0Spread * 10 : Nat) : ℚ) ^ 2)), arm := enough || high }

/-- The history of a satellite's difference of pseudoranges (R171). -/
def crossHistory (g : Gtr) (k : Fin 4 × Fin 64) : List Int :=
  match g.cross.find? fun x => x.1 == k.1 && x.2.1 == k.2 with
  | some x => x.2.2
  | none => []

/-- The upper-band signals of the satellites used in both bands, with their difference of pseudoranges. -/
def crossSats (g : Gtr) (ch : List SatObs) : List SatObs :=
  ch.filter fun o => o.band.val == 0 && (usedDual g ch).contains (satKey o)

/-- The cross-band check: the difference against the mean of the satellite's last 300 s. -/
def checkCross (g : Gtr) (ch : List SatObs) : CheckResult :=
  let d := (crossSats g ch).filter fun o => (crossHistory g (satKey o)).length == 300
  let moved := fun (o : SatObs) => decide ((g.limits.xbandM * 1000 * 300 : Int) <
    (o.crossMm * 300 - (crossHistory g (satKey o)).sum).natAbs)
  { fail := decide (2 ≤ (d.filter moved).length), arm := decide (2 ≤ d.length) }

/-- A second's differences join the histories; a satellite that is not dual-band in it starts again. -/
def keepCross (ch : List SatObs) (g : Gtr) : Gtr :=
  { g with cross := (crossSats g ch).map fun o =>
      (o.system, o.sat, (o.crossMm :: crossHistory g (satKey o)).take 300) }

/-- The condition of the position check in one second. -/
def posCondition (g : Gtr) (up : List (Fin 4 × Fin 64)) (pos : Option Ecef) : CheckResult :=
  match g.st, g.held, pos with
  | .hold, some h, some p =>
    if 4 + (systemsOf up - 1) ≤ up.length then
      let d2 := (p.x - h.1.x) ^ 2 + (p.y - h.1.y) ^ 2 + (p.z - h.1.z) ^ 2
      { fail := decide (((g.limits.posJumpM * 1000 : Nat) : Int) ^ 2 < d2), arm := true }
    else { fail := false, arm := false }
  | _, _, _ => { fail := false, arm := false }

/-- The residual check: more than half of the used satellites would be excluded. -/
def checkResidual (g : Gtr) (ch : List SatObs) : CheckResult :=
  let n := (usedUpper g ch).length
  { fail := g.st == .hold && decide (3 ≤ n) && decide (n < 2 * (residualBad g ch).length)
    arm := g.st == .hold && decide (3 ≤ n) }

/-- Five bits in CHECK_ENABLE order. -/
def checkBits (f : CheckResult → Bool) (l : List CheckResult) : BitVec 5 :=
  BitVec.ofNat 5 (maskOf 5 fun i => f (l.getD i { fail := false, arm := false }))

/-! ### Epoch and solution -/

/-- The code of a receiver state (R159). -/
def GnssState.code : GnssState → Nat
  | .idle => 0
  | .search => 1
  | .solve => 2
  | .survey => 3
  | .hold => 4

/-- GNSS_SURVEY at its second (R160–R162). -/
def surveyAct (j : Job) (s : State) : Reply × State :=
  let p := jobInline j
  let st := s.gtr.st
  let code := fun (x : State) => ({ r0 := word x.gtr.st.code } : Reply)
  match p.u 4 1 with
  | 0 =>
    if st == .hold || st == .idle then (rejState, s) else
    let s := moveGnss .survey (s.setGtr fun g =>
      { g with survey := some { minS := p.u 8 4, maxS := p.u 12 4, accMm := p.u 16 4 }, surveyShort := false })
    (code s, s)
  | 1 =>
    if st == .idle then (rejState, s) else
    let s := moveGnss .hold (s.setGtr fun g =>
      { g with survey := none, held := some ({ x := p.i 20 8, y := p.i 28 8, z := p.i 36 8 }, p.u 44 4), posFor := 0 })
    (code s, s)
  | _ =>
    if st != .hold then (rejState, s) else
    let s := moveGnss .solve (s.setGtr fun g => { g with held := none, posFor := 0 })
    (code s, s)

/-- GNSS_EPOCH (R163, R174, R162): the next second of the GNSS DOMAIN. Thresholds are taken up, surveys act, and a
measurement epoch is taken at one CD-TIME edge. -/
def execGnssEpoch (s : State) : Host.Outcome State Fault Refusal :=
  .next (if !gtrRuns s then s else
    let d := s.gtr.cfg.domain.val
    let s := toSecond d s
    let s := s.setGtr fun g => { g with limits := g.nextLimits.getD g.limits, nextLimits := none }
    let s := if s.fwRuns then
        settle ((s.mbx.flights.filter fun f => f.hold == .survey).foldl (fun t f =>
          let r := surveyAct f.job t
          finish f r.1 r.2) s)
      else s
    if s.gtr.st == .idle then s
    else s.setGtr fun g => { g with epoch := some (s.tcr.cycles, (s.domain d).count) })

/-- Exclusions of a second (R167): satellites of HOLD whose residual is too large, unless they are more than half. -/
def excludeSats (ch : List SatObs) (s : State) : State :=
  let g := s.gtr
  let n := (usedUpper g ch).length
  let bad := residualBad g ch
  if g.st == .hold && decide (3 ≤ n) && decide (2 * bad.length ≤ n) && !bad.isEmpty then
    pcuCount 0x3000 0xFF bad.length (s.setGtr fun g =>
      { g with excluded := g.excluded ++ bad.map fun k => (k.1, k.2, s.cpx.impressions) })
  else s

/-- The offset of a solution in ps, after every calibrated delay (R163). -/
def solvedOffset (s : State) (dual : Bool) (sats : List (Fin 4 × Fin 64)) (sol : SolObs) : Int :=
  (reportedOffset s.gtr dual (taiOffsets sats sol)).getD 0 - gnssDelay s dual

/-- The frequency of GNSS time against the unsteered master oscillator, ppt (R123, R163): the GNSS DOMAIN's, less its offset
from GNSS. -/
def solvedFreq (s : State) (sol : SolObs) : ℚ :=
  (((baseInc s s.gtr.cfg.domain.val : Int) - nsU : Int) : ℚ) / nsU * 10 ^ 12 + (steeredBy s : ℚ) / 1000 - sol.freqPpt

/-- The solution of an entry is delivered to RIM (R163, R165). -/
def gnssDeliver (r : Nat) (off : Int) (sol : SolObs) (o : GnssObs) (cycle count : Nat) (s : State) : State :=
  let lag : ℚ := (count : ℚ) / nsU - (off : ℚ) / 1000 - cycle
  deliver r { lag := lag, freq := some (solvedFreq s sol), uncPs := gnssEstimate s.gtr sol, cls := 1, utc := o.utc } s

/-- The survey of a second with a position (R160); it pauses in a WARM restart (R177). -/
def surveySecond (pos : Option Ecef) (s : State) : State :=
  if s.gtr.st != .survey || s.cpx.warm.isSome then s else
  s.setGtr fun g =>
    { g with survey := g.survey.map fun v =>
        let v' := if v.count = 0 then v else { v with elapsed := v.elapsed + 1 }
        match pos with
        | some p =>
          { v' with count := v.count + 1
                    sum := { x := v.sum.x + p.x, y := v.sum.y + p.y, z := v.sum.z + p.z }
                    sumSq := { x := v.sumSq.x + p.x ^ 2, y := v.sumSq.y + p.y ^ 2, z := v.sumSq.z + p.z ^ 2 } }
        | none => v' }

/-! ### Noise (R170) -/

/-- The quiet floor of a band, units of 0.025 dB: the lowest 10-second mean of the last 24 hours; the seconds of the first 10 s
give it before. DEDUCED, log entry 105. -/
def quietFloor (g : Gtr) (b : Nat) : Option Int :=
  let x := vget g.noise b ([], [])
  match x.2.min? with
  | some m => some m
  | none => if x.1.isEmpty then none else some (10 * x.1.sum / x.1.length)

/-- The jamming indicator for a noise power: its rise above the quiet floor, in whole units of 0.25 dB, at most 255. -/
def jamIndicator (g : Gtr) (b : Nat) (power : Int) : Byte :=
  match quietFloor g b with
  | some m => BitVec.ofNat 8 (min 255 ((10 * power - m) / 10).toNat)
  | none => 0

/-- A band's indicator takes a value; a crossing of JAM_THRESHOLD in either direction raises source 15 (R170). -/
def setJam (band : Fin 2) (level : Byte) (s : State) : State :=
  let above := fun (v : Byte) => decide (s.gtr.limits.jam < v.toNat)
  let s' := s.setGtr fun g => { g with jam := g.jam.set band level }
  if above s.gtr.jam[band] = above level then s' else raiseIrq 15 s'

/-- A second's noise power joins the band's means. -/
def keepNoise (band : Fin 2) (power : Int) (g : Gtr) : Gtr :=
  let x := g.noise[band]
  let ten := power :: x.1
  { g with noise := g.noise.set band (if ten.length < 10 then (ten, x.2) else ([], (ten.sum :: x.2).take 8640)) }

/-- The noise of a second in both bands. -/
def noiseSecond (noise : Vector Int 2) (s : State) : State :=
  let one := fun (b : Fin 2) (t : State) =>
    let t := t.setGtr (keepNoise b noise[b])
    setJam b (jamIndicator t.gtr b.val noise[b]) t
  one 1 (one 0 s)

/-! ### The second of the receiver -/

/-- The integrity checks of a second (R171, R172). -/
def runChecks (o : GnssObs) (ch : List SatObs) (phase : Option (Int × ℚ)) (cycle : Nat) (residual : CheckResult) (s : State) : State :=
  let g := s.gtr
  let cn0 := cn0Condition g ch
  let pos := posCondition g (usedUpper g ch) o.pos
  let cn0For := if cn0.fail then g.cn0For + 1 else 0
  let posFor := if pos.fail then g.posFor + 1 else 0
  let all := [checkTime s phase cycle, { cn0 with fail := decide (10 ≤ cn0For) }, checkCross g ch,
    { pos with fail := decide (3 ≤ posFor) }, residual]
  let failed := checkBits CheckResult.fail all &&& g.limits.checks
  let outlier := (s.refEntry 16).outlierNow || (s.refEntry 17).outlierNow
  let bad := failed != 0 || outlier
  let s := s.setGtr fun g =>
    { g with failed := failed, unarmed := ~~~checkBits CheckResult.arm all, cn0For := cn0For, posFor := posFor
             cleanFor := if bad then 0 else g.cleanFor + 1
             windowFor := if g.anchor.isSome then g.windowFor + 1 else 0
             windowBad := g.windowBad || failed != 0
             dPs := (match phase, g.anchor with
               | some (ps, _), some a => timeD a ps cycle
               | _, _ => g.dPs) }
  if bad then gnssFailure s else s

/-- The anchor is set when the time check is first armed (R171). -/
def firstAnchor (ps : Option Int) (cycle : Nat) (s : State) : State :=
  match s.gtr.anchor, checkValue s, ps with
  | none, some v, some p =>
    s.setGtr fun g => { g with anchor := some { cycle := cycle, phasePs := p, h := v.h, sigma := v.sigma }
                               windowFor := 0, windowBad := false }
  | _, _, _ => s

/-- What the receiver tracks in a second: new acquisitions wait for the end of a WARM restart (R177). -/
def seenSats (s : State) (l : List SatObs) : List SatObs :=
  if s.cpx.warm.isSome then
    l.filter fun o => s.gtr.channels.any fun q => q.tracking && satKey q == satKey o && q.band == o.band
  else l

/-- A solution that is valid (R163): its offset from TAI, and itself. -/
def validSolution (s : State) (dual : Bool) (sats : List (Fin 4 × Fin 64)) (sol : Option SolObs) : Option (Int × SolObs) :=
  let g := s.gtr
  if g.clockFault || g.feFault || g.restarted || sats.isEmpty || sats.length < satsNeeded g sats then none else
  sol.bind fun x => if (taiOffsets sats x).isEmpty then none else some (solvedOffset s dual sats x, x)

/-- A valid solution estimates the biases of its systems (R164). -/
def biasSecond (dual : Bool) (sats : List (Fin 4 × Fin 64)) (sol : Option (Int × SolObs)) (s : State) : State :=
  match sol with
  | none => s
  | some x =>
    let l := taiOffsets sats x.2
    match reportedOffset s.gtr dual l with
    | none => s
    | some t => s.setGtr (estimateBias dual t l)

/-- GNSS_SOLUTION (R157–R167, R170–R172): the solutions of the epoch, after the checks of the second. -/
def execGnssSolution (o : GnssObs) (s : State) : Host.Outcome State Fault Refusal :=
  .next (match s.gtr.epoch with
    | none => s
    | some (cycle, count) =>
      if !gtrRuns s || s.gtr.st == .idle then s else
      let ch := channelsOf s.gtr (seenSats s o.sats)
      let s := noiseSecond o.noise (s.setGtr fun g => hearBroadcasts ch { g with epoch := none, channels := ch })
      let residual := checkResidual s.gtr ch
      let s := excludeSats ch s
      let up := usedUpper s.gtr ch
      let two := if s.gtr.cfg.lower then usedDual s.gtr ch else []
      let single := validSolution s false up o.single
      let dual := validSolution s true two o.dual
      let solved := single.isSome || dual.isSome
      let phase := (dual.or single).map fun x => (o.phasePs, (count : ℚ) / nsU - (x.1 : ℚ) / 1000 - cycle)
      let s := biasSecond true two dual (biasSecond false up single s)
      let s := firstAnchor (phase.map Prod.fst) cycle s
      let s := s.setGtr fun g => { g with used := up, restarted := false, phase := (phase.map fun x => (x.1, cycle)) }
      let s := (runChecks o ch phase cycle residual s).setGtr (keepCross ch)
      let s := if s.gtr.st == .search && solved then moveGnss (if s.gtr.held.isSome then .hold else .solve) s else s
      let s := surveySecond (if solved then o.pos else none) s
      let ok := !s.gtr.integrity
      let s := s.setGtr fun g =>
        { g with valid16 := ok && dual.isSome, valid17 := ok && single.isSome
                 est16 := (match dual with
                   | some x => gnssEstimate g x.2
                   | none => g.est16) }
      if !ok then s else
      let s := match dual with
        | some x => pcuCount 0x3003 0xFF 1 (gnssDeliver 16 x.1 x.2 o cycle count s)
        | none => s
      match single with
      | some x => pcuCount 0x3004 0xFF 1 (gnssDeliver 17 x.1 x.2 o cycle count s)
      | none => s)

/-- Seconds of a satellite's exclusion that are left (R167, R176). -/
def exclusionLeft (s : State) (since : Nat) : Nat := 60 - (s.cpx.impressions - since) / 8000

/-- SATELLITE_EXCLUSION_END (R167): 60 s after the exclusion. -/
def execSatelliteExclusionEnd (system : Fin 4) (sat : Fin 64) (s : State) : Host.Outcome State Fault Refusal :=
  .next (if !gtrRuns s then s else
    s.setGtr fun g => { g with excluded := g.excluded.filter fun x =>
      !(x.1 == system && x.2.1 == sat && exclusionLeft s x.2.2 == 0) })

/-- INTEGRITY_CLEAR (R172): every enabled armed check has passed for INTEG_CLEAR_S without a break, and no outlier flag
remains; both entries pass through QUALIFYING. -/
def execIntegrityClear (s : State) : Host.Outcome State Fault Refusal :=
  .next (if gtrRuns s && s.gtr.integrity && decide (s.gtr.limits.clearS ≤ s.gtr.cleanFor) &&
      !(s.refEntry 16).outlierNow && !(s.refEntry 17).outlierNow then
    [16, 17].foldl (fun t r => reviewRef r (t.setRef r fun e => { e with gnssFail := false }))
      (s.setGtr fun g => { g with integrity := false })
  else s)

/-- TIME_CHECK_ANCHOR_MOVE (R171): at the end of a window without a failing check, while no failure stands, the anchor
moves to the current second. The next window starts either way. -/
def execTimeCheckAnchorMove (s : State) : Host.Outcome State Fault Refusal :=
  .next (if gtrRuns s && s.gtr.anchor.isSome && decide (s.gtr.limits.windowS ≤ s.gtr.windowFor) then
    let ok := !s.gtr.windowBad && !s.gtr.integrity
    let s' := s.setGtr fun g => { g with windowFor := 0, windowBad := false }
    match ok, checkValue s, s.gtr.phase with
    | true, some v, some (p, c) =>
      s'.setGtr fun g => { g with anchor := some { cycle := c, phasePs := p, h := v.h, sigma := v.sigma } }
    | _, _, _ => s'
  else s)

/-- GNSS_CLOCK_FAULT (R155): source 72 and interrupt source 15; no solution is valid. -/
def execGnssClockFault (s : State) : Host.Outcome State Fault Refusal :=
  .next (if !gtrRuns s || s.gtr.clockFault then s
    else faultEvent 72 {} (raiseIrq 15 (s.setGtr fun g => { g with clockFault := true })))

/-- GCLK_RETURN (R155, R174): the list is sent again and the channels reacquire as after a BLOCK reset. -/
def execGclkReturn (s : State) : Host.Outcome State Fault Refusal :=
  .next (if !gtrRuns s || !s.gtr.clockFault then s
    else restartGnss (sendFrontEnd (s.setGtr fun g => { g with clockFault := false })))

/-- FE_STATUS_POLL (R156): the read on the control port, and a fault while a bit of the mask reads 0. -/
def execFeStatusPoll (v : Byte) (s : State) : Host.Outcome State Fault Refusal :=
  .next (if !gtrRuns s then s else
    match s.gtr.cfg.feReg with
    | none => s
    | some a => s.setGtr fun g =>
      { g with feSent := g.feSent ++ [feTransfer true a v], feFault := (v &&& g.cfg.feMask) != g.cfg.feMask })

/-- The mean position of a survey, mm. -/
def surveyMean (v : Survey) : Ecef :=
  { x := v.sum.x / v.count, y := v.sum.y / v.count, z := v.sum.z / v.count }

/-- The variance of the mean position of a survey along one axis, mm²: that of the sample over the number of positions.
DESIGN CHOICE, log entry 106. -/
def axisVar (n : Nat) (sum sumSq : Int) : ℚ := ((n * sumSq - sum ^ 2 : Int) : ℚ) / (n * n * (n - 1) : Int)

/-- The greatest variance of the mean along an axis; one position alone gives none. -/
def surveyVar (v : Survey) : Option ℚ :=
  if v.count < 2 then none else
  some (max (axisVar v.count v.sum.x v.sumSq.x) (max (axisVar v.count v.sum.y v.sumSq.y) (axisVar v.count v.sum.z v.sumSq.z)))

/-- The accuracy that a survey has reached, whole mm, rounded up; the manual gives none for one position. -/
def surveyAccuracy (v : Survey) : Nat :=
  match surveyVar v with
  | some q => (ceilRoot 0 q).toNat
  | none => Config.loneSurveyMm

/-- A survey has reached ACC_MM in each axis. -/
def surveyMet (v : Survey) : Bool :=
  match surveyVar v with
  | some q => decide (q ≤ ((v.accMm : ℚ)) ^ 2)
  | none => false

/-- SURVEY_END (R160): the accuracy is reached after MIN_S, or MAX_S passes first and SURVEY_SHORT sets; HOLD on the
mean position. -/
def execSurveyEnd (s : State) : Host.Outcome State Fault Refusal :=
  .next (match s.gtr.st, s.gtr.survey with
    | .survey, some v =>
      let met := decide (v.minS ≤ v.elapsed) && surveyMet v
      if gtrRuns s && decide (0 < v.count) && (met || decide (v.maxS ≤ v.elapsed)) then
        moveGnss .hold (s.setGtr fun g =>
          { g with survey := none, held := some (surveyMean v, surveyAccuracy v), surveyShort := !met, posFor := 0 })
      else s
    | _, _ => s)

/-! ### Interference -/

/-- One notch changed. -/
def State.setNotch (s : State) (b n : Nat) (f : Notch → Notch) : State :=
  s.setGtr fun g => { g with notch := vmod g.notch b fun v => vmod v n f }
/-- One notch. -/
def State.notchOf (s : State) (b n : Nat) : Notch := vget (vget s.gtr.notch b (Vector.replicate 4 {})) n {}

/-- A notch holds or, if it is fixed, stands on an interferer at a frequency. -/
def Notch.adaptiveOn (x : Notch) (f : Int) : Bool := x.mode == 2 && x.holds == some f

/-- The interferers that an adaptive notch may take (R168): in its search range, DETECT_DB above the floor, and held by no
lower-numbered notch of its band. -/
def notchSees (s : State) (b n : Nat) (seen : List Interferer) : List Interferer :=
  let x := s.notchOf b n
  seen.filter fun i => decide ((i.freq - x.freq).natAbs ≤ x.search) && decide (x.detectDb ≤ i.db) &&
    (List.range n).all fun m => !(s.notchOf b m).adaptiveOn i.freq

/-- The strongest of some interferers; of equal ones the first. -/
def strongest : List Interferer → Option Interferer
  | [] => none
  | i :: l => match strongest l with
    | none => some i
    | some j => if i.db < j.db then some j else some i

/-- A notch takes or releases an interferer (R168): interrupt source 15. -/
def notchEvent (s : State) : State := pcuCount 0x3002 0xFF 1 (raiseIrq 15 s)

/-- The higher-numbered notches of a band release an interferer that a notch has taken. -/
def releaseHigher (b n : Nat) (f : Int) (s : State) : State :=
  (List.range 4).foldl (fun t m =>
    if n < m && (t.notchOf b m).adaptiveOn f then notchEvent (t.setNotch b m fun y => { y with holds := none }) else t) s

/-- NOTCH_ADAPT (R168): what stands in the band as an adaptive notch adapts. It takes the strongest interferer that it may,
and moves its centre at most once per 10 ms (80 impressions). A move to one while the old one still stands is a take. -/
def execNotchAdapt (band : Fin 2) (notch : Fin 4) (seen : List Interferer) (s : State) : Host.Outcome State Fault Refusal :=
  let b := band.val
  let n := notch.val
  let x := s.notchOf b n
  .next (if !(gtrRuns s && s.gtr.cfg.enable && x.mode == 2) then s else
    let sees := notchSees s b n seen
    match strongest sees with
    | none => if x.holds.isNone then s else notchEvent (s.setNotch b n fun y => { y with holds := none })
    | some i =>
      if x.holds == some i.freq || x.movedAt.any (fun t => decide (s.cpx.impressions < t + 80)) then s else
      let s' := releaseHigher b n i.freq
        (s.setNotch b n fun y => { y with holds := some i.freq, movedAt := some s.cpx.impressions })
      let follows := x.holds.any fun f => !sees.any fun j => j.freq == f
      if follows then s' else notchEvent s')

/-- JAM_THRESHOLD (R170): the noise power of a band moves its indicator; a crossing of the threshold raises source 15. -/
def execJamThreshold (band : Fin 2) (power : Int) (s : State) : Host.Outcome State Fault Refusal :=
  .next (if !(gtrRuns s && s.gtr.cfg.enable) then s else setJam band (jamIndicator s.gtr band.val power) s)

/-! ### Jobs -/

/-- The front-end writes behind the fields of a block (R174). -/
def feWrites (block : List Byte) : List (BitVec 16 × Byte) :=
  (List.range ((block.length - 64) / 4)).map fun k =>
    (BitVec.ofNat 16 (leNat ((block.drop (64 + 4 * k)).take 2)), block.getD (66 + 4 * k) 0)

/-- Limits of a job (R174). -/
def limitsOf (p : Params) : GnssLimits :=
  { checkDpll := p.opt 9 8, elevMask := p.u 10 1, cn0Mask := p.u 11 1, timeNs := p.u 12 4, windowS := p.u 16 4
    clearS := p.u 20 2, cn0MinSats := p.u 22 1, cn0Spread := p.u 23 1, cn0Max := p.u 24 1, xbandM := p.u 25 1
    posJumpM := p.u 26 2, jam := p.u 28 1, checks := BitVec.ofNat 5 (p.u 29 1) }

/-- The other settings of a job (R174). -/
def gnssCfgOf (p : Params) : GnssCfg :=
  { enable := p.u 4 1 == 1, systems := BitVec.ofNat 4 (p.u 5 1), lower := p.bit 6 1, timescale := p.u 7 1
    domain := p.fin 8 4, spiMode := p.u 30 1, spiMhz := p.u 31 1, ifOffset0 := p.i 32 4, ifOffset1 := p.i 36 4
    feReg := if p.u 40 2 = 0xFFFF then none else some (BitVec.ofNat 16 (p.u 40 2))
    feMask := BitVec.ofNat 8 (p.u 42 2) }

/-- GNSS_CONFIG (R174). -/
def gnssConfigDef : JobDef :=
  { code := 0x3001
    dma := some { lenOk := fun n => decide (64 ≤ n) && decide (n ≤ 320) && n % 4 == 0 }
    fields := [fRange 4 1 0 1, fRange 5 1 1 15, fOne 6 1 [1, 3], fRange 7 1 1 3, fRange 8 1 0 3, fOpt 9 7, fRange 10 1 0 45,
      fRange 11 1 20 45, fRange 12 4 10 1000000, fRange 16 4 60 86400, fRange 20 2 1 3600, fRange 22 1 3 32, fRange 23 1 0 50,
      fRange 24 1 40 70, fRange 25 1 1 255, fRange 26 2 1 10000, fAny 28 1, fMask 29 1 0x1F, fRange 30 1 0 3, fRange 31 1 1 10,
      fSigned 32 4 (-20000000) 20000000, fSigned 36 4 (-20000000) 20000000, fAny 40 2, fRange 42 2 0 0xFF]
    rules := fun _ p =>
      (if 1 ≤ p.u 7 1 ∧ p.u 7 1 ≤ 3 ∧ !p.bit 5 (p.u 7 1 - 1) then [5] else []) ++
      (if p.block then (List.range ((p.len - 64) / 4)).filterMap fun k => if p.u (67 + 4 * k) 1 = 0 then none else some (67 + 4 * k)
       else [])
    run := fun s j p =>
      let c := gnssCfgOf p
      let o := s.gtr.cfg
      let o' := s.gtr.notch.toList
      let list := if j.dma then feWrites j.block else s.gtr.feList
      let fresh := c.enable != o.enable || c.lower != o.lower || c.ifOffset0 != o.ifOffset0 || c.ifOffset1 != o.ifOffset1 ||
        list != s.gtr.feList
      let held := (o'.map fun v => (v.toList.filter fun n => n.holds.isSome).length).sum
      let filter := c.systems != o.systems || c.timescale != o.timescale || c.domain != o.domain
      let s := s.setGtr fun g =>
        { g with cfg := c, feList := list, nextLimits := some (limitsOf p), restarted := g.restarted || filter
                 feFault := g.feFault && c.feReg.isSome
                 bias := if filter then Vector.replicate 2 [] else g.bias
                 noise := if c.enable && !o.enable then Vector.replicate 2 ([], []) else g.noise
                 notch := if c.enable then g.notch
                   else g.notch.map fun v => v.map (fun (n : Notch) => ({ n with holds := none } : Notch)) }
      let s := if j.dma then sendFrontEnd s else s
      let s := if c.enable || held = 0 then s else pcuCount 0x3002 0xFF held s
      done (if fresh then restartGnss s else s) }

/-- The layout of GNSS_SURVEY by MODE (R162): a parameter that the MODE does not use is zero. -/
def surveyFields (p : Params) : List Field :=
  match p.u 4 1 with
  | 0 => [fRange 4 1 0 0, fRange 8 4 60 604800, fRange 12 4 0 604800, fRange 16 4 10 100000]
  | 1 => [fRange 4 1 1 1, fSigned 20 8 (-(10 ^ 10)) (10 ^ 10), fSigned 28 8 (-(10 ^ 10)) (10 ^ 10),
          fSigned 36 8 (-(10 ^ 10)) (10 ^ 10), fRange 44 4 1 100000]
  | _ => [fRange 4 1 2 2]

/-- GNSS_SURVEY (R162): it acts and completes at the next second of the GNSS DOMAIN. -/
def gnssSurveyDef : JobDef :=
  { code := 0x3002
    dma := none
    fields := [fAny 4 60]
    rules := fun _ p =>
      badFields (surveyFields p) p 4 64 ++
      (if p.u 4 1 = 0 ∧ p.u 12 4 < p.u 8 4 then [8] else [])
    check := fun s _ p =>
      let st := s.gtr.st
      if (p.u 4 1 = 0 ∧ (st = .hold ∨ st = .idle)) ∨ (p.u 4 1 = 1 ∧ st = .idle) ∨ (p.u 4 1 = 2 ∧ st ≠ .hold) then some rejState
      else none
    run := fun s _ _ => (s, .hold .survey) }

/-- State of a channel (R176). -/
def channelState (g : Gtr) (o : SatObs) : Nat :=
  if !o.tracking then 1
  else if satExcluded g (satKey o) then 4
  else if g.used.contains (satKey o) && satUsable g o then 3
  else 2

/-- A band has an active notch (R168). -/
def notched (g : Gtr) (b : Nat) : Bool :=
  (vget g.notch b (Vector.replicate 4 {})).toList.any fun n => n.mode == 1 || (n.mode == 2 && n.holds.isSome)

/-- The 16 bytes of a channel record (R176). -/
def channelBytes (s : State) : Option SatObs → List Byte
  | none => [0xFF] ++ List.replicate 15 0
  | some o =>
    let g := s.gtr
    let left := match g.excluded.find? fun x => x.1 == o.system && x.2.1 == o.sat with
      | some x => exclusionLeft s x.2.2
      | none => 0
    let partner := g.channels.any fun q => satKey q == satKey o && q.band != o.band && satUsable g q
    leBytes 1 o.system.val ++ leBytes 1 o.sat.val ++ leBytes 1 o.band.val ++ leBytes 1 (channelState g o) ++
    leBytes 2 (min 65535 o.cn0) ++ leBytes 1 (toCode 8 o.elev) ++ [0] ++ leBytes 2 o.azimuth ++
    leBytes 2 (toCode 16 (max (-32768) (min 32767 o.residual))) ++ leBytes 2 left ++
    leBytes 1 (bit (ephemerisValid g o) + 2 * bit partner + 4 * bit (notched g o.band.val)) ++ [0]

/-- Adaptive notches of a band that hold an interferer (R176). -/
def holdMask (g : Gtr) (b : Nat) : Nat :=
  let v := vget g.notch b (Vector.replicate 4 {})
  maskOf 4 fun n => (vget v n {}).mode == 2 && (vget v n {}).holds.isSome

/-- GNSS_READ_STATUS (R176). -/
def gnssReadStatusDef : JobDef :=
  { code := 0x3003
    dma := some dmaNoBlock
    nextImp := false
    minResult := fun _ => 2048
    run := fun s _ _ =>
      let g := s.gtr
      let tracking := (g.channels.filter SatObs.tracking).length
      reply
        { r0 := word (g.st.code + 8 * bit g.valid16 + 16 * bit g.valid17 + 32 * bit g.integrity + 2 ^ 6 * g.failed.toNat +
            2 ^ 11 * g.unarmed.toNat + 2 ^ 16 * min 255 g.used.length + 2 ^ 24 * min 255 tracking)
          r1 := word (g.jam[(0 : Fin 2)].toNat + 2 ^ 8 * g.jam[(1 : Fin 2)].toNat + 2 ^ 16 * holdMask g 0 + 2 ^ 20 * holdMask g 1 +
            2 ^ 24 * bit g.clockFault + 2 ^ 25 * bit g.feFault + 2 ^ 26 * bit g.surveyShort)
          r2 := word (min (2 ^ 32 - 1) g.est16)
          r3 := wordI (max (-(2 ^ 31)) (min (2 ^ 31 - 1) g.dPs))
          out := (List.range 128).flatMap fun k => channelBytes s g.channels[k]? } s }

/-- GNSS_NOTCH_CONFIG (R169). -/
def gnssNotchConfigDef : JobDef :=
  { code := 0x3004
    fields := [fRange 4 1 0 1, fRange 5 1 0 3, fRange 6 1 0 2,
      { off := 8, len := 4, ok := fun v =>
          let f := signed 32 v
          decide (f.natAbs ≤ 20000000) && f.natAbs % 10000 == 0 },
      { off := 12, len := 4, ok := fun v => decide (v ≤ 20000000) && v % 10000 == 0 },
      { off := 16, len := 2, ok := fun v => decide (20 ≤ v) && decide (v ≤ 1000) && v % 10 == 0 }, fRange 18 1 3 40]
    run := fun s _ p =>
      let old := s.notchOf (p.u 4 1) (p.u 5 1)
      let x : Notch :=
        { mode := p.fin 6 3, freq := p.i 8 4, search := p.u 12 4, widthKhz := p.u 16 2, detectDb := p.u 18 1 }
      let keeps := x.mode == 2 && old.holds.any fun f => decide ((f - x.freq).natAbs ≤ x.search)
      let s' := s.setNotch (p.u 4 1) (p.u 5 1) fun _ =>
        { x with holds := if keeps then old.holds else none, movedAt := old.movedAt }
      done (if old.holds.isSome && !keeps then notchEvent s' else s') }

/-- The records of an aiding block. -/
def aidBody (p : Params) (k : Nat) : List Byte := p.bytes (4 + 64 * k) 64

/-- Offsets that fail in an aiding block (R175). -/
def badAiding (p : Params) : List Nat :=
  let n := p.u 2 2
  (if 1 ≤ p.u 0 1 ∧ p.u 0 1 ≤ 4 then [] else [0]) ++
  (if p.u 1 1 = 0 then [] else [1]) ++
  (List.range (min n ((p.len - 4) / 64))).flatMap fun k =>
    let b := 4 + 64 * k
    if p.u 0 1 = 3 then ((List.range 36).filter fun i => p.u (b + 28 + i) 1 != 0).map fun i => b + 28 + i
    else (if p.u b 1 ≤ 3 then [] else [b]) ++ (if 1 ≤ p.u (b + 1) 1 ∧ p.u (b + 1) 1 ≤ 63 then [] else [b + 1]) ++
      ((List.range 2).filter fun i => p.u (b + 2 + i) 1 != 0).map fun i => b + 2 + i

/-- A record replaces the one of the same kind and satellite in the GNSS store (R175). -/
def storeAid (r : AidRecord) (l : List AidRecord) : List AidRecord :=
  l.filter (fun x => !(x.type == r.type && (r.type == 3 || x.body.take 2 == r.body.take 2))) ++ [r]

/-- GNSS_AIDING_LOAD (R175, R306). -/
def gnssAidingLoadDef : JobDef :=
  { code := 0x3005
    dma := some { required := true, lenOk := fun n => decide (4 ≤ n) && (n - 4) % 64 == 0
                  lenRule := fun p => p.len == 4 + 64 * p.u 2 2, covered := 0 }
    nsForbids := fun s _ => poolSecure s 0
    rules := fun _ p => badAiding p
    run := fun s _ p =>
      done ((List.range (p.u 2 2)).foldl (fun t k =>
        t.setGtr fun g => { g with store := storeAid { type := BitVec.ofNat 8 (p.u 0 1), body := aidBody p k } g.store }) s) }

def execGnssConfig (j : Job) (s : State) : Host.Outcome State Fault Refusal := .next (directJob gnssConfigDef j s)
def execGnssSurveyStart (j : Job) (s : State) : Host.Outcome State Fault Refusal := .next (directJob gnssSurveyDef (withByte 4 0 j) s)
def execGnssSurveyLoadPosition (j : Job) (s : State) : Host.Outcome State Fault Refusal := .next (directJob gnssSurveyDef (withByte 4 1 j) s)
def execGnssSurveyReleaseHold (j : Job) (s : State) : Host.Outcome State Fault Refusal := .next (directJob gnssSurveyDef (withByte 4 2 j) s)
def execGnssReadStatus (j : Job) (s : State) : Host.Outcome State Fault Refusal := .next (directJob gnssReadStatusDef j s)
def execGnssNotchConfig (j : Job) (s : State) : Host.Outcome State Fault Refusal := .next (directJob gnssNotchConfigDef j s)
def execGnssAidingLoad (j : Job) (s : State) : Host.Outcome State Fault Refusal := .next (directJob gnssAidingLoadDef j s)

end Sys2Proof.Machine
end

