-- ==== Sys2Proof/Machine/Sample.lean ====
section
/-! DEFINITION. SAU: sample ports, slot masks, rate-conversion channels, groups, and the sampled-value monitor
(R337–R350). -/

namespace Sys2Proof.Machine

/-! ### Shared operations -/

/-- SAU changed. -/
def State.setSau (s : State) (f : Sau → Sau) : State := { s with sau := f s.sau }
/-- Index of a direction. -/
def dirIndex (port dir : Nat) : Nat := 8 * dir + port
/-- One direction. -/
def State.dirOf (s : State) (port dir : Nat) : SampDir := vget s.sau.dir (dirIndex port dir) {}
/-- One direction changed. -/
def State.setDir (s : State) (port dir : Nat) (f : SampDir → SampDir) : State :=
  s.setSau fun x => { x with dir := vmod x.dir (dirIndex port dir) f }
/-- One channel. -/
def State.chanOf (s : State) (c : Nat) : SampChan := vget s.sau.chan c {}
/-- One channel changed. -/
def State.setChan (s : State) (c : Nat) (f : SampChan → SampChan) : State :=
  s.setSau fun x => { x with chan := vmod x.chan c f }

/-- SAU runs: present, clocked, not in a BLOCK reset. -/
def sauRuns (s : State) : Bool := s.blockRuns 15

/-- The group in force for a channel (R344). -/
def groupOf (s : State) (c : SampChanCfg) : Option SampGroup :=
  match c.group with
  | none => none
  | some g => if (vget s.sau.group g.val {}).enable then some (vget s.sau.group g.val {}) else none

/-- DELAY_NS in force (R342, R344). -/
def delayOf (s : State) (c : SampChanCfg) : Nat := ((groupOf s c).map SampGroup.delayNs).getD c.delayNs
/-- Clean source frames before re-entry (R343, R344). -/
def reentryOf (s : State) (c : SampChanCfg) : Nat := ((groupOf s c).map SampGroup.reentry).getD 16

/-- Two bit clocks before a frame sync, CD-TIME mark units of 2^-7 ns (R339). -/
def twoBits (c : SampDirCfg) : Nat := 2 * 128 * 10 ^ 9 / (c.slots * 32 * c.frameHz)

/-- Frame rate good: within ±1,000 ppm of FRAME_HZ (R338), from the marks of two frame syncs. -/
def goodRate (c : SampDirCfg) (a b : Nat) : Bool :=
  let span := (b - a) * c.frameHz
  decide (999 * span ≤ 128 * 10 ^ 9 * 1000) && decide (128 * 10 ^ 9 * 1000 ≤ 1001 * span)

/-- The grid instant k / FRAME_HZ of the domain's second, counted in frame periods, that a view has passed (R337). -/
def gridPassed (s : State) (c : SampDirCfg) : Nat := viewCount s c.view.val * c.frameHz / secU

/-- The grid instant of a master's next frame sync, counted in frame periods: after the latest one's, and not more than a
cycle ago. -/
def nextGrid (s : State) (x : SampDir) : Nat :=
  max (x.grid + 1) (ceilDiv ((viewCount s x.cfg.view.val - nsU) * x.cfg.frameHz) secU)

/-- The CD-TIME cycle at which a slave direction goes into RATE_FAULT (R338): 4 nominal periods after its latest frame sync,
or one second after its rate left ±1,000 ppm. -/
def rateFaultAt (x : SampDir) : Nat :=
  let silent := (x.last.map (· / 128)).getD x.since + ceilDiv (4 * 10 ^ 9) x.cfg.frameHz
  match x.badSince with
  | some m => min silent (m / 128 + 10 ^ 9)
  | none => silent

/-- The samples in DATA_BITS, left-aligned (R337). -/
def dataWord (c : SampDirCfg) (w : Word) : Word := word (w.toNat / 2 ^ (32 - c.dataBits) * 2 ^ (32 - c.dataBits))

/-! ### Slot masks (R339, R340) -/

/-- The slot-mask jobs of a direction that wait, in their order. -/
def maskJobs (s : State) (port dir : Nat) : List Flight :=
  s.mbx.flights.filter fun f => match f.hold with
    | .slotMask p d _ => p.val == port && d.val == dir
    | _ => false

/-- The shadow is copied at a frame sync (SLOT_MASK_APPLY): the last job completes DONE, superseded ones with warning 1. -/
def applyMask (port dir mark : Nat) (s : State) : State :=
  let x := s.dirOf port dir
  match x.shadow with
  | none => s
  | some (m, at') =>
    if mark < at' + twoBits x.cfg + 1 then s else
    let s := s.setDir port dir fun y => { y with active := m, shadow := none }
    let t := timeAtMark s x.cfg.view.val mark
    let r : Reply := { r0 := (x.frame.getD 0).setWidth 32, r1 := word (nsOf t), r2 := word (secondsOf t) }
    let jobs := maskJobs s port dir
    let n := jobs.length
    settle ((jobs.zip (List.range n)).foldl (fun t f =>
      finish f.1 (if f.2 + 1 = n then r else { r with status := 0x01, r3 := 1 }) t) s)

/-! ### Channels -/

/-- A source slot is captured (R339). -/
def slotOpen (x : SampDir) (slot : Nat) : Bool := x.active.getLsbD slot && decide (slot < x.cfg.slots)

/-- A channel underruns in a destination frame with a frame sync at a mark (R343, R346). -/
def underruns (s : State) (c : SampChan) (mark : Nat) : Bool :=
  let src := s.dirOf c.cfg.srcPort.val 0
  let instant : Int := (mark : Int) - 128 * delayOf s c.cfg
  let present := match src.first, src.last with
    | some a, some b => decide ((a : Int) ≤ instant) && decide (instant ≤ b)
    | _, _ => false
  let step := match c.stepped with
    | some m => decide (instant < (m : Int) + 128 * delayOf s c.cfg)
    | none => false
  !src.cfg.enable || src.rateFault || !slotOpen src c.cfg.srcSlot.val || c.ratio.isNone || !present || step

/-- A channel enters underrun. -/
def enterUnder (c : Nat) (s : State) : State :=
  if (s.chanOf c).under then s else
  pcuCount 0x4001 c 1 ((s.setChan c fun x => { x with under := true, clean := 0 }).setSau fun x =>
    { x with underSeen := x.underSeen ||| BitVec.ofNat 32 (2 ^ c) })

/-- A channel fills one slot of a destination frame (R341, R343): the filter's output is a free value. -/
def fillSlot (c mark : Nat) (dst : SampDirCfg) (s : State) : Word × State :=
  let s := if underruns s (s.chanOf c) mark then enterUnder c s else s
  let x := s.chanOf c
  let (f, s) := drawNat s
  let out := dataWord dst (word f)
  let flag := fun (w : Word) (b : Bool) => if dst.flagBit then (w &&& ~~~1) ||| (if b then 1 else 0) else w
  if x.under then
    let w := match x.cfg.fill with
      | 0 => x.lastWord
      | 1 => 0
      | 2 => out
    (flag w true, pcuCount 0x4000 c 1 s)
  else (flag out false, s.setChan c fun y => { y with lastWord := out })

/-- One slot of a transmit frame (R337–R339, R341): a stamp, a channel, or a value the manual leaves open. -/
def driveSlot (port mark i : Nat) (s : State) : Word × State :=
  let x := s.dirOf port 1
  let t := timeAtMark s x.cfg.view.val mark
  let chan := (List.range 32).find? fun c =>
    (s.chanOf c).cfg.enable && (s.chanOf c).cfg.dstPort.val == port && (s.chanOf c).cfg.dstSlot.val == i
  let (w, s) := match chan with
    | some c => fillSlot c mark x.cfg s
    | none =>
      let (f, s) := drawNat s
      (dataWord x.cfg (word f), s)
  let w := match x.cfg.stampSlot with
    | some k => if i = k.val then word (secondsOf t) else if i = k.val + 1 then word (nsOf t) else w
    | none => w
  (if x.active.getLsbD i then w else 0, s)

/-- The slots of a transmit frame, in order. -/
def driveFrame (port mark : Nat) (s : State) : List Word × State :=
  (List.range (s.dirOf port 1).cfg.slots).foldl (fun a i =>
    let r := driveSlot port mark i a.2
    (a.1 ++ [r.1], r.2)) ([], s)

/-- The slots of a receive frame: captured where the mask is 1. -/
def captureFrame (x : SampDir) (slots : List Word) : List Word :=
  (List.range x.cfg.slots).map fun i => if x.active.getLsbD i then dataWord x.cfg (slots.getD i 0) else 0

/-- Clean source frames of the channels that take their samples from a port (R343). -/
def countClean (port : Nat) (s : State) : State :=
  let x := s.dirOf port 0
  forAll 32 s fun c t =>
    let y := t.chanOf c
    if y.cfg.enable && y.cfg.srcPort.val == port then
      let ok := !x.rateFault && slotOpen x y.cfg.srcSlot.val && y.ratio.isSome
      t.setChan c fun z => { z with clean := if ok then z.clean + 1 else 0
                                    cleanFrom := if ok && z.clean == 0 then x.last.getD 0 else z.cleanFrom }
    else t

/-- A frame sync at a CD-TIME mark (R337–R339, R341): a frame begins, is numbered and takes its mask. -/
def beginFrame (p dir mark : Nat) (slots : List Word) (s : State) : State :=
  let s := s.setDir p dir fun y =>
    let good := y.last.map fun a => goodRate y.cfg a mark
    { y with frame := some (match y.frame with
               | none => 0
               | some n => n + 1)
             first := some (y.first.getD mark), last := some mark
             good := if good = some true then y.good + 1 else 0
             badSince := if good = some false then some (y.badSince.getD mark) else none }
  let s := applyMask p dir mark s
  if dir = 0 then
    countClean p (s.setDir p 0 fun y => { y with words := captureFrame y slots })
  else
    let r := driveFrame p mark s
    r.2.setDir p 1 fun y => { y with words := r.1 }

/-- SAMPLE_FRAME (R337): a slave's frame sync has the stamp given; a master's comes at its next grid instant, when the
impression in progress reaches it. -/
def execSampleFrame (port : Fin 8) (dir : Fin 2) (stamp : Nat) (slots : List Word) (s : State) :
    Host.Outcome State Fault Refusal :=
  let p := port.val
  let x := s.dirOf p dir.val
  .next (if !(sauRuns s && x.cfg.enable) then s
    else if x.cfg.master then
      let g := nextGrid s x
      atCount x.cfg.view.val (ceilDiv (g * secU) x.cfg.frameHz) (fun t =>
        beginFrame p dir.val (128 * t.tcr.cycles) slots (t.setDir p dir.val fun y => { y with grid := g })) s
    else beginFrame p dir.val stamp slots s)

/-- SLOT_MASK_TIMEOUT (R340): the oldest mask job of the direction completes with TIMEOUT when no frame sync has come for
8,000 impressions; the mask stays in the shadow. -/
def execSlotMaskTimeout (port : Fin 8) (dir : Fin 2) (s : State) : Host.Outcome State Fault Refusal :=
  .next (if !s.fwRuns then s else
    match (maskJobs s port.val dir.val).filter fun f => match f.hold with
      | .slotMask _ _ n => decide (n + 8000 ≤ s.cpx.impressions)
      | _ => false with
    | [] => s
    | f :: _ => settle (finish f { status := 0x22 } s))

/-- The ratio of a channel no longer holds. -/
def dropRatios (p : SampChanCfg → Bool) (s : State) : State :=
  forAll 32 s fun c t => if p (t.chanOf c).cfg then
    t.setChan c fun x => { x with ratio := none, clean := 0, tracked := t.tcr.cycles } else t

/-- SAMPLE_RATE_FAULT (R338): in the impression in which a slave's frame syncs have failed for long enough. -/
def execSampleRateFault (port : Fin 8) (dir : Fin 2) (s : State) : Host.Outcome State Fault Refusal :=
  let x := s.dirOf port.val dir.val
  .next (if !(sauRuns s && x.cfg.enable) || x.cfg.master || x.rateFault then s else
    atCycle (rateFaultAt x) (fun s => pcuCount 0x4002 (2 * port.val + dir.val) 1
      (dropRatios (fun c => if dir.val = 0 then c.srcPort == port else c.dstPort == port)
        (s.setDir port.val dir.val fun y => { y with rateFault := true, good := 0, first := none }))) s)

/-- SAMPLE_RATE_FAULT_CLEAR (R338): 16 good frames have passed. -/
def execSampleRateFaultClear (port : Fin 8) (dir : Fin 2) (s : State) : Host.Outcome State Fault Refusal :=
  let x := s.dirOf port.val dir.val
  .next (if sauRuns s && x.rateFault && decide (16 ≤ x.good) then
    s.setDir port.val dir.val fun y => { y with rateFault := false } else s)

/-- The CD-TIME cycle from which a channel's ratio may count as locked (R341): both directions have had frame syncs, and the
channel has tracked them, for 1 s. -/
def lockableAt (s : State) (c : SampChan) : Option Nat :=
  match (s.dirOf c.cfg.srcPort.val 0).first, (s.dirOf c.cfg.dstPort.val 1).first with
  | some a, some b => some (max c.tracked (max (a / 128) (b / 128)) + 10 ^ 9)
  | _, _ => none

/-- CHANNEL_RATIO_LOCK (R341): the estimate has held within 1 ppb for 1 s; a ratio outside 1/16 to 16 does not lock. -/
def execChannelRatioLock (c : Fin 32) (ratio : Nat) (s : State) : Host.Outcome State Fault Refusal :=
  let x := s.chanOf c.val
  .next (if !(sauRuns s && x.cfg.enable && decide (2 ^ 28 ≤ ratio) && decide (ratio ≤ 2 ^ 36)) then s else
    match lockableAt s x with
    | some n => atCycle n (fun t => t.setChan c.val fun x => { x with ratio := some ratio }) s
    | none => s)

/-- The clean source frames cover what the next destination frame represents (R343). -/
def covered (s : State) (x : SampChan) : Bool :=
  let y := s.dirOf x.cfg.dstPort.val 1
  y.last.any fun m => decide (x.cleanFrom + 128 * delayOf s x.cfg ≤ m + 128 * 10 ^ 9 / y.cfg.frameHz)

/-- A channel may re-enter (R343, R344). -/
def mayReenter (s : State) (c : Nat) : Bool :=
  let x := s.chanOf c
  x.under && x.ratio.isSome && decide (reentryOf s x.cfg ≤ x.clean) && covered s x

/-- CHANNEL_REENTRY (R343, R344, R346): a channel leaves underrun; after a step, all members of its group in the same
frame. -/
def execChannelReentry (c : Fin 32) (s : State) : Host.Outcome State Fault Refusal :=
  let x := s.chanOf c.val
  let leave := fun (i : Nat) (t : State) => t.setChan i fun y => { y with under := false, stepped := none }
  .next (if !(sauRuns s && mayReenter s c.val) then s else
    match x.stepped, groupOf s x.cfg with
    | some _, some _ =>
      let mates := (List.range 32).filter fun i =>
        (s.chanOf i).cfg.enable && (s.chanOf i).cfg.group == x.cfg.group && (s.chanOf i).stepped.isSome
      if mates.all (mayReenter s) then mates.foldl (fun t i => leave i t) s else s
    | _, _ => leave c.val s)

/-- A step of a domain on SAU (R346), whose counter stood at `old` before it: the frame in progress of each master on the
domain is lengthened to the first grid instant of the new time line at least one period after it began, and the channels on
the domain fill, then re-enter. -/
def stepSau (d old : Nat) (s : State) : State :=
  let mark := 128 * s.tcr.cycles
  let shift : Int := ((s.domain d).count : Int) - old
  let dirs := s.sau.dir.map fun x =>
    if x.cfg.enable && x.cfg.master && viewDomain s x.cfg.view.val == d then
      { x with grid := ((x.grid : Int) - Int.fdiv (-(shift * x.cfg.frameHz)) secU).toNat }
    else x
  forAll 32 (s.setSau fun x => { x with dir := dirs }) fun c t =>
    let x := t.chanOf c
    if x.cfg.enable && viewDomain t x.cfg.view.val == d then
      t.setChan c fun y => { y with stepped := some mark, clean := 0 }
    else t

/-! ### Jobs of the ports, channels and groups -/

/-- Settings of a direction (R338). -/
def dirCfgOf (p : Params) : SampDirCfg :=
  { enable := p.u 6 1 == 1, master := p.u 7 1 == 1, view := p.fin 8 5, slots := p.u 9 1, dataBits := p.u 10 1
    halfDuty := p.u 11 1 == 1, fsDelay := p.u 12 1, bclkEdge := p.u 13 1 == 1, fsLow := p.u 14 1 == 1
    flagBit := p.u 15 1 == 1, stampSlot := p.opt 16 31, frameHz := p.u 20 4 }

/-- SAMP_PORT_CONFIG (R338, R339). -/
def sampPortConfigDef : JobDef :=
  { code := 0x4001
    fields := [fRange 4 1 0 7, fRange 5 1 0 1, fRange 6 1 0 1, fRange 7 1 0 1, fRange 8 1 0 4, fRange 9 1 1 32,
      fOne 10 1 [16, 24, 32], fRange 11 1 0 1, fRange 12 1 0 1, fRange 13 1 0 1, fRange 14 1 0 1, fRange 15 1 0 1, fOpt 16 30,
      fRange 20 4 1000 192000]
    rules := fun _ p =>
      (if 49152000 < p.u 9 1 * 32 * p.u 20 4 then [9] else []) ++ (if p.u 15 1 = 1 ∧ p.u 10 1 = 32 then [10] else [])
    check := fun s _ p => if (s.dirOf (p.u 4 1) (p.u 5 1)).cfg.enable ∧ p.u 6 1 = 1 then some rejState else none
    run := fun s _ p =>
      let port := p.u 4 1
      let dir := p.u 5 1
      let c := dirCfgOf p
      let s := s.setDir port dir fun y =>
        if c.enable && !y.cfg.enable then
          { y with cfg := c, frame := none, first := none, last := none, rateFault := false, good := 0, badSince := none, words := []
                   since := s.tcr.cycles, grid := gridPassed s c
                   active := 0xFFFFFFFF, shadow := y.shadow.map fun x => (x.1, 0) }
        else { y with cfg := c, rateFault := y.rateFault && c.enable }
      done (if c.enable then s
        else dropRatios (fun x => if dir = 0 then x.srcPort.val == port else x.dstPort.val == port) s) }

/-- SAMP_SLOT_MASK (R340). -/
def sampSlotMaskDef : JobDef :=
  { code := 0x4002
    fields := [fRange 4 1 0 7, fRange 5 1 0 1, fAny 8 4]
    nextImp := false
    run := fun s _ p =>
      let x := s.dirOf (p.u 4 1) (p.u 5 1)
      let s := s.setDir (p.u 4 1) (p.u 5 1) fun y =>
        { y with shadow := some (word (p.u 8 4), if x.cfg.enable then 128 * s.tcr.cycles else 0) }
      (s, .hold (.slotMask (p.fin 4 8) (p.fin 5 2) s.cpx.impressions)) }

/-- Settings of a channel (R342). -/
def chanCfgOf (p : Params) : SampChanCfg :=
  { enable := p.u 6 1 == 1, view := p.fin 7 5, srcPort := p.fin 8 8, srcSlot := p.fin 9 32, dstPort := p.fin 10 8
    dstSlot := p.fin 11 32, fill := p.fin 12 3, group := p.opt 13 8, delayNs := p.u 16 4 }

/-- The layout of SAMP_GROUP_CONFIG by FORM (R342, R344, R345). -/
def sampGroupFields (p : Params) : List Field :=
  match p.u 4 1 with
  | 0 => [fRange 4 1 0 0, fRange 5 1 0 31, fRange 6 1 0 1, fRange 7 1 0 4, fRange 8 1 0 7, fRange 9 1 0 31, fRange 10 1 0 7,
          fRange 11 1 0 31, fRange 12 1 0 2, fOpt 13 7, fRange 16 4 20000 50000000]
  | 1 => [fRange 4 1 1 1, fRange 5 1 0 7, fRange 6 1 0 1, fRange 8 2 1 65535, fRange 12 4 20000 50000000]
  | _ => [fRange 4 1 2 2, fRange 5 1 0 7]

/-- Rules of FORM 0 (R342, R344). -/
def chanRules (s : State) (p : Params) : List Nat :=
  let me := p.u 5 1
  let c := chanCfgOf p
  let others := ((List.range 32).filter fun i => decide (i ≠ me)).map fun i => (s.chanOf i).cfg
  let src := (s.dirOf c.srcPort.val 0).cfg.frameHz
  let dst := (s.dirOf c.dstPort.val 1).cfg.frameHz
  let mates := if (groupOf s c).isSome then others.filter fun x => x.group == c.group else []
  (if others.any fun x => x.enable && x.dstPort == c.dstPort && x.dstSlot == c.dstSlot then [10] else []) ++
  (if delayOf s c * (src * dst) < (24 * dst + 2 * src) * 10 ^ 9 then [8] else []) ++
  (if 16 * src < dst ∨ 16 * dst < src then [8] else []) ++
  (if mates.any fun x => x.view != c.view then [7] else []) ++
  (if mates.any fun x => (s.dirOf x.dstPort.val 1).cfg.frameHz != dst then [10] else [])

/-- SAMP_GROUP_CONFIG (R342, R344, R345). -/
def sampGroupConfigDef : JobDef :=
  { code := 0x4003
    fields := [fAny 4 60]
    rules := fun s p => badFields (sampGroupFields p) p 4 64 ++ (if p.u 4 1 = 0 then chanRules s p else [])
    check := fun s _ p =>
      if p.u 4 1 = 0 ∧ (s.chanOf (p.u 5 1)).cfg.enable ∧ p.u 6 1 = 1 then some rejState else none
    run := fun s _ p =>
      match p.u 4 1 with
      | 0 =>
        done (s.setChan (p.u 5 1) fun x =>
          let c := chanCfgOf p
          if c.enable then { cfg := c, tracked := s.tcr.cycles } else { x with cfg := c, ratio := none, under := false, clean := 0, stepped := none })
      | 1 =>
        done (s.setSau fun x => { x with group := vmod x.group (p.u 5 1) fun _ =>
          { enable := p.u 6 1 == 1, reentry := p.u 8 2, delayNs := p.u 12 4 } })
      | _ =>
        let mask := fun (f : SampChan → Bool) => maskOf 32 fun c => f (s.chanOf c)
        let groups := maskOf 8 fun g => s.sau.chan.toList.any fun c => c.under && c.cfg.group.any fun x => x.val == g
        let rf := bit (s.dirOf (p.u 5 1) 0).rateFault + 2 * bit (s.dirOf (p.u 5 1) 1).rateFault
        reply { r0 := word (mask SampChan.under), r1 := word (mask fun c => c.ratio.isSome)
                r2 := s.sau.underSeen, r3 := word (groups + rf * 256) }
          (s.setSau fun x => { x with underSeen := 0 }) }

/-! ### The sampled-value monitor -/

/-- Streams that an imposition holds (R37). -/
def streamCap : Imposition → Nat
  | .folio => 256
  | .broadsheet => 64
  | .quarto => 1024
  | .octavo => 256

/-- The record of a stream. -/
def streamOf (s : State) (i : Nat) : SvRec :=
  match s.sau.stream.find? fun x => x.1 == i with
  | some x => x.2
  | none => {}

/-- One stream record changed; the list stays rising by index. -/
def setStream (i : Nat) (f : SvRec → SvRec) (s : State) : State :=
  let l := s.sau.stream
  s.setSau fun x => { x with stream :=
    (l.filter fun y => decide (y.1 < i)) ++ [(i, f (streamOf s i))] ++ l.filter fun y => decide (i < y.1) }

/-- A stream record is in use: enabled and within the capacity in force (R348). -/
def streamLive (s : State) (i : Nat) : Bool := (streamOf s i).enable && decide (i < streamCap s.cpx.imposition)

/-- The record without what it has measured (R42). -/
def svCleared (r : SvRec) : SvRec :=
  { enable := r.enable, port := r.port, appid := r.appid, rate := r.rate, view := r.view, synchMin := r.synchMin
    alarmMask := r.alarmMask, nominal := r.nominal, arrivalUs := r.arrivalUs, sampleNs := r.sampleNs, svid := r.svid }

/-- The statistics of every stream start again (R42). -/
def clearStreams (s : State) : State := s.setSau fun x => { x with stream := x.stream.map fun y => (y.1, svCleared y.2) }

/-- One ASDU's counter against the one before it (R347): missing values, duplicates, out-of-order ASDUs. -/
def countAsdu (r : SvRec) (c : Nat) : SvRec :=
  match r.lastCnt with
  | none => { r with lastCnt := some c }
  | some l =>
    let gap := (c + r.rate - (l + 1) % r.rate) % r.rate
    if c = l then { r with dups := r.dups + 1 }
    else if gap < r.rate / 2 then { r with lastCnt := some c, missing := r.missing + gap }
    else { r with disorder := r.disorder + 1 }

/-- Arrival delay D of a frame (R347): the ingress stamp less S + smpCnt / RATE, counter units, rounded down. -/
def arrivalDelay (t cnt rate : Nat) : Nat :=
  ((((t * rate : Nat) : Int) - cnt * secU) % ((secU * rate : Nat) : Int)).toNat / rate

/-- One frame in the histogram (R349). -/
def histAdd (k : Nat) (l : List (Nat × Nat)) : List (Nat × Nat) :=
  (l.filter fun x => decide (x.1 < k)) ++
  [(k, min (2 ^ 32 - 1) (((l.find? fun x => x.1 == k).map Prod.snd).getD 0 + 1))] ++ l.filter fun x => decide (k < x.1)

/-- What a record takes from a frame (R347). -/
def svTake (s : State) (f : SvFrame) (r : SvRec) : SvRec :=
  let gap := match r.lastMark with
    | some m => decide (m + 128 * 10 ^ 7 < f.mark)
    | none => false
  let r := f.smpCnts.foldl countAsdu r
  let r := { r with lastMark := some f.mark, synch := f.smpSynch, gap := r.gap || gap
                    synchLow := r.synchLow || decide (f.smpSynch < r.synchMin) }
  match f.smpCnts.getLast? with
  | some c =>
    if rxFallback s f.port.val f.mark || !(s.portOf f.port.val).enable || !viewValid s r.view.val then r else
    let d := arrivalDelay (ingressStamp s f.port.val f.mark r.view.val) c r.rate
    { r with minD := some (min d (r.minD.getD d)), maxD := some (max d (r.maxD.getD d))
             hist := histAdd (min 511 (d / (1000 * nsU))) r.hist }
  | none => r

/-- SV_FRAME_RECEIVE (R347). -/
def execSvFrameReceive (f : SvFrame) (s : State) : Host.Outcome State Fault Refusal :=
  .next (if !(sauRuns s && s.lanePresent f.port.val && s.blockRuns 12 && laneUp (s.laneOf f.port.val)) then s else
    match s.sau.stream.find? fun x =>
        streamLive s x.1 && x.2.port == f.port && x.2.appid == f.appid && x.2.svid == f.svid with
    | none => pcuCount 0x4004 0xFF 1 s
    | some x => pcuCount 0x4003 0xFF 1 (setStream x.1 (svTake s f) s))

/-- The end of a second for one stream (R347, R348). -/
def svSecond (now : Nat) (r : SvRec) : SvRec :=
  let e : Option Int := r.minD.map fun d => ((d / nsU : Nat) : Int) - 10 * r.nominal
  let d : Option Nat := r.maxD.map fun d => d / nsU
  let quiet := match r.lastMark with
    | some m => decide (m + 128 * 10 ^ 7 < 128 * now)
    | none => true
  let a0 := e.any fun x => decide (r.sampleNs < x.natAbs)
  let a1 := d.any fun x => decide (1000 * r.arrivalUs < x)
  let alarms := BitVec.ofNat 5 (bit a0 + 2 * bit a1 + 4 * bit (decide (0 < r.missing)) + 8 * bit r.synchLow + 16 * bit (r.gap || quiet))
  { r with alarms := alarms, sticky := r.sticky ||| alarms, lastE := e, lastD := d
           lastMissing := r.missing, lastDups := r.dups
           minD := none, maxD := none, missing := 0, dups := 0, disorder := 0, synchLow := false, gap := false }

/-- SV_MONITOR_SECOND (R347, R348): each stream's E and alarms; an alarm that sets raises interrupt source 16. -/
def execSvMonitorSecond (s : State) : Host.Outcome State Fault Refusal :=
  .next (if !sauRuns s || s.tcr.seq.second == s.sau.svSecond then s else
    (s.sau.stream.map Prod.fst).foldl (fun t i =>
      if !streamLive t i then t else
      let old := streamOf t i
      let new := svSecond t.tcr.cycles old
      let t := setStream i (fun _ => new) t
      if (new.alarms &&& ~~~old.alarms &&& new.alarmMask) != 0 then raiseIrq 16 t else t) (s.setSau fun x => { x with svSecond := s.tcr.seq.second }))

/-- SV_MONITOR_CONFIG (R348). -/
def svMonitorConfigDef : JobDef :=
  { code := 0x4004
    fields := [fRange 4 2 0 1023, fRange 6 1 0 1, fRange 7 1 0 23, fRange 8 2 0x4000 0x7FFF, fRange 10 1 0 1, fRange 11 1 0 4,
      fRange 12 1 0 2, fMask 13 1 0x1F, fAny 14 2, fRange 16 2 1 65535, fRange 18 2 1 65535, fRange 20 1 1 34, fAny 21 34]
    absent := fun s p => decide (p.u 7 1 < 24) && !s.lanePresent (p.u 7 1)
    check := fun s _ p => if streamCap s.cpx.imposition ≤ p.u 4 2 then some { status := 0x30 } else none
    run := fun s _ p =>
      done (setStream (p.u 4 2) (fun r =>
        { r with enable := p.u 6 1 == 1, port := p.fin 7 24, appid := BitVec.ofNat 16 (p.u 8 2)
                 rate := if p.u 10 1 = 0 then 4800 else 14400, view := p.fin 11 5, synchMin := p.fin 12 3
                 alarmMask := BitVec.ofNat 5 (p.u 13 1), nominal := p.u 14 2, arrivalUs := p.u 16 2, sampleNs := p.u 18 2
                 svid := p.bytes 21 (p.u 20 1), lastCnt := none, lastMark := none }) s) }

/-- SV_MONITOR_READ (R349, R306). E and the largest D of a second without a measurement are free values. -/
def svMonitorReadDef : JobDef :=
  { code := 0x4005
    dma := some dmaSame
    fields := [fRange 4 2 0 1023, fMask 6 1 1]
    nextImp := false
    minResult := fun _ => 2048
    nsForbids := fun s _ => poolSecure s 2
    run := fun s _ p =>
      let i := p.u 4 2
      let r := streamOf s i
      let (e, s) := match r.lastE with
        | some e => (e, s)
        | none => drawInt s
      let (d, s) := match r.lastD with
        | some d => (d, s)
        | none => drawNat s
      let s := if p.bit 6 0 ∧ (s.sau.stream.any fun x => x.1 == i) then
          setStream i (fun r => { r with sticky := 0, hist := [] }) s
        else s
      reply
        { r0 := word (r.alarms.toNat + r.sticky.toNat * 256 + r.synch.val * 65536)
          r1 := wordI e
          r2 := word (min (2 ^ 32 - 1) d)
          r3 := word (min 65535 r.lastMissing + min 65535 r.lastDups * 65536)
          out := (List.range 512).flatMap fun k => leBytes 4 (((r.hist.find? fun x => x.1 == k).map Prod.snd).getD 0) } s }

def execSampPortConfig (j : Job) (s : State) : Host.Outcome State Fault Refusal := .next (directJob sampPortConfigDef j s)
def execSampSlotMask (j : Job) (s : State) : Host.Outcome State Fault Refusal := .next (directJob sampSlotMaskDef j s)
def execSampGroupConfigChannel (j : Job) (s : State) : Host.Outcome State Fault Refusal := .next (directJob sampGroupConfigDef (withByte 4 0 j) s)
def execSampGroupConfigGroup (j : Job) (s : State) : Host.Outcome State Fault Refusal := .next (directJob sampGroupConfigDef (withByte 4 1 j) s)
def execSampGroupConfigStatus (j : Job) (s : State) : Host.Outcome State Fault Refusal := .next (directJob sampGroupConfigDef (withByte 4 2 j) s)
def execSvMonitorConfig (j : Job) (s : State) : Host.Outcome State Fault Refusal := .next (directJob svMonitorConfigDef j s)
def execSvMonitorRead (j : Job) (s : State) : Host.Outcome State Fault Refusal := .next (directJob svMonitorReadDef j s)

end Sys2Proof.Machine
end

