-- ==== Sys2Proof/Machine/Ensemble.lean ====
section
/-! DEFINITION. The ensemble (R104–R110): its cycle, outliers, weights, reference 31, and the ENS jobs. The Kalman
estimator's numbers are free values (log entry 3). -/

namespace Sys2Proof.Machine

/-- One ensemble member. -/
def State.memberOf (s : State) (m : Nat) : Member := vget s.ehu.member m {}

/-- The pool reference that a member measures. -/
def memberRef (m : Member) : Option (Fin 32) :=
  match m.cfg.source with
  | .ref r => some r
  | _ => none

/-- The outlier flag of a member's reference, which the integrity monitor reads at its next evaluation (R108, R124). -/
def flagOutlier (m : Nat) (on : Bool) (s : State) : State :=
  match memberRef (s.memberOf m) with
  | none => s
  | some r => s.setRef r.val fun e => { e with outlierNow := on }

/-- A member takes up the settings that wait (R105). -/
def takeMember (m : Nat) (s : State) : State :=
  let x := s.memberOf m
  match x.next with
  | none => s
  | some c =>
    if c.source = x.cfg.source ∧ c.enable then s.setMember m fun y => { y with cfg := c, next := none }
    else (flagOutlier m false s).setMember m fun _ => { cfg := c }

/-- A member is measured in this cycle (R104, R106). -/
def measured (s : State) (m : Nat) : Bool :=
  let x := s.memberOf m
  x.cfg.enable && (match x.cfg.source with
    | .unassigned => false
    | .localOscillator => true
    | .ref r => (s.refEntry r.val).enable && !(s.refEntry r.val).los)

/-! ### The estimator (R104) -/

/-- A member's state one second later. -/
def MemberEst.predict (e : MemberEst) : MemberEst :=
  { e with phase := e.phase + e.freq + e.drift / 2, freq := e.freq + e.drift }

/-- The parts of a state, as the estimator takes them. -/
def MemberEst.parts (e : MemberEst) : List Int := [e.phase, e.freq, e.drift, e.var]

/-- The state whose parts the estimator answers; the drift is estimated only where DRIFT says so. -/
def estOf (drift : Bool) (x : Nat → Int) : MemberEst :=
  { phase := x 0, freq := x 1, drift := if drift then x 2 else 0, var := (x 3).natAbs }

/-- The ensemble's phase one second after its latest cycle, fs. -/
def ensemblePredict (s : State) : Int := s.ehu.phase + s.ehu.freq

/-- A residual with the variance that the estimator predicts for it, fs and fs². -/
structure Residual where
  member : Nat
  value  : Int
  var    : Nat
  deriving DecidableEq, Repr

/-- The residual of a member's measurement in a cycle, if it was measured and had a state. -/
def residualOf (s : State) (phases : List Int) (m : Nat) : Option Residual :=
  match measured s m, phases[m]?, (s.memberOf m).est with
  | true, some p, some e =>
    let e := e.predict
    some { member := m, value := p * 1000 - ensemblePredict s - e.phase, var := max 1 e.var }
  | _, _, _ => none

/-- The residuals of a cycle. -/
def residuals (s : State) (phases : List Int) : List Residual := (List.range 8).filterMap (residualOf s phases)

/-- The estimator updates a member's state (R104, R106): with its measurement, from the first one on, or without. -/
def updateMember (phases : List Int) (m : Nat) (s : State) : State :=
  let y := s.memberOf m
  let c := y.cfg
  let base := ensemblePredict s
  let p := if measured s m then phases[m]? else none
  let noise := [c.wpmPs, c.wfm, c.rwfm]
  let est : Option MemberEst := match y.est, p with
    | some e, _ =>
      let q := e.predict
      some (estOf c.drift fun i => Config.kalman i q.parts (p.map fun p => p * 1000 - base - q.phase) c.drift noise)
    | none, some p => some (estOf c.drift fun i => Config.kalmanStart i (p * 1000 - base) c.drift noise)
    | none, none => none
  s.setMember m fun y => { y with est := est, phasePs := match p with
    | some p => some p
    | none => y.phasePs }

/-! ### Outliers (R108) -/

/-- A residual exceeds OUTLIER_K tenths of its predicted σ. -/
def Residual.outlier (k : Nat) (r : Residual) : Bool := decide (k ^ 2 * r.var < 100 * r.value.natAbs ^ 2)

/-- A residual is larger, relative to its σ, than another. -/
def Residual.above (a b : Residual) : Bool := decide (b.value.natAbs ^ 2 * a.var < a.value.natAbs ^ 2 * b.var)

/-- The outlier that is de-weighted: the one with the largest ratio, the lowest-numbered of equals. -/
def worstOutlier (l : List Residual) : Option Nat :=
  (l.foldl (fun (best : Option Residual) x =>
    match best with
    | none => some x
    | some b => if x.above b then some x else some b) none).map Residual.member

/-- What every outlier of a cycle causes: INTEGRITY_SEEN and the integrity monitor of its reference, an integrity failure for
a GNSS entry (R172), source 99 for the local oscillator; at zero weight its DEWEIGHT_S starts again. -/
def noteOutlier (m : Nat) (s : State) : State :=
  let s := s.setMember m fun y => { y with dew := match y.dew with
    | .zero _ => .zero 0
    | d => d }
  match (s.memberOf m).cfg.source with
  | .unassigned => s
  | .localOscillator => raiseFault 99 {} s
  | .ref r =>
    let s := setHistory r.val 6 s
    if r = 16 ∨ r = 17 then gnssFailure s else s

/-- A member is de-weighted: its weight is zero, and its flag stands. -/
def deweight (m : Nat) (s : State) : State :=
  flagOutlier m true (s.setMember m fun y => { y with weight := 0, dew := .zero 0 })

/-- The outliers of a cycle act (R108). -/
def actOutliers (l : List Residual) (s : State) : State :=
  let s := l.foldl (fun t x => noteOutlier x.member t) s
  match worstOutlier l with
  | some m => deweight m s
  | none => s

/-- One second of a member's de-weighting and ramp (R108). -/
def deweightSecond (p : EnsPolicy) (d : Deweight) : Deweight :=
  match d with
  | .none => .none
  | .zero n => .zero (n + 1)
  | .ramp n => if p.reinstateS ≤ n + 1 then .none else .ramp (n + 1)

/-- The share of its weight that a member has (R108). -/
def rampShare (p : EnsPolicy) : Deweight → ℚ
  | .none => 1
  | .zero _ => 0
  | .ramp n => if p.reinstateS = 0 then 1 else (n : ℚ) / p.reinstateS

/-- A member can have weight (R106): its entry is QUALIFIED or DRIFTING, or it is the local oscillator. -/
def contributes (s : State) (m : Nat) : Bool :=
  let x := s.memberOf m
  x.cfg.enable && (match x.cfg.source with
    | .unassigned => false
    | .localOscillator => true
    | .ref r => selectable s r.val)

/-- The weights of a cycle (R106), before their caps: the inverse of the predicted variance, with the share of a ramp. -/
def rawWeight (s : State) (m : Nat) : ℚ :=
  match contributes s m, (s.memberOf m).est with
  | true, some e => rampShare s.ehu.policy (s.memberOf m).dew / (max 1 e.predict.var : Nat)
  | _, _ => 0

/-- The weights of a cycle (R106). -/
def weigh (s : State) : State :=
  let raw := (List.range 8).map (rawWeight s)
  let total := raw.sum
  let norm := if total = 0 then raw else raw.map fun w => w / total
  let caps := (List.range 8).map fun m => ((s.memberOf m).cfg.cap : ℚ) / 256
  let out := capWeights 8 ((norm.zip caps).map fun x => (x.1, x.2, false))
  forAll 8 s fun m t => t.setMember m fun y => { y with weight := out.getD m 0 }

/-- A member is traceable: a GNSS, packet or physical time reference (R106). -/
def traceableMember (s : State) (m : Nat) : Bool :=
  match memberRef (s.memberOf m) with
  | some r => isTimeRef s r.val
  | none => false

/-- Members with non-zero weight. -/
def contributing (s : State) : List Nat := (List.range 8).filter fun m => decide (0 < (s.memberOf m).weight)

/-- Weighted mean of the phases of the traceable members with weight, fs, if there is one (R106). -/
def traceablePhase (s : State) : Option ℚ :=
  let l := ((contributing s).filter (traceableMember s)).filterMap fun m =>
    (s.memberOf m).phasePs.map fun p => ((s.memberOf m).weight, (p : ℚ) * 1000)
  let w := (l.map fun x => x.1).sum
  if w = 0 then none else some ((l.map fun x => x.1 * x.2).sum / w)

/-- The ensemble's phase and frequency after a cycle (R104, R106): the estimator's step, and the steering of the phase
towards the traceable members with the time constant STEER_TC_S. -/
def steerEnsemble (s : State) : State :=
  let ests := (contributing s).filterMap fun m =>
    (s.memberOf m).est.map fun e => ((s.memberOf m).weight, e.parts)
  let phase := ensemblePredict s + Config.ensembleStep 0 ests
  let pull : Int := match traceablePhase s with
    | some mean => round ((mean - phase) / s.ehu.policy.steerTcS)
    | none => 0
  { s with ehu := { s.ehu with phase := phase + pull, freq := Config.ensembleStep 1 ests } }

/-- Reference 31 is published (R109, R115, R123): the ensemble's phase and frequency, its uncertainty a free value. -/
def publishEnsemble (s : State) : State :=
  let on := contributing s
  let trace := on.filter (traceableMember s)
  let hops := (trace.map fun m => match memberRef (s.memberOf m) with
    | some r => (refHops s r.val).val
    | none => 0).min?.getD 0
  let s := s.setRef 31 fun e => { e with timeKind := !trace.isEmpty }
  if on.length < s.ehu.policy.minMembers then (if (s.refEntry 31).enable then loseRef 31 s else s.setRef 31 fun e => { e with los := true })
  else
    let (unc, s) := drawNat s
    let s := deliver 31 { lag := (s.ehu.phase : ℚ) / 10 ^ 6, uncPs := unc, cls := 5, hops := hops } s
    s.setRef 31 fun e => { e with freqNow := some (((s.ehu.freq + steeredBy s : Int) : ℚ) / 1000) }

/-- ENSEMBLE_CYCLE (R34, R104–R109): `phases` are the members' phases against the CD-TIME count in ps. One cycle of a second
runs, and a late one first. -/
def execEnsembleCycle (phases : List Int) (s : State) : Host.Outcome State Fault Refusal :=
  .next (if !(s.fwRuns && s.blockRuns 7 && s.clockOk && s.ehu.due) then s else
    let s := { s with ehu := { s.ehu with policy := s.ehu.nextPolicy.getD s.ehu.policy, nextPolicy := none } }
    let s := forAll 8 s fun m t => takeMember m t
    let s := forAll 8 s fun m t => t.setMember m fun y => { y with dew := deweightSecond s.ehu.policy y.dew }
    let out := (residuals s phases).filter (Residual.outlier s.ehu.policy.outlierK)
    let s := actOutliers out (forAll 8 s (updateMember phases))
    if !s.clocked then s else
    let s := publishEnsemble (steerEnsemble (weigh s))
    let s := { s with ehu := if s.ehu.late then { s.ehu with late := false, lag := 0 } else { s.ehu with due := false, lag := 0 } }
    completeHeld (fun h => h == .cycle) (fun _ => {}) s)

/-- DEWEIGHT_END (R108): DEWEIGHT_S have passed with no further outlier; the bit clears and the ramp begins. -/
def execDeweightEnd (m : Fin 8) (s : State) : Host.Outcome State Fault Refusal :=
  .next (match (s.memberOf m.val).dew with
    | .zero n =>
      if s.fwRuns && s.blockRuns 7 && decide (s.ehu.policy.deweightS ≤ n) then
        flagOutlier m.val false (s.setMember m.val fun y =>
          { y with dew := if s.ehu.policy.reinstateS = 0 then .none else .ramp 0 })
      else s
    | _ => s)

/-! ### Jobs -/

/-- SOURCE of ENS_CONFIG_MEMBER (R105). -/
def sourceOf (v : Nat) : MemberSource :=
  if v = 0xFE then .localOscillator else if h : v < 31 then .ref ⟨v, by omega⟩ else .unassigned

/-- ENS_CONFIG_MEMBER (R105). -/
def ensConfigMemberDef : JobDef :=
  { code := 0x1101
    fields := [fRange 4 1 0 7, { off := 5, len := 1, ok := fun v => decide (v ≤ 30) || v == 0xFE || v == 0xFF }, fRange 6 1 0 1,
      fRange 7 1 0 1, fRange 8 4 1 1000000, fRange 12 4 1 1000000000, fRange 16 4 0 1000000000, fRange 20 1 1 255]
    rules := fun s p =>
      let v := p.u 5 1
      let used := (List.range 8).any fun m => m != p.u 4 1 && (memberCfg s m).source == sourceOf v
      if (v ≠ 0xFF ∧ used) ∨ (v = 0xFF ∧ p.u 6 1 = 1) then [5] else []
    absent := fun s p => decide (p.u 5 1 < 31) && !s.refPresent (p.u 5 1)
    check := fun s _ p =>
      let t := s.ehu.steer
      let loop := p.u 6 1 == 1 && t.outside && (match t.dpll, t.steeredRef with
        | some k, some r => r.val == p.u 5 1 && (s.dpllOf k.val).cands.contains 31
        | _, _ => false)
      if loop then some rejState else none
    run := fun s _ p =>
      (s.setMember (p.u 4 1) fun y =>
        { y with next := some { source := sourceOf (p.u 5 1), enable := p.u 6 1 == 1, drift := p.u 7 1 == 1, wpmPs := p.u 8 4
                                wfm := p.u 12 4, rwfm := p.u 16 4, cap := p.u 20 1 } }, .hold .cycle) }

/-- A weight in units of 1/256, in one byte (R110), which does not say how a weight becomes a whole number: it rounds down.
DESIGN CHOICE, log entry 98. -/
def weightByte (w : ℚ) : Nat := min 255 (w * 256).floor.toNat

/-- ENS_READ_STATE (R110). -/
def ensReadStateDef : JobDef :=
  { code := 0x1102
    nextImp := false
    run := fun s _ _ =>
      let w := fun m => weightByte (s.memberOf m).weight
      let out := maskOf 8 fun m => match (s.memberOf m).dew with
        | .zero _ => true
        | _ => false
      reply
        { r0 := word (maskOf 8 (fun m => decide (0 < (s.memberOf m).weight)) + out * 256 + min 65535 s.ehu.lag * 65536)
          r1 := word (w 0 + w 1 * 2 ^ 8 + w 2 * 2 ^ 16 + w 3 * 2 ^ 24)
          r2 := word (w 4 + w 5 * 2 ^ 8 + w 6 * 2 ^ 16 + w 7 * 2 ^ 24)
          r3 := wordI s.ehu.freq } s }

/-- ENS_SET_POLICY (R107). -/
def ensSetPolicyDef : JobDef :=
  { code := 0x1103
    fields := [fRange 4 1 30 200, fRange 5 1 2 8, fRange 8 4 1 86400, fRange 12 4 0 86400, fRange 16 4 100 1000000]
    run := fun s _ p =>
      let n : EnsPolicy :=
        { outlierK := p.u 4 1, minMembers := p.u 5 1, deweightS := p.u 8 4, reinstateS := p.u 12 4, steerTcS := p.u 16 4 }
      ({ s with ehu := { s.ehu with nextPolicy := some n } }, .hold .cycle) }

def execEnsConfigMember (j : Job) (s : State) : Host.Outcome State Fault Refusal := .next (directJob ensConfigMemberDef j s)
def execEnsReadState (j : Job) (s : State) : Host.Outcome State Fault Refusal := .next (directJob ensReadStateDef j s)
def execEnsSetPolicy (j : Job) (s : State) : Host.Outcome State Fault Refusal := .next (directJob ensSetPolicyDef j s)

end Sys2Proof.Machine
end

