-- ==== Sys2Proof/Machine/Security.lean ====
section
/-! DEFINITION. Meanings of the SEC and KEY jobs and of the security events (R304–R333). -/

namespace Sys2Proof.Machine

/-! ### Partition and regions -/

/-- Assignable entries of the partition table (R305). -/
def assignable : Nat := 0x3DFF0

/-- SEC_PARTITION_SET (R309). A MASK bit of an absent unit aims the job at that unit, so R6 refuses it: DESIGN CHOICE, log
entry 94. -/
def secPartitionSetDef : JobDef :=
  { code := 0x0201
    fields := [fMask 4 4 assignable, fAny 8 4]
    absent := fun s p => (List.range 16).any fun b => (p.u 4 4).testBit b && !s.present b
    check := fun s _ _ => if s.sec.locked then some rejState else none
    run := fun s _ p =>
      let m := BitVec.ofNat 18 (p.u 4 4) &&& BitVec.ofNat 18 assignable
      let w := BitVec.ofNat 18 (p.u 8 4)
      done { s with sec := { s.sec with part := (s.sec.part &&& ~~~m) ||| (w &&& m) } } }

/-- SEC_PARTITION_LOCK (R311). -/
def secPartitionLockDef : JobDef :=
  { code := 0x0202
    run := fun s _ _ => done { s with sec := { s.sec with locked := true } } }

/-- A region whose world is fixed (R304, R310). -/
def regionFixed (r : Nat) : Bool := decide (r ≤ 2) || (decide (8 ≤ r) && decide (r ≤ 13))

/-- SEC_REGION_SET (R310). -/
def secRegionSetDef : JobDef :=
  { code := 0x0203
    fields := [fRange 4 1 0 63, fRange 5 1 1 64, fRange 6 1 0 1]
    rules := fun _ p =>
      let f := p.u 4 1
      let n := p.u 5 1
      if 64 < f + n ∨ (List.range n).any (fun i => regionFixed (f + i)) then [4] else []
    check := fun s _ _ => if s.sec.locked then some rejState else none
    run := fun s _ p =>
      let m := BitVec.ofNat 64 ((2 ^ p.u 5 1 - 1) * 2 ^ p.u 4 1) &&& ~~~0x3F07
      done { s with sec := { s.sec with region := if p.u 6 1 = 1 then s.sec.region ||| m else s.sec.region &&& ~~~m } } }

/-! ### Firmware images -/

/-- Change the slot that firmware stages into. -/
def setSlot (i : Nat) (f : FwSlot → FwSlot) (s : State) : State :=
  { s with sec := { s.sec with slot := vmod s.sec.slot i f } }

/-- SEC_FW_STAGE (R331): the image data goes to the inactive slot; the job completes when flash has been written. -/
def secFwStageDef : JobDef :=
  { code := 0x0204
    dma := some { required := true, lenOk := fun n => decide (n < 2 ^ 24), inBlock := false, covered := 0
                  own := [fAny 32 4, fMask 36 1 1] }
    rules := fun s p =>
      let off := p.u 32 4
      (if 1048576 < off + p.u 12 4 then [12] else []) ++ (if off = 0 ∨ off = s.sec.stageAt then [] else [32])
    run := fun s j p =>
      let off := p.u 32 4
      let i := inactiveSlot s
      let s := setSlot i (fun x => { x with image := x.image.take off ++ j.block, verified := false, invalid := false }) s
      ({ s with sec := { s.sec with stageAt := off + j.block.length } }, .hold .flash) }

/-- SEC_FW_COMMIT (R332). -/
def secFwCommitDef : JobDef :=
  { code := 0x0205
    fields := [fMask 4 1 1]
    check := fun s _ _ => if (vget s.sec.slot (inactiveSlot s) {}).verified then none else some rejState
    run := fun s _ p =>
      let i := inactiveSlot s
      let s := setSlot i (fun x => { x with trial := true, failed := false }) s
      let s := { s with sec := { s.sec with bootSlot := Fin.ofNat 2 i, stageAt := 0 } }
      if p.bit 4 0 then ({ s with cpx := { s.cpx with warmDue := some true } }, .hold .fwRestart) else done s }

/-! ### Tamper -/

/-- The settings may be changed (R326): while locked, no ENABLE bit clears, no LEVEL bit of an enabled input changes,
no FILTER rises. -/
def tamperRefused (t : Tamper) (p : Params) : Bool :=
  let en := BitVec.ofNat 4 (p.u 4 1)
  let lv := BitVec.ofNat 4 (p.u 5 1)
  t.locked && ((t.enable &&& ~~~en) != 0 || ((t.level ^^^ lv) &&& t.enable) != 0 ||
    (List.range 4).any fun i => decide (vget t.filter i 0 < p.u (6 + i) 1))

/-- SEC_TAMPER_CONFIG (R326): an input enabled at its active level is a tamper event; an input that is disabled, or whose active level
changes away, has no condition that stands (DEDUCED, log entry 115). -/
def secTamperConfigDef : JobDef :=
  { code := 0x0206
    fields := [fRange 4 1 0 15, fRange 5 1 0 15, fRange 6 1 1 255, fRange 7 1 1 255, fRange 8 1 1 255, fRange 9 1 1 255,
               fRange 10 1 0 1]
    check := fun s _ p => if tamperRefused s.sec.tamper p then some rejState else none
    run := fun s _ p =>
      let t := s.sec.tamper
      let t' := { t with enable := BitVec.ofNat 4 (p.u 4 1), level := BitVec.ofNat 4 (p.u 5 1)
                         filter := Vector.ofFn fun (i : Fin 4) => p.u (6 + i.val) 1
                         locked := t.locked || p.u 10 1 == 1 }
      let s := { s with sec := { s.sec with tamper := t' } }
      let hit := t'.enable &&& ~~~(t'.pins ^^^ t'.level)
      let s := forAll 4 s fun i x => if hit.getLsbD i && !t.standing.getLsbD i then tamperOp i x else x
      done { s with sec := { s.sec with tamper := { s.sec.tamper with
        standing := (s.sec.tamper.standing &&& 0x70) ||| hit.setWidth 7 } } } }

/-- SEC_TAMPER_STATUS (R327). -/
def secTamperStatusDef : JobDef :=
  { code := 0x0207
    fields := [fMask 4 1 1]
    nextImp := false
    run := fun s _ p =>
      let r : Reply := { r0 := tamperStatus s, r1 := s.sec.tamper.first }
      if p.bit 4 0 then
        let t := s.sec.tamper
        reply r { s with sec := { s.sec with tamper := { t with seen := t.standing, first := 0, recorded := false } } }
      else reply r s }

/-- SEC_TEST_UNLOCK (R333). -/
def secTestUnlockDef : JobDef :=
  { code := 0x0208
    run := fun s _ _ =>
      let s := zeroKeys s
      done { s with fco := { s.fco with injectUnlocked := true }, sec := { s.sec with rootRefused := true } } }

/-! ### Key jobs -/

/-- The rule of DMA_PARAM of KEY_WRITE (R317). -/
def keyDma : DmaRule := { lenOk := fun n => n == 96, covered := 96 }

/-- The key bytes of a KEY_WRITE or KEY_ROLL. -/
def keyBytes (p : Params) (len : Nat) : List Byte := p.bytes 32 len

/-- KEY_WRITE (R317). -/
def keyWriteDef : JobDef :=
  { code := 0x0301
    dma := some keyDma
    fields := [fRange 4 1 0 127, fRange 5 1 1 0x1F, fRange 6 1 0 1, fRange 7 1 16 64, fAny 8 4, fAny 12 4, fAny 16 8,
               fAny 32 32, fAny 64 32]
    rules := fun _ p =>
      (if lenMatches (p.u 5 1) (p.u 7 1) then [] else [5]) ++ (if 32 < p.u 7 1 ∧ !p.block then [7] else [])
    check := fun s _ p =>
      if (s.keySlot (p.u 4 1)).st != .empty || tamperStands s then some rejState else none
    run := fun s _ p =>
      done (s.setKey (p.u 4 1) fun _ =>
        { st := .active, dest := BitVec.ofNat 8 (p.u 5 1), secure := p.u 6 1 == 1, len := p.u 7 1
          keyId := word (p.u 8 4), useLimit := p.u 12 4, expiry := p.u 16 8, written := keyTime s
          key := keyBytes p (p.u 7 1) }) }

/-- KEY_ROLL (R318). -/
def keyRollDef : JobDef :=
  { code := 0x0304
    dma := some keyDma
    fields := [fRange 4 1 0 127, fAny 8 4, fAny 12 4, fAny 16 8, fRange 24 4 0 604800, fAny 32 32, fAny 64 32]
    rules := fun s p => if 32 < (s.keySlot (p.u 4 1)).len ∧ !p.block then [2] else []
    check := fun s _ p => if (s.keySlot (p.u 4 1)).st == .empty then some rejState else none
    run := fun s _ p =>
      let k := p.u 4 1
      let x := s.keySlot k
      let keeps := x.st == .active
      let s' := s.setKey k fun x =>
        { x with
          st := .active
          prev := if keeps then some x.key else none
          prevKeyId := if keeps then x.keyId else 0
          prevUntil := if keeps then keyTime s + p.u 24 4 else 0
          key := keyBytes p x.len
          keyId := word (p.u 8 4), useLimit := p.u 12 4, expiry := p.u 16 8, useCount := 0, written := keyTime s }
      reply (if x.prev.isSome then { status := 0x01, r3 := 1 } else {}) s' }

/-- KEY_RETIRE (R319). -/
def keyRetireDef : JobDef :=
  { code := 0x0302
    fields := [fRange 4 1 0 127]
    run := fun s _ p => done (s.setKey (p.u 4 1) fun _ => {}) }

/-- KEY_ATTR_READ (R320). -/
def keyAttrReadDef : JobDef :=
  { code := 0x0303
    dma := some dmaSame
    fields := [fRange 4 1 0 127]
    minResult := fun _ => 48
    run := fun s _ p =>
      let x := s.keySlot (p.u 4 1)
      reply { r0 := wordAt (keyRecord x) 0, r1 := x.keyId, r2 := word x.useCount, r3 := word x.expiry
              out := keyRecord x } s }

/-- The counter-mode KDF of R322, one block. -/
def kdfBlock (source label ctx : List Byte) (len i : Nat) : List Byte :=
  beBytes 32 (Config.hmacSha256 source (beBytes 4 i ++ label ++ [0] ++ ctx ++ beBytes 4 (8 * len))).toNat

/-- The key that KEY_DERIVE derives (R322): the first LEN bytes of K(1) ‖ K(2). -/
def kdf (source label ctx : List Byte) (len : Nat) : List Byte :=
  (kdfBlock source label ctx len 1 ++ kdfBlock source label ctx len 2).take len

/-- KEY_DERIVE (R322). -/
def keyDeriveDef : JobDef :=
  { code := 0x0305
    fields := [fRange 4 1 0 127, fRange 5 1 1 0x1F, fRange 6 1 0 1, fRange 7 1 16 64, fAny 8 4, fAny 12 4, fAny 16 8,
               fRange 24 1 1 24, fOpt 25 127, fAny 28 24, fAny 52 12]
    rules := fun _ p => if lenMatches (p.u 5 1) (p.u 7 1) then [] else [5]
    check := fun s _ p =>
      let src := p.u 25 1
      let bad := if src = 0xFF then s.sec.root.isNone || s.sec.rootRefused || s.fco.injectUnlocked else !keyUsable s src 3
      if (s.keySlot (p.u 4 1)).st != .empty || tamperStands s || bad then some rejState else none
    run := fun s _ p =>
      let src := p.u 25 1
      let source := if src = 0xFF then beBytes 32 ((s.sec.root.getD 0).toNat) else (s.keySlot src).key
      let s' := if src = 0xFF then s else useKey src s
      done (s'.setKey (p.u 4 1) fun _ =>
        { st := .active, dest := BitVec.ofNat 8 (p.u 5 1), secure := p.u 6 1 == 1, len := p.u 7 1
          keyId := word (p.u 8 4), useLimit := p.u 12 4, expiry := p.u 16 8, written := keyTime s
          key := kdf source (p.bytes 28 (p.u 24 1)) (p.bytes 52 12) (p.u 7 1) }) }

def execSecPartitionSet (j : Job) (s : State) : Host.Outcome State Fault Refusal := .next (directJob secPartitionSetDef j s)
def execSecPartitionLock (j : Job) (s : State) : Host.Outcome State Fault Refusal := .next (directJob secPartitionLockDef j s)
def execSecRegionSet (j : Job) (s : State) : Host.Outcome State Fault Refusal := .next (directJob secRegionSetDef j s)
def execSecFwStage (j : Job) (s : State) : Host.Outcome State Fault Refusal := .next (directJob secFwStageDef j s)
def execSecFwCommit (j : Job) (s : State) : Host.Outcome State Fault Refusal := .next (directJob secFwCommitDef j s)
def execSecTamperConfig (j : Job) (s : State) : Host.Outcome State Fault Refusal := .next (directJob secTamperConfigDef j s)
def execSecTamperStatus (j : Job) (s : State) : Host.Outcome State Fault Refusal := .next (directJob secTamperStatusDef j s)
def execSecTestUnlock (j : Job) (s : State) : Host.Outcome State Fault Refusal := .next (directJob secTestUnlockDef j s)
def execKeyWrite (j : Job) (s : State) : Host.Outcome State Fault Refusal := .next (directJob keyWriteDef j s)
def execKeyRetire (j : Job) (s : State) : Host.Outcome State Fault Refusal := .next (directJob keyRetireDef j s)
def execKeyAttrRead (j : Job) (s : State) : Host.Outcome State Fault Refusal := .next (directJob keyAttrReadDef j s)
def execKeyRoll (j : Job) (s : State) : Host.Outcome State Fault Refusal := .next (directJob keyRollDef j s)
def execKeyDerive (j : Job) (s : State) : Host.Outcome State Fault Refusal := .next (directJob keyDeriveDef j s)

/-! ### Security events -/

/-- TAMPER_EVENT (R324, R325): a source's condition is met; TAMP0–TAMP3 only while enabled, the others always. -/
def execTamperEvent (src : Fin 7) (s : State) : Host.Outcome State Fault Refusal :=
  let t := s.sec.tamper
  let atLevel := if src.val < 4 then (t.pins &&& ~~~BitVec.ofNat 4 (2 ^ src.val)) ||| (t.level &&& BitVec.ofNat 4 (2 ^ src.val))
    else t.pins
  let s := { s with sec := { s.sec with tamper := { t with pins := atLevel } } }
  .next (if !s.srt.vbat then s
    else if src.val < 4 && !t.enable.getLsbD src.val then s
    else tamperOp src.val s)

/-- TAMPER_CONDITION_END (R325): the condition no longer stands; the input leaves its active level. -/
def execTamperConditionEnd (src : Fin 7) (s : State) : Host.Outcome State Fault Refusal :=
  let t := s.sec.tamper
  let m := BitVec.ofNat 4 (2 ^ src.val)
  .next { s with sec := { s.sec with tamper := { t with
    standing := t.standing &&& ~~~BitVec.ofNat 7 (2 ^ src.val)
    pins := if src.val < 4 then (t.pins &&& ~~~m) ||| (~~~t.level &&& m) else t.pins } } }

/-- KEY_EXPIRY (R316): EXPIRY is reached. -/
def execKeyExpiry (k : Fin 128) (s : State) : Host.Outcome State Fault Refusal :=
  let x := s.sec.key[k]
  .next (if x.st == .active && x.expiry != 0 && decide (x.expiry ≤ keyTime s) then
    s.setKey k.val fun x => { x with st := .expired } else s)

/-- KEY_PREV_ZEROED (R318): PREV_UNTIL is reached, the previous key is zeroed and PREV clears. -/
def execKeyPrevZeroed (k : Fin 128) (s : State) : Host.Outcome State Fault Refusal :=
  let x := s.sec.key[k]
  .next (if x.prev.isSome && decide (x.prevUntil ≤ keyTime s) then
    s.setKey k.val fun x => { x with prev := none } else s)

/-- TRNG_HEALTH_TEST_END (R336): the start-up health tests end 1 ms after they began. -/
def execTrngHealthTestEnd (s : State) : Host.Outcome State Fault Refusal :=
  .next (if s.blockRuns 2 then atCycle (s.sec.trngFrom + 10 ^ 6) (fun t => { t with sec := { t.sec with trngReady := true } }) s else s)

/-- TRNG_HEALTH (R351): source 193; its counter event counts. -/
def execTrngHealth (s : State) : Host.Outcome State Fault Refusal :=
  .next (if s.clocked then raiseFault 193 {} (pcuCount 0x2406 0xFF 1 s) else s)

end Sys2Proof.Machine
end

