-- ==== Sys2Proof/Machine/Calibration.lean ====
section
/-! DEFINITION. The calibration layers (R376–R385): items, what a change does to running functions, the CAL jobs, the
writes of the boot flash and the boot load of the user layer. -/

namespace Sys2Proof.Machine

/-! ### Items -/

/-- A class of the item table (R377): instances, whether a user item may be written, the magnitude of its range. -/
structure CalClass where
  count : Nat
  user  : Bool
  range : Nat
  deriving DecidableEq, Repr

/-- The item table (R377). -/
def calClass (c : Nat) : Option CalClass :=
  if 1 ≤ c ∧ c ≤ 4 then some { count := 144, user := false, range := 0 }
  else if c = 5 then some { count := 8, user := false, range := 0 }
  else if c = 0x10 ∨ c = 0x11 then some { count := 24, user := true, range := 10000000 }
  else if c = 0x12 then some { count := 24, user := true, range := 1000000000 }
  else if c = 0x20 then some { count := 24, user := true, range := 1000000 }
  else if c = 0x21 then some { count := 4, user := true, range := 1000000 }
  else if c = 0x22 then some { count := 2, user := true, range := 1000000 }
  else if c = 0x23 then some { count := 16, user := true, range := 1000000 }
  else if c = 0x24 then some { count := 12, user := true, range := 1000000 }
  else if c = 0x30 then some { count := 2, user := true, range := 2000000 }
  else if c = 0x40 ∨ c = 0x41 then some { count := 1, user := true, range := 1000000000 }
  else none

/-- The row of an item, if its instance lies in the table. -/
def calItem (item : Nat) : Option CalClass :=
  (calClass (item / 256)).filter fun r => decide (item % 256 < r.count)

/-- The item is in the table. -/
def itemOk (item : Nat) : Bool := (calItem item).isSome

/-- The instance belongs to an absent unit or lane (R6, R377). -/
def itemAbsent (s : State) (item : Nat) : Bool :=
  let c := item / 256
  let i := item % 256
  itemOk item &&
    ((decide (1 ≤ c) && decide (c ≤ 4) && !s.lanePresent (i / 6)) ||
     (decide (0x10 ≤ c) && decide (c ≤ 0x12) && !s.lanePresent i) || (c == 0x30 && !s.present 14))

/-- A user item put in its place; the list stays rising. -/
def putItem (x : CalItem) (l : List CalItem) : List CalItem :=
  (l.filter fun y => decide (y.item < x.item)) ++ [x] ++ l.filter fun y => decide (x.item < y.item)

/-! ### What a change does (R382) -/

/-- A declared correction of a reference, and the confirmations that restart (R382). -/
def correctRef (r : Nat) (ps : Int) (s : State) : State := restartConfirm r (declareCorrection r ps s)

/-- C_CAL of the references on a port follows the effective uncertainties (R378). -/
def retakeCal (p : Nat) (s : State) : State :=
  (refsOnPort s p).foldl (fun t r => t.setRef r fun e => { e with calPs := pathUnc t p }) s

/-- A port's delays have changed: its references move by half of an ingress change, against half of an egress change. -/
def correctPort (p : Nat) (ps : Int) (s : State) : State :=
  (refsOnPort s p).foldl (fun t r => correctRef r ps t) s

/-- A change of an item's effective value acts on running functions (R382). `old` is the state before it. -/
def calChanged (old : State) (item : Nat) (s : State) : State :=
  let d := calValue s item - calValue old item
  let i := item % 256
  match item / 256 with
  | 0x10 => retakeCal i (if d = 0 then s else correctPort i ((-d).tdiv 2) s)
  | 0x11 => retakeCal i (if d = 0 then s else correctPort i (d.tdiv 2) s)
  | 0x12 => asymChanged i d s
  | 0x20 =>
    let x := s.outOf i
    if !outRuns x then s
    else if x.align then s.setOut i fun y => { y with trim := y.trim + 2 * d }
    else s.setOut i fun y => { y with delayLeft := y.delayLeft - 2 * d }
  | 0x24 => if d = 0 then s else correctRef i (-d) s
  | 0x30 =>
    let d16 := gnssDelay s true - gnssDelay old true
    let d17 := gnssDelay s false - gnssDelay old false
    let s := if d16 = 0 then s else correctRef 16 (-d16) s
    if d17 = 0 then s else correctRef 17 (-d17) s
  | _ => s

/-- One user item is set or cleared, and the change acts. -/
def stageItem (item : Nat) (x : Option CalItem) (s : State) : State :=
  let rest := s.cal.user.filter fun y => decide (y.item ≠ item)
  calChanged s item { s with cal := { s.cal with user := (x.map fun x => putItem x rest).getD rest } }

/-! ### Jobs -/

/-- CAL_READ_FACTORY (R380). -/
def calReadFactoryDef : JobDef :=
  { code := 0x5001
    fields := [{ off := 4, len := 2, ok := itemOk }]
    nextImp := false
    absent := fun s p => itemAbsent s (p.u 4 2)
    run := fun s _ p =>
      reply { r0 := wordI (calFactoryValue (p.u 4 2)), r1 := word (calFactoryUnc (p.u 4 2)), r2 := word (bit s.cal.crcOk)
              r3 := s.cal.crc } s }

/-- Offsets that fail in CAL_WRITE_USER (R377, R381): the ranges of VALUE and UNC follow ITEM. -/
def calWriteRules (p : Params) : List Nat :=
  match calItem (p.u 4 2) with
  | none => []
  | some r =>
    (if !r.user || decide (r.range < (p.i 8 4).natAbs) || decide (r.range < p.u 12 4) then [4] else []) ++
    (if p.u 6 1 = 1 ∧ (p.u 8 4 ≠ 0 ∨ p.u 12 4 ≠ 0) then [6] else [])

/-- CAL_WRITE_USER (R381, R382). -/
def calWriteUserDef : JobDef :=
  { code := 0x5002
    fields := [{ off := 4, len := 2, ok := itemOk }, fRange 6 1 0 1, fAny 8 4, fAny 12 4]
    absent := fun s p => itemAbsent s (p.u 4 2)
    rules := fun _ p => calWriteRules p
    check := fun s _ p => if p.u 4 2 = 0x4100 ∧ p.u 8 4 = 0 ∧ s.ehu.steer.dpll.isSome then some rejState else none
    run := fun s _ p =>
      let item := p.u 4 2
      let x : Option CalItem := if p.u 6 1 = 1 then none else some { item := item, value := p.i 8 4, unc := p.u 12 4 }
      done (stageItem item x { s with cal := { s.cal with uncommitted := true } }) }

/-- CAL_READ_EFFECTIVE (R383). -/
def calReadEffectiveDef : JobDef :=
  { code := 0x5003
    fields := [{ off := 4, len := 2, ok := itemOk }]
    nextImp := false
    absent := fun s p => itemAbsent s (p.u 4 2)
    run := fun s _ p =>
      let i := p.u 4 2
      reply { r0 := wordI (calValue s i), r1 := wordI (calUserValue s i), r2 := word (calUnc s i)
              r3 := word (bit (calUser s i).isSome + 2 * bit s.cal.crcOk + 4 * bit s.cal.uncommitted + 8 * bit s.cal.loadFailed) } s }

/-- The bytes of a record before its TAG (R384). -/
def calRecord (c : CalCopy) : List Byte :=
  leBytes 4 0x4C544341 ++ leBytes 4 c.seq ++ leBytes 4 c.keyId.toNat ++ leBytes 2 c.items.length ++ List.replicate 18 0 ++
  c.items.flatMap fun x => leBytes 2 x.item ++ [0, 0] ++ leBytes 4 (toCode 32 x.value) ++ leBytes 4 x.unc

/-- A record with its TAG under a key (R384). -/
def calSigned (c : CalCopy) (key : List Byte) : CalCopy := { c with tag := Config.hmacSha256 key (calRecord c) }

/-- SEQ of a copy, none for an invalid one. -/
def copySeq (s : State) (i : Nat) : Option Nat := (vget s.cal.copy i none).map CalCopy.seq

/-- The copy that a commit writes: the invalid one, or the one with the lower SEQ (R384). -/
def commitTarget (s : State) : Fin 2 :=
  match copySeq s 0, copySeq s 1 with
  | none, _ => 0
  | some _, none => 1
  | some a, some b => if a ≤ b then 0 else 1

/-- The write of a commit starts (R384): the copy it writes is invalid until it has been read back. -/
def startCommit (slot : Nat) (s : State) : State :=
  let i := commitTarget s
  let seq := max ((copySeq s 0).getD 0) ((copySeq s 1).getD 0) + 1
  let k := s.keySlot slot
  let c := calSigned { seq := seq, keyId := k.keyId, items := s.cal.user, tag := 0 } k.key
  { s with cal := { s.cal with copy := s.cal.copy.set i none, writing := some (i, c), writingAt := s.cpx.impressions } }

/-- The flash jobs in flight, oldest first. -/
def flashJobs (s : State) : List Flight := s.mbx.flights.filter fun f => f.hold == .flash

/-- CAL_COMMIT_USER (R384). -/
def calCommitUserDef : JobDef :=
  { code := 0x5004
    fields := [fRange 4 1 0 127]
    check := fun s _ p => if keyUsable s (p.u 4 1) 4 then none else some rejState
    run := fun s _ p =>
      let s := if (flashJobs s).isEmpty then startCommit (p.u 4 1) s else s
      (useKey (p.u 4 1) s, .hold .flash) }

def execCalReadFactory (j : Job) (s : State) : Host.Outcome State Fault Refusal := .next (directJob calReadFactoryDef j s)
def execCalWriteUser (j : Job) (s : State) : Host.Outcome State Fault Refusal := .next (directJob calWriteUserDef j s)
def execCalReadEffective (j : Job) (s : State) : Host.Outcome State Fault Refusal := .next (directJob calReadEffectiveDef j s)
def execCalCommitUser (j : Job) (s : State) : Host.Outcome State Fault Refusal := .next (directJob calCommitUserDef j s)

/-! ### Writes of the boot flash -/

/-- The next flash job begins its write. -/
def nextFlash (s : State) : State :=
  match flashJobs s with
  | [] => s
  | f :: _ => if f.code = 0x5004 then startCommit ((jobInline f.job).u 4 1) s else s

/-- A write of SEC_FW_STAGE is done (R331): the last one verifies the image. -/
def stageDone (f : Flight) (s : State) : State :=
  let p := jobInline f.job
  if !p.bit 36 0 then finish f {} s else
  let i := inactiveSlot s
  let code := imageCode s 1 (vget s.sec.slot i {}).image
  let s := setSlot i (fun x => { x with verified := code == 0, invalid := code != 0 }) s
  let s := { s with sec := { s.sec with stageAt := 0 } }
  finish f { r0 := word code } (if code = 0 then s else faultEvent 194 {} s)

/-- A write of CAL_COMMIT_USER is done (R384). -/
def commitDone (f : Flight) (s : State) : State :=
  match s.cal.writing with
  | none => finish f {} s
  | some (i, c) =>
    let s := { s with cal := { s.cal with copy := s.cal.copy.set i (some c), writing := none, uncommitted := c.items != s.cal.user } }
    finish f { r0 := word c.seq, r1 := word c.items.length } s

/-- FLASH_WRITE_DONE (R331, R384): the oldest flash job completes. -/
def execFlashWriteDone (s : State) : Host.Outcome State Fault Refusal :=
  .next (if !s.fwRuns then s else
    match flashJobs s with
    | [] => s
    | f :: _ => settle (nextFlash (if f.code = 0x5004 then commitDone f s else stageDone f s)))

/-- FLASH_WRITE_TIMEOUT (R331, R384): the oldest flash job completes with TIMEOUT, a commit after 16,000 impressions; what it
was writing is invalid. -/
def execFlashWriteTimeout (s : State) : Host.Outcome State Fault Refusal :=
  .next (if !s.fwRuns then s else
    match flashJobs s with
    | [] => s
    | f :: _ =>
      if f.code = 0x5004 ∧ s.cpx.impressions < s.cal.writingAt + 16000 then s else
      let s := if f.code = 0x5004 then { s with cal := { s.cal with writing := none } }
        else setSlot (inactiveSlot s) (fun x => { x with verified := false, invalid := true }) s
      settle (nextFlash (finish f { status := 0x22 } s)))

/-! ### The boot load -/

/-- A copy verifies under the slot whose KEY_ID its header names (R385). -/
def copyVerifies (s : State) (c : CalCopy) : Bool :=
  match (List.range 128).find? fun k => (s.keySlot k).keyId == c.keyId && keyUsable s k 4 with
  | none => false
  | some k => Config.hmacSha256 (s.keySlot k).key (calRecord c) == c.tag

/-- A user layer in place of the one in force (R382, R385): what it changes acts item by item. -/
def loadItems (l : List CalItem) (s : State) : State :=
  ((s.cal.user ++ l).map CalItem.item).eraseDups.foldl (fun t i => stageItem i (l.find? fun x => x.item == i) t) s

/-- USER_LAYER_LOAD (R385): the copy with the higher SEQ that verifies, else the other, else an empty layer. -/
def loadUserLayer (s : State) : State :=
  let a := vget s.cal.copy 0 none
  let b := vget s.cal.copy 1 none
  let order := if (copySeq s 0).getD 0 < (copySeq s 1).getD 0 then [b, a] else [a, b]
  let load := fun (l : List CalItem) (failed : Bool) =>
    loadItems l { s with cal := { s.cal with uncommitted := false, loadFailed := failed } }
  match (order.filterMap id).find? (copyVerifies s) with
  | some c => load c.items false
  | none => load [] true

end Sys2Proof.Machine
end

