-- ==== Sys2Proof/Machine/System.lean ====
section
/-! DEFINITION. The DEV jobs (R41, R78–R80, R367, R398, R407) and the end of a proof. -/

namespace Sys2Proof.Machine

/-- DEV_IDENTIFY (R78). -/
def devIdentifyDef : JobDef :=
  { code := 0x0101
    nextImp := false
    run := fun s _ _ =>
      reply { r0 := word (deviceCode s.col.part + 0x01 * 2 ^ 16)
              r1 := word (0x4200 + (fwRev s).toNat % 2 ^ 16 * 2 ^ 16)
              r2 := word (fuseUnits s.col.part), r3 := word (fuseLanes s.col.part) } s }

/-- The imposition with a code (R79). -/
def impositionOf (v : Nat) : Imposition :=
  match v with
  | 0 => .folio
  | 1 => .broadsheet
  | 2 => .quarto
  | _ => .octavo

/-- DEV_SET_IMPOSITION (R41, R79): pending until the next second boundary. -/
def devSetImpositionDef : JobDef :=
  { code := 0x0102
    fields := [fRange 4 1 0 3]
    nextImp := false
    check := fun s _ _ => if s.cpx.nextImposition.isSome then some rejState else none
    run := fun s _ p =>
      ({ s with cpx := { s.cpx with nextImposition := some (impositionOf (p.u 4 1)) } }, .hold .imposition) }

/-- DEV_FW_RESTART (R70, R407): the restart begins at the next impression boundary. -/
def devFwRestartDef : JobDef :=
  { code := 0x0103
    fields := [fRange 4 1 0 1]
    nextImp := false
    run := fun s _ p => ({ s with cpx := { s.cpx with warmDue := some (p.u 4 1 == 1) } }, .hold .fwRestart) }

/-- DEV_CHIP_RESET (R71, R398): the reset is asserted at the next impression boundary, and no completion is posted; until
then the job is in flight. -/
def devChipResetDef : JobDef :=
  { code := 0x0104
    fields := [fOne 4 4 [0x43484950]]
    nextImp := false
    run := fun s _ _ => ({ s with cpx := { s.cpx with chipResetDue := true } }, .hold .chipReset) }

/-- DEV_FENCE (R66, R80). -/
def devFenceDef : JobDef :=
  { code := 0x0105
    fields := [fRange 4 1 0 1]
    nextImp := false
    run := fun s _ p => (s, .hold (if p.u 4 1 = 0 then .ringFence else .worldFence)) }

/-- Units of DEV_PROOF that are idle (R367). -/
def idleUnits (s : State) : Nat :=
  maskOf 6 fun b => match b with
    | 0 => s.present 13
    | 1 => (List.range 8).any (dpllIdle s)
    | 2 => (List.range 4).any (apllIdle s)
    | 3 => (List.range 24).any (laneIdle s)
    | 4 => (List.range 16).any (inputIdle s)
    | _ => true

/-- DEV_PROOF (R367). -/
def devProofDef : JobDef :=
  { code := 0x0108
    fields := [fRange 4 4 1 0x3F, fRange 8 2 8 8000]
    nextImp := false
    check := fun s _ _ => if s.cpx.proof.isSome then some rejState else none
    run := fun s _ p =>
      let u := BitVec.ofNat 6 (p.u 4 4)
      let v : Proof := { units := u, maxImp := p.u 8 2, since := s.cpx.impressions
                         skipped := u &&& ~~~BitVec.ofNat 6 (idleUnits s) }
      ({ s with cpx := { s.cpx with proof := some v } }, .hold .proof) }

/-- A proof ends (R367) with the units that passed and failed; the rest are skipped. Each failing unit raises source
230. -/
def endProof (passed failed : BitVec 6) (s : State) : State :=
  match s.cpx.proof with
  | none => s
  | some v =>
    let live := v.units &&& ~~~v.skipped
    let bad := failed &&& live
    let ok := passed &&& live &&& ~~~bad
    let r : Reply := { r0 := ok.setWidth 32, r1 := bad.setWidth 32, r2 := (v.units &&& ~~~(ok ||| bad)).setWidth 32
                       r3 := word (min v.maxImp (s.cpx.impressions - v.since)) }
    let s := { s with cpx := { s.cpx with proof := none } }
    let s := forAll 6 s fun b t => if bad.getLsbD b then raiseFault 230 { addr := b } t else t
    completeHeld (fun h => h == .proof) (fun _ => r) s

/-- At MAX_IMP a proof ends, and its units that are still unfinished are skipped (R367). -/
def limitProof (s : State) : State :=
  if s.cpx.proof.any fun v => decide (v.since + v.maxImp ≤ s.cpx.impressions) then endProof 0 0 s else s

/-- PROOF_END (R367): units passed and failed; the rest are skipped. -/
def execProofEnd (passed failed : BitVec 6) (s : State) : Host.Outcome State Fault Refusal :=
  .next (if s.fwRuns then endProof passed failed s else s)

def execDevIdentify (j : Job) (s : State) : Host.Outcome State Fault Refusal := .next (directJob devIdentifyDef j s)
def execDevSetImposition (j : Job) (s : State) : Host.Outcome State Fault Refusal := .next (directJob devSetImpositionDef j s)
def execDevFwRestart (j : Job) (s : State) : Host.Outcome State Fault Refusal := .next (directJob devFwRestartDef j s)
def execDevChipReset (j : Job) (s : State) : Host.Outcome State Fault Refusal := .next (directJob devChipResetDef j s)
def execDevFenceRing (j : Job) (s : State) : Host.Outcome State Fault Refusal := .next (directJob devFenceDef (withByte 4 0 j) s)
def execDevFenceWorld (j : Job) (s : State) : Host.Outcome State Fault Refusal := .next (directJob devFenceDef (withByte 4 1 j) s)
def execDevProof (j : Job) (s : State) : Host.Outcome State Fault Refusal := .next (directJob devProofDef j s)

end Sys2Proof.Machine
end

