-- ==== Sys2Proof/Machine/Catalogue.lean ====
section
/-! DEFINITION. The catalogue of jobs by code (R81): the ring path finds in it the meaning that the job's own row has. -/

namespace Sys2Proof.Machine

/-- The jobs of groups 0x01 to 0x05 (R81). -/
def jobsSystem : List JobDef :=
  [devIdentifyDef, devSetImpositionDef, devFwRestartDef, devChipResetDef, devFenceDef, devProofDef,
   secPartitionSetDef, secPartitionLockDef, secRegionSetDef, secFwStageDef, secFwCommitDef, secTamperConfigDef,
   secTamperStatusDef, secTestUnlockDef, keyWriteDef, keyRetireDef, keyAttrReadDef, keyRollDef, keyDeriveDef,
   fltConfigSourceDef, fltAckDef, fltReadCaptureDef, fltInjectDef, pcuSelectEventDef, pcuSetAccessDef, pcuClearDef]

/-- The jobs of groups 0x10 to 0x16 (R81). -/
def jobsTime : List JobDef :=
  [tdConfigDef, tdSetTimeDef, tdSlewDef, tdSetUtcInfoDef, tdHandoverDef, tdReadLedgerDef, tdSetReturnPolicyDef,
   ensConfigMemberDef, ensReadStateDef, ensSetPolicyDef, refConfigDef, refSetThresholdsDef, refReadStatusDef,
   refClearHistoryDef, refSetPriorityDef, refForceSelectDef, dpllConfigDef, dpllSetModeDef, dpllSteerPptDef,
   dpllPhaseStepDef, holdConfigDef, holdReadArchiveDef, oscSteerConfigDef, apllConfigDef, apllRetuneDef,
   outConfigDef, outEnableDef, outPhaseStepDef, outSetCeilingDef, ppsConfigDef, irigConfigDef, todConfigDef,
   evtConfigDef, evtDrainDef]

/-- The jobs of groups 0x20 to 0x60 (R81). -/
def jobsService : List JobDef :=
  [laneConfigDef, laneEnableDef, laneDisableDef, laneReadStatusDef, lanePrbsConfigDef, lanePrbsReadDef,
   laneEqConfigDef, laneRecoveredClockSelectDef, tsPortConfigDef, tsReadLatencyDef, tsSetAsymmetryDef,
   tsLaunchConfigDef, ptpInstanceConfigDef, ptpPortConfigDef, ptpReadPortStateDef, ptpUnicastPolicyDef,
   ptpPrpPairDef, ntpServerConfigDef, ntsConfigDef, ntpClientConfigDef, ntpRatePolicyDef, ledgerQueryDef,
   ledgerEvictDef, ledgerExportDef, gnssConfigDef, gnssSurveyDef, gnssReadStatusDef, gnssNotchConfigDef,
   gnssAidingLoadDef, sampPortConfigDef, sampSlotMaskDef, sampGroupConfigDef, svMonitorConfigDef,
   svMonitorReadDef, calReadFactoryDef, calWriteUserDef, calReadEffectiveDef, calCommitUserDef, supReadDef,
   supSetThresholdsDef]

/-- The meaning of a job code (R57, R81). -/
def jobDef (code : Nat) : Option JobDef := (jobsSystem ++ jobsTime ++ jobsService).find? fun d => d.code == code

end Sys2Proof.Machine
end

