-- ==== Sys2Proof/Machine/JobList.lean ====
section
/-! DEFINITION. The job list of the configuration image (R329, R330): its form, its jobs and how firmware runs them. -/

namespace Sys2Proof.Machine

/-- The 32-bit field of a body at an offset. -/
def bodyWord (body : List Byte) (off : Nat) : Nat := hdr body off 4

/-- Descriptor `k` of a list. -/
def listDesc (body : List Byte) (k : Nat) : Desc := BitVec.ofNat 512 (hdr body (64 + 64 * k) 64)

/-- The form of R329: MAGIC, COUNT, PARAM_BASE, and every parameter block inside the parameter area. -/
def listFormOk (body : List Byte) : Bool :=
  let count := bodyWord body 4
  let base := bodyWord body 8
  bodyWord body 0 == 0x4C544A4C && decide (1 ≤ count) && decide (count ≤ 4091) && base % 64 == 0 &&
  decide (64 + 64 * count ≤ base) && decide (base ≤ body.length) &&
  (List.range count).all fun k =>
    let d := (listDesc body k).toNat
    !d.testBit 30 || (decide (base ≤ bitsOf d 32 64) && decide (bitsOf d 32 64 + bitsOf d 96 32 ≤ body.length))

/-- Jobs that a list may not hold (R329). -/
def listRefuses (code : Nat) : Bool :=
  [0x0103, 0x0104, 0x0204, 0x0205].contains code || (catalogue code).any CatRow.factory

/-- A job of the list, with the tag that firmware assigns and its parameter block. -/
def listJob (l : JobList) : Job :=
  let d := (listDesc l.body l.next).toNat
  let d := d - bitsOf d 16 10 * 2 ^ 16
  let block := (l.body.drop (bitsOf d 32 64)).take (bitsOf d 96 32)
  { ring := 4, desc := BitVec.ofNat 512 d, block := if d.testBit 30 then block else [] }

/-- CONFIG_IMAGE_FAULT: the list stops (R329, R330). -/
def listFault (addr : Nat) (s : State) : State :=
  raiseFault 224 { addr := addr } ({ s with cpx := { s.cpx with list := none } }.setRing 4 fun g =>
    { g with inChain := false, chainBroken := false })

/-- Issue the next job of a list. -/
def issueJob (l : JobList) (s : State) : State :=
  let j := listJob l
  let s := { s with cpx := { s.cpx with list := some { l with next := l.next + 1, status := none } } }
  if listRefuses j.code then postCompletion j rejState {} s
  else if j.dma && j.resultAddr != 0 then postCompletion j (rejParam 16) {} s
  else if j.dma && j.resultLen != 0 then postCompletion j (rejParam 24) {} s
  else settle (takeUp (jobDef j.code) true j s)

/-- Run the list as far as it goes: each job starts once the one before has completed (R329). -/
def runList : Nat → State → State
  | 0, s => s
  | n + 1, s =>
    match s.cpx.list with
    | none => s
    | some l =>
      if !s.mbx.flights.isEmpty then s
      else if l.status.any (fun v => decide (1 < v)) then listFault (l.next - 1) s
      else if l.next = l.count then
        { s with cpx := { s.cpx with list := none } }.setRing 4 fun g => { g with inChain := false, chainBroken := false }
      else runList n (issueJob l s)

end Sys2Proof.Machine
end

