-- ==== Sys2Proof/Machine/Boundary.lean ====
section
/-! DEFINITION. The impression boundary and the second boundary (R22, R27–R35, R61–R66, R91, R98, R117, R124, R400):
what hardware does at each, what the work classes do, the fetch of jobs; and the events that fall on a boundary: a
step, a change of imposition, the release of a switch or of a BLOCK reset. -/

namespace Sys2Proof.Machine

/-! ### Ledger and time at a boundary -/

/-- One impression's growth of a record (R22, R112), in the contribution that STATUS [4] names; C_HOLD does not grow
while a confirmation runs (R116). -/
def growLedger (g : Ledger) : Ledger :=
  if g.growsRef then { g with cRef := g.cRef + g.growthFs.toNat }
  else if g.confirming.isSome then g
  else { g with cHold := g.cHold + g.growthFs.toNat }

/-- LEDGER_GROWTH in every domain (R22). -/
def growAll (s : State) : State := forAll 4 s fun d t => t.setLedger d growLedger

/-- A view's bound against its thresholds (R117): each crossing raises interrupt source 11, an upward crossing of the
limit source 98 with the view in ADDRESS. -/
def compareView (v : Nat) (s : State) : State :=
  if !s.clocked then s else
  let x := s.domain (viewDomain s v)
  let b := viewBound s v
  let warn := decide (x.warnPs < b)
  let limit := decide (x.limitPs < b)
  let was := if v < 4 then (x.ledger.aboveWarn, x.ledger.aboveLimit) else (s.tcr.viewAboveWarn, s.tcr.viewAboveLimit)
  let s := if v < 4 then s.setLedger v fun g => { g with aboveWarn := warn, aboveLimit := limit }
    else { s with tcr := { s.tcr with viewAboveWarn := warn, viewAboveLimit := limit } }
  let s := if was ≠ (warn, limit) then raiseIrq 11 s else s
  if limit && !was.2 then raiseFault 98 { addr := v } s else s

/-- DOMAIN_DIVERGENCE of one domain (R91). -/
def compareDomain (d : Nat) (s : State) : State :=
  let x := s.domain d
  match x.divergePeer with
  | none => s
  | some e =>
    if !(viewValid s d && viewValid s e.val) then s else
    let diff := ((x.count : Int) - (s.domain e.val).count).natAbs
    if !x.diverged && decide (x.divergeNs * nsU < diff) then
      raiseFault 97 {} (s.setDom d fun x => { x with diverged := true })
    else if x.diverged && decide (2 * diff < x.divergeNs * nsU) then s.setDom d fun x => { x with diverged := false }
    else s

/-- The largest phase error of the second in progress (R113). -/
def noteError (k : Nat) (s : State) : State :=
  s.setDpll k fun x =>
    if !follows x then x else
    { x with errMax := match x.errMax with
        | [] => [x.phaseErr.natAbs]
        | m :: t => max m x.phaseErr.natAbs :: t }

/-- What TCR does in hardware at every boundary (R22, R91, R94, R98, R115, R116). -/
def tcrImpression (s : State) : State :=
  let s := forAll 4 s applyLeap
  if !s.blockRuns 6 then s else
  let s := if s.tcr.remainder = 0 then { s with tcr := { s.tcr with involved := [] } } else s
  let s := forAll 4 (growAll s) fun d t => refreshMoving d (ledgerImpression d t)
  forAll 4 s compareDomain

/-- What DSB does in hardware over an impression (R131, R134). -/
def dsbImpression (s : State) : State :=
  if !s.blockRuns 8 then s else
  forAll 8 s fun k t => sampleHold k (noteError k (loopImpression k t))

/-- Completions that wait grow older by one impression (R51). -/
def ageCompletions (s : State) : State :=
  { s with mbx := { s.mbx with rings := s.mbx.rings.map fun (g : Ring) =>
      ({ g with unconsumed := g.unconsumed.map fun (p : Posted) => ({ p with age := p.age + 1 } : Posted) } : Ring) } }

/-! ### Seconds -/

/-- COARSE_SECONDS_LOAD (R400). -/
def loadCoarse (s : State) : State :=
  if viewValid s 4 then { s with srt := { s.srt with coarse := viewSecond s 4, coarseNs := 0, coarseValid := true } } else s

/-- What a second boundary of the active domain does in hardware (R27, R98, R124, R400). -/
def hardwareSecond (s : State) : State :=
  let s := raiseIrq 7 s
  let s := if s.blockRuns 5 then forAll 32 s evalRef else s
  let s := loadCoarse s
  let s := forAll 8 s fun k t => t.setDpll k fun x => { x with errMax := (0 :: x.errMax).take 64 }
  let s := { s with tpe := { s.tpe with port := s.tpe.port.map fun (p : TpePort) => ({ p with ptpSeen := 0, ntpSeen := 0 } : TpePort) } }
  let s := if s.blockRuns 7 then forAll 8 s fun k t => closeSecond k (s.tcr.seq.second - 1) s.cpx.warm.isNone t else s
  { s with ehu := { s.ehu with late := s.ehu.late || s.ehu.due, due := true
                               holdLate := s.ehu.holdLate || s.ehu.holdDue, holdDue := true } }

/-! ### Work classes -/

/-- IMPRESSION_OVERRUN (R32): at the end of an impression, source 96 once, with the mask of the classes that overran it in
ADDRESS; the counters of R373. -/
def countOverrun (m : BitVec 11) (s : State) : State :=
  if m = 0 then s else
  let s := pcuCount 0x0101 0xFF 1 s
  let s := forAll 11 s fun c t => if m.getLsbD c then pcuCount (0x0102 + c) 0xFF 1 t else t
  raiseFault 96 { addr := m.toNat } s

/-- An earlier job of the same ring and target still waits for something else than the impression (R65). -/
def blocked (s : State) (f : Flight) : Bool :=
  s.mbx.flights.any fun g =>
    g.job.ring == f.job.ring && decide (g.order < f.order) && g.hold.unbegun && g.hold != .effect &&
      jobTarget g.job == jobTarget f.job

/-- The jobs that asked for this impression take effect, in the order of fetching (R61, R63, R65); an overrun of job
dispatch puts them off by one impression (R32). -/
def effects (late : Bool) (s : State) : State :=
  let mine := s.mbx.flights.filter fun f => f.hold == .effect
  if late then
    { s with mbx := { s.mbx with flights := s.mbx.flights.map fun f =>
        if f.hold == .effect && (jobDef f.job.code).any JobDef.nextImp then { f with late := true } else f } }
  else mine.foldl (fun t f =>
    match t.mbx.flights.find? fun g => g.order == f.order with
    | some g => if blocked t g then t else resumeJob (jobDef g.job.code) g t
    | none => t) s

/-- Jobs inside a chain that carry FENCE start once their ring's earlier jobs have completed (R66). -/
def fences (s : State) : State :=
  (s.mbx.flights.filter fun f => f.hold == .fence).foldl (fun t f =>
    match t.mbx.flights.find? fun g => g.order == f.order with
    | some g => if ringBusy t g.job.ring g.order then t else resumeJob (jobDef g.job.code) g t
    | none => t) s

/-- Jobs that waited for the release of a DPLL take effect once it is no longer frozen, and complete DEFERRED (R142). -/
def resumeReleased (s : State) : State :=
  (s.mbx.flights.filter fun f => match f.hold with
    | .release k => !inSwitch (s.dpllOf k.val)
    | _ => false).foldl (fun t f => resumeJob (jobDef f.job.code) { f with late := true } t) s

/-- A large-path retune completes in the impression after its outputs restarted (R195). -/
def finishRetune (n : Nat) (s : State) : State :=
  let a := s.apllOf n
  match a.large with
  | some g =>
    if g.restarted.isNone then s else
    completeHeld (fun h => h == .retune (Fin.ofNat 4 n)) (fun _ => retuneReply 0x00 a g)
      ((s.setApll n fun a => { a with large := none }).mapOuts fun _ x =>
        if x.apll.val = n then { x with oldDivider := none } else x)
  | none => s

/-- The offset O of a domain against a reference that its DPLL follows, counter units (R96), free where the reference marks no
time. -/
def offsetNow (s : State) (d b : Nat) : Int × State :=
  match isTimeRef s b, offsetAgainst s b (s.domain d).count s.tcr.cycles with
  | true, some o => (o * 10 ^ 27, s)
  | _, _ => drawInt s

/-- A return that waited for a pending TD_SET_TIME acts at the next impression after it has landed (R96). -/
def returnDue (d : Nat) (s : State) : State :=
  let x := s.domain d
  if !x.returnWaits || x.pending.isSome then s else
  match followedRef s d with
  | none => s.setDom d fun x => { x with returnWaits := false }
  | some b =>
    let (o, s) := offsetNow s d b
    returnPolicy d o s

/-- Lane supervision: port instances leave INITIALIZING in the impression after they were enabled (R274). -/
def startInstances (s : State) : State :=
  if !s.blockRuns 12 then s else
  forAll 24 s fun p t => if (List.range 8).any fun i => (t.piOf p i).st == .initializing then portChanged p t else t

/-! ### Job fetch (R30, R31, R61–R63) -/

/-- Non-secure jobs per impression (R30). -/
def nsBudget : Imposition → Nat
  | .folio => 32
  | .broadsheet => 48
  | .quarto => 24
  | .octavo => 16

/-- What the mailbox DMA finds on the host bus at an address (R54). -/
def busBytes (m : List DmaBlock) (addr : Nat) : List Byte :=
  match m.find? fun b => decide (b.addr.toNat ≤ addr) && decide (addr < b.addr.toNat + b.data.length) with
  | some b => b.data.drop (addr - b.addr.toNat)
  | none => []

/-- The job at the head of a ring. -/
def headJob (m : List DmaBlock) (s : State) (r : RingId) : Job :=
  let d := descAt s r (s.ring r.val).head
  { ring := r, desc := d, block := busBytes m (bitsOf d.toNat 32 64) }

/-- HEAD advances by one (R61). -/
def advanceHead (r : RingId) (s : State) : State := s.setRing r.val fun g => { g with head := g.head + 1 }

/-- Fetch one job and take it up (R57, R61). -/
def fetchOne (m : List DmaBlock) (r : RingId) (s : State) : State :=
  if !s.fwRuns then s else
  let j := headJob m s r
  takeUp (jobDef j.code) false j (advanceHead r s)

/-- Fetch `n` jobs of a ring. -/
def fetchMany (m : List DmaBlock) (r : RingId) : Nat → State → State
  | 0, s => s
  | n + 1, s => fetchMany m r n (fetchOne m r s)

/-- The descriptors of the chain at an index that stand in the ring, and whether its last one does (R63). -/
def chainAt (s : State) (r : RingId) : Nat → BitVec 16 → Nat × Bool
  | 0, _ => (0, false)
  | n + 1, i =>
    if i = (s.ring r.val).tail then (0, false)
    else if (descAt s r i).getLsbD 29 then
      let c := chainAt s r n (i + 1)
      (c.1 + 1, c.2)
    else (1, true)

/-- The completion slots leave room for `k` more jobs of a ring (R62). -/
def room (s : State) (r : RingId) (k : Nat) : Bool :=
  decide (outstanding s r.val + k ≤ 256) &&
  (if r.val = 4 then decide (outstanding s 4 + k ≤ 64) else decide (nsOutstanding s + k ≤ 512))

/-- Refuse the chain at the head of a ring, job by job, as far as it stands in the ring (R63, R429). -/
def refuseChain (r : RingId) : Nat → State → State
  | 0, s => s
  | n + 1, s =>
    let g := s.ring r.val
    if g.head = g.tail || !room s r 1 then s else
    let j := headJob [] s r
    let s := pcuCount 0x010D r.val 1 (advanceHead r s)
    let s := postCompletion j (rejParam 2) { order := s.mbx.fetched } { s with mbx := { s.mbx with fetched := s.mbx.fetched + 1 } }
    if j.chain then refuseChain r n s else s.setRing r.val fun g => { g with refusing := false }

/-- Serve a ring once (R61–R63): a single job, or a whole chain that the budget covers, or the refusal of a chain that
no budget covers. Answers the budget used, none if nothing was fetched. -/
def serve (m : List DmaBlock) (r : RingId) (budget : Nat) (s : State) : Option Nat × State :=
  let g := s.ring r.val
  if !g.enable || g.head = g.tail || fenceWaits s r || !takesJobs s r then (none, s)
  else if g.refusing then (some 0, refuseChain r 256 s)
  else
    let top := if r.val = 4 then 4 else 16
    let (n, whole) := chainAt s r (top + 1) g.head
    if top < n then (some 0, refuseChain r 256 (s.setRing r.val fun g => { g with refusing := true, chainWaits := false }))
    else if !whole then (none, s)
    else if budget < n then (none, s.setRing r.val fun g => { g with chainWaits := decide (1 < n) })
    else if !room s r n then (none, s)
    else (some n, fetchMany m r n (s.setRing r.val fun g => { g with chainWaits := false }))

/-- CQS is served within its own budget (R30). -/
def serveSecure (m : List DmaBlock) : Nat → Nat → State → State
  | 0, _, s => s
  | n + 1, budget, s =>
    match serve m 4 budget s with
    | (none, s) => s
    | (some used, s) => serveSecure m n (budget - used) s

/-- The order of the NS rings (R30, R61, R63): a chain that waited for budget, then a head with URGENT, then in turn from
the ring after the one served last. -/
def turnOrder (s : State) : List RingId :=
  let turn := (List.range 4).map fun i => (Fin.ofNat 5 ((s.mbx.lastServed.val + 1 + i) % 4) : RingId)
  let waits := fun (r : RingId) => (s.ring r.val).chainWaits
  let urgent := fun (r : RingId) =>
    (s.ring r.val).head != (s.ring r.val).tail && (descAt s r (s.ring r.val).head).getLsbD 27
  turn.filter waits ++ turn.filter (fun r => !waits r && urgent r) ++ turn.filter (fun r => !waits r && !urgent r)

/-- The first ring of an order that has something to fetch. -/
def serveFirst (m : List DmaBlock) (budget : Nat) : List RingId → State → Option Nat × State
  | [], s => (none, s)
  | r :: t, s =>
    match serve m r budget s with
    | (none, s) => serveFirst m budget t s
    | (some used, s) => (some used, { s with mbx := { s.mbx with lastServed := Fin.ofNat 4 r.val } })

/-- Chains at the head of an NS ring that the exhausted budget does not cover wait, and are served first at the next
boundary (R63). -/
def markChains (s : State) : State :=
  forAll 4 s fun r t =>
    let q : RingId := Fin.ofNat 5 r
    let g := t.ring r
    let (n, whole) := chainAt t q 17 g.head
    if g.enable && g.head != g.tail && !fenceWaits t q && takesJobs t q && whole && decide (1 < n) && decide (n ≤ 16) then
      t.setRing r fun g => { g with chainWaits := true }
    else t

/-- CQ0–CQ3 are served, one descriptor or chain per turn (R30). -/
def serveNs (m : List DmaBlock) : Nat → Nat → State → State
  | 0, _, s => s
  | n + 1, budget, s =>
    if budget = 0 then markChains s else
    match serveFirst m budget (turnOrder s) s with
    | (none, s) => s
    | (some used, s) => serveNs m n (budget - used) s

/-- JOB_FETCH of an impression (R30, R31, R61): what stays in the rings is counted as left for a later impression. -/
def jobFetch (m : List DmaBlock) (s : State) : State :=
  let s := serveSecure m 64 4 s
  let s := serveNs m 128 (nsBudget s.cpx.imposition) s
  settle (forAll 5 s fun r t =>
    let n := ((t.ring r).tail - (t.ring r).head).toNat
    if n = 0 then t else pcuCount 0x0110 r n t)

/-! ### Imposition -/

/-- Bases and sizes in KB of the pool areas of an imposition (R37). -/
def poolAreas (m : Imposition) : List (Nat × Nat) :=
  ((poolSizes m).foldl (fun (a : List (Nat × Nat) × Nat) size => (a.1 ++ [(a.2, size)], a.2 + size)) ([], 0)).1

/-- The areas that a change of imposition clears, in the order of R79. -/
def clearedAreas (old new : Imposition) : List Nat :=
  (List.range 5).filter fun i => (poolAreas old)[i]? != (poolAreas new)[i]?

/-- One pool area is cleared (R42). -/
def clearArea (i : Nat) (s : State) : State :=
  match i with
  | 0 => { s with gtr := { s.gtr with
      store := []
      heard := (((s.gtr.channels.filter fun o => o.tracking && (o.ephemeris || s.gtr.heard.contains (o.system, o.sat) ||
        s.gtr.store.any fun r => r.confirmed && r.type == 2 && r.body.getD 0 0 == BitVec.ofNat 8 o.system.val &&
          r.body.getD 1 0 == BitVec.ofNat 8 o.sat.val)).map fun o => (o.system, o.sat)).eraseDups) } }
  | 1 => { s with ehu := { s.ehu with hold := s.ehu.hold.map fun (h : Hold1) =>
      ({ h with hist := if h.archive then [] else h.hist } : Hold1) } }
  | 2 => clearStreams s
  | 3 => { s with peu := { s.peu with fifo := [] } }
  | _ => { s with tpe := { s.tpe with ledger := [] } }

/-- The DPLLs whose window and guard no longer fit their archive span in the new imposition although they did in the old
one (R38). -/
def windowsReduced (s : State) (new : Imposition) : List Nat :=
  (List.range 8).filter fun k =>
    let h := s.holdOf k
    let span := spanOf { s with cpx := { s.cpx with imposition := new } } k
    h.archive && decide (span < spanOf s k) && decide (span < h.windowS + h.guardS)

/-- A DPLL's window becomes its new span less its guard (R38). -/
def reduceWindow (k : Nat) (s : State) : State := s.setHold k fun h => { h with windowS := spanOf s k - h.guardS }

/-- A pending change of imposition takes effect at impression 0 (R38, R41, R42, R79, R406): areas that change are cleared
before any work of that impression, and the job completes in it. -/
def changeImposition (s : State) : State :=
  match s.cpx.nextImposition with
  | none => s
  | some new =>
    let areas := clearedAreas s.cpx.imposition new
    let lost := if areas.contains 3 then s.peu.fifo.length else 0
    let late := s.cpx.impositionLate
    let reduced := windowsReduced s new
    let s := areas.foldl (fun t i => clearArea i t) s
    let s := { s with cpx := { s.cpx with imposition := new, nextImposition := none, impositionLate := false } }
    let s := reduced.foldl (fun t k => reduceWindow k t) s
    let warn := !reduced.isEmpty
    completeHeld (fun h => h == .imposition)
      (fun _ => { status := if late then 0x31 else if warn then 0x01 else 0x00
                  r0 := word (areas.map fun i => 2 ^ i).sum, r1 := word lost
                  r3 := if warn then Config.impositionWarning else 0 }) s

/-- At impression 0 a pending change of imposition acts; during a WARM restart it waits for the first second boundary after
it (R41, R406). -/
def impositionSecond (s : State) : State :=
  if s.fwRuns then changeImposition s
  else if s.cpx.nextImposition.isSome then { s with cpx := { s.cpx with impositionLate := true } } else s

/-! ### Events that no command names (R373) -/

/-- A lane in which an event of R373 arises unseen by any command: FCS errors of a lane that is up, code errors of one with CDR
lock, blocks that FEC corrects or cannot. -/
def unseenAt (s : State) (ev l : Nat) : Bool :=
  let x := s.laneOf l
  s.lanePresent l && s.blockRuns 11 &&
    (match ev with
     | 0x2001 => laneUp x
     | 0x2003 => !x.los && !x.lol && x.st != .down
     | 0x2004 | 0x2005 => x.fec != 0 && x.fecLock
     | _ => false)

/-- A counter counts events that no command names: those of the lanes, and the busy cycles of the SIV pipes and HMAC cores. -/
def countsUnseen (s : State) (c : Ctr) : Bool :=
  let ev := c.event.toNat
  if [0x2001, 0x2003, 0x2004, 0x2005].contains ev then
    (List.range 24).any fun l => (c.inst == 0xFF || c.inst.toNat == l) && unseenAt s ev l
  else [0x2403, 0x2404].contains ev && s.blockRuns 13

/-- What the counters of such events have counted in the impression that ends: a free number (log entry 122). -/
def countUnseen (s : State) : State :=
  forAll 64 s fun n t =>
    let c := vget t.pcu.ctr n {}
    if !countsUnseen t c then t else
    let (k, t) := drawNat t
    let t := { t with pcu := { t.pcu with ctr := vmod t.pcu.ctr n fun c => ctrAdd c k } }
    if !c.ovf && (ctrAdd c k).ovf then raiseIrq 17 t else t

/-! ### The impression -/

/-- What the work classes do in an impression (R28): completions that waited go out first; the work of a class that does not
finish in the impression is done in the next (R32; log entry 28). -/
def firmwareImpression (b : BoundaryIn) (s : State) : State :=
  let late := fun c => b.overrun.getLsbD c
  let s := effects (late 7) (resumeReleased (postDue s))
  let s := runList 4096 (fences (limitProof s))
  let s := if late 2 then s else forAll 4 (forAll 4 s finishRetune) returnDue
  let s := if s.blockRuns 6 && !late 0 then forAll 4 s updateContributions else s
  let s := if late 8 then s else startInstances s
  let s := if s.blockRuns 8 && !late 1 then decideAll s else s
  let s := if s.ehu.late then { s with ehu := { s.ehu with lag := s.ehu.lag + 1 } } else s
  jobFetch b.dma s

/-- Thresholds of every record (R117). -/
def compareViews (s : State) : State := if s.blockRuns 6 then forAll 5 s compareView else s

/-- The impression sequencer begins a new impression (R27): time runs on to its boundary; a CHIP reset or a WARM restart
that waits begins; hardware acts, and while firmware runs the work classes do. -/
def beginImpression (b : BoundaryIn) (s : State) : State :=
  if !(s.clocked && s.clockOk && s.tcr.seq.running) then s else
  let l := nextBoundary s
  let ended := s.tcr.seq.overran
  let s := countOverrun ended ((pass l.cycles s).setSeq fun _ => { l.seq with overran := if s.fwRuns then b.overrun else 0 })
  let s := { s with
    tcr := { s.tcr with began := s.tcr.cycles, ended := ended }
    rim := { s.rim with ref := s.rim.ref.map fun (e : RefEntry) => ({ e with histNow := 0 } : RefEntry) } }
  let s := pcuCount 0x0100 0xFF 1 { s with cpx := { s.cpx with impressions := s.cpx.impressions + 1 } }
  if s.cpx.chipResetDue then chipResetOp 4 0 s else
  let s := match s.cpx.warmDue with
    | some reload => if s.fwRuns then warmStart reload true s else s
    | none => s
  let s := ageCompletions (dsbImpression (tcrImpression (countUnseen s)))
  let s := if s.blockRuns 12 then drainQueues s else s
  let s := if l.seq.imp = 0 then impositionSecond s else s
  let s := if l.seq.imp = 0 && s.clocked then hardwareSecond s else s
  let s := if s.blockRuns 8 then forAll 8 s noteTakeover else s
  let s := if s.fwRuns then firmwareImpression b s else s
  if s.clocked then compareViews s else s

/-- IMPRESSION_BOUNDARY (R27). -/
def execImpressionBoundary (b : BoundaryIn) (s : State) : Host.Outcome State Fault Refusal := .next (beginImpression b s)

/-- Impressions begin until impression 0 does (R27, R35). -/
def toImpressionZero (b : BoundaryIn) : Nat → State → State
  | 0, s => s
  | n + 1, s =>
    let t := beginImpression b s
    if !t.tcr.seq.running || t.tcr.seq.imp = 0 || t.tcr.cycles = s.tcr.cycles then t
    else toImpressionZero { b with overrun := 0 } n t

/-- SECOND_BOUNDARY (R27): the impressions of the second in progress pass, and impression 0 begins. Fewer than 16,004
begin before it, a realignment included (R35). -/
def execSecondBoundary (b : BoundaryIn) (s : State) : Host.Outcome State Fault Refusal := .next (toImpressionZero b 16004 s)

/-! ### Events on a boundary -/

/-- IMPOSITION_CHANGE (R38, R41, R42, R406): where a change is pending and impression 0 comes next, it begins, and the change
takes effect before any of its work. -/
def execImpositionChange (s : State) : Host.Outcome State Fault Refusal :=
  .next (if s.cpx.nextImposition.isSome && (nextBoundary s).seq.imp == 0 then beginImpression { overrun := 0, dma := [] } s
    else s)

/-- TIME_STEP_LAND (R35, R90, R92, R96): time runs on to the domain's second boundary if it lies in the impression in
progress, and the pending step lands. -/
def execTimeStepLand (d : DomId) (s : State) : Host.Outcome State Fault Refusal :=
  .next (if !(s.clocked && s.clockOk) || (s.domain d.val).pending.isNone then s else
    let s := toSecond d.val (dropAdopt d.val s)
    match (s.domain d.val).pending with
    | none => s
    | some p =>
      if !atSecond s d.val then s else
      let rest := intervalWords (slewRemainder s d.val)
      let old := (s.domain d.val).count
      let s := landStep d.val p s
      let s := stepSau d.val old (stepGalley d.val old (stepPeu d.val s))
      completeHeld (fun h => h == .timeStep d) (fun _ => { r0 := rest.1, r1 := rest.2 }) s)

/-- What the release does with Δ (R96, R141), given in units of 10^-3 ps: a time reference's is removed by the return
policy of each VALID domain, by its own offset as captured, or bleeds out; that of a frequency reference stays built out, or
is pulled out. -/
def releaseDelta (k b : Nat) (delta : Int) (offsets : List (Nat × Int)) (s : State) : State :=
  let pull := s.setDpll k fun x => { x with moving := x.moving - delta * 10 ^ 27 }
  if isTimeRef s b then
    (if offsets.isEmpty then pull else offsets.foldl (fun t x => returnPolicy x.1 (x.2 * 10 ^ 27) t) s)
  else if (s.dpllOf k).pbo then s else pull

/-- What the ledgers of a DPLL's domains take from a release (R116, R140). -/
def releaseLedger (k b : Nat) (s : State) : State :=
  (domainsOf s k).foldl (fun t d =>
    let t := t.setLedger d fun g => { g with holdover := false }
    updateContributions d (if isTimeRef t b then startConfirm d t else t)) s

/-- The state of a DPLL at its release (R134): ACQUIRING from FREERUN or HOLDOVER; else LOCKED if the phase error after
build-out lies within LOCK_NS; frozen still if its reference can no longer be selected (R142). -/
def releaseState (k b : Nat) (fromLost : Bool) (delta : Int) (s : State) : State :=
  let x := s.dpllOf k
  let err := if isTimeRef s b || x.pbo then 0 else delta.natAbs
  if !selectable s b then s
  else if !fromLost && decide (err ≤ x.lockNs * 1000000) then moveDpll k .locked s
  else acquire k s

/-- The release of a frozen switch is due (R140 step 4): at the boundary after the freeze, or one later where the selection class
overran the impression between. -/
def releaseDue (s : State) (w : Switch) : Bool :=
  decide (w.frozenAt + (if s.tcr.ended.getLsbD 1 then 2 else 1) ≤ s.cpx.impressions)

/-- SWITCH_RELEASE (R140 step 4, R141, R142). The jobs that waited for it take effect and complete DEFERRED. -/
def execSwitchRelease (k : DpllId) (s : State) : Host.Outcome State Fault Refusal :=
  .next (match (s.dpllOf k.val).sw with
    | none => s
    | some w =>
      match w.frozen, w.delta with
      | true, some delta =>
        if !(s.fwRuns && s.blockRuns 8 && releaseDue s w) then s else
        let b := w.target.val
        let s := s.setDpll k.val fun x =>
          { x with sw := none, selected := some w.target, tookOver := w.takeover, inUse := none }
        let s := s.setHold k.val fun h => { h with used := none }
        let s := setHistory b 8 s
        let s := releaseState k.val b w.fromLost delta s
        let s := releaseLedger k.val b (releaseDelta k.val b delta w.offsets s)
        settle (resumeReleased s)
      | _, _ => s)

/-- BLOCK_RESET_RELEASE (R68, R360): the subsystem leaves its reset, its shadow runs on, and the jobs held for it run in
ring order. GTR sends the front-end list again (R177). -/
def execBlockResetRelease (b : Fin 16) (s : State) : Host.Outcome State Fault Refusal :=
  .next (if s.fco.block[b] ≠ .asserted ∨ b.val = 0 then s else
    let s := s.releaseBlock b.val
    let s := if b.val = 14 then sendFrontEnd s else s
    if !s.fwRuns then s else
    settle ((s.mbx.flights.filter fun f => f.hold == .block b).foldl (fun t f => resumeJob (jobDef f.job.code) f t) s))

end Sys2Proof.Machine
end

