-- ==== Sys2Proof/Machine/Boot.lean ====
section
/-! DEFINITION. Start-up (R86, R321, R328–R330, R379, R403, R404): the system PLL, the start of the firmware, the job list
of the configuration image, FW_READY; and the end of a WARM restart (R70, R332, R405–R407). -/

namespace Sys2Proof.Machine

/-! ### The ROM -/

/-- The check of the root secret at each boot (R321): one that is missing is drawn, unless a tamper condition stands. -/
def checkRoot (s : State) : State :=
  if s.sec.root.isSome || tamperStands s then { s with sec := { s.sec with rootNew := false } }
  else
    let (v, s) := drawNat s
    { s with sec := { s.sec with root := some (BitVec.ofNat 256 v), rootNew := true } }

/-- The domains are loaded from the battery domain (R86): SECONDS from the coarse seconds, zero without them. -/
def loadDomains (s : State) : State :=
  let sec := if s.srt.coarseValid then s.srt.coarse else 0
  let s := forAll 4 s fun d t => t.setDom d fun x => { x with count := sec * secU }
  s.setSeq fun _ => { running := true, second := sec }

/-- The bounds as the threshold comparison finds them when it starts: unknown, above both thresholds (R86, R117). -/
def startComparison (s : State) : State :=
  let s := forAll 4 s fun d t => t.setLedger d fun g => { g with aboveWarn := true, aboveLimit := true }
  { s with tcr := { s.tcr with viewAboveWarn := true, viewAboveLimit := true } }

/-- SYSTEM_PLL_LOCK (R86, R321, R379, R403 steps 2 and 3): the clocks run, the domains are loaded, the sequencer starts,
the ROM checks OTP and the root secret. Without a master oscillator the engine stays here. -/
def execSystemPllLock (s : State) : Host.Outcome State Fault Refusal :=
  .next (if s.cpx.phase != .starting || !s.clockOk then s else
    let s := { s with cpx := { s.cpx with phase := .rom }
                      cal := { s.cal with crcOk := Config.otpCrc == Config.colCalcrc, crc := Config.otpCrc } }
    checkRoot (startComparison (loadDomains s)))

/-- The boot slots in the order in which the ROM verifies them (R330): the boot slot, then the other; a trial slot that
has failed an attempt is skipped, and so is one marked invalid (R331). -/
def bootOrder (s : State) : List (Fin 2) :=
  let b := s.sec.bootSlot
  let other : Fin 2 := if b = 0 then 1 else 0
  let x := s.sec.slot[b]
  (if x.trial && x.failed then [other] else [b, other]).filter fun i => !s.sec.slot[i].invalid

/-- The slot that boots: the first that verifies (R328, R330). -/
def bootChoice (s : State) : Option (Fin 2) := (bootOrder s).find? fun i => imageCode s 1 s.sec.slot[i].image == 0

/-- Firmware starts from an image (R330 step 3, R407): its hash is its boot hash. -/
def startFirmware (image : List Byte) (s : State) : State :=
  { s with cpx := { s.cpx with phase := .firmware, image := image, bootHash := some (Config.sha384 image) } }

/-- BOOT_FAILED (R330, R401). -/
def bootFailed (s : State) : State := raiseFault 225 {} { s with cpx := { s.cpx with phase := .failed } }

/-! ### Start of the firmware -/

/-- Firmware verifies a configuration image and starts its job list (R328–R330). -/
def startList (image : List Byte) (s : State) : State :=
  let body := (image.drop 256).take (hdr image 4 4)
  if imageCode s 2 image ≠ 0 ∨ !listFormOk body then listFault 0xFFFFFFFF s
  else runList 4096 { s with cpx := { s.cpx with list := some { body := body, count := bodyWord body 4 } } }

/-- FIRMWARE_START (R330, R401, R403 steps 4 to 6). -/
def execFirmwareStart (s : State) : Host.Outcome State Fault Refusal :=
  let t := s.srt.straps
  .next (if s.cpx.phase != .rom then s
    else if t.boot = 3 && !t.test then bootFailed s
    else if t.boot = 2 then (if t.spi then bootFailed s else s)
    else match bootChoice s with
      | none => bootFailed s
      | some i =>
        let s := startFirmware s.sec.slot[i].image s
        startList s.sec.config { s with sec := { s.sec with running := i } })

/-- HOST_LOAD_BOOT (R404): the ROM takes the descriptor at the head of CQ0, whose two images the host bus gives. -/
def execHostLoadBoot (fw cfg : List Byte) (s : State) : Host.Outcome State Fault Refusal :=
  let j := headJob [] s 0
  let t := s.srt.straps
  .next (if s.cpx.phase != .rom || t.boot != 2 || t.spi || (s.ring 0).head = (s.ring 0).tail || j.code != 0 || !j.dma then s
    else
      let s := advanceHead 0 s
      let fw := fw.take j.paramLen
      let cfg := cfg.take j.resultLen
      let code := if imageCode s 1 fw ≠ 0 then imageCode s 1 fw else imageCode s 2 cfg
      if code ≠ 0 then postCompletion j (rejParam (word code)) {} s
      else
        let s := startFirmware fw (postCompletion j {} {} s)
        startList cfg { s with cpx := { s.cpx with hostLoaded := true } })

/-- A trial slot whose firmware sets FW_READY is confirmed, and the OTP rollback counter advances to its ROLLBACK
(R332). -/
def confirmTrial (s : State) : State :=
  let i := s.sec.running
  let x := s.sec.slot[i]
  if s.cpx.hostLoaded || !x.trial then s else
  { s with sec := { s.sec with slot := s.sec.slot.set i { x with trial := false, failed := false }
                               rollback := max s.sec.rollback (hdr x.image 12 1) } }

/-- FW_READY (R385, R403 step 7): after the job list, the user layer is loaded, FW_READY sets, COL_FWREV becomes valid,
interrupt source 6 is raised. -/
def execFwReady (s : State) : Host.Outcome State Fault Refusal :=
  .next (if s.cpx.phase != .firmware || s.cpx.warm.isSome then s else
    let s := runList 4096 s
    if s.cpx.phase != .firmware || s.cpx.warm.isSome || s.cpx.list.isSome then s else
    let s := confirmTrial (loadUserLayer s)
    raiseIrq 6 { s with cpx := { s.cpx with phase := .ready }, mbx := { s.mbx with fwReady := true }
                        col := { s.col with fwRevValid := true } })

/-! ### The end of a WARM restart -/

/-- How a job that a WARM restart has spanned completes at its end, if it does (R68, R70, R332, R406, R407): a job for CPX
is aborted, but for the one that caused the restart and a change of imposition whose second has passed. -/
def afterWarm (w : Warm) (late : Bool) (elapsed : Nat) (f : Flight) : Option Reply :=
  let cpx := jobSubsystem f.job == some 0
  match f.hold with
  | .aborted b => some { status := 0x20, r0 := word b.val }
  | .fwRestart =>
    if cpx then (if w.byJob then some { r0 := word elapsed } else some { status := 0x20 }) else some {}
  | .imposition => if late then none else some { status := 0x20 }
  | _ => if cpx then some { status := 0x20 } else none

/-- The jobs that a WARM restart ends (R70). -/
def completeWarm (w : Warm) (elapsed : Nat) (s : State) : State :=
  let late := s.cpx.impositionLate
  s.mbx.flights.foldl (fun t f =>
    match afterWarm w late elapsed f with
    | some r => finish f r t
    | none => t) s

/-- A pending change of imposition whose job was aborted is dropped. -/
def dropImposition (s : State) : State :=
  if s.cpx.impositionLate then s else { s with cpx := { s.cpx with nextImposition := none } }

/-- The image that runs after the restart (R407): the one in SRAM if it still matches its boot hash and no reload was
asked for, else that of the boot slot; none if no slot is valid. -/
def restartImage (w : Warm) (s : State) : Option State :=
  if !w.reload && s.cpx.bootHash == some (Config.sha384 s.cpx.image) then some s
  else match bootChoice s with
    | none => none
    | some i =>
      let x := s.sec.slot[i].image
      some { s with
        cpx := { s.cpx with image := x, bootHash := some (Config.sha384 x), hostLoaded := false }
        sec := { s.sec with running := i } }

/-- The entries of the seconds that a WARM restart took are written after it (R406). -/
def lateEntries (s : State) : State :=
  let s := forAll 8 s fun k t => writeEntries k 0 t
  { s with ehu := { s.ehu with holdLate := false } }

/-- WARM_RESTART_END (R70, R405–R407): without a valid image BOOT_FAILED rises and the restart does not end. -/
def execWarmRestartEnd (s : State) : Host.Outcome State Fault Refusal :=
  .next (match s.cpx.warm with
    | none => s
    | some w =>
      match restartImage w s with
      | none => if w.stuck then s else
        raiseFault 225 {} { s with cpx := { s.cpx with warm := some { w with stuck := true } } }
      | some s =>
        let elapsed := s.cpx.impressions - w.since
        let ready := s.cpx.phase == .ready
        let s := { s with
          cpx := { s.cpx with warm := none }
          mbx := { s.mbx with restarting := false, fwReady := ready,
                              rings := s.mbx.rings.map fun (g : Ring) => ({ g with frozen := false } : Ring) } }
        let s := s.releaseBlock 0
        let s := dropImposition (completeWarm w elapsed (postDue s))
        let s := lateEntries s
        let s := lanesAfterWarm (125000 * elapsed) (releaseHeld s)
        let s := forAll 8 s fun i t => if (t.instOf i).bmcaDue then runBmca i t else t
        let s := if ready && s.clocked then raiseIrq 6 (confirmTrial s) else s
        settle s)

end Sys2Proof.Machine
end

