-- ==== Sys2Proof/Machine/Host.lean ====
section
/-! DEFINITION. Meanings of the host accesses. -/

namespace Sys2Proof.Machine

/-- REGISTER_WRITE (R12, R45–R49, R72): one host access to any register or to ring memory, or an SPI transaction (R48). -/
def execRegisterWrite (a : HostAccess) (s : State) : Host.Outcome State Fault Refusal := .next (hostReach a s)

/-- Offset of a ring's registers in its window (R51, R313). -/
def ringOff (r : RingId) : Nat := if r.val = 4 then 0 else 0x20 * r.val
/-- The window of a ring (R50). -/
def ringWindow (r : RingId) : Window := if r.val = 4 then .s else .n

/-- MBX_CQ_TAIL (R59, R60): the doorbell. -/
def execMbxCqTail (r : RingId) (v : Word) (s : State) : Host.Outcome State Fault Refusal :=
  .next (hostWrite (ringWindow r) (ringOff r) v s)

/-- MBX_CC_HEAD (R58, R60, R61): completions consumed. -/
def execMbxCcHead (r : RingId) (v : Word) (s : State) : Host.Outcome State Fault Refusal :=
  .next (hostWrite (ringWindow r) (ringOff r + 0x0C) v s)

/-- INTC_STATUS (R73, R75): write 1 to clear. -/
def execIntcStatus (v : Word) (s : State) : Host.Outcome State Fault Refusal := .next (hostWrite .n 0x1000 v s)

/-- INTC_MASK (R73, R75). -/
def execIntcMask (v : Word) (s : State) : Host.Outcome State Fault Refusal := .next (hostWrite .n 0x1004 v s)

/-- INTC_MODE (R73, R75). -/
def execIntcMode (v : Word) (s : State) : Host.Outcome State Fault Refusal := .next (hostWrite .n 0x100C v s)

/-- TSNAP_LATCH (R76). -/
def execTsnapLatch (v : Word) (s : State) : Host.Outcome State Fault Refusal := .next (hostWrite .n 0x2000 v s)

/-- FCO_ACK (R357, R359). -/
def execFcoAck (w : Window) (v : Word) (s : State) : Host.Outcome State Fault Refusal :=
  .next (hostWrite w (match w with
    | .n => 0x3004
    | .s => 0x1004) v s)

/-- PCU_CNT_LO_READ (R368–R370). -/
def execPcuCntLoRead (w : Window) (n : Fin 64) (s : State) : Host.Outcome State Fault Refusal :=
  .next (hostAccess { win := w, off := BitVec.ofNat 24 (0x4000 + 8 * n.val), size := 4, data := none } s)

/-- CC_HOLDOFF_EXPIRY (R51): the oldest unconsumed completion has waited CC_HOLDOFF impressions. -/
def execCcHoldoffExpiry (r : RingId) (s : State) : Host.Outcome State Fault Refusal := .next (raiseCompletion r.val s)

end Sys2Proof.Machine
end

