-- ==== Sys2Proof/Machine/Dispatch.lean ====
section
/-! DEFINITION. The dispatcher: one arm for each command. -/

namespace Sys2Proof.Machine

def exec (i : Instr) (s : State) : Host.Outcome State Fault Refusal :=
  match i with
  | .registerWrite a => Sys2Proof.Machine.execRegisterWrite a s
  | .mbxCqTail ring v => Sys2Proof.Machine.execMbxCqTail ring v s
  | .mbxCcHead ring v => Sys2Proof.Machine.execMbxCcHead ring v s
  | .intcStatus v => Sys2Proof.Machine.execIntcStatus v s
  | .intcMask v => Sys2Proof.Machine.execIntcMask v s
  | .intcMode v => Sys2Proof.Machine.execIntcMode v s
  | .tsnapLatch v => Sys2Proof.Machine.execTsnapLatch v s
  | .fcoAck win v => Sys2Proof.Machine.execFcoAck win v s
  | .pcuCntLoRead win n => Sys2Proof.Machine.execPcuCntLoRead win n s
  | .impressionBoundary b => Sys2Proof.Machine.execImpressionBoundary b s
  | .ccHoldoffExpiry ring => Sys2Proof.Machine.execCcHoldoffExpiry ring s
  | .secondBoundary b => Sys2Proof.Machine.execSecondBoundary b s
  | .impositionChange => Sys2Proof.Machine.execImpositionChange s
  | .timeStepLand d => Sys2Proof.Machine.execTimeStepLand d s
  | .secondCrossing v => Sys2Proof.Machine.execSecondCrossing v s
  | .todMessageSend n => Sys2Proof.Machine.execTodMessageSend n s
  | .handoverRemainderZero => Sys2Proof.Machine.execHandoverRemainderZero s
  | .slewEnd d => Sys2Proof.Machine.execSlewEnd d s
  | .confirmationEnd d => Sys2Proof.Machine.execConfirmationEnd d s
  | .supplyChargeRelease d => Sys2Proof.Machine.execSupplyChargeRelease d s
  | .ensembleCycle phases => Sys2Proof.Machine.execEnsembleCycle phases s
  | .deweightEnd m => Sys2Proof.Machine.execDeweightEnd m s
  | .holdoverRecompute => Sys2Proof.Machine.execHoldoverRecompute s
  | .holdoverUpdate k => Sys2Proof.Machine.execHoldoverUpdate k s
  | .refEdge r stamp => Sys2Proof.Machine.execRefEdge r stamp s
  | .refLos r => Sys2Proof.Machine.execRefLos r s
  | .qualificationEnd r => Sys2Proof.Machine.execQualificationEnd r s
  | .driftClear r => Sys2Proof.Machine.execDriftClear r s
  | .wtrExpiry k r => Sys2Proof.Machine.execWtrExpiry k r s
  | .driftTakeover k => Sys2Proof.Machine.execDriftTakeover k s
  | .switchFreeze k => Sys2Proof.Machine.execSwitchFreeze k s
  | .switchCapture k => Sys2Proof.Machine.execSwitchCapture k s
  | .switchRelease k => Sys2Proof.Machine.execSwitchRelease k s
  | .dpllBandwidthHalving k => Sys2Proof.Machine.execDpllBandwidthHalving k s
  | .oscSteerUpdate => Sys2Proof.Machine.execOscSteerUpdate s
  | .gnssEpoch => Sys2Proof.Machine.execGnssEpoch s
  | .gnssSolution o => Sys2Proof.Machine.execGnssSolution o s
  | .satelliteExclusionEnd system sat => Sys2Proof.Machine.execSatelliteExclusionEnd system sat s
  | .integrityClear => Sys2Proof.Machine.execIntegrityClear s
  | .timeCheckAnchorMove => Sys2Proof.Machine.execTimeCheckAnchorMove s
  | .gnssClockFault => Sys2Proof.Machine.execGnssClockFault s
  | .gclkReturn => Sys2Proof.Machine.execGclkReturn s
  | .feStatusPoll v => Sys2Proof.Machine.execFeStatusPoll v s
  | .surveyEnd => Sys2Proof.Machine.execSurveyEnd s
  | .notchAdapt band notch freq => Sys2Proof.Machine.execNotchAdapt band notch freq s
  | .jamThreshold band level => Sys2Proof.Machine.execJamThreshold band level s
  | .apllLockLost n => Sys2Proof.Machine.execApllLockLost n s
  | .apllLock n => Sys2Proof.Machine.execApllLock n s
  | .outputRestart n => Sys2Proof.Machine.execOutputRestart n s
  | .apllRetuneTimeout n => Sys2Proof.Machine.execApllRetuneTimeout n s
  | .apllRampEnd n => Sys2Proof.Machine.execApllRampEnd n s
  | .outputPhaseSubstep o => Sys2Proof.Machine.execOutputPhaseSubstep o s
  | .outputAlignMeasure o errPs => Sys2Proof.Machine.execOutputAlignMeasure o errPs s
  | .eventEdge input falling stamp heldNs levelNs => Sys2Proof.Machine.execEventEdge input falling stamp heldNs levelNs s
  | .eventQueueDrain => Sys2Proof.Machine.execEventQueueDrain s
  | .losAssert l => Sys2Proof.Machine.execLosAssert l s
  | .losDeassert l => Sys2Proof.Machine.execLosDeassert l s
  | .lolAssert l => Sys2Proof.Machine.execLolAssert l s
  | .lolDeassert l => Sys2Proof.Machine.execLolDeassert l s
  | .alignmentGained l slip => Sys2Proof.Machine.execAlignmentGained l slip s
  | .alignmentLost l => Sys2Proof.Machine.execAlignmentLost l s
  | .hiBer l => Sys2Proof.Machine.execHiBer l s
  | .fecLockChange l gained => Sys2Proof.Machine.execFecLockChange l gained s
  | .laneQualified l errors => Sys2Proof.Machine.execLaneQualified l errors s
  | .trainTimeout l => Sys2Proof.Machine.execTrainTimeout l s
  | .stepTimeout l => Sys2Proof.Machine.execStepTimeout l s
  | .relockTimeout l => Sys2Proof.Machine.execRelockTimeout l s
  | .moduleReadDone l r => Sys2Proof.Machine.execModuleReadDone l r s
  | .autonegComplete l r => Sys2Proof.Machine.execAutonegComplete l r s
  | .latencyMeasurementEnd l rxPs txPs => Sys2Proof.Machine.execLatencyMeasurementEnd l rxPs txPs s
  | .laneTxpllUnlock l => Sys2Proof.Machine.execLaneTxpllUnlock l s
  | .txpllRelock l => Sys2Proof.Machine.execTxpllRelock l s
  | .adaptationFreeze l density => Sys2Proof.Machine.execAdaptationFreeze l density s
  | .adaptationResume l density => Sys2Proof.Machine.execAdaptationResume l density s
  | .prbsCheckerSync l => Sys2Proof.Machine.execPrbsCheckerSync l s
  | .prbsCheckerResync l errors => Sys2Proof.Machine.execPrbsCheckerResync l errors s
  | .prbsErrorInject l => Sys2Proof.Machine.execPrbsErrorInject l s
  | .frameReceive port mark f => Sys2Proof.Machine.execFrameReceive port mark f s
  | .ptpAnnounceReceive rx => Sys2Proof.Machine.execPtpAnnounceReceive rx s
  | .ptpSyncReceive rx => Sys2Proof.Machine.execPtpSyncReceive rx s
  | .ptpFollowUpReceive rx => Sys2Proof.Machine.execPtpFollowUpReceive rx s
  | .ptpDelayReqReceive rx => Sys2Proof.Machine.execPtpDelayReqReceive rx s
  | .ptpDelayRespReceive rx => Sys2Proof.Machine.execPtpDelayRespReceive rx s
  | .ptpPdelayReqReceive rx => Sys2Proof.Machine.execPtpPdelayReqReceive rx s
  | .ptpPdelayRespReceive rx => Sys2Proof.Machine.execPtpPdelayRespReceive rx s
  | .ptpSignalingReceive sg => Sys2Proof.Machine.execPtpSignalingReceive sg s
  | .ptpTcForward delayReq rx egress => Sys2Proof.Machine.execPtpTcForward delayReq rx egress s
  | .ntpRequestReceive rx => Sys2Proof.Machine.execNtpRequestReceive rx s
  | .ntsRequestReceive rx => Sys2Proof.Machine.execNtsRequestReceive rx s
  | .ntpResponseReceive client rx => Sys2Proof.Machine.execNtpResponseReceive client rx s
  | .esmcPduReceive port ssm enhanced => Sys2Proof.Machine.execEsmcPduReceive port ssm enhanced s
  | .prpSupervisionReceive port => Sys2Proof.Machine.execPrpSupervisionReceive port s
  | .hostUplinkFrameReceive h => Sys2Proof.Machine.execHostUplinkFrameReceive h s
  | .svFrameReceive f => Sys2Proof.Machine.execSvFrameReceive f s
  | .aueJobComplete tx ok => Sys2Proof.Machine.execAueJobComplete tx ok s
  | .launchCommit frame movedPs => Sys2Proof.Machine.execLaunchCommit frame movedPs s
  | .frameLaunch frame errPs => Sys2Proof.Machine.execFrameLaunch frame errPs s
  | .hostFrameTransmit port => Sys2Proof.Machine.execHostFrameTransmit port s
  | .ptpAnnounceSend inst port => Sys2Proof.Machine.execPtpAnnounceSend inst port s
  | .ptpSyncSend inst port => Sys2Proof.Machine.execPtpSyncSend inst port s
  | .ptpDelayReqSend inst port => Sys2Proof.Machine.execPtpDelayReqSend inst port s
  | .announceReceiptTimeout inst port => Sys2Proof.Machine.execAnnounceReceiptTimeout inst port s
  | .unicastGrantRenew inst port => Sys2Proof.Machine.execUnicastGrantRenew inst port s
  | .unicastGrantExpiry record => Sys2Proof.Machine.execUnicastGrantExpiry record s
  | .ledgerSweep => Sys2Proof.Machine.execLedgerSweep s
  | .prpSlaveTakeover inst pair => Sys2Proof.Machine.execPrpSlaveTakeover inst pair s
  | .prpSupervisionSend pair => Sys2Proof.Machine.execPrpSupervisionSend pair s
  | .ntpClientPoll client => Sys2Proof.Machine.execNtpClientPoll client s
  | .esmcInfoSend port => Sys2Proof.Machine.execEsmcInfoSend port s
  | .esmcEventSend port => Sys2Proof.Machine.execEsmcEventSend port s
  | .esmcTimeout port => Sys2Proof.Machine.execEsmcTimeout port s
  | .sampleFrame port dir stamp slots => Sys2Proof.Machine.execSampleFrame port dir stamp slots s
  | .slotMaskTimeout port dir => Sys2Proof.Machine.execSlotMaskTimeout port dir s
  | .sampleRateFault port dir => Sys2Proof.Machine.execSampleRateFault port dir s
  | .sampleRateFaultClear port dir => Sys2Proof.Machine.execSampleRateFaultClear port dir s
  | .channelRatioLock c ratio => Sys2Proof.Machine.execChannelRatioLock c ratio s
  | .channelReentry c => Sys2Proof.Machine.execChannelReentry c s
  | .svMonitorSecond => Sys2Proof.Machine.execSvMonitorSecond s
  | .tamperEvent source => Sys2Proof.Machine.execTamperEvent source s
  | .keyExpiry slot => Sys2Proof.Machine.execKeyExpiry slot s
  | .keyPrevZeroed slot => Sys2Proof.Machine.execKeyPrevZeroed slot s
  | .trngHealthTestEnd => Sys2Proof.Machine.execTrngHealthTestEnd s
  | .clockMonitorFault source => Sys2Proof.Machine.execClockMonitorFault source s
  | .clockReturn source => Sys2Proof.Machine.execClockReturn source s
  | .lockstepMismatch pair => Sys2Proof.Machine.execLockstepMismatch pair s
  | .memoryEccError source address => Sys2Proof.Machine.execMemoryEccError source address s
  | .blockResetRelease block => Sys2Proof.Machine.execBlockResetRelease block s
  | .resetShadowEnd block => Sys2Proof.Machine.execResetShadowEnd block s
  | .interpCheck => Sys2Proof.Machine.execInterpCheck s
  | .watchdog => Sys2Proof.Machine.execWatchdog s
  | .thermalHigh sensor temp => Sys2Proof.Machine.execThermalHigh sensor temp s
  | .supplyDipStart rail mv => Sys2Proof.Machine.execSupplyDipStart rail mv s
  | .supplyDipLong rail => Sys2Proof.Machine.execSupplyDipLong rail s
  | .supplyDipEnd => Sys2Proof.Machine.execSupplyDipEnd s
  | .vbatWarning mv => Sys2Proof.Machine.execVbatWarning mv s
  | .supplyReset rail => Sys2Proof.Machine.execSupplyReset rail s
  | .por => Sys2Proof.Machine.execPor s
  | .porEnd straps => Sys2Proof.Machine.execPorEnd straps s
  | .pinReset => Sys2Proof.Machine.execPinReset s
  | .pinResetEnd straps => Sys2Proof.Machine.execPinResetEnd straps s
  | .chipReset source => Sys2Proof.Machine.execChipReset source s
  | .chipResetEnd => Sys2Proof.Machine.execChipResetEnd s
  | .systemPllLock => Sys2Proof.Machine.execSystemPllLock s
  | .firmwareStart => Sys2Proof.Machine.execFirmwareStart s
  | .fwReady => Sys2Proof.Machine.execFwReady s
  | .hostLoadBoot fw cfg => Sys2Proof.Machine.execHostLoadBoot fw cfg s
  | .warmRestartEnd => Sys2Proof.Machine.execWarmRestartEnd s
  | .flashWriteDone => Sys2Proof.Machine.execFlashWriteDone s
  | .flashWriteTimeout => Sys2Proof.Machine.execFlashWriteTimeout s
  | .proofEnd passed failed => Sys2Proof.Machine.execProofEnd passed failed s
  | .devIdentify j => Sys2Proof.Machine.execDevIdentify j s
  | .devSetImposition j => Sys2Proof.Machine.execDevSetImposition j s
  | .devFwRestart j => Sys2Proof.Machine.execDevFwRestart j s
  | .devChipReset j => Sys2Proof.Machine.execDevChipReset j s
  | .devFenceRing j => Sys2Proof.Machine.execDevFenceRing j s
  | .devFenceWorld j => Sys2Proof.Machine.execDevFenceWorld j s
  | .devProof j => Sys2Proof.Machine.execDevProof j s
  | .secPartitionSet j => Sys2Proof.Machine.execSecPartitionSet j s
  | .secPartitionLock j => Sys2Proof.Machine.execSecPartitionLock j s
  | .secRegionSet j => Sys2Proof.Machine.execSecRegionSet j s
  | .secFwStage j => Sys2Proof.Machine.execSecFwStage j s
  | .secFwCommit j => Sys2Proof.Machine.execSecFwCommit j s
  | .secTamperConfig j => Sys2Proof.Machine.execSecTamperConfig j s
  | .secTamperStatus j => Sys2Proof.Machine.execSecTamperStatus j s
  | .secTestUnlock j => Sys2Proof.Machine.execSecTestUnlock j s
  | .keyWrite j => Sys2Proof.Machine.execKeyWrite j s
  | .keyRetire j => Sys2Proof.Machine.execKeyRetire j s
  | .keyAttrRead j => Sys2Proof.Machine.execKeyAttrRead j s
  | .keyRoll j => Sys2Proof.Machine.execKeyRoll j s
  | .keyDerive j => Sys2Proof.Machine.execKeyDerive j s
  | .fltConfigSource j => Sys2Proof.Machine.execFltConfigSource j s
  | .fltAck j => Sys2Proof.Machine.execFltAck j s
  | .fltReadCapture j => Sys2Proof.Machine.execFltReadCapture j s
  | .fltInject j => Sys2Proof.Machine.execFltInject j s
  | .pcuSelectEvent j => Sys2Proof.Machine.execPcuSelectEvent j s
  | .pcuSetAccess j => Sys2Proof.Machine.execPcuSetAccess j s
  | .pcuClear j => Sys2Proof.Machine.execPcuClear j s
  | .tdConfig j => Sys2Proof.Machine.execTdConfig j s
  | .tdSetTimeAbsolute j => Sys2Proof.Machine.execTdSetTimeAbsolute j s
  | .tdSetTimeRelative j => Sys2Proof.Machine.execTdSetTimeRelative j s
  | .tdSlew j => Sys2Proof.Machine.execTdSlew j s
  | .tdSetUtcInfo j => Sys2Proof.Machine.execTdSetUtcInfo j s
  | .tdHandover j => Sys2Proof.Machine.execTdHandover j s
  | .tdReadLedger j => Sys2Proof.Machine.execTdReadLedger j s
  | .tdSetReturnPolicy j => Sys2Proof.Machine.execTdSetReturnPolicy j s
  | .ensConfigMember j => Sys2Proof.Machine.execEnsConfigMember j s
  | .ensReadState j => Sys2Proof.Machine.execEnsReadState j s
  | .ensSetPolicy j => Sys2Proof.Machine.execEnsSetPolicy j s
  | .refConfig j => Sys2Proof.Machine.execRefConfig j s
  | .refSetThresholds j => Sys2Proof.Machine.execRefSetThresholds j s
  | .refReadStatus j => Sys2Proof.Machine.execRefReadStatus j s
  | .refClearHistory j => Sys2Proof.Machine.execRefClearHistory j s
  | .refSetPriority j => Sys2Proof.Machine.execRefSetPriority j s
  | .refForceSelect j => Sys2Proof.Machine.execRefForceSelect j s
  | .refForceRelease j => Sys2Proof.Machine.execRefForceRelease j s
  | .dpllConfig j => Sys2Proof.Machine.execDpllConfig j s
  | .dpllSetModeAutomatic j => Sys2Proof.Machine.execDpllSetModeAutomatic j s
  | .dpllSetModeFreerun j => Sys2Proof.Machine.execDpllSetModeFreerun j s
  | .dpllSetModeHoldover j => Sys2Proof.Machine.execDpllSetModeHoldover j s
  | .dpllSteerPpt j => Sys2Proof.Machine.execDpllSteerPpt j s
  | .dpllPhaseStep j => Sys2Proof.Machine.execDpllPhaseStep j s
  | .holdConfig j => Sys2Proof.Machine.execHoldConfig j s
  | .holdReadArchive j => Sys2Proof.Machine.execHoldReadArchive j s
  | .oscSteerConfig j => Sys2Proof.Machine.execOscSteerConfig j s
  | .apllConfig j => Sys2Proof.Machine.execApllConfig j s
  | .apllRetune j => Sys2Proof.Machine.execApllRetune j s
  | .outConfig j => Sys2Proof.Machine.execOutConfig j s
  | .outConfigStage j => Sys2Proof.Machine.execOutConfigStage j s
  | .outEnable j => Sys2Proof.Machine.execOutEnable j s
  | .outPhaseStep j => Sys2Proof.Machine.execOutPhaseStep j s
  | .outSetCeiling j => Sys2Proof.Machine.execOutSetCeiling j s
  | .ppsConfig j => Sys2Proof.Machine.execPpsConfig j s
  | .irigConfig j => Sys2Proof.Machine.execIrigConfig j s
  | .todConfig j => Sys2Proof.Machine.execTodConfig j s
  | .evtConfig j => Sys2Proof.Machine.execEvtConfig j s
  | .evtConfigThreshold j => Sys2Proof.Machine.execEvtConfigThreshold j s
  | .evtDrain j => Sys2Proof.Machine.execEvtDrain j s
  | .laneConfig j => Sys2Proof.Machine.execLaneConfig j s
  | .laneEnable j => Sys2Proof.Machine.execLaneEnable j s
  | .laneDisable j => Sys2Proof.Machine.execLaneDisable j s
  | .laneReadStatus j => Sys2Proof.Machine.execLaneReadStatus j s
  | .lanePrbsConfig j => Sys2Proof.Machine.execLanePrbsConfig j s
  | .lanePrbsLeave j => Sys2Proof.Machine.execLanePrbsLeave j s
  | .lanePrbsRead j => Sys2Proof.Machine.execLanePrbsRead j s
  | .laneEqConfig j => Sys2Proof.Machine.execLaneEqConfig j s
  | .laneRecoveredClockSelect j => Sys2Proof.Machine.execLaneRecoveredClockSelect j s
  | .tsPortConfig j => Sys2Proof.Machine.execTsPortConfig j s
  | .tsReadLatency j => Sys2Proof.Machine.execTsReadLatency j s
  | .tsSetAsymmetry j => Sys2Proof.Machine.execTsSetAsymmetry j s
  | .tsLaunchConfig j => Sys2Proof.Machine.execTsLaunchConfig j s
  | .ptpInstanceConfig j => Sys2Proof.Machine.execPtpInstanceConfig j s
  | .ptpPortConfig j => Sys2Proof.Machine.execPtpPortConfig j s
  | .ptpPortConfigPortForm j => Sys2Proof.Machine.execPtpPortConfigPortForm j s
  | .ptpReadPortState j => Sys2Proof.Machine.execPtpReadPortState j s
  | .ptpUnicastPolicy j => Sys2Proof.Machine.execPtpUnicastPolicy j s
  | .ptpPrpPair j => Sys2Proof.Machine.execPtpPrpPair j s
  | .ntpServerConfig j => Sys2Proof.Machine.execNtpServerConfig j s
  | .ntpServerRead j => Sys2Proof.Machine.execNtpServerRead j s
  | .ntsConfigServer j => Sys2Proof.Machine.execNtsConfigServer j s
  | .ntsConfigClient j => Sys2Proof.Machine.execNtsConfigClient j s
  | .ntpClientConfig j => Sys2Proof.Machine.execNtpClientConfig j s
  | .ntpRatePolicy j => Sys2Proof.Machine.execNtpRatePolicy j s
  | .ledgerQuery j => Sys2Proof.Machine.execLedgerQuery j s
  | .ledgerEvict j => Sys2Proof.Machine.execLedgerEvict j s
  | .ledgerExport j => Sys2Proof.Machine.execLedgerExport j s
  | .gnssConfig j => Sys2Proof.Machine.execGnssConfig j s
  | .gnssSurveyStart j => Sys2Proof.Machine.execGnssSurveyStart j s
  | .gnssSurveyLoadPosition j => Sys2Proof.Machine.execGnssSurveyLoadPosition j s
  | .gnssSurveyReleaseHold j => Sys2Proof.Machine.execGnssSurveyReleaseHold j s
  | .gnssReadStatus j => Sys2Proof.Machine.execGnssReadStatus j s
  | .gnssNotchConfig j => Sys2Proof.Machine.execGnssNotchConfig j s
  | .gnssAidingLoad j => Sys2Proof.Machine.execGnssAidingLoad j s
  | .sampPortConfig j => Sys2Proof.Machine.execSampPortConfig j s
  | .sampSlotMask j => Sys2Proof.Machine.execSampSlotMask j s
  | .sampGroupConfigChannel j => Sys2Proof.Machine.execSampGroupConfigChannel j s
  | .sampGroupConfigGroup j => Sys2Proof.Machine.execSampGroupConfigGroup j s
  | .sampGroupConfigStatus j => Sys2Proof.Machine.execSampGroupConfigStatus j s
  | .svMonitorConfig j => Sys2Proof.Machine.execSvMonitorConfig j s
  | .svMonitorRead j => Sys2Proof.Machine.execSvMonitorRead j s
  | .calReadFactory j => Sys2Proof.Machine.execCalReadFactory j s
  | .calWriteUser j => Sys2Proof.Machine.execCalWriteUser j s
  | .calReadEffective j => Sys2Proof.Machine.execCalReadEffective j s
  | .calCommitUser j => Sys2Proof.Machine.execCalCommitUser j s
  | .supRead j => Sys2Proof.Machine.execSupRead j s
  | .supSetThresholds j => Sys2Proof.Machine.execSupSetThresholds j s
  | .phaseStepMovementEnd k => Sys2Proof.Machine.execPhaseStepMovementEnd k s
  | .tamperConditionEnd source => Sys2Proof.Machine.execTamperConditionEnd source s
  | .thermalHighClear sensor => Sys2Proof.Machine.execThermalHighClear sensor s
  | .vbatReturn => Sys2Proof.Machine.execVbatReturn s
  | .vbatLoss => Sys2Proof.Machine.execVbatLoss s
  | .trngHealth => Sys2Proof.Machine.execTrngHealth s
  | .lrefclkFault pin => Sys2Proof.Machine.execLrefclkFault pin s
  | .cdaonFault => Sys2Proof.Machine.execCdaonFault s

end Sys2Proof.Machine
end

