-- ==== Sys2Proof/Machine/Step.lean ====
section
/-! DEFINITION. One step of the engine: the command at the front of the queue; and how the host places a command. -/

namespace Sys2Proof.Machine

/-- What the engine does while no command waits: one CD-TIME cycle passes (R24). DESIGN CHOICE, log entry 1. -/
def idle (s : State) : State := pass 1 s

/-- One step: the command at the front of the queue acts on the state with the queue's rest; on an empty queue the
engine idles. -/
def step (s : State) : Host.Outcome State Fault Refusal :=
  match s.pending with
  | [] => .next (idle s)
  | c :: rest => exec c { s with pending := rest }

/-- The state with the command that a word spells put at the front of the queue; no row of the table has bits, so no
word spells one (log entry 2). -/
def State.withFetchWord (s : State) (nbits w : Nat) : State :=
  match decodeTableWord nbits w with
  | some c => { s with pending := c :: s.pending }
  | none => s

end Sys2Proof.Machine
end

