-- ==== Sys2Proof/Machine/Pins.lean ====
section
/-! DEFINITION. Which pins the engine drives (R9, R402). -/

namespace Sys2Proof.Machine

/-- The output and bidirectional pins, as R402 groups them. -/
inductive PinGroup where
  | qspi
  | hostPcie
  | hostMiso
  | intN
  | errN
  | out (o : OutId)
  | pps (n : Fin 4)
  | irig (n : Fin 2)
  | tod (n : Fin 2)
  | laneTx (l : LaneId)
  | sampleMaster (port : Fin 8) (dir : Fin 2)
  | gspi
  | oscSteer
  | modBus (n : Fin 4)
  deriving DecidableEq, Repr

/-- The ROM has come to step 3 of the boot (R402, R403). -/
def romActs (s : State) : Bool := s.cpx.phase != .inReset && s.cpx.phase != .starting

/-- The boot flash is in use: in the boot until the user layer is loaded, in a WARM restart that loads its image again, and in
flash jobs (R402, R407). -/
def flashUsed (s : State) : Bool :=
  (romActs s && s.cpx.phase != .ready) || s.cpx.warm.any (fun w => w.reload) || s.mbx.flights.any fun f => f.hold == .flash

/-- The engine drives a group of pins; every other pin is high-impedance (R402), and so are those of absent units, which no job
reaches (R6, R9). INT_N and ERR_N are open-drain: driven while low. -/
def pinDriven (s : State) : PinGroup → Bool
  | .qspi => flashUsed s
  | .hostPcie => romActs s && !s.srt.straps.spi
  | .hostMiso => romActs s && s.srt.straps.spi
  | .intN => intN s
  | .errN => errN s
  | .out o => s.fso.out[o].st != .highz
  | .pps n => ppsLine s n.val != .highz
  | .irig n => irigLine s n.val != .highz
  | .tod n => todLine s n.val != .highz
  | .laneTx l => s.nlu.driven.getLsbD l.val
  | .sampleMaster p d => (s.dirOf p.val d.val).cfg.enable && (s.dirOf p.val d.val).cfg.master
  | .gspi => s.gtr.feSent != []
  | .oscSteer => s.ehu.steer.sent != []
  | .modBus n => s.nlu.modUsed.getLsbD n.val

end Sys2Proof.Machine
end

