-- ==== Sys2Proof/Safety.lean ====
section
/-! DEFINITION. What claims speak of: the states that a run can reach (`Inv`), a job that the engine accepts and carries
out, what its completion says, and a host access that reaches its register. -/

namespace Sys2Proof.Machine

/-! ### The invariant -/

/-- The partition table keeps what R305 fixes: SEC and AUE secure, CPX, HIF and FCO not assignable. -/
def partFixed (s : State) : Bool :=
  s.sec.part.getLsbD 2 && s.sec.part.getLsbD 13 && !s.sec.part.getLsbD 0 && !s.sec.part.getLsbD 1 && !s.sec.part.getLsbD 3

/-- The region table keeps what R304 and R310 fix: regions 0 to 2 secure, regions 8 to 13 not. -/
def regionsFixed (s : State) : Bool := (s.sec.region &&& 0x3F07) == 0x7

/-- What every step keeps. -/
structure Inv (s : State) : Prop where
  /-- SRAM keeps its canonical form -/
  mem : Memory.wf s.mbx.mem = true
  /-- Bit 31 of INTC_MASK is always 0 (R75) -/
  mask : s.intc.mask.getLsbD 31 = false
  /-- INTC_MODE is forced to pin mode in SPI host mode (R73) -/
  pin : s.srt.straps.spi = true → s.intc.pin = true
  /-- the partition table (R305) -/
  part : partFixed s = true
  /-- the region table (R304, R310) -/
  region : regionsFixed s = true
  /-- RESTARTING stands exactly while a WARM restart is in progress (R52, R70) -/
  restarting : s.mbx.restarting = s.cpx.warm.isSome
  /-- FW_READY stands only while firmware that has started runs (R52, R70) -/
  ready : s.mbx.fwReady = true → s.cpx.phase = .ready ∧ s.cpx.warm = none
  /-- jobs in flight were fetched -/
  order : ∀ f ∈ s.mbx.flights, f.order < s.mbx.fetched
  /-- a stream of the sampled-value monitor has one record (R348) -/
  streams : (s.sau.stream.map Prod.fst).Nodup

/-! ### Jobs -/

/-- The job as the engine takes it up: its code, and its parameter block where R54 puts one. -/
def takenJob (d : JobDef) (j : Job) (s : State) : Job := (loadBlock (withCode d.code j) s).1

/-- The parameters of that job. -/
def jobParams (d : JobDef) (j : Job) (s : State) : Params := paramsOf d (takenJob d j s)

/-- The state in which the job is checked: the fetch has been counted (R61, R373). -/
def takenState (j : Job) (s : State) : State := countFetch j.ring s

/-- The engine carries a job out: it takes jobs of the ring (R62, R70, R403), the DMA finds the block (R54), no
configuration list runs, the tag is free (R58), no job of its chain has failed (R63), no check of R57 fails, no FENCE
waits (R66), the target is not in a BLOCK reset (R68), and completions go out: their posting has not overrun (R32). -/
def accepted (d : JobDef) (j : Job) (s : State) : Bool :=
  let w := withCode d.code j
  let j' := takenJob d j s
  let b := (jobSubsystem j').getD 0
  takesJobs s j.ring && (!w.dma || stagedBlocks s || decide (w.paramLen ≤ w.block.length)) && s.cpx.list.isNone &&
  !tagInUse s j' && !((s.ring j.ring.val).inChain && (s.ring j.ring.val).chainBroken) &&
  (firstFailure (takenState j s) (some d) j').isNone && !(j'.fence && ringBusy s j.ring s.mbx.fetched) &&
  (b == 0 || vget s.fco.block b .none != .asserted) && posting s

/-- The state that a job's effect starts from: a proof of the unit that the job configures has stopped (R367). -/
def effectState (d : JobDef) (j : Job) (s : State) : State :=
  stopProof (proofBit s (takenJob d j s).code ((jobParams d j s).u 4 1)) s

/-- No DEV_FENCE waits. -/
def noFences (s : State) : Bool := s.mbx.flights.all fun f => f.hold != .ringFence && f.hold != .worldFence

/-- An SRAM address lies in the slot of the next completion of a ring (R51, R55, R304). -/
def inSlot (s : State) (r : RingId) (a : Nat) : Bool :=
  let b := ccBase r + ((s.ring r.val).ctail.toNat % 256) * 32
  decide (b ≤ a) && decide (a < b + 32)

/-- An SRAM address lies in the result buffer of a job (R54): in SPI mode the staging area of its world. -/
def inResult (s : State) (j : Job) (a : Nat) : Bool :=
  let b := stagingBase j.secure + j.resultAddr
  j.dma && s.srt.straps.spi && decide (b ≤ a) && decide (a < b + j.resultLen)

/-- What a job leaves of the mailboxes, the interrupt controller and the counters: SRAM outside the completion slot and,
where it writes one, the result buffer; the other rings, and of its own ring all but CTAIL, the completions to be consumed
and the chain; the jobs in flight; the settings of interrupts and counters. -/
structure ServiceFrame (j : Job) (writes : Bool) (s t : State) : Prop where
  bytes   : ∀ a, inSlot s j.ring a = false → (writes && inResult s j a) = false → Memory.read t.mbx.mem a = Memory.read s.mbx.mem a
  others  : ∀ q : RingId, q ≠ j.ring → t.ring q.val = s.ring q.val
  own     : t.ring j.ring.val = { s.ring j.ring.val with
    ctail := (t.ring j.ring.val).ctail, unconsumed := (t.ring j.ring.val).unconsumed
    inChain := (t.ring j.ring.val).inChain, chainId := (t.ring j.ring.val).chainId
    chainBroken := (t.ring j.ring.val).chainBroken }
  flights : t.mbx.flights = s.mbx.flights
  due     : t.mbx.due = s.mbx.due
  global  : t.mbx.fwReady = s.mbx.fwReady ∧ t.mbx.restarting = s.mbx.restarting ∧ t.mbx.readData = s.mbx.readData
  intc    : t.intc.mask = s.intc.mask ∧ t.intc.pin = s.intc.pin ∧ t.intc.map = s.intc.map
  pcu     : t.pcu.latch = s.pcu.latch ∧ ∀ n : Fin 64, t.pcu.ctr[n].event = s.pcu.ctr[n].event ∧
    t.pcu.ctr[n].inst = s.pcu.ctr[n].inst ∧ t.pcu.ctr[n].userRead = s.pcu.ctr[n].userRead

/-- STATUS of the completion in a slot of a ring (R55). -/
def statusAt (s : State) (r : RingId) (slot : BitVec 16) : Byte := Memory.read s.mbx.mem (ccBase r + (slot.toNat % 256) * 32 + 4)

/-- RESULT0 to RESULT3 of the completion in a slot of a ring (R55). -/
def resultsAt (s : State) (r : RingId) (slot : BitVec 16) : List Word :=
  (List.range 4).map fun i => word (leNat (Memory.readBytes s.mbx.mem (ccBase r + (slot.toNat % 256) * 32 + 16 + 4 * i) 4))

/-- The row `c`, which is the job `d` with the operand `sel j`, completes with the effect `u` on the state, wherever it
is accepted and `h` holds: beside the mailboxes, the interrupt controller and the counters nothing else changes, and of
those only what a completion writes, whose STATUS is DONE or DONE_WITH_WARNING. -/
def Acts (c : Job → Instr) (d : JobDef) (sel : Job → Job) (h : Params → State → Prop) (u : Params → State → State) : Prop :=
  ∀ (j : Job) (s : State), accepted d (sel j) s = true → h (jobParams d (sel j) s) s →
    ∃ t, exec (c j) s = .next t ∧
      t = { u (jobParams d (sel j) s) (effectState d (sel j) s) with mbx := t.mbx, intc := t.intc, pcu := t.pcu } ∧
      (noFences s = true → ServiceFrame (takenJob d (sel j) s) false s t ∧
        (Inv s → (takenJob d (sel j) s).noCompletion = false →
          (t.ring j.ring.val).ctail = (s.ring j.ring.val).ctail + 1 ∧
          (statusAt t j.ring (s.ring j.ring.val).ctail).toNat ≤ 1))

/-- As `Acts`, and the job stays in flight until what it waits for comes; no completion is posted before. -/
def Waits (c : Job → Instr) (d : JobDef) (sel : Job → Job) (h : Params → State → Prop) (u : Params → State → State)
    (w : Params → State → Hold) : Prop :=
  ∀ (j : Job) (s : State), Inv s → accepted d (sel j) s = true → h (jobParams d (sel j) s) s →
    ∃ t, exec (c j) s = .next t ∧
      t = { u (jobParams d (sel j) s) (effectState d (sel j) s) with mbx := t.mbx, intc := t.intc, pcu := t.pcu } ∧
      (∃ f ∈ t.mbx.flights, f.job = takenJob d (sel j) s ∧ f.hold = w (jobParams d (sel j) s) s) ∧
      (noFences s = true → t.mbx.mem = s.mbx.mem ∧ ∀ q : RingId, (t.ring q.val).ctail = (s.ring q.val).ctail)

/-- As `Acts`, where the effect reaches parts that a statement need not name: what it says of the state before and the
state after. -/
def Gives (c : Job → Instr) (d : JobDef) (sel : Job → Job) (h : Params → State → Prop) (q : Params → State → State → Prop) : Prop :=
  ∀ (j : Job) (s : State), accepted d (sel j) s = true → h (jobParams d (sel j) s) s →
    ∃ t, exec (c j) s = .next t ∧ q (jobParams d (sel j) s) s t

/-- As `Acts`, and the completion that the job posts carries four RESULT words. -/
def Answers (c : Job → Instr) (d : JobDef) (sel : Job → Job) (h : Params → State → Prop) (u : Params → State → State)
    (r : Job → Params → State → List Word) : Prop :=
  ∀ (j : Job) (s : State), Inv s → accepted d (sel j) s = true → h (jobParams d (sel j) s) s →
    (takenJob d (sel j) s).noCompletion = false → noFences s = true →
    ∃ t, exec (c j) s = .next t ∧
      t = { u (jobParams d (sel j) s) (effectState d (sel j) s) with mbx := t.mbx, intc := t.intc, pcu := t.pcu } ∧
      ServiceFrame (takenJob d (sel j) s) true s t ∧ (t.ring j.ring.val).ctail = (s.ring j.ring.val).ctail + 1 ∧
      resultsAt t j.ring (s.ring j.ring.val).ctail = r (takenJob d (sel j) s) (jobParams d (sel j) s) s

/-! ### Events and host accesses -/

/-- What an event leaves of the interrupt controller and the counters: of the sources named, and of source 17 where a
counter wraps, the status bits rise; masks, mode and vectors, and the settings and latches of the counters stay. -/
structure Raised (irq : Word) (s t : State) : Prop where
  status : t.intc.status = s.intc.status ||| irq ||| (t.intc.status &&& 0x20000)
  intc   : t.intc.mask = s.intc.mask ∧ t.intc.pin = s.intc.pin ∧ t.intc.map = s.intc.map
  pcu    : t.pcu.latch = s.pcu.latch ∧ ∀ n : Fin 64, t.pcu.ctr[n].event = s.pcu.ctr[n].event ∧
    t.pcu.ctr[n].inst = s.pcu.ctr[n].inst ∧ t.pcu.ctr[n].userRead = s.pcu.ctr[n].userRead

/-- The command `c`, where `h` holds, changes the state as `u` says; beside, the interrupt sources of `irq` rise and
events count. -/
def Moves (c : Instr) (h : State → Prop) (irq : Word) (u : State → State) : Prop :=
  ∀ s, h s → ∃ t, exec c s = .next t ∧ t = { u s with intc := t.intc, pcu := t.pcu } ∧ Raised irq s t

/-- A fault of a source at an address is recorded, and answered with a reaction of level 1 or 2: the source has an owner
that is present and in no shadow of a reset, or it is never consequential (R352, R356, R360, R361). -/
def rises (s : State) (src addr : Nat) : Bool :=
  let k := vget s.fco.cls (src / 32) {}
  let c := sourceCfg s src
  s.cpx.phase != .inReset && (sourceRow src).isSome &&
  (match faultOwner s src { addr := addr } with
   | some b => !inShadow s b || neverConsequential src
   | none => false) &&
  decide (1 ≤ c.level) && decide (1 ≤ c.cap) && decide (min c.cap (c.level + k.n) ≤ 2)

/-- The record of a fault (R356, R358): its class is pending and counts it, and its capture is the first one's. -/
def Recorded (s t : State) (src addr : Nat) : Prop :=
  let k := vget s.fco.cls (src / 32) {}
  let k' := vget t.fco.cls (src / 32) {}
  k'.pending = true ∧ k'.recorded = min 65535 (k.recorded + 1) ∧ k'.n = min 255 (k.n + 1) ∧ k'.conseq = k.conseq ∧
  k'.inj = k.inj ∧ k'.injSeen = k.injSeen ∧
  (match k.cap, k'.cap with
   | none, some c => c.source = BitVec.ofNat 8 src ∧ c.addr = BitVec.ofNat 64 addr ∧ c.count = 0
   | some b, some c => c = { b with count := min 65535 (b.count + 1) }
   | _, none => False) ∧
  (∀ c : Fin 8, c.val ≠ src / 32 → t.fco.cls[c] = s.fco.cls[c]) ∧
  t.fco.cfg = s.fco.cfg ∧ t.fco.block = s.fco.block ∧ t.fco.injectUnlocked = s.fco.injectUnlocked

/-- As `Moves`, and a fault of the source is recorded; interrupt source 8 rises, and 31 with a reaction of level 2. -/
def Reports (c : Instr) (h : State → Prop) (src addr : Nat) (irq : Word) (u : State → State) : Prop :=
  ∀ s, h s → rises s src addr = true →
    ∃ t, exec c s = .next t ∧ t = { u s with intc := t.intc, pcu := t.pcu, fco := t.fco } ∧
      Raised (irq ||| 0x100 ||| (t.intc.status &&& 0x80000000)) s t ∧ Recorded s t src addr

/-- The sources that fault collection starts with (R351): no FLT_CONFIG_SOURCE was given. -/
abbrev defaultSources (s : State) : Prop := s.fco.cfg = []

/-- The impression sequencer can begin an impression (R26, R27). -/
abbrev sequences (s : State) : Prop := s.clocked = true ∧ s.clockOk = true ∧ s.tcr.seq.running = true

/-- Nothing waits for the next impression but jobs with a hold that `p` names: no completion, no reset, no configuration list, no
job in a ring. -/
abbrev settled (s : State) (p : Hold → Bool) : Prop :=
  (∀ f ∈ s.mbx.flights, p f.hold = true) ∧ s.mbx.due = [] ∧ s.cpx.list = none ∧ s.cpx.chipResetDue = false ∧
  s.cpx.warmDue = none ∧ ∀ r : RingId, (s.ring r.val).head = (s.ring r.val).tail

/-- Nothing waits for the next impression. -/
abbrev quiet (s : State) : Prop := settled s fun _ => false

/-- A condition on the cycles that have passed holds from cycle `n` on, and the impression in progress reaches it. -/
def comesAt (s : State) (p : Nat → Prop) (n : Nat) : Prop :=
  n ≤ (nextBoundary s).cycles ∧ n < 2 ^ 20 ∧ ∀ m, p m ↔ n ≤ m

/-- As `Moves`, for a command that completes the jobs that wait for it: they leave the mailboxes, and where there are
none the mailboxes stay as `u` leaves them. -/
def Ends (c : Instr) (h : State → Prop) (p : Hold → Bool) (irq : Word) (u : State → State) : Prop :=
  ∀ s, s.cpx.list = none → h s → ∃ t, exec c s = .next t ∧
    t = { u s with mbx := t.mbx, intc := t.intc, pcu := t.pcu } ∧
    (∀ f ∈ t.mbx.flights, f ∈ (u s).mbx.flights ∧ p f.hold = false) ∧
    ((∀ f ∈ (u s).mbx.flights, p f.hold = false) → noFences s = true → t.mbx = (u s).mbx ∧ Raised irq s t)

/-- The command `c`, where `h` holds, answers a state of which `q` holds. -/
def Leads (c : Instr) (h : State → Prop) (q : State → State → Prop) : Prop :=
  ∀ s, h s → ∃ t, exec c s = .next t ∧ q s t

/-- The command `c`, where `h` holds, raises a source with the configuration that fault collection starts with (R351, R358): its
class is pending and counts it, and interrupt source 8 rises. -/
def Faults (c : Instr) (h : State → Prop) (src owner : Nat) : Prop :=
  Leads c
    (fun s => h s ∧ s.cpx.phase ≠ .inReset ∧ defaultSources s ∧ s.present owner = true ∧ inShadow s owner = false)
    (fun s t =>
      let k' := vget t.fco.cls (src / 32) {}
      k'.pending = true ∧ k'.recorded = min 65535 ((vget s.fco.cls (src / 32) {}).recorded + 1) ∧ t.intc.status.getLsbD 8 = true)

/-- The command `c`, where `h` holds, changes the state as `u` says, and nothing else. -/
def Sets (c : Instr) (h : State → Prop) (u : State → State) : Prop := ∀ s, h s → exec c s = .next (u s)

/-- The galley surely has a position for a frame on a port (R255–R257): it is empty, no host frame is on the line, the lead time
covers the transmit latency, and RESERVE_LIMIT_NS has its least value at least (R264). -/
abbrev canReserve (s : State) (l : LaneId) : Prop :=
  s.tpe.galley = [] ∧ s.lanePresent l.val = true ∧ s.tpe.port[l].enable = true ∧ 0 < s.tpe.port[l].depth ∧
  1000 ≤ s.tpe.port[l].reserveNs ∧ s.tpe.port[l].hostEnd ≤ s.tcr.cycles ∧ txDelay s l.val ≤ s.tpe.port[l].leadNs * 1000

/-- A frame in the galley stands on a port with a launch time no earlier than its lead time from now (R256). -/
abbrev placed (s : State) (l : LaneId) (f : GalleyFrame) : Prop :=
  f.port = l ∧ viewCount s f.view.val + s.tpe.port[l].leadNs * 10 ^ 33 ≤ f.launch ∧ f.committed = false

/-- The pipelines serve the frame of a port with an ingress marker (R270). -/
abbrev served (s : State) (p : LaneId) (mark : Nat) : Prop := s.tpe.serving = some (p, mark)

/-- A port-instance of a clock that is no transparent clock hears a message, which the pipelines serve, and verifies none (R268,
R270, R276, R280). -/
abbrev hearsPlain (s : State) (rx : PtpRx) : Prop :=
  ptpHears s rx = true ∧ served s rx.port rx.mark ∧ s.tpe.inst[rx.inst].role ≠ 2 ∧ s.tpe.inst[rx.inst].auth ≠ 2

/-- A port-instance that originates frames unsigned. -/
abbrev sendsPlain (s : State) (l : LaneId) (i : PtpId) : Prop :=
  canReserve s l ∧ mayOriginate s l.val = true ∧ s.tpe.inst[i].auth = 0

/-- No further condition. -/
abbrev always (_ : Params) (_ : State) : Prop := True
/-- The operand as it comes. -/
def same (j : Job) : Job := j
/-- No effect beside the completion. -/
def unchanged (_ : Params) (s : State) : State := s

end Sys2Proof.Machine
end

