-- ==== Sys2Proof/Certificates/Slice0/Obligations.lean ====
section
/-! DEFINITION. The statements for the provers. -/

open Sys2Proof Sys2Proof.Machine

/-! ### Jobs of groups 0x01 to 0x05: device, security, keys, faults, counters -/

/-- DEV_IDENTIFY answers COL_PART, the revisions and the fuse words (R77, R78); DEV_SET_IMPOSITION, DEV_FW_RESTART and
DEV_PROOF are taken up and wait (R41, R70, R367). The model's own choices and readings behind it: log entries 16, 77,
120. -/
def Obligations.DeviceJobsAct : Prop :=
  Answers .devIdentify devIdentifyDef same always unchanged (fun _ _ s =>
    [word ((match s.col.part with
        | .lt2460 => 0x2460
        | .lt2452 => 0x2452
        | .lt2436 => 0x2436) + 0x10000),
     word (0x4200 + (if s.col.fwRevValid then 0x0302 else 0) * 2 ^ 16),
     word (match s.col.part with
        | .lt2460 => 0xFFFF
        | .lt2452 => 0xBFFF
        | .lt2436 => 0x7FFF),
     word (match s.col.part with
        | .lt2436 => 0xFFF
        | _ => 0xFFFFFF)]) ∧
  Waits .devSetImposition devSetImpositionDef same always
    (fun p s => { s with cpx := { s.cpx with nextImposition := some (match p.u 4 1 with
      | 0 => .folio
      | 1 => .broadsheet
      | 2 => .quarto
      | _ => .octavo) } })
    (fun _ _ => .imposition) ∧
  Waits .devFwRestart devFwRestartDef same always
    (fun p s => { s with cpx := { s.cpx with warmDue := some (p.u 4 1 == 1) } }) (fun _ _ => .fwRestart) ∧
  Waits .devProof devProofDef same (fun _ s => s.cpx.proof = none)
    (fun p s => { s with cpx := { s.cpx with proof := some {
      units := BitVec.ofNat 6 (p.u 4 4), maxImp := p.u 8 2, since := s.cpx.impressions
      skipped := BitVec.ofNat 6 (p.u 4 4) &&& ~~~BitVec.ofNat 6 (idleUnits s) } } })
    (fun _ _ => .proof)

/-- DEV_CHIP_RESET is accepted, stays in flight until the impression boundary, and posts no completion (R71, R398). The
model's own choices and readings behind it: log entries 16, 23. -/
def Obligations.ChipResetPostsNoCompletion : Prop :=
  Waits .devChipReset devChipResetDef same always (fun _ s => { s with cpx := { s.cpx with chipResetDue := true } })
    (fun _ _ => .chipReset) ∧
  Gives .devChipReset devChipResetDef same always fun _ s t =>
    noFences s = true → t.mbx.mem = s.mbx.mem ∧ t.mbx.flights.length = s.mbx.flights.length + 1 ∧
      (∀ f ∈ s.mbx.flights, f ∈ t.mbx.flights) ∧ t.mbx.due = s.mbx.due ∧
      ∀ q : RingId, (t.ring q.val).ctail = (s.ring q.val).ctail ∧ (t.ring q.val).unconsumed = (s.ring q.val).unconsumed

/-- DEV_FENCE completes at once where no earlier job of its ring (SCOPE 0) or of its world (SCOPE 1) is in flight, and
waits otherwise; it has no other effect (R66, R80). The model's own choices and readings behind it: log entries 16, 29.
-/
def Obligations.FencesWait : Prop :=
  (∀ (j : Job) (s : State), Inv s → accepted devFenceDef (withByte 4 0 j) s = true → noFences s = true →
    (takenJob devFenceDef (withByte 4 0 j) s).noCompletion = false →
    ∃ t, exec (.devFenceRing j) s = .next t ∧ { t with mbx := s.mbx, intc := s.intc, pcu := s.pcu } = s ∧
      if ringBusy s j.ring s.mbx.fetched then
        (∃ f ∈ t.mbx.flights, f.job = takenJob devFenceDef (withByte 4 0 j) s ∧ f.hold = .ringFence) ∧ t.mbx.mem = s.mbx.mem
      else t.mbx.flights = s.mbx.flights ∧ (t.ring j.ring.val).ctail = (s.ring j.ring.val).ctail + 1 ∧
        statusAt t j.ring (s.ring j.ring.val).ctail = 0) ∧
  (∀ (j : Job) (s : State), Inv s → accepted devFenceDef (withByte 4 1 j) s = true → noFences s = true →
    (takenJob devFenceDef (withByte 4 1 j) s).noCompletion = false →
    ∃ t, exec (.devFenceWorld j) s = .next t ∧ { t with mbx := s.mbx, intc := s.intc, pcu := s.pcu } = s ∧
      if s.mbx.flights.any (fun f => f.job.secure == j.secure && decide (f.order < s.mbx.fetched)) ||
        s.mbx.due.any (fun d => d.job.secure == j.secure && decide (d.flags.order < s.mbx.fetched)) then
        (∃ f ∈ t.mbx.flights, f.job = takenJob devFenceDef (withByte 4 1 j) s ∧ f.hold = .worldFence) ∧ t.mbx.mem = s.mbx.mem
      else t.mbx.flights = s.mbx.flights ∧ (t.ring j.ring.val).ctail = (s.ring j.ring.val).ctail + 1 ∧
        statusAt t j.ring (s.ring j.ring.val).ctail = 0)

/-- SEC_PARTITION_SET, SEC_PARTITION_LOCK and SEC_REGION_SET (R304, R305, R309–R311); SEC_FW_COMMIT with RESTART 0 and 1
(R332); SEC_TAMPER_CONFIG where no input enabled stands at its active level (R326); SEC_TAMPER_STATUS (R327);
SEC_TEST_UNLOCK (R333); SEC_FW_STAGE writes the image data at OFFSET in the inactive slot and waits for the flash
(R331). The model's own choices and readings behind it: log entries 16, 41, 76, 94, 115, 119. -/
def Obligations.SecurityJobsAct : Prop :=
  Acts .secPartitionSet secPartitionSetDef same always (fun p s =>
    let m : BitVec 18 := BitVec.ofNat 18 (p.u 4 4) &&& 0x3DFF0
    { s with sec := { s.sec with part := (s.sec.part &&& ~~~m) ||| (BitVec.ofNat 18 (p.u 8 4) &&& m) } }) ∧
  Acts .secPartitionLock secPartitionLockDef same always (fun _ s => { s with sec := { s.sec with locked := true } }) ∧
  Acts .secRegionSet secRegionSetDef same always (fun p s =>
    let m : BitVec 64 := BitVec.ofNat 64 ((2 ^ p.u 5 1 - 1) * 2 ^ p.u 4 1) &&& ~~~0x3F07
    { s with sec := { s.sec with region := if p.u 6 1 = 1 then s.sec.region ||| m else s.sec.region &&& ~~~m } }) ∧
  Acts .secFwCommit secFwCommitDef same (fun p _ => p.bit 4 0 = false) (fun _ s =>
    { s with sec := { s.sec with
      slot := vmod s.sec.slot (1 - s.sec.bootSlot.val) fun x => { x with trial := true, failed := false }
      bootSlot := Fin.ofNat 2 (1 - s.sec.bootSlot.val), stageAt := 0 } }) ∧
  Waits .secFwCommit secFwCommitDef same (fun p _ => p.bit 4 0 = true) (fun _ s =>
    { s with
      cpx := { s.cpx with warmDue := some true }
      sec := { s.sec with
        slot := vmod s.sec.slot (1 - s.sec.bootSlot.val) fun x => { x with trial := true, failed := false }
        bootSlot := Fin.ofNat 2 (1 - s.sec.bootSlot.val), stageAt := 0 } }) (fun _ _ => .fwRestart) ∧
  Acts .secTamperConfig secTamperConfigDef same
    (fun p s => BitVec.ofNat 4 (p.u 4 1) &&& ~~~(s.sec.tamper.pins ^^^ BitVec.ofNat 4 (p.u 5 1)) = 0)
    (fun p s => { s with sec := { s.sec with tamper := { s.sec.tamper with
      enable := BitVec.ofNat 4 (p.u 4 1), level := BitVec.ofNat 4 (p.u 5 1)
      standing := s.sec.tamper.standing &&& 0x70
      filter := Vector.ofFn fun (i : Fin 4) => p.u (6 + i.val) 1
      locked := s.sec.tamper.locked || p.u 10 1 == 1 } } }) ∧
  Answers .secTamperStatus secTamperStatusDef same always
    (fun p s => if p.bit 4 0 then
        { s with sec := { s.sec with tamper := { s.sec.tamper with seen := s.sec.tamper.standing, first := 0, recorded := false } } }
      else s)
    (fun _ _ s => [tamperStatus s, s.sec.tamper.first, 0, 0]) ∧
  Acts .secTestUnlock secTestUnlockDef same always (fun _ s =>
    { s with fco := { s.fco with injectUnlocked := true }
             sec := { s.sec with rootRefused := true, key := Vector.replicate 128 {} } }) ∧
  ∀ (j : Job) (s : State), Inv s → accepted secFwStageDef j s = true →
    let off := (jobParams secFwStageDef j s).u 32 4
    let data := (takenJob secFwStageDef j s).block
    ∃ t, exec (.secFwStage j) s = .next t ∧
      t = { s with
        mbx := t.mbx, intc := t.intc, pcu := t.pcu
        sec := { s.sec with
          slot := vmod s.sec.slot (1 - s.sec.bootSlot.val) fun x =>
            { x with image := x.image.take off ++ data, verified := false, invalid := false }
          stageAt := off + data.length } } ∧
      ∃ f ∈ t.mbx.flights, f.job = takenJob secFwStageDef j s ∧ f.hold = .flash

/-- KEY_WRITE, KEY_ROLL, KEY_RETIRE, KEY_ATTR_READ and KEY_DERIVE (R315–R320, R322). The model's own choices and
readings behind it: log entries 4, 16. -/
def Obligations.KeyJobsAct : Prop :=
  Acts .keyWrite keyWriteDef same always (fun p s => s.setKey (p.u 4 1) fun _ =>
    { st := .active, dest := BitVec.ofNat 8 (p.u 5 1), secure := p.u 6 1 == 1, len := p.u 7 1
      keyId := word (p.u 8 4), useLimit := p.u 12 4, expiry := p.u 16 8, written := keyTime s
      key := p.bytes 32 (p.u 7 1) }) ∧
  Acts .keyRoll keyRollDef same always (fun p s => s.setKey (p.u 4 1) fun x =>
    { x with
      st := .active
      prev := if (s.keySlot (p.u 4 1)).st == .active then some x.key else none
      prevKeyId := if (s.keySlot (p.u 4 1)).st == .active then x.keyId else 0
      prevUntil := if (s.keySlot (p.u 4 1)).st == .active then keyTime s + p.u 24 4 else 0
      key := p.bytes 32 x.len
      keyId := word (p.u 8 4), useLimit := p.u 12 4, expiry := p.u 16 8, useCount := 0, written := keyTime s }) ∧
  Acts .keyRetire keyRetireDef same always (fun p s => s.setKey (p.u 4 1) fun _ => {}) ∧
  Answers .keyAttrRead keyAttrReadDef same always unchanged (fun _ p s =>
    let x := s.keySlot (p.u 4 1)
    [wordAt (keyRecord x) 0, x.keyId, word x.useCount, word x.expiry]) ∧
  Acts .keyDerive keyDeriveDef same (fun p _ => p.u 25 1 = 0xFF) (fun p s => s.setKey (p.u 4 1) fun _ =>
    { st := .active, dest := BitVec.ofNat 8 (p.u 5 1), secure := p.u 6 1 == 1, len := p.u 7 1
      keyId := word (p.u 8 4), useLimit := p.u 12 4, expiry := p.u 16 8, written := keyTime s
      key := kdf (beBytes 32 (s.sec.root.getD 0).toNat) (p.bytes 28 (p.u 24 1)) (p.bytes 52 12) (p.u 7 1) }) ∧
  Acts .keyDerive keyDeriveDef same (fun p _ => p.u 25 1 ≠ 0xFF) (fun p s => (useKey (p.u 25 1) s).setKey (p.u 4 1) fun _ =>
    { st := .active, dest := BitVec.ofNat 8 (p.u 5 1), secure := p.u 6 1 == 1, len := p.u 7 1
      keyId := word (p.u 8 4), useLimit := p.u 12 4, expiry := p.u 16 8, written := keyTime s
      key := kdf (s.keySlot (p.u 25 1)).key (p.bytes 28 (p.u 24 1)) (p.bytes 52 12) (p.u 7 1) })

/-- FLT_CONFIG_SOURCE, FLT_ACK and FLT_READ_CAPTURE (R357, R358, R362, R363); FLT_INJECT at a source of level 0 or 1
fills the injected capture and sets INJ_SEEN, while the real capture and the counts stay (R364, R365). The model's own
choices and readings behind it: log entries 16, 68, 93. -/
def Obligations.FaultJobsAct : Prop :=
  Answers .fltConfigSource fltConfigSourceDef same always
    (fun p s => { s with fco := { s.fco with cfg := ((List.range 256).filterMap fun i =>
      if p.u 4 1 ≤ i ∧ i ≤ p.u 5 1 ∧ (sourceRow i).isSome then
        some (i, { level := p.u 6 1, cap := p.u 7 1, errn := p.u 8 1 == 1 })
      else s.fco.cfg.find? fun x => x.1 == i) } })
    (fun _ p _ => [word ((List.range 256).filter fun i => p.u 4 1 ≤ i ∧ i ≤ p.u 5 1 ∧ (sourceRow i).isSome).length, 0, 0, 0]) ∧
  Acts .fltAck fltAckDef same always (fun p s => { s with fco := { s.fco with
    cls := (Vector.ofFn fun (c : Fin 8) => if (p.u 4 1).testBit c.val then {} else s.fco.cls[c]) } }) ∧
  Answers .fltReadCapture fltReadCaptureDef same always unchanged (fun j p s =>
    let k := vget s.fco.cls (p.u 4 1) {}
    let b := captureBytes j.secure (if p.u 5 1 = 0 then k.cap else k.inj)
    [wordAt b 6, wordAt b 4, wordAt b 2, wordAt b 1]) ∧
  Gives .fltInject fltInjectDef same (fun p s => (sourceCfg s (p.u 4 1)).level ≤ 1) fun p s t =>
    (∀ c : Fin 8, c.val ≠ p.u 4 1 / 32 → t.fco.cls[c] = s.fco.cls[c]) ∧
    (let k := vget s.fco.cls (p.u 4 1 / 32) {}
     let k' := vget t.fco.cls (p.u 4 1 / 32) {}
     k'.injSeen = true ∧ k'.inj.isSome ∧ k'.cap = k.cap ∧ k'.recorded = k.recorded ∧ k'.conseq = k.conseq ∧ k'.n = k.n ∧
       k'.pending = k.pending ∧ k'.escalated = k.escalated) ∧
    { t with mbx := s.mbx, intc := s.intc, pcu := s.pcu, fco := s.fco } = s

/-- PCU_SELECT_EVENT, PCU_SET_ACCESS and PCU_CLEAR (R374, R375): the counters named; where the events of the mailboxes
are not selected, the others keep their counts. The model's own choices and readings behind it: log entry 16. -/
def Obligations.CounterJobsAct : Prop :=
  Gives .pcuSelectEvent pcuSelectEventDef same always (fun p s t =>
    (∀ n : Fin 64, n.val = p.u 4 1 →
      t.pcu.ctr[n].event = BitVec.ofNat 16 (p.u 6 2) ∧ t.pcu.ctr[n].inst = BitVec.ofNat 8 (p.u 5 1) ∧
      t.pcu.ctr[n].userRead = s.pcu.ctr[n].userRead ∧ t.pcu.ctr[n].ovf = false ∧
      (p.u 6 2 ∉ [0x010D, 0x010E, 0x010F] → t.pcu.ctr[n].count = 0)) ∧
    (∀ n : Fin 64, n.val ≠ p.u 4 1 → t.pcu.ctr[n].event = s.pcu.ctr[n].event ∧ t.pcu.ctr[n].inst = s.pcu.ctr[n].inst ∧
      t.pcu.ctr[n].userRead = s.pcu.ctr[n].userRead ∧
      (s.pcu.ctr[n].event.toNat ∉ [0x010D, 0x010E, 0x010F] → t.pcu.ctr[n] = s.pcu.ctr[n])) ∧
    { t with mbx := s.mbx, intc := s.intc, pcu := s.pcu } = s) ∧
  Gives .pcuSetAccess pcuSetAccessDef same always (fun p s t =>
    (∀ n : Fin 64, t.pcu.ctr[n].userRead = (p.u 8 8).testBit n.val ∧ t.pcu.ctr[n].event = s.pcu.ctr[n].event ∧
      t.pcu.ctr[n].inst = s.pcu.ctr[n].inst ∧
      (s.pcu.ctr[n].event.toNat ∉ [0x010D, 0x010E, 0x010F] → t.pcu.ctr[n].count = s.pcu.ctr[n].count ∧
        t.pcu.ctr[n].ovf = s.pcu.ctr[n].ovf)) ∧
    { t with mbx := s.mbx, intc := s.intc, pcu := s.pcu } = s) ∧
  Gives .pcuClear pcuClearDef same always (fun p s t =>
    (∀ n : Fin 64, t.pcu.ctr[n].userRead = s.pcu.ctr[n].userRead ∧ t.pcu.ctr[n].event = s.pcu.ctr[n].event ∧
      t.pcu.ctr[n].inst = s.pcu.ctr[n].inst ∧
      (s.pcu.ctr[n].event.toNat ∉ [0x010D, 0x010E, 0x010F] →
        if (p.u 8 8).testBit n.val then t.pcu.ctr[n].count = 0 ∧ t.pcu.ctr[n].ovf = false
        else t.pcu.ctr[n] = s.pcu.ctr[n])) ∧
    { t with mbx := s.mbx, intc := s.intc, pcu := s.pcu } = s)

/-! ### Jobs of groups 0x10 and 0x11: time domains, ensemble -/

/-- TD_SET_TIME, TD_SLEW, TD_SET_UTC_INFO, TD_SET_RETURN_POLICY, and TD_CONFIG where no DPLL is exchanged and no
TIME_SOURCE is bound (R89, R92, R93, R95, R97). The model's own choices and readings behind it: log entries 13, 16, 39,
97. -/
def Obligations.TimeDomainJobsAct : Prop :=
  Acts .tdConfig tdConfigDef same (fun p s => p.u 6 1 = 0xFF ∧ (s.domain (p.u 4 1)).dpll = p.opt 5 8)
    (fun p s => dropAdopt (p.u 4 1) (s.setDom (p.u 4 1) fun x =>
      { x with timeSource := none, divergePeer := p.opt 7 4, confirmS := p.u 8 4, slewMaxPpb := p.u 12 4
               warnPs := p.u 16 6, limitPs := p.u 22 6, supplyChargePs := p.u 28 4, divergeNs := p.u 32 4 })) ∧
  Waits .tdSetTimeAbsolute tdSetTimeDef (withByte 5 0) always
    (fun p s => s.setDom (p.u 4 1) fun x =>
      { x with pending := some (.absolute (p.u 16 8) (p.u 24 6))
               returnWaits := x.returnWaits || (match x.pending with
                 | some (.return _) => true
                 | _ => false) })
    (fun p _ => .timeStep (Fin.ofNat 4 (p.u 4 1))) ∧
  Waits .tdSetTimeRelative tdSetTimeDef (withByte 5 1) always
    (fun p s => s.setDom (p.u 4 1) fun x =>
      { x with pending := some (.relative (p.i 8 8) (p.u 24 6))
               returnWaits := x.returnWaits || (match x.pending with
                 | some (.return _) => true
                 | _ => false) })
    (fun p _ => .timeStep (Fin.ofNat 4 (p.u 4 1))) ∧
  Answers .tdSlew tdSlewDef same always
    (fun p s => refreshMoving (p.u 4 1) (s.setDom (p.u 4 1) fun x =>
      { x with slew := if p.i 16 8 * ivlU = 0 then none
                       else some { ppb := if p.u 8 4 = 0 then (s.domain (p.u 4 1)).slewMaxPpb else p.u 8 4
                                   remaining := p.i 16 8 * ivlU } }))
    (fun _ p s =>
      [(intervalWords (slewRemainder s (p.u 4 1))).1, (intervalWords (slewRemainder s (p.u 4 1))).2,
       word (durationImp (p.i 16 8 * ivlU) (if p.u 8 4 = 0 then (s.domain (p.u 4 1)).slewMaxPpb else p.u 8 4)), 0]) ∧
  Acts .tdSetUtcInfo tdSetUtcInfoDef same always
    (fun p s => s.setDom (p.u 4 1) fun x =>
      { x with utcSource := p.opt 5 32, utcOffset := p.i 6 2, leapSecond := p.u 16 8
               leap := (match p.u 8 1 with
                 | 1 => .insert
                 | 2 => .delete
                 | _ => .none) }) ∧
  Acts .tdSetReturnPolicy tdSetReturnPolicyDef same always
    (fun p s => s.setDom (p.u 4 1) fun x =>
      { x with stepAllowed := p.u 5 1 == 1, stepThresholdNs := p.u 8 4, returnSlewPpb := p.u 12 4 })

/-- TD_CONFIG sets the configuration of its domain and leaves every other domain (R89). The model's own choices and
readings behind it: log entries 16, 22. -/
def Obligations.DomainConfigIsLocal : Prop :=
  Gives .tdConfig tdConfigDef same always fun p s t =>
    (∀ d : Fin 4, d.val ≠ p.u 4 1 → t.domain d.val = s.domain d.val) ∧
    (∀ d : Fin 4, d.val = p.u 4 1 →
      (t.domain d.val).dpll = p.opt 5 8 ∧ (t.domain d.val).timeSource = p.opt 6 32 ∧ (t.domain d.val).divergePeer = p.opt 7 4 ∧
      (t.domain d.val).confirmS = p.u 8 4 ∧ (t.domain d.val).slewMaxPpb = p.u 12 4 ∧ (t.domain d.val).warnPs = p.u 16 6 ∧
      (t.domain d.val).limitPs = p.u 22 6 ∧ (t.domain d.val).supplyChargePs = p.u 28 4 ∧ (t.domain d.val).divergeNs = p.u 32 4 ∧
      (t.domain d.val).count = (s.domain d.val).count ∧ (t.domain d.val).valid = (s.domain d.val).valid) ∧
    { t with mbx := s.mbx, intc := s.intc, pcu := s.pcu, tcr := s.tcr, rim := s.rim } = s

/-- TD_HANDOVER to another domain commits: the active role moves, the remainder is the offset at the commit with its
sign changed, and a realignment of the grid starts; to the active domain it changes nothing (R100, R101). The model's
own choices and readings behind it: log entries 13, 14, 16, 97. -/
def Obligations.HandoverCommits : Prop :=
  Acts .tdHandover tdHandoverDef same (fun p s => p.u 4 1 = s.tcr.active.val) unchanged ∧
  Answers .tdHandover tdHandoverDef same (fun p s => p.u 4 1 ≠ s.tcr.active.val)
    (fun p s => startRealign (gridLine s) { s with tcr := { s.tcr with
      active := Fin.ofNat 4 (p.u 4 1)
      remainder := viewCount s 4 - (s.domain (p.u 4 1)).count
      slewPpb := p.u 8 4
      involved := (List.finRange 4).filter fun x =>
        s.tcr.involved.contains x || x == s.tcr.active || x == Fin.ofNat 4 (p.u 4 1) } })
    (fun _ p s =>
      let d : Int := (s.domain (p.u 4 1)).count - viewCount s 4
      [(intervalWords d).1, (intervalWords d).2, word (durationImp d (p.u 8 4)), if viewHoldover s (p.u 4 1) then 1 else 0])

/-- TD_READ_LEDGER (R118), and the ENS jobs: settings wait for the next cycle (R105, R107, R110). The model's own
choices and readings behind it: log entries 16, 74, 96, 98. -/
def Obligations.LedgerReadAndEnsembleJobsAct : Prop :=
  Answers .tdReadLedger tdReadLedgerDef same always unchanged (fun _ p s =>
    let v := p.u 4 1
    let g := (s.domain (recordDomain s v)).ledger
    [word (viewBound s v % 2 ^ 32), word (viewBound s v / 2 ^ 32 + chainCode g * 65536),
     if v < 4 then wordI g.growthFs else (intervalWords s.tcr.remainder).1,
     if v < 4 then g.sinceConfirm else (intervalWords s.tcr.remainder).2]) ∧
  Waits .ensConfigMember ensConfigMemberDef same always
    (fun p s => s.setMember (p.u 4 1) fun y => { y with next := some {
      source := (if p.u 5 1 = 0xFE then .localOscillator else match p.opt 5 31 with
        | some r => .ref (r.castLE (by omega))
        | none => .unassigned)
      enable := p.u 6 1 == 1, drift := p.u 7 1 == 1, wpmPs := p.u 8 4, wfm := p.u 12 4, rwfm := p.u 16 4, cap := p.u 20 1 } })
    (fun _ _ => .cycle) ∧
  Answers .ensReadState ensReadStateDef same always unchanged (fun _ _ s =>
    let weight := fun m => weightByte (vget s.ehu.member m {}).weight
    [word (maskOf 8 (fun m => decide (0 < (vget s.ehu.member m {}).weight)) +
        maskOf 8 (fun m => match (vget s.ehu.member m {}).dew with
          | .zero _ => true
          | _ => false) * 2 ^ 8 + min 65535 s.ehu.lag * 2 ^ 16),
     word (weight 0 + weight 1 * 2 ^ 8 + weight 2 * 2 ^ 16 + weight 3 * 2 ^ 24),
     word (weight 4 + weight 5 * 2 ^ 8 + weight 6 * 2 ^ 16 + weight 7 * 2 ^ 24), wordI s.ehu.freq]) ∧
  Waits .ensSetPolicy ensSetPolicyDef same always
    (fun p s => { s with ehu := { s.ehu with nextPolicy := some {
      outlierK := p.u 4 1, minMembers := p.u 5 1, deweightS := p.u 8 4, reinstateS := p.u 12 4, steerTcS := p.u 16 4 } } })
    (fun _ _ => .cycle)

/-! ### Jobs of groups 0x12 and 0x13: references, DPLLs, holdover, steering -/

/-- REF_CONFIG that disables an entry (R122, R127), REF_CLEAR_HISTORY (R129), REF_READ_STATUS of an entry and of a DPLL
(R130, R131). The model's own choices and readings behind it: log entries 13, 16, 102. -/
def Obligations.ReferenceJobsAct : Prop :=
  Acts .refConfig refConfigDef same (fun p _ => p.u 5 1 = 0) (fun p s => spreadTod (p.u 4 1) (s.setRef (p.u 4 1) fun e =>
    { (if e.enable then e else
        { e with freqs := [], delays := [], firstStamp := none, lastStamp := none, lastEdge := none, lag := none
                 lagMark := none, freqNow := none, tod := none, arrived := false, los := true }) with
             enable := false, timeKind := if p.u 4 1 < 12 then p.u 6 1 == 1 else e.timeKind, todSource := p.opt 7 32
             nominalMhz := p.u 8 8, singleEnded := p.u 16 1 == 1, falling := p.u 17 1 == 1
             irqMask := BitVec.ofNat 16 (p.u 18 2), timeUncPs := p.u 20 4, freqUncPpt := p.u 24 4
             integAction := Fin.ofNat 3 (p.u 28 1), history := e.history ||| 0x4000, histNow := e.histNow ||| 0x4000
             st := .unqualified, clean := if e.st = .unqualified then e.clean else 0
             counting := e.st == .unqualified && e.counting })) ∧
  Acts .refClearHistory refClearHistoryDef same always (fun p s => { s with rim := { s.rim with
    ref := (Vector.ofFn fun (r : Fin 32) =>
      if p.u 4 1 = 0xFF ∨ p.u 4 1 = r.val then
        { s.rim.ref[r] with history := s.rim.ref[r].history &&& ~~~(BitVec.ofNat 16 (p.u 6 2) &&& ~~~s.rim.ref[r].histNow) }
      else s.rim.ref[r]) } }) ∧
  Answers .refReadStatus refReadStatusDef same (fun p _ => p.u 5 1 = 0) unchanged (fun _ p s =>
    let e := s.refEntry (p.u 4 1)
    let left := match e.st with
      | .qualifying => e.qualS - e.clean
      | .drifting => e.driftClearS - e.clean
      | _ => 0
    let cond := bit e.los + 2 * bit e.freqSoftNow + 4 * bit e.freqHardNow + 8 * bit e.driftNow + 16 * bit e.pdvSoftNow +
      32 * bit e.pdvHardNow + 64 * bit (e.gnssFail || e.integSoftNow || e.integHardNow)
    [word (e.st.code + cond * 2 ^ 8 + e.history.toNat * 2 ^ 16), wordI (round (refFreq e)), wordI (round (refDrift e * 100)),
     word (left % 65536 + min 255 (pdvFloor e / 10) * 2 ^ 16 +
       maskOf 8 (fun k => (s.dpllOf k).selected.any fun x => x.val == p.u 4 1) * 2 ^ 24)]) ∧
  Answers .refReadStatus refReadStatusDef same (fun p _ => p.u 5 1 = 1) unchanged (fun _ p s =>
    let x := s.dpllOf (p.u 4 1)
    [word (x.st.code + x.mode.code * 8 + bit x.forced.isSome * 32 + bit (s.holdOf (p.u 4 1)).value.isSome * 64 +
       optCode x.selected * 2 ^ 8 + optCode x.lastSelected * 2 ^ 16),
     wordI (x.control.tdiv 1000), wordI x.phaseErr, wordI (holdReport s (p.u 4 1))])

/-- REF_CONFIG and REF_SET_THRESHOLDS set the settings of their entry, enabled or not, set CONFIG_CHANGED in its
history, and leave every other entry (R122, R125, R128). The model's own choices and readings behind it: log entry 16.
-/
def Obligations.ReferenceSettingsAreLocal : Prop :=
  Gives .refConfig refConfigDef same always (fun p s t =>
    (∀ r : Fin 32, r.val ≠ p.u 4 1 → t.refEntry r.val = s.refEntry r.val) ∧
    (∀ r : Fin 32, r.val = p.u 4 1 →
      let e := t.refEntry r.val
      e.enable = (p.u 5 1 == 1) ∧ e.todSource = p.opt 7 32 ∧ e.nominalMhz = p.u 8 8 ∧ e.singleEnded = (p.u 16 1 == 1) ∧
      e.falling = (p.u 17 1 == 1) ∧ e.irqMask = BitVec.ofNat 16 (p.u 18 2) ∧ e.timeUncPs = p.u 20 4 ∧ e.freqUncPpt = p.u 24 4 ∧
      e.integAction = Fin.ofNat 3 (p.u 28 1) ∧ (r.val < 12 → e.timeKind = (p.u 6 1 == 1)) ∧ e.history.getLsbD 14 = true)) ∧
  Gives .refSetThresholds refSetThresholdsDef same always (fun p s t =>
    (∀ r : Fin 32, r.val ≠ p.u 4 1 → t.refEntry r.val = s.refEntry r.val) ∧
    (∀ r : Fin 32, r.val = p.u 4 1 →
      let e := t.refEntry r.val
      e.losPeriods = p.u 5 1 ∧ e.pdvPop = p.u 6 2 ∧ e.qualS = p.u 8 4 ∧ e.freqWindow = p.u 12 4 ∧ e.freqSoft = p.u 16 4 ∧
      e.freqHard = p.u 20 4 ∧ e.driftWindow = p.u 24 4 ∧ e.driftPptS = p.u 28 4 ∧ e.phaseJumpNs = p.u 32 4 ∧
      e.pdvWindow = p.u 36 4 ∧ e.pdvSoftNs = p.u 40 4 ∧ e.pdvHardNs = p.u 44 4 ∧ e.driftClearS = p.u 48 4 ∧
      e.enable = (s.refEntry r.val).enable ∧ e.history.getLsbD 14 = true))

/-- REF_SET_PRIORITY, REF_FORCE_SELECT and DPLL_PHASE_STEP act on a DPLL that no switch has frozen, and wait for the
release boundary of one that is frozen (R136, R139, R142, R150). The model's own choices and readings behind it: log
entries 16, 45. -/
def Obligations.SelectionJobsAct : Prop :=
  Acts .refSetPriority refSetPriorityDef same (fun p s => inSwitch (s.dpllOf (p.u 4 1)) = false)
    (fun p s =>
      let l := (List.range (min 8 (p.u 5 1))).filterMap fun i => p.opt (16 + i) 32
      s.setDpll (p.u 4 1) fun x =>
        { x with cands := l, revertive := p.u 6 1 == 1, wtrS := p.u 8 4, driftHoldoffS := p.u 12 4, tookOver := false
                 restored := (x.restored.filter fun c => l.contains c), sw := none, takeoverFor := none }) ∧
  Waits .refSetPriority refSetPriorityDef same (fun p s => inSwitch (s.dpllOf (p.u 4 1)) = true) unchanged
    (fun p _ => .release (Fin.ofNat 8 (p.u 4 1))) ∧
  Acts .refForceSelect refForceSelectDef same
    (fun p s => inSwitch (s.dpllOf (p.u 4 1)) = false ∧ p.u 5 1 < 32 ∧ (s.dpllOf (p.u 4 1)).selected = some (Fin.ofNat 32 (p.u 5 1)))
    (fun p s => (s.setRef (p.u 5 1) fun e => { e with history := e.history ||| 0x1000, histNow := e.histNow ||| 0x1000 }).setDpll (p.u 4 1) fun x =>
      { x with forced := some (Fin.ofNat 32 (p.u 5 1)), tookOver := false, sw := none }) ∧
  Acts .refForceSelect refForceSelectDef same
    (fun p s => inSwitch (s.dpllOf (p.u 4 1)) = false ∧ p.u 5 1 < 32 ∧ (s.dpllOf (p.u 4 1)).selected ≠ some (Fin.ofNat 32 (p.u 5 1)))
    (fun p s => (s.setRef (p.u 5 1) fun e => { e with history := e.history ||| 0x1000, histNow := e.histNow ||| 0x1000 }).setDpll (p.u 4 1) fun x =>
      { x with
        forced := some (Fin.ofNat 32 (p.u 5 1)), tookOver := false
        sw := some { target := Fin.ofNat 32 (p.u 5 1), decidedAt := s.cpx.impressions, takeover := false
                     fromLost := x.st == .freerun || x.st == .holdover } }) ∧
  Acts .refForceRelease refForceSelectDef (withByte 5 0xFF) (fun p s => inSwitch (s.dpllOf (p.u 4 1)) = false)
    (fun p s => s.setDpll (p.u 4 1) fun x => { x with forced := none, tookOver := false, sw := none }) ∧
  Waits .refForceSelect refForceSelectDef same (fun p s => inSwitch (s.dpllOf (p.u 4 1)) = true) unchanged
    (fun p _ => .release (Fin.ofNat 8 (p.u 4 1))) ∧
  Waits .refForceRelease refForceSelectDef (withByte 5 0xFF) (fun p s => inSwitch (s.dpllOf (p.u 4 1)) = true) unchanged
    (fun p _ => .release (Fin.ofNat 8 (p.u 4 1))) ∧
  Acts .dpllPhaseStep dpllPhaseStepDef same (fun p s => inSwitch (s.dpllOf (p.u 4 1)) = false)
    (fun p s => s.setDpll (p.u 4 1) fun x =>
      { x with buildOut := x.buildOut + p.i 8 8, moving := x.moving + p.i 8 8 * ivlU, stepMoving := true }) ∧
  Waits .dpllPhaseStep dpllPhaseStepDef same (fun p s => inSwitch (s.dpllOf (p.u 4 1)) = true) unchanged
    (fun p _ => .release (Fin.ofNat 8 (p.u 4 1)))

/-- DPLL_CONFIG, DPLL_SET_MODE and DPLL_STEER_PPT (R131–R133, R143, R149, R430). The model's own choices and readings
behind it: log entries 16, 40, 45. -/
def Obligations.DpllJobsAct : Prop :=
  Acts .dpllConfig dpllConfigDef same always (fun p s => s.setDpll (p.u 4 1) fun x =>
    { x with pbo := p.u 5 1 == 1, fastAcq := p.u 6 1 == 1, bw := p.u 8 4, damping := p.u 12 2, acqBw := p.u 16 4
             lockNs := p.u 20 4, lockS := p.u 24 4, phaseSlope := p.u 28 4, pullIn := p.u 32 4
             curBw := if x.st == .locked || p.u 6 1 == 0 then p.u 8 4 else max (p.u 8 4) (min x.curBw (p.u 16 4)) }) ∧
  Acts .dpllSteerPpt dpllSteerPptDef same always (fun p s => s.setDpll (p.u 4 1) fun x =>
    { x with steer := if p.u 5 1 = 1 then x.steer + p.i 8 8 else p.i 8 8 }) ∧
  Acts .dpllSetModeAutomatic dpllSetModeDef (withByte 5 0) (fun p s => inSwitch (s.dpllOf (p.u 4 1)) = false)
    (fun p s => s.setDpll (p.u 4 1) fun x => { x with mode := .automatic }) ∧
  Acts .dpllSetModeFreerun dpllSetModeDef (withByte 5 1)
    (fun p s => inSwitch (s.dpllOf (p.u 4 1)) = false ∧ (s.dpllOf (p.u 4 1)).st ≠ .freerun)
    (fun p s => onDomains (p.u 4 1) ledgerFreerun (s.setDpll (p.u 4 1) fun x =>
      { x with mode := .freerun, st := .freerun, steer := if x.st = .holdover then 0 else x.steer, selected := none
               lastSelected := if x.selected.isSome then x.selected else x.lastSelected
               sw := none, inUse := none, control := 0, lostAt := s.cpx.impressions })) ∧
  Acts .dpllSetModeFreerun dpllSetModeDef (withByte 5 1)
    (fun p s => inSwitch (s.dpllOf (p.u 4 1)) = false ∧ (s.dpllOf (p.u 4 1)).st = .freerun)
    (fun p s => s.setDpll (p.u 4 1) fun x => { x with mode := .freerun, sw := none }) ∧
  (∀ v : HoldValue, Acts .dpllSetModeHoldover dpllSetModeDef (withByte 5 2)
    (fun p s => inSwitch (s.dpllOf (p.u 4 1)) = false ∧ (s.holdOf (p.u 4 1)).value = some v)
    (fun p s =>
      let k := p.u 4 1
      onDomains k (ledgerHoldover (holdGrowth s k v 0)) ((s.setDpll k fun x =>
        { x with mode := .holdover, st := .holdover, steer := if x.st = .freerun then 0 else x.steer, selected := none
                 lastSelected := if x.selected.isSome then x.selected else x.lastSelected
                 sw := none, inUse := some (holdFreq s k v 0), control := holdFreq s k v 0
                 lostAt := s.cpx.impressions }).setHold k fun h =>
        { h with used := some v }))) ∧
  Waits .dpllSetModeAutomatic dpllSetModeDef (withByte 5 0) (fun p s => inSwitch (s.dpllOf (p.u 4 1)) = true) unchanged
    (fun p _ => .release (Fin.ofNat 8 (p.u 4 1))) ∧
  Waits .dpllSetModeFreerun dpllSetModeDef (withByte 5 1) (fun p s => inSwitch (s.dpllOf (p.u 4 1)) = true) unchanged
    (fun p _ => .release (Fin.ofNat 8 (p.u 4 1))) ∧
  Waits .dpllSetModeHoldover dpllSetModeDef (withByte 5 2) (fun p s => inSwitch (s.dpllOf (p.u 4 1)) = true) unchanged
    (fun p _ => .release (Fin.ofNat 8 (p.u 4 1)))

/-- HOLD_CONFIG, HOLD_READ_ARCHIVE and OSC_STEER_CONFIG (R144, R147, R148, R151). The model's own choices and readings
behind it: log entries 16, 44. -/
def Obligations.HoldoverAndSteeringJobsAct : Prop :=
  Acts .holdConfig holdConfigDef same always (fun p s =>
    let on := p.u 5 1 == 1
    forAll 8 (s.setHold (p.u 4 1) fun h =>
      { h with archive := on, aging := Fin.ofNat 3 (p.u 6 1), temp := p.u 7 1 == 1, windowS := p.u 8 4, guardS := p.u 12 4
               agingFitS := p.u 16 4, agingPptDay := p.i 20 4, sigmaFloor := p.u 24 4, minValid := p.u 28 2
               sensor := Fin.ofNat 5 (p.u 30 1), hist := if h.archive = on then h.hist else []
               value := if h.archive = on ∨ (s.dpllOf (p.u 4 1)).st = .holdover then h.value else none })
      fun i t => t.setHold i fun h => { h with hist := h.hist.take (spanOf t i) }) ∧
  Answers .holdReadArchive holdReadArchiveDef same always unchanged (fun _ p s =>
    let es := ((s.holdOf (p.u 4 1)).hist.drop (p.u 0 4)).take (p.u 8 4)
    [word es.length, word (match es with
      | [] => 0
      | e :: _ => e.second), 0, 0]) ∧
  Acts .oscSteerConfig oscSteerConfigDef same always (fun p s => { s with ehu := { s.ehu with steer := { s.ehu.steer with
    dpll := p.opt 4 8, serial := p.u 5 1 == 1, dacBits := p.u 6 1, spiMode := Fin.ofNat 4 (p.u 7 1), centre := p.u 8 4
    updateImp := p.u 12 4, maxStep := p.u 16 4, baud := p.u 20 4, outside := p.u 24 1 == 1, steeredRef := p.opt 25 32
    template := p.bytes 32 32 } } })


/-! ### Jobs of groups 0x14 to 0x16: APLLs, outputs, pulses, codes, messages, events -/

/-- APLL_CONFIG answers the feedback word and its residual, and a new nominal is relocked (R178, R181); APLL_RETUNE
takes the small path or commits on the large path, which holds the RUNNING outputs and adopts the staged dividers
(R193–R195); both wait for the end of the retune. The model's own choices and readings behind it: log entries 16, 107.
-/
def Obligations.ApllJobsAct : Prop :=
  Answers .apllConfig apllConfigDef same always
    (fun p s => s.setApll (p.u 4 1) fun a =>
      { a with
        source := p.opt 5 8, loopBw := p.u 6 2, ramp := p.u 16 4, vco := p.u 8 8
        yRest := if (List.range 24).any (fun o => (s.outOf o).apll.val == p.u 4 1 && (s.outOf o).st == .running) then
            a.yRest + sourceY s a.source - sourceY s (p.opt 5 8)
          else 0
        loop := if p.u 8 8 = a.vco then a.loop else .relockNominal })
    (fun _ p _ =>
      let w := (p.u 8 8 * 2 ^ 32 + 125000000) / 250000000
      [word (w / 2 ^ 48), word (w % 2 ^ 32), word (w % 2 ^ 48 / 2 ^ 32), wordI (residualNhz (p.u 8 8))]) ∧
  Waits .apllRetune apllRetuneDef same (fun p s => takesLarge s p = false)
    (fun p s => s.setApll (p.u 4 1) fun a =>
      { a with rampTo := some (p.u 8 8), rampFrom := some (a.vco, a.ramp), ramp := p.u 16 4 })
    (fun p _ => .retune (Fin.ofNat 4 (p.u 4 1))) ∧
  Waits .apllRetune apllRetuneDef same (fun p s => takesLarge s p = true)
    (fun p s =>
      { s with fso := {
        apll := vmod s.fso.apll (p.u 4 1) fun a =>
          { a with vco := p.u 8 8, ramp := p.u 16 4, loop := .relockNominal, restartDue := true, timedOut := false
                   large := some { vco := a.vco, ramp := a.ramp, commit := s.tcr.cycles } }
        out := Vector.ofFn fun (o : Fin 24) =>
          let x := s.fso.out[o]
          if x.apll.val = p.u 4 1 then
            { x with held := x.held || x.st == .running, divider := x.staged.getD x.divider, staged := none
                     oldDivider := if x.staged.isSome then some x.divider else none
                     fell := if x.st = .running ∧ x.held = false then some (lastFall s o.val x) else x.fell }
          else x } })
    (fun p _ => .retune (Fin.ofNat 4 (p.u 4 1)))

/-- OUT_CONFIG with APPLY 0 configures an output that does not run, gives a RUNNING one its new settings and feeds the
stepper with the change of its delay, and keeps those of a held one for its restart (R184, R188, R197); an output whose
start waited for an APLL that it leaves starts; with APPLY 1 it stages the divider (R188); OUT_PHASE_STEP feeds the
stepper of a RUNNING output and adds to the steps of another (R189); OUT_SET_CEILING (R190). The model's own choices and
readings behind it: log entries 16, 46, 67. -/
def Obligations.OutputJobsAct : Prop :=
  let cfg := fun (p : Params) => ({
    apll := Fin.ofNat 4 (p.u 6 1), format := Fin.ofNat 3 (p.u 7 1), divider := p.u 8 8, coarse := p.u 16 2, fine := p.u 18 1
    align := p.u 19 1 == 1, swingMv := p.u 20 2, drive := Fin.ofNat 4 (p.u 22 1), slow := p.u 23 1 == 1
    alignSlew := p.u 24 4 } : OutCfg)
  Acts .outConfig outConfigDef (withByte 5 0) (fun p s => (s.outOf (p.u 4 1)).st = .running ∧ (s.outOf (p.u 4 1)).held = false)
    (fun p s => s.setOut (p.u 4 1) fun x =>
      { x.take (cfg p) with
        aligning := if p.u 19 1 = 1 then x.aligning else 0
        delayLeft := x.delayLeft + round (((p.u 16 2 : ℚ) - x.coarse) * (10 ^ 12 / ((s.apllOf x.apll.val).vco / 65536))) +
          ((p.u 18 1 : Int) - x.fine) }) ∧
  Acts .outConfig outConfigDef (withByte 5 0) (fun p s => (s.outOf (p.u 4 1)).held = true)
    (fun p s => s.setOut (p.u 4 1) fun x => { x with deferred := some (cfg p) }) ∧
  Acts .outConfig outConfigDef (withByte 5 0)
    (fun p s => (s.outOf (p.u 4 1)).held = false ∧ (s.outOf (p.u 4 1)).st ≠ .running ∧ (s.outOf (p.u 4 1)).startDue = false)
    (fun p s => s.setOut (p.u 4 1) fun x => x.take (cfg p)) ∧
  Gives .outConfig outConfigDef (withByte 5 0)
    (fun p s => (s.outOf (p.u 4 1)).held = false ∧ (s.outOf (p.u 4 1)).st ≠ .running ∧ (s.outOf (p.u 4 1)).startDue = true)
    (fun p s t => ∀ o : Fin 24,
      (o.val ≠ p.u 4 1 → t.fso.out[o] = s.fso.out[o]) ∧
      (o.val = p.u 4 1 → t.fso.out[o].divider = p.u 8 8 ∧ t.fso.out[o].apll = Fin.ofNat 4 (p.u 6 1) ∧
        (holdsStart s (Fin.ofNat 4 (p.u 6 1)).val = false → t.fso.out[o].st = .running ∧ t.fso.out[o].startDue = false) ∧
        (holdsStart s (Fin.ofNat 4 (p.u 6 1)).val = true → t.fso.out[o] = s.fso.out[o].take (cfg p)))) ∧
  Acts .outConfigStage outConfigDef (withByte 5 1) always
    (fun p s => s.setOut (p.u 4 1) fun x => { x with staged := some (p.u 8 8) }) ∧
  Answers .outPhaseStep outPhaseStepDef same (fun p s => (s.outOf (p.u 4 1)).st = .running ∧ (s.outOf (p.u 4 1)).held = false)
    (fun p s => s.setOut (p.u 4 1) fun x =>
      { x with left := p.i 8 4, stepMax := p.u 5 1, spacing := p.u 12 4, paced := (0, (s.apllOf x.apll.val).turns) })
    (fun _ p s =>
      let o := p.u 4 1
      let f : ℚ := ((s.apllOf (s.outOf o).apll.val).rampTo.getD (s.apllOf (s.outOf o).apll.val).vco : ℚ) / 65536 / (s.outOf o).divider
      [word (min (2 ^ 32 - 1) (ceilNat ((ceilDiv (p.i 8 4).natAbs (p.u 5 1) * p.u 12 4 : Nat) / f * 8000))),
       wordI (s.outOf o).left, 0, 0]) ∧
  Acts .outPhaseStep outPhaseStepDef same (fun p s => (s.outOf (p.u 4 1)).st ≠ .running ∨ (s.outOf (p.u 4 1)).held = true)
    (fun p s => s.setOut (p.u 4 1) fun x => { x with steps := x.steps + p.i 8 4 }) ∧
  Acts .outSetCeiling outSetCeilingDef same always (fun p s => s.setOut (p.u 4 1) fun x => { x with ceiling := p.u 8 4 })

/-- OUT_ENABLE to RUNNING starts the outputs of its mask whose APLL holds back no start, and answers which it changed;
where an APLL holds starts back, the job waits for its outputs; to HIGHZ or LOW it moves the outputs of its mask at
once, and a step in progress is complete (R186, R187, R189). The model's own choices and readings behind it: log entries
16, 46. -/
def Obligations.OutputEnableMovesItsOutputs : Prop :=
  Answers .outEnable outEnableDef same
    (fun p s => p.u 7 1 = 2 ∧ ∀ o : Fin 24, (p.u 4 3).testBit o.val → s.fso.out[o].st ≠ .running → holdsStart s s.fso.out[o].apll.val = false)
    (fun p s => { s with fso := { s.fso with out := (Vector.ofFn fun (o : Fin 24) =>
      if (p.u 4 3).testBit o.val ∧ s.fso.out[o].st ≠ .running then startedOut s o.val s.fso.out[o] else s.fso.out[o]) } })
    (fun _ p s => [word (maskOf 24 fun o => (p.u 4 3).testBit o && (s.outOf o).st != .running && !(s.outOf o).startDue), 0, 0, 0]) ∧
  Waits .outEnable outEnableDef same
    (fun p s => p.u 7 1 = 2 ∧ ∃ o : Fin 24, (p.u 4 3).testBit o.val ∧ s.fso.out[o].st ≠ .running ∧ holdsStart s s.fso.out[o].apll.val = true)
    (fun p s => { s with fso := { s.fso with out := (Vector.ofFn fun (o : Fin 24) =>
      if (p.u 4 3).testBit o.val ∧ s.fso.out[o].st ≠ .running then
        if holdsStart s s.fso.out[o].apll.val = true then { s.fso.out[o] with startDue := true }
        else startedOut s o.val s.fso.out[o]
      else s.fso.out[o]) } })
    (fun p s => .outputs
      (BitVec.ofNat 24 (maskOf 24 fun o => (p.u 4 3).testBit o && (s.outOf o).st != .running && holdsStart s (s.outOf o).apll.val))
      (BitVec.ofNat 24 (maskOf 24 fun o => (p.u 4 3).testBit o && (s.outOf o).st != .running && !(s.outOf o).startDue))) ∧
  (Gives .outEnable outEnableDef same (fun p _ => p.u 7 1 ≠ 2) fun p s t =>
    (∀ o : Fin 24,
      let x := s.fso.out[o]
      let y := t.fso.out[o]
      if (p.u 4 3).testBit o.val then
        y.st = (if p.u 7 1 = 0 then .highz else .low) ∧ y.held = false ∧ y.startDue = false ∧ y.steps = x.steps + x.left ∧
          y.left = 0 ∧ y.delayLeft = 0 ∧ y.ceiling = x.ceiling ∧ y.staged = x.staged ∧
          (x.deferred = none → y.divider = x.divider ∧ y.apll = x.apll)
      else y = x) ∧
    { t with mbx := s.mbx, intc := s.intc, pcu := s.pcu, fso := { t.fso with out := s.fso.out } } = s)

/-- PPS_CONFIG, IRIG_CONFIG, TOD_CONFIG, EVT_CONFIG (R206, R208, R213, R216, R220) and EVT_DRAIN, which answers the
numbers of records, drops and the sticky bits, and takes the oldest records out of the FIFO (R221). The model's own
choices and readings behind it: log entries 16, 47. -/
def Obligations.GeneratorJobsAct : Prop :=
  let state := fun v => if v = 0 then GenState.highz else if v = 1 then .idle else .running
  Acts .ppsConfig ppsConfigDef same always (fun p s => s.setPps (p.u 4 1) fun x =>
    { x with view := Fin.ofNat 5 (p.u 5 1), st := state (p.u 6 1), gate := Fin.ofNat 3 (p.u 7 1), period := p.u 8 4
             phase := p.u 12 4, widthNs := p.u 16 4, delayPs := p.i 20 4, inverted := p.u 24 1 == 1
             startFrom := if x.st == .running then x.startFrom else s.tcr.cycles + 1000000 }) ∧
  Acts .irigConfig irigConfigDef same always (fun p s => s.setIrig (p.u 4 1) fun x =>
    { x with view := Fin.ofNat 5 (p.u 5 1), st := state (p.u 6 1), gate := Fin.ofNat 3 (p.u 7 1), manchester := p.u 8 1 == 1
             expression := Fin.ofNat 8 (p.u 9 1), extension := p.u 10 1 == 1, dst := BitVec.ofNat 2 (p.u 11 1)
             localOffset := p.i 12 2, delayPs := p.i 14 4 }) ∧
  Acts .todConfig todConfigDef same always (fun p s => s.setTod (p.u 4 1) fun x =>
    { x with view := Fin.ofNat 5 (p.u 5 1), st := state (p.u 6 1), gate := Fin.ofNat 3 (p.u 7 1), baud := p.u 8 4
             startDelayMs := p.u 12 2, due := if p.u 6 1 = 2 then x.due else [] }) ∧
  Acts .evtConfig evtConfigDef same (fun p _ => p.u 4 1 ≠ 0xFF) (fun p s =>
    { s with peu := { s.peu with
      threshold := p.u 12 4
      evt := vmod s.peu.evt (p.u 4 1) fun x =>
        { x with view := Fin.ofNat 5 (p.u 5 1), enable := p.u 6 1 == 1, edge := Fin.ofNat 3 (p.u 7 1), filterNs := p.u 8 4 } } }) ∧
  Acts .evtConfigThreshold evtConfigDef (withByte 4 0xFF) always
    (fun p s => { s with peu := { s.peu with threshold := p.u 12 4 } }) ∧
  Answers .evtDrain evtDrainDef same always
    (fun p s => { s with peu := { s.peu with
      fifo := s.peu.fifo.drop (p.u 0 4)
      drops := if p.bit 4 0 then 0 else s.peu.drops
      overflow := !p.bit 4 0 && s.peu.overflow
      blindSeen := if p.bit 4 0 then 0 else s.peu.blindSeen } })
    (fun _ p s =>
      [word (min (p.u 0 4) s.peu.fifo.length), word (s.peu.fifo.length - p.u 0 4), word (min (2 ^ 32 - 1) s.peu.drops),
       word (bit s.peu.overflow + s.peu.blindSeen.toNat * 65536)])

/-! ### Jobs of groups 0x20 and 0x21: lanes, ports -/

/-- LANE_CONFIG (R226), LANE_DISABLE outside UP (R231), LANE_PRBS_CONFIG from DOWN and in PRBS, and with MODE 0 from
DOWN (R237), LANE_EQ_CONFIG on a lane whose code stands (R232, R234), LANE_RECOVERED_CLOCK_SELECT of a slot whose pool
entry is disabled (R239). The model's own choices and readings behind it: log entries 16, 49. -/
def Obligations.LaneJobsAct : Prop :=
  let rated := fun (now old new : Nat) (x : Lane) =>
    if old = new then x else { loseLatency now (startCode now new x) with latEventAt := now }
  Acts .laneConfig laneConfigDef same always (fun p s => s.setLane (p.u 4 1) fun x =>
    { x with medium := Fin.ofNat 3 (p.u 5 1), rateMask := BitVec.ofNat 4 (p.u 6 1), fec25 := Fin.ofNat 3 (p.u 7 1)
             fec10 := Fin.ofNat 3 (p.u 8 1), an1g := p.u 9 1 == 1, txref := Fin.ofNat 3 (p.u 10 1), txref161 := p.u 11 1 == 1
             polarity := BitVec.ofNat 2 (p.u 12 1), modBus := p.opt 13 4, muxAddr := p.u 14 1, muxChan := Fin.ofNat 8 (p.u 15 1)
             trainMs := p.u 16 2, stepMs := p.u 18 2, qualMs := p.u 20 2, qualErrors := p.u 22 2, relockMs := p.u 24 2 }) ∧
  Acts .laneDisable laneDisableDef same
    (fun p s => (s.laneOf (p.u 4 1)).st = .down ∨ ((s.laneOf (p.u 4 1)).st ≠ .up ∧ (s.laneOf (p.u 4 1)).frozen = true))
    (fun p s => s.setLane (p.u 4 1) fun x =>
      if x.st = .down then x else { keepCode x with st := .down, stageAt := s.tcr.cycles, winAt := s.tcr.cycles }) ∧
  Acts .lanePrbsConfig lanePrbsConfigDef same (fun p s => p.u 5 1 ≠ 0 ∧ (s.laneOf (p.u 4 1)).st = .down)
    (fun p s => s.setLane (p.u 4 1) fun x => rated s.tcr.cycles (rateIdx x.mode) (p.u 7 1)
      { x with
        st := .prbs, stageAt := s.tcr.cycles, winAt := s.tcr.cycles
        removed := 0, failed := 0, recovers := 0, measures := 0, reason := 0, moduleRead := false, moduleRate := 0
        prbs := { mode := Fin.ofNat 4 (p.u 5 1), pattern := Fin.ofNat 5 (p.u 6 1), rate := Fin.ofNat 3 (p.u 7 1)
                  invert := BitVec.ofNat 2 (p.u 8 1), inject := Fin.ofNat 3 (p.u 9 1), burst := p.u 10 1, interval := p.u 12 4
                  bits := 0, errors := 0, resyncs := 0, syncAt := none } }) ∧
  Acts .lanePrbsConfig lanePrbsConfigDef same
    (fun p s => p.u 5 1 ≠ 0 ∧ (s.laneOf (p.u 4 1)).st = .prbs ∧ (s.laneOf (p.u 4 1)).frozen = true)
    (fun p s => s.setLane (p.u 4 1) fun x =>
      let keeps := x.prbs.mode.val = p.u 5 1 ∧ x.prbs.pattern.val = p.u 6 1 ∧ x.prbs.rate.val = p.u 7 1
      rated s.tcr.cycles x.prbs.rate.val (p.u 7 1) { x with rateCode := (keepCode x).rateCode, prbs :=
        { mode := Fin.ofNat 4 (p.u 5 1), pattern := Fin.ofNat 5 (p.u 6 1), rate := Fin.ofNat 3 (p.u 7 1)
          invert := BitVec.ofNat 2 (p.u 8 1), inject := Fin.ofNat 3 (p.u 9 1), burst := p.u 10 1, interval := p.u 12 4
          bits := if keeps then x.prbs.bits else 0, errors := if keeps then x.prbs.errors else 0
          resyncs := if keeps then x.prbs.resyncs else 0, syncAt := if keeps then x.prbs.syncAt else none } }) ∧
  Acts .lanePrbsLeave lanePrbsConfigDef (withByte 5 0) (fun p s => (s.laneOf (p.u 4 1)).st ≠ .prbs) unchanged ∧
  Acts .laneEqConfig laneEqConfigDef same
    (fun p s => (s.laneOf (p.u 4 1)).frozen = true ∨ (s.laneOf (p.u 4 1)).st = .down)
    (fun p s => s.setLane (p.u 4 1) fun x =>
      { x with adaptive := p.u 5 1 == 1, ctle := p.u 6 1, densityMin := p.u 7 1, txSwing := p.u 8 2, txPre := p.u 10 1
               txPost := p.u 11 1, losMv := p.u 12 1, codeSeen := s.tcr.cycles }) ∧
  Acts .laneRecoveredClockSelect laneRecoveredClockSelectDef same
    (fun p s => vget s.nlu.slot (p.u 4 1) none = p.opt 5 24 ∨ (s.refEntry (12 + p.u 4 1)).enable = false)
    (fun p s => { s with nlu := { s.nlu with slot := vmod s.nlu.slot (p.u 4 1) fun _ => p.opt 5 24 } })

/-- LANE_ENABLE and the exit from PRBS take a lane to LOW at its lowest candidate mode, with no qualification, and clear
what a bring-up counts; a change of mode or FEC is a latency event; interrupt source 13 stands; no other lane changes
(R227, R231, R236, R237). The model's own choices and readings behind it: log entries 16, 49. -/
def Obligations.LanesEnterLow : Prop :=
  Gives .laneEnable laneEnableDef same always (fun p s t =>
    (∀ l : Fin 24, l.val ≠ p.u 4 1 → t.nlu.lane[l] = s.nlu.lane[l]) ∧
    (∀ l : Fin 24, l.val = p.u 4 1 →
      let x := s.nlu.lane[l]
      let y := t.nlu.lane[l]
      let m := ((List.finRange 4).find? fun k => x.rateMask.getLsbD k.val).getD x.mode
      let fec := if m.val = 2 then x.fec10 else if m.val = 3 then x.fec25 else 0
      y.st = .low ∧ y.mode = m ∧ y.fec = fec ∧ y.removed = 0 ∧ y.failed = 0 ∧ y.fecLock = false ∧ y.recovers = 0 ∧ y.measures = 0 ∧ y.reason = 0 ∧
      y.moduleRead = false ∧ y.moduleRate = 0 ∧ y.qualified = none ∧ y.fallingBack = false ∧ y.aligned = false ∧
      (y.latValid = false ∧ y.latEventAt = s.tcr.cycles ∨ (x.mode = m ∧ x.fec = fec ∧ y.latValid = x.latValid ∧ y.latEventAt = x.latEventAt)) ∧
      y.rateMask = x.rateMask ∧ y.medium = x.medium ∧ y.prbs = x.prbs ∧ y.los = x.los ∧ y.lol = x.lol ∧ y.frozen = x.frozen) ∧
    (∀ l : Fin 24, t.nlu.driven.getLsbD l.val = (s.nlu.driven.getLsbD l.val || l.val == p.u 4 1)) ∧
    t.intc.status.getLsbD 13 = true ∧
    { t with mbx := s.mbx, intc := s.intc, pcu := s.pcu, cpx := { t.cpx with proof := s.cpx.proof }
             nlu := { t.nlu with lane := s.nlu.lane, driven := s.nlu.driven } } = s) ∧
  Gives .lanePrbsLeave lanePrbsConfigDef (withByte 5 0) (fun p s => (s.laneOf (p.u 4 1)).st = .prbs) (fun p s t =>
    (∀ l : Fin 24, l.val ≠ p.u 4 1 → t.nlu.lane[l] = s.nlu.lane[l]) ∧
    (∀ l : Fin 24, l.val = p.u 4 1 →
      let x := s.nlu.lane[l]
      let y := t.nlu.lane[l]
      y.st = .low ∧ y.mode = ((List.finRange 4).find? fun k => (x.rateMask &&& ~~~x.removed).getLsbD k.val).getD x.mode ∧
      y.qualified = none ∧ y.fallingBack = false ∧ y.aligned = false ∧ y.prbs = x.prbs ∧ y.removed = x.removed) ∧
    t.intc.status.getLsbD 13 = true ∧
    { t with mbx := s.mbx, intc := s.intc, pcu := s.pcu, cpx := { t.cpx with proof := s.cpx.proof }, fresh := s.fresh
             nlu := { t.nlu with lane := s.nlu.lane } } = s) ∧
  (Gives .laneDisable laneDisableDef same always fun p s t => ∀ l : Fin 24,
    let x := s.nlu.lane[l]
    if l.val = p.u 4 1 then
      t.nlu.lane[l].st = .down ∧
      { t.nlu.lane[l] with st := x.st, code := x.code, codeAt := x.codeAt, codeSeen := x.codeSeen, rateCode := x.rateCode
                           stageAt := x.stageAt, winAt := x.winAt } = x
    else t.nlu.lane[l] = x) ∧
  (Gives .lanePrbsConfig lanePrbsConfigDef same (fun p _ => p.u 5 1 ≠ 0) fun p s t => ∀ l : Fin 24,
    if l.val = p.u 4 1 then
      let y := t.nlu.lane[l].prbs
      t.nlu.lane[l].st = .prbs ∧ y.mode = Fin.ofNat 4 (p.u 5 1) ∧ y.pattern = Fin.ofNat 5 (p.u 6 1) ∧
      y.rate = Fin.ofNat 3 (p.u 7 1) ∧ y.inject = Fin.ofNat 3 (p.u 9 1) ∧ y.burst = p.u 10 1 ∧ y.interval = p.u 12 4
    else t.nlu.lane[l] = s.nlu.lane[l])

/-- LANE_READ_STATUS and LANE_PRBS_READ answer the words of R241 and R238; the density of the last block is zero in a
loss of signal and else a free value; the first changes nothing where the lane's code stands, and at most that code
otherwise; the second clears the counters where CLEAR is set. The model's own choices and readings behind it: log
entries 16, 49, 50. -/
def Obligations.LaneReadsAnswer : Prop :=
  Answers .laneReadStatus laneReadStatusDef same
    (fun p s => (s.laneOf (p.u 4 1)).frozen = true ∨ (s.laneOf (p.u 4 1)).st = .down) (fun _ s => { s with fresh := s.fresh + 1 })
    (fun _ p s =>
      let x := s.laneOf (p.u 4 1)
      [word (x.st.code + x.mode.val * 8 + x.fec.val * 32 + bit x.los * 128 + bit x.lol * 256 +
         bit (x.aligned && (x.fec == 0 || x.fecLock)) * 512 +
         bit x.latValid * 1024 + bit x.frozen * 2048 + bit x.txLocked * 4096 + bit x.moduleRead * 8192 +
         x.slip % 8192 * 16384 + x.removed.toNat * 2 ^ 28),
       word (x.code % 32 + x.reason.val * 32 + (if x.los then 0 else Config.freeNat s.fresh % 256) * 256 + x.moduleRate % 65536 * 65536),
       word (if x.st == .up then min (2 ^ 32 - 1) ((s.tcr.cycles - x.upAt) / 10 ^ 9) else 0),
       word (min 65535 x.recovers + min 65535 x.qualErrs * 65536)]) ∧
  Gives .laneReadStatus laneReadStatusDef same always (fun p s t =>
    (∀ l : Fin 24, { t.nlu.lane[l] with code := s.nlu.lane[l].code, codeAt := s.nlu.lane[l].codeAt, codeSeen := s.nlu.lane[l].codeSeen } = s.nlu.lane[l] ∧
      (l.val ≠ p.u 4 1 → t.nlu.lane[l] = s.nlu.lane[l])) ∧
    { t with mbx := s.mbx, intc := s.intc, pcu := s.pcu, fresh := s.fresh, nlu := { t.nlu with lane := s.nlu.lane } } = s) ∧
  Answers .lanePrbsRead lanePrbsReadDef same (fun p s => (s.laneOf (p.u 4 1)).prbs.syncAt = none)
    (fun p s => if p.bit 5 0 then s.setLane (p.u 4 1) fun y => { y with prbs := { y.prbs with bits := 0, errors := 0, resyncs := 0 } }
      else s)
    (fun _ p s =>
      let x := (s.laneOf (p.u 4 1)).prbs
      let b := min (2 ^ 48 - 1) x.bits
      let e := min (2 ^ 48 - 1) x.errors
      [word (b % 2 ^ 32), word (b / 2 ^ 32 + e % 65536 * 65536), word (e / 65536), word (min 255 x.resyncs * 256)]) ∧
  Gives .lanePrbsRead lanePrbsReadDef same (fun p s => (s.laneOf (p.u 4 1)).prbs.syncAt ≠ none) (fun p s t =>
    (∀ l : Fin 24, l.val ≠ p.u 4 1 → t.nlu.lane[l] = s.nlu.lane[l]) ∧
    (∀ l : Fin 24, l.val = p.u 4 1 →
      { t.nlu.lane[l] with prbs := s.nlu.lane[l].prbs } = s.nlu.lane[l] ∧
      (p.bit 5 0 = true → t.nlu.lane[l].prbs.bits = 0 ∧ t.nlu.lane[l].prbs.errors = 0 ∧ t.nlu.lane[l].prbs.resyncs = 0 ∧
        t.nlu.lane[l].prbs.syncAt = some s.tcr.cycles) ∧
      (p.bit 5 0 = false → t.nlu.lane[l].prbs.bits = s.nlu.lane[l].prbs.bits ∧
        s.nlu.lane[l].prbs.errors ≤ t.nlu.lane[l].prbs.errors ∧ t.nlu.lane[l].prbs.syncAt = s.nlu.lane[l].prbs.syncAt)) ∧
    { t with mbx := s.mbx, intc := s.intc, pcu := s.pcu, fresh := s.fresh, nlu := { t.nlu with lane := s.nlu.lane } } = s)

/-- TS_PORT_CONFIG of a port that stays enabled (R254), TS_READ_LATENCY (R265), TS_SET_ASYMMETRY of a port that delivers
no reference (R252), TS_LAUNCH_CONFIG of one port or of every present one (R264); a port that TS_PORT_CONFIG disables
loses its galley frames (R254). The model's own choices and readings behind it: log entry 16. -/
def Obligations.PortJobsAct : Prop :=
  Acts .tsPortConfig tsPortConfigDef same (fun p _ => p.u 5 1 = 1) (fun p s => s.setPort (p.u 4 1) fun x =>
    { x with enable := true, hostView := Fin.ofNat 5 (p.u 6 1), fbService := BitVec.ofNat 2 (p.u 7 1), refUseFallback := p.u 8 1 == 1 }) ∧
  Gives .tsPortConfig tsPortConfigDef same (fun p _ => p.u 5 1 = 0) (fun p s t =>
    t.tpe.galley = s.tpe.galley.filter (fun f => f.port.val != p.u 4 1) ∧
    (∀ n : Fin 24, n.val ≠ p.u 4 1 → t.tpe.port[n] = s.tpe.port[n]) ∧
    (∀ n : Fin 24, n.val = p.u 4 1 → t.tpe.port[n] =
      { s.tpe.port[n] with enable := false, hostView := Fin.ofNat 5 (p.u 6 1), fbService := BitVec.ofNat 2 (p.u 7 1)
                           refUseFallback := p.u 8 1 == 1, ctr := t.tpe.port[n].ctr }) ∧
    { t with mbx := s.mbx, intc := s.intc, pcu := s.pcu, aue := s.aue
             tpe := { t.tpe with port := s.tpe.port, galley := s.tpe.galley } } = s) ∧
  Answers .tsReadLatency tsReadLatencyDef same always
    (fun p s => if p.bit 5 0 then s.setPort (p.u 4 1) fun y => { y with ctr := Vector.replicate 10 0 } else s)
    (fun _ p s =>
      let x := s.laneOf (p.u 4 1)
      [wordI x.rxPs, wordI x.txPs,
       word (bit x.latValid + 2 * bit (portCalibrated s (p.u 4 1)) + 4 * (x.slip % 8192) + 65536 * min 65535 x.measures),
       word (min (2 ^ 32 - 1) ((s.tcr.cycles - x.latEventAt) / 10 ^ 9))]) ∧
  Acts .tsSetAsymmetry tsSetAsymmetryDef same
    (fun p s => ∀ r : Fin 32, ((s.rim.ref[r]).port.any fun x => x.val == p.u 4 1) = false)
    (fun p s => s.setPort (p.u 4 1) fun x => { x with asymPs := p.i 8 4, asymUnc := p.u 12 4 }) ∧
  Acts .tsLaunchConfig tsLaunchConfigDef same always (fun p s =>
    { s with tpe := { s.tpe with port := (Vector.ofFn fun (n : Fin 24) =>
      if s.lanePresent n.val ∧ (p.u 4 1 = 0xFF ∨ p.u 4 1 = n.val) then
        { s.tpe.port[n] with maxRebuilds := p.u 5 1, depth := p.u 6 2, leadNs := p.u 8 4, guardNs := p.u 12 4
                             reserveNs := p.u 16 4, hostMax := p.u 20 2 }
      else s.tpe.port[n]) } })

/-! ### Jobs of groups 0x22 to 0x24: PTP, NTP, NTS, client ledger -/

/-- PTP_INSTANCE_CONFIG of a disabled instance that stays disabled, or that no port runs (R274); PTP_PORT_CONFIG of a
port-instance whose instance is disabled (R275); its port form where no instance runs on the port (R271);
PTP_UNICAST_POLICY (R282); PTP_PRP_PAIR where no instance is enabled (R285); whatever else is configured,
PTP_PORT_CONFIG sets the settings of its port-instance (R275), and no configuration of any port form. The model's own
choices and readings behind it: log entries 16, 53, 64, 65. -/
def Obligations.PtpJobsAct : Prop :=
  Acts .ptpInstanceConfig ptpInstanceConfigDef same
    (fun p s => (s.instOf (p.u 4 1)).enable = false ∧
      (p.u 5 1 = 0 ∨ ∀ q : Fin 24, (s.piOf q.val (p.u 4 1)).enable = false))
    (fun p s => s.setInst (p.u 4 1) fun x =>
      { x with
        enable := p.u 5 1 == 1, profile := Fin.ofNat 7 (p.u 6 1), role := Fin.ofNat 3 (p.u 7 1), twoStep := p.u 8 1 == 2
        domainNumber := p.u 9 1, view := Fin.ofNat 5 (p.u 10 1), ref := p.opt 11 32, priority1 := p.u 12 1, priority2 := p.u 13 1
        auth := Fin.ofNat 3 (p.u 14 1), spp := BitVec.ofNat 8 (p.u 15 1), clockId := BitVec.ofNat 64 (p.u 16 8), txSlot := p.u 24 1
        tcPolicy := p.u 25 1 == 1, classHoldOut := p.u 26 1, assurance := p.bit 27 0, txKeyId := BitVec.ofNat 32 (p.u 28 4)
        verifySlot := (Vector.ofFn fun (n : Fin 4) => p.opt (32 + n.val) 128)
        verifyId := (Vector.ofFn fun (n : Fin 4) => BitVec.ofNat 32 (p.u (36 + 4 * n.val) 4)) }) ∧
  Acts .ptpPortConfig ptpPortConfigDef same
    (fun p s => p.u 5 1 ≠ 0xFF ∧ (s.instOf (p.u 5 1)).enable = false ∧ (s.instOf (p.u 5 1)).bmcaDue = false ∧
      ∀ q : Fin 24, (s.piOf q.val (p.u 5 1)).st = .disabled)
    (fun p s => s.setPi (p.u 4 1) (p.u 5 1) fun x =>
      { x with
        enable := p.u 6 1 == 1, transport := Fin.ofNat 3 (p.u 7 1)
        vlan := if p.u 8 2 = 0xFFFF then none else some (BitVec.ofNat 12 (p.u 8 2))
        pcp := Fin.ofNat 8 (p.u 10 1), portRole := Fin.ofNat 3 (p.u 11 1), logAnnounce := p.i 12 1, logSync := p.i 13 1
        logDelay := p.i 14 1, annTimeout := p.u 15 1, localPriority := p.u 16 1, dest := p.u 17 1 == 1
        unicastMaster := BitVec.ofNat 128 (p.u 20 16) }) ∧
  Acts .ptpPortConfigPortForm ptpPortConfigDef (withByte 5 0xFF)
    (fun p s => ∀ i : Fin 8, piEnabled s (p.u 4 1) i.val = false)
    (fun p s => s.setPort (p.u 4 1) fun x =>
      { x with
        hostPath := Fin.ofNat 3 (p.u 6 1), esmcMode := BitVec.ofNat 2 (p.u 7 1), mac := BitVec.ofNat 48 (p.u 8 6)
        esmcDpll := Fin.ofNat 8 (p.u 14 1), qlLocked := BitVec.ofNat 4 (p.u 15 1), qlHold := BitVec.ofNat 4 (p.u 16 1)
        esmcFixed := p.u 17 1 == 1, ptpLimit := p.u 18 2, ipv4 := BitVec.ofNat 32 (p.u 20 4), ipv6 := BitVec.ofNat 128 (p.u 24 16)
        nextHop := BitVec.ofNat 48 (p.u 40 6), hostMac := BitVec.ofNat 48 (p.u 46 6)
        esmcHeardAt := if p.bit 7 0 = true ∧ x.esmcMode.getLsbD 0 = false then s.tcr.cycles else x.esmcHeardAt }) ∧
  Acts .ptpUnicastPolicy ptpUnicastPolicyDef same always (fun p s => s.setInst (p.u 4 1) fun x =>
    { x with grantor := p.u 5 1 == 1, minSync := p.i 6 1, minAnnounce := p.i 7 1, minDelay := p.i 8 1, grantMax := p.u 10 2
             maxGrants := some (p.u 12 4), reqDuration := p.u 16 2, reqSync := p.i 18 1, reqAnnounce := p.i 19 1
             reqDelay := p.i 20 1 }) ∧
  Acts .ptpPrpPair ptpPrpPairDef same (fun _ s => ∀ i : Fin 8, (s.instOf i.val).enable = false)
    (fun p s => { s with tpe := { s.tpe with prp := vmod s.tpe.prp (p.u 4 1) fun x =>
      { x with enable := p.u 5 1 == 1, supLsb := BitVec.ofNat 8 (p.u 6 1), lifeCheckMs := p.u 8 2, forgetMs := p.u 10 2
               seen := if p.u 5 1 = 1 then x.seen else [] } } }) ∧
  Gives .ptpPortConfig ptpPortConfigDef same (fun p _ => p.u 5 1 ≠ 0xFF) fun p s t =>
    (∀ n : Fin 24, ∀ i : Fin 8, n.val = p.u 4 1 → i.val = p.u 5 1 →
      let x := t.piOf n.val i.val
      x.enable = (p.u 6 1 == 1) ∧ x.transport = Fin.ofNat 3 (p.u 7 1) ∧
      x.vlan = (if p.u 8 2 = 0xFFFF then none else some (BitVec.ofNat 12 (p.u 8 2))) ∧ x.pcp = Fin.ofNat 8 (p.u 10 1) ∧
      x.portRole = Fin.ofNat 3 (p.u 11 1) ∧ x.logAnnounce = p.i 12 1 ∧ x.logSync = p.i 13 1 ∧ x.logDelay = p.i 14 1 ∧
      x.annTimeout = p.u 15 1 ∧ x.localPriority = p.u 16 1 ∧ x.dest = (p.u 17 1 == 1) ∧
      x.unicastMaster = BitVec.ofNat 128 (p.u 20 16)) ∧
    (∀ n : Fin 24, ∀ i : Fin 8, i.val ≠ p.u 5 1 → t.piOf n.val i.val = s.piOf n.val i.val) ∧
    t.tpe.port = s.tpe.port ∧ t.nlu = s.nlu ∧ t.tcr = s.tcr ∧ t.sec = s.sec

/-- PTP_READ_PORT_STATE of a port and of a port-instance answers the words of R284. The model's own choices and readings
behind it: log entry 16. -/
def Obligations.PtpStateReadsAnswer : Prop :=
  Answers .ptpReadPortState ptpReadPortStateDef same (fun p _ => p.u 5 1 = 0xFF) unchanged (fun _ p s =>
    let x := s.portOf (p.u 4 1)
    [word (x.ssm.toNat + 16 * bit x.esmcTimeout + 256 * x.essm.toNat + 65536 * (x.ssmSent.getD 0).toNat),
     word (min (2 ^ 32 - 1) x.esmcRx), word x.toHost, word x.fromHost]) ∧
  Answers .ptpReadPortState ptpReadPortStateDef same (fun p _ => p.u 5 1 ≠ 0xFF) unchanged (fun _ p s =>
    let x := s.piOf (p.u 4 1) (p.u 5 1)
    let g := (gmOf s (p.u 5 1)).1
    let live := (s.tpe.ledger.filter fun e =>
      e.2.type == 3 && e.2.port.val == p.u 4 1 && e.2.inst.val == p.u 5 1 && !grantExpired s e.2).length
    [word (x.st.code + 256 * min 255 g.steps + 65536 * g.clockClass.toNat + 2 ^ 24 * g.accuracy.toNat),
     word (min (2 ^ 32 - 1) (psOfTicks (x.pathDelay.getD 0)).toNat),
     wordI (max (-(2 ^ 31)) (min (2 ^ 31 - 1) (psOfTicks x.offset))),
     word (min 65535 live + 65536 * bit ((List.range 3).all fun n => (heldGrant s (p.u 4 1) (p.u 5 1) n).isSome) + 131072 * bit x.l1Sync)])

/-- NTP_SERVER_CONFIG and its READ_ONLY form (R288), NTS_CONFIG of the server and of a client (R292), NTP_CLIENT_CONFIG
(R295), NTP_RATE_POLICY (R296). The model's own choices and readings behind it: log entries 16, 64. -/
def Obligations.NtpJobsAct : Prop :=
  Answers .ntpServerConfig ntpServerConfigDef same (fun p _ => p.u 10 1 ≠ 1)
    (fun p s => { s with tpe := { s.tpe with server := { s.tpe.server with
      enable := p.u 4 1 == 1, view := Fin.ofNat 5 (p.u 5 1), gate := Fin.ofNat 3 (p.u 6 1), versions := BitVec.ofNat 2 (p.u 7 1)
      manualStratum := p.u 8 1, hostModes := p.u 9 1 == 1, portMask := BitVec.ofNat 24 (p.u 12 3) } } })
    (fun _ _ _ => [0, 0, 0, 0]) ∧
  Answers .ntpServerRead ntpServerConfigDef (withByte 10 1) (fun p _ => p.u 10 1 = 1) unchanged (fun _ _ _ => [0, 0, 0, 0]) ∧
  Acts .ntsConfigServer ntsConfigDef (withByte 4 0) (fun p _ => p.u 4 1 = 0)
    (fun p s => { s with tpe := { s.tpe with nts :=
      { slot := p.opt 5 128, maxCookies := p.u 6 1, nak := p.u 7 1 == 1, require := p.u 8 1 == 1 } } }) ∧
  Acts .ntsConfigClient ntsConfigDef (withByte 4 1) (fun p _ => p.u 4 1 = 1)
    (fun p s => s.setClient (p.u 5 1) fun c =>
      { c with
        c2s := p.opt 6 128, s2c := p.opt 7 128
        jar := ((if p.u 8 1 = 1 then [] else c.jar) ++
          (if p.block then (List.range ((p.len - 64) / 260)).map fun k => p.bytes (68 + 260 * k) (p.u (64 + 260 * k) 2)
           else [])).take 8 }) ∧
  Acts .ntpClientConfig ntpClientConfigDef same always
    (fun p s => s.setClient (p.u 4 1) fun c =>
      let new := { c with
        enable := p.u 5 1 == 1, ref := p.opt 6 32, port := Fin.ofNat 24 (p.u 7 1), dom := Fin.ofNat 4 (p.u 8 1)
        nts := p.u 9 1 == 1, logPoll := p.i 10 1, ipv6 := p.u 11 1 == 1
        vlan := if p.u 12 2 = 0xFFFF then none else some (BitVec.ofNat 12 (p.u 12 2))
        udpPort := p.u 14 2, server := BitVec.ofNat 128 (p.u 16 16), poll := p.i 10 1, stopped := false }
      if { new with logPoll := c.logPoll, poll := c.poll, stopped := c.stopped } = c then new
      else { new with t1 := none, t1Ntp := none, uid := none, t1Fallback := false, missed := 0, polledAt := none }) ∧
  Acts .ntpRatePolicy ntpRatePolicyDef same always (fun p s =>
    { s with tpe := { s.tpe with
      idleS := p.u 16 4
      port := (Vector.ofFn fun (n : Fin 24) =>
        if s.lanePresent n.val ∧ (p.u 4 1 = 0xFF ∨ p.u 4 1 = n.val) then
          { s.tpe.port[n] with monitor := p.u 5 1 == 1, kiss := p.u 6 1 == 1, burst := p.u 7 1, rate := p.u 8 2
                               kodMin := p.u 10 2, ntpLimit := p.u 12 4 }
        else s.tpe.port[n]) } })

/-- LEDGER_QUERY answers how many records match and the first of them; LEDGER_EVICT frees the records that match and
answers their number; LEDGER_EXPORT answers the number exported and the next index (R297, R299). The model's own choices
and readings behind it: log entries 16, 62. -/
def Obligations.LedgerJobsAct : Prop :=
  let hits := fun (addr : Option Nat) (port type : Nat) (g : LedgerRec) =>
    (match addr with
     | some a => g.addr.toNat == a
     | none => true) && (port == 0xFF || g.port.val == port) && (type == 0 || g.type.val == type)
  let evicts := fun (p : Params) (g : LedgerRec) => p.u 4 1 == 2 ||
    hits (if p.u 4 1 = 0 then some (leNat (p.bytes 8 16).reverse) else none) (p.u 24 1) (p.u 25 1) g
  Answers .ledgerQuery ledgerQueryDef same always unchanged (fun _ p s =>
    let found := s.tpe.ledger.filter fun e => hits (some (leNat (p.bytes 4 16).reverse)) (p.u 20 1) (p.u 21 1) e.2
    match found with
    | [] => [0, 0xFFFFFFFF, 0, 0]
    | e :: _ => [word found.length, word e.1, word (leNat (((recBytes s e.2).drop 16).take 4)), word (leNat ((recBytes s e.2).drop 20))]) ∧
  Answers .ledgerEvict ledgerEvictDef same (fun p s => ∀ e ∈ s.tpe.ledger, e.2.type = 3 → evicts p e.2 = false)
    (fun p s => { s with tpe := { s.tpe with ledger := s.tpe.ledger.filter fun e => !evicts p e.2 } })
    (fun _ p s => [word (s.tpe.ledger.filter fun e => evicts p e.2).length, 0, 0, 0]) ∧
  Gives .ledgerEvict ledgerEvictDef same always (fun p s t =>
    t.tpe.ledger = s.tpe.ledger.filter fun e => !evicts p e.2) ∧
  Answers .ledgerExport ledgerExportDef same always unchanged (fun _ p s =>
    let found := s.tpe.ledger.filter fun e => decide (p.u 0 4 ≤ e.1) && hits none 0xFF (p.u 8 1) e.2
    [word (min (p.u 4 4) found.length),
     word (match found.drop (p.u 4 4) with
       | [] => 0xFFFFFFFF
       | e :: _ => e.1), 0, 0])

/-! ### Jobs of groups 0x30 to 0x60: GNSS, samples, calibration, supply -/

/-- GNSS_CONFIG sets the settings at once, leaves the thresholds to the next second, keeps held position, anchor and
store, and starts or stops the receiver (R174); the three modes of GNSS_SURVEY wait for the next second (R162);
GNSS_READ_STATUS (R176); GNSS_NOTCH_CONFIG (R169); GNSS_AIDING_LOAD (R175). The model's own choices and readings behind
it: log entries 16, 69, 70. -/
def Obligations.GnssJobsAct : Prop :=
  Gives .gnssConfig gnssConfigDef same always (fun p s t =>
    t.gtr.cfg = { enable := p.u 4 1 == 1, systems := BitVec.ofNat 4 (p.u 5 1), lower := p.bit 6 1, timescale := p.u 7 1
                  domain := Fin.ofNat 4 (p.u 8 1), spiMode := p.u 30 1, spiMhz := p.u 31 1, ifOffset0 := p.i 32 4
                  ifOffset1 := p.i 36 4, feReg := if p.u 40 2 = 0xFFFF then none else some (BitVec.ofNat 16 (p.u 40 2))
                  feMask := BitVec.ofNat 8 (p.u 42 2) } ∧
    t.gtr.nextLimits = some { checkDpll := p.opt 9 8, elevMask := p.u 10 1, cn0Mask := p.u 11 1, timeNs := p.u 12 4
                              windowS := p.u 16 4, clearS := p.u 20 2, cn0MinSats := p.u 22 1, cn0Spread := p.u 23 1
                              cn0Max := p.u 24 1, xbandM := p.u 25 1, posJumpM := p.u 26 2, jam := p.u 28 1
                              checks := BitVec.ofNat 5 (p.u 29 1) } ∧
    (p.block = false → t.gtr.feList = s.gtr.feList ∧ t.gtr.feSent = s.gtr.feSent) ∧
    t.gtr.limits = s.gtr.limits ∧ t.gtr.held = s.gtr.held ∧ t.gtr.anchor = s.gtr.anchor ∧ t.gtr.store = s.gtr.store ∧
    t.gtr.integrity = s.gtr.integrity ∧ t.gtr.excluded = s.gtr.excluded ∧
    (p.u 4 1 = 1 → s.gtr.cfg.enable = false → t.gtr.st = .search) ∧
    (p.u 4 1 = 0 → s.gtr.cfg.enable = true → t.gtr.st = .idle) ∧
    { t with mbx := s.mbx, intc := s.intc, pcu := s.pcu, gtr := s.gtr } = s) ∧
  Waits .gnssSurveyStart gnssSurveyDef (withByte 4 0) always unchanged (fun _ _ => .survey) ∧
  Waits .gnssSurveyLoadPosition gnssSurveyDef (withByte 4 1) always unchanged (fun _ _ => .survey) ∧
  Waits .gnssSurveyReleaseHold gnssSurveyDef (withByte 4 2) always unchanged (fun _ _ => .survey) ∧
  Answers .gnssReadStatus gnssReadStatusDef same always unchanged (fun _ _ s =>
    let g := s.gtr
    let notches := fun b => maskOf 4 fun n => (s.notchOf b n).mode == 2 && (s.notchOf b n).holds.isSome
    [word (g.st.code + 8 * bit g.valid16 + 16 * bit g.valid17 + 32 * bit g.integrity + 2 ^ 6 * g.failed.toNat +
       2 ^ 11 * g.unarmed.toNat + 2 ^ 16 * min 255 g.used.length + 2 ^ 24 * min 255 (g.channels.filter SatObs.tracking).length),
     word (g.jam[(0 : Fin 2)].toNat + 2 ^ 8 * g.jam[(1 : Fin 2)].toNat + 2 ^ 16 * notches 0 + 2 ^ 20 * notches 1 +
       2 ^ 24 * bit g.clockFault + 2 ^ 25 * bit g.feFault + 2 ^ 26 * bit g.surveyShort),
     word (min (2 ^ 32 - 1) g.est16), wordI (max (-(2 ^ 31)) (min (2 ^ 31 - 1) g.dPs))]) ∧
  Acts .gnssNotchConfig gnssNotchConfigDef same always (fun p s =>
    { s with gtr := { s.gtr with notch := vmod s.gtr.notch (p.u 4 1) fun v => vmod v (p.u 5 1) fun _ =>
      let old := s.notchOf (p.u 4 1) (p.u 5 1)
      { mode := Fin.ofNat 3 (p.u 6 1), freq := p.i 8 4, search := p.u 12 4, widthKhz := p.u 16 2, detectDb := p.u 18 1
        holds := old.holds.filter fun f => p.u 6 1 == 2 && decide ((f - p.i 8 4).natAbs ≤ p.u 12 4)
        movedAt := old.movedAt } } }) ∧
  Acts .gnssAidingLoad gnssAidingLoadDef same always (fun p s =>
    { s with gtr := { s.gtr with store := (List.range (p.u 2 2)).foldl (fun l k =>
      let r : AidRecord := { type := BitVec.ofNat 8 (p.u 0 1), body := p.bytes (4 + 64 * k) 64 }
      l.filter (fun x => !(x.type == r.type && (r.type == 3 || x.body.take 2 == r.body.take 2))) ++ [r]) s.gtr.store } })

/-- SAMP_PORT_CONFIG (R338, R339); SAMP_SLOT_MASK, which writes the shadow and waits for a frame sync (R339, R340); the
three forms of SAMP_GROUP_CONFIG (R342, R344, R345); SV_MONITOR_CONFIG and SV_MONITOR_READ (R348, R349). The model's own
choices and readings behind it: log entries 16, 71, 72, 73. -/
def Obligations.SampleJobsAct : Prop :=
  let cfg := fun (p : Params) => ({
    enable := p.u 6 1 == 1, master := p.u 7 1 == 1, view := Fin.ofNat 5 (p.u 8 1), slots := p.u 9 1, dataBits := p.u 10 1
    halfDuty := p.u 11 1 == 1, fsDelay := p.u 12 1, bclkEdge := p.u 13 1 == 1, fsLow := p.u 14 1 == 1
    flagBit := p.u 15 1 == 1, stampSlot := p.opt 16 31, frameHz := p.u 20 4 } : SampDirCfg)
  let chan := fun (p : Params) => ({
    enable := p.u 6 1 == 1, view := Fin.ofNat 5 (p.u 7 1), srcPort := Fin.ofNat 8 (p.u 8 1), srcSlot := Fin.ofNat 32 (p.u 9 1)
    dstPort := Fin.ofNat 8 (p.u 10 1), dstSlot := Fin.ofNat 32 (p.u 11 1), fill := Fin.ofNat 3 (p.u 12 1), group := p.opt 13 8
    delayNs := p.u 16 4 } : SampChanCfg)
  Acts .sampPortConfig sampPortConfigDef same (fun p _ => p.u 6 1 = 1) (fun p s => s.setDir (p.u 4 1) (p.u 5 1) fun y =>
    { y with cfg := cfg p, frame := none, first := none, last := none, rateFault := false, good := 0, badSince := none
             words := [], since := s.tcr.cycles, grid := gridPassed s (cfg p)
             active := 0xFFFFFFFF, shadow := y.shadow.map fun x => (x.1, 0) }) ∧
  Acts .sampPortConfig sampPortConfigDef same (fun p _ => p.u 6 1 = 0) (fun p s =>
    { s with sau := { s.sau with
      dir := vmod s.sau.dir (8 * p.u 5 1 + p.u 4 1) fun y => { y with cfg := cfg p, rateFault := false }
      chan := s.sau.chan.map fun x =>
        if (if p.u 5 1 = 0 then x.cfg.srcPort.val else x.cfg.dstPort.val) = p.u 4 1 then
          { x with ratio := none, clean := 0, tracked := s.tcr.cycles }
        else x } }) ∧
  Waits .sampSlotMask sampSlotMaskDef same always
    (fun p s => { s with sau := { s.sau with
      dir := vmod s.sau.dir (8 * p.u 5 1 + p.u 4 1) fun y =>
        { y with shadow := some (word (p.u 8 4), if y.cfg.enable then 128 * s.tcr.cycles else 0) } } })
    (fun p s => .slotMask (Fin.ofNat 8 (p.u 4 1)) (Fin.ofNat 2 (p.u 5 1)) s.cpx.impressions) ∧
  Acts .sampGroupConfigChannel sampGroupConfigDef (withByte 4 0) always (fun p s => s.setChan (p.u 5 1) fun x =>
    if p.u 6 1 = 1 then { cfg := chan p, tracked := s.tcr.cycles } else { x with cfg := chan p, ratio := none, under := false, clean := 0, stepped := none }) ∧
  Acts .sampGroupConfigGroup sampGroupConfigDef (withByte 4 1) always (fun p s =>
    { s with sau := { s.sau with group := vmod s.sau.group (p.u 5 1) fun _ =>
      { enable := p.u 6 1 == 1, reentry := p.u 8 2, delayNs := p.u 12 4 } } }) ∧
  Answers .sampGroupConfigStatus sampGroupConfigDef (withByte 4 2) always
    (fun _ s => { s with sau := { s.sau with underSeen := 0 } })
    (fun _ p s =>
      [word (maskOf 32 fun c => (s.chanOf c).under), word (maskOf 32 fun c => (s.chanOf c).ratio.isSome), s.sau.underSeen,
       word ((maskOf 8 fun g => s.sau.chan.toList.any fun c => c.under && c.cfg.group.any fun x => x.val == g) +
         (bit (s.dirOf (p.u 5 1) 0).rateFault + 2 * bit (s.dirOf (p.u 5 1) 1).rateFault) * 256)]) ∧
  Acts .svMonitorConfig svMonitorConfigDef same always (fun p s => setStream (p.u 4 2) (fun r =>
    { r with enable := p.u 6 1 == 1, port := Fin.ofNat 24 (p.u 7 1), appid := BitVec.ofNat 16 (p.u 8 2)
             rate := if p.u 10 1 = 0 then 4800 else 14400, view := Fin.ofNat 5 (p.u 11 1), synchMin := Fin.ofNat 3 (p.u 12 1)
             alarmMask := BitVec.ofNat 5 (p.u 13 1), nominal := p.u 14 2, arrivalUs := p.u 16 2, sampleNs := p.u 18 2
             svid := p.bytes 21 (p.u 20 1), lastCnt := none, lastMark := none }) s) ∧
  (∀ (e : Int) (d : Nat), Answers .svMonitorRead svMonitorReadDef same
    (fun p s => (streamOf s (p.u 4 2)).lastE = some e ∧ (streamOf s (p.u 4 2)).lastD = some d)
    (fun p s => if p.bit 6 0 = true ∧ (s.sau.stream.any fun x => x.1 == p.u 4 2) then
      setStream (p.u 4 2) (fun r => { r with sticky := 0, hist := [] }) s else s)
    (fun _ p s =>
      let r := streamOf s (p.u 4 2)
      [word (r.alarms.toNat + r.sticky.toNat * 256 + r.synch.val * 65536), wordI e, word (min (2 ^ 32 - 1) d),
       word (min 65535 r.lastMissing + min 65535 r.lastDups * 65536)]))

/-- CAL_READ_FACTORY and CAL_READ_EFFECTIVE (R380, R383); CAL_WRITE_USER sets or deletes its user item, and does nothing
else for an item that no running function takes up at once (R381, R382); CAL_COMMIT_USER starts its write, or queues
behind the one in progress (R384). The model's own choices and readings behind it: log entries 16, 76, 77. -/
def Obligations.CalibrationJobsAct : Prop :=
  let layer := fun (p : Params) (s : State) => ({ s.cal with
    uncommitted := true
    user := if p.u 6 1 = 1 then s.cal.user.filter fun y => decide (y.item ≠ p.u 4 2)
      else (s.cal.user.filter fun y => decide (y.item < p.u 4 2)) ++ [{ item := p.u 4 2, value := p.i 8 4, unc := p.u 12 4 }] ++
        s.cal.user.filter fun y => decide (p.u 4 2 < y.item) } : Cal)
  Answers .calReadFactory calReadFactoryDef same always unchanged (fun _ p s =>
    [wordI (calFactoryValue (p.u 4 2)), word (calFactoryUnc (p.u 4 2)), word (bit s.cal.crcOk), s.cal.crc]) ∧
  Answers .calReadEffective calReadEffectiveDef same always unchanged (fun _ p s =>
    [wordI (calFactoryValue (p.u 4 2) + calUserValue s (p.u 4 2)), wordI (calUserValue s (p.u 4 2)), word (calUnc s (p.u 4 2)),
     word (bit (calUser s (p.u 4 2)).isSome + 2 * bit s.cal.crcOk + 4 * bit s.cal.uncommitted + 8 * bit s.cal.loadFailed)]) ∧
  Acts .calWriteUser calWriteUserDef same (fun p _ => p.u 4 2 / 256 ∈ [0x21, 0x22, 0x23, 0x40, 0x41])
    (fun p s => { s with cal := layer p s }) ∧
  Gives .calWriteUser calWriteUserDef same always (fun p s t => t.cal = layer p s ∧ t.sec = s.sec ∧ t.srt = s.srt) ∧
  Waits .calCommitUser calCommitUserDef same (fun _ s => ∀ f ∈ s.mbx.flights, f.hold ≠ .flash)
    (fun p s =>
      let seq := max ((copySeq s 0).getD 0) ((copySeq s 1).getD 0) + 1
      let k := s.keySlot (p.u 4 1)
      let c := calSigned { seq := seq, keyId := k.keyId, items := s.cal.user, tag := 0 } k.key
      useKey (p.u 4 1) { s with cal := { s.cal with
        copy := s.cal.copy.set (commitTarget s) none, writing := some (commitTarget s, c), writingAt := s.cpx.impressions } })
    (fun _ _ => .flash) ∧
  Waits .calCommitUser calCommitUserDef same (fun _ s => ∃ f ∈ s.mbx.flights, f.hold = .flash)
    (fun p s => useKey (p.u 4 1) s) (fun _ _ => .flash)

/-- SUP_READ of a rail, of a sensor and of the reset-cause record (R392); SUP_SET_THRESHOLDS where nothing lies beyond
the new threshold (R393); a rail below its new reset threshold resets the engine (R390, R393). The model's own choices
and readings behind it: log entries 10, 16, 84, 121. -/
def Obligations.SupplyJobsAct : Prop :=
  Answers .supRead supReadDef same (fun p _ => p.u 4 1 < 8)
    (fun p s => if p.bit 5 0 then s.setRail (p.u 4 1) fun x => { x with low := x.now, high := x.now, dips := 0 } else s)
    (fun _ p s =>
      let x := vget s.srt.rail (p.u 4 1) { now := 0, low := 0, high := 0 }
      [word x.now, word x.low, word x.high, word x.dips]) ∧
  Answers .supRead supReadDef same (fun p _ => 8 ≤ p.u 4 1 ∧ p.u 4 1 < 13)
    (fun p s => if p.bit 5 0 then s.setSensor (p.u 4 1 - 8) fun x => { x with low := x.now, high := x.now, crossings := 0 } else s)
    (fun _ p s =>
      let x := vget s.srt.sensor (p.u 4 1 - 8) {}
      [wordI x.now, wordI x.low, wordI x.high, word x.crossings]) ∧
  Answers .supRead supReadDef same (fun p _ => p.u 4 1 = 13) unchanged (fun _ _ s =>
    [word (s.srt.cause.kind.toNat + s.srt.cause.detail.toNat * 256), s.srt.cause.coarse, s.srt.cause.chips.setWidth 32, 0]) ∧
  Acts .supSetThresholds supSetThresholdsDef same
    (fun p s => ∃ r : Fin 8, p.u 4 1 = r.val ∧ (s.srt.rail[r].below = true ∨
      (if r.val = 7 then p.u 8 2 else ceilDiv (railNominal r * (1000 - p.u 8 2)) 1000) ≤ s.srt.rail[r].now) ∧
      (r.val < 7 → ceilDiv (railNominal r * (1000 - p.u 10 2)) 1000 ≤ s.srt.rail[r].now))
    (fun p s => s.setRail (p.u 4 1) fun x => { x with warn := p.u 8 2, rst := p.u 10 2 }) ∧
  Acts .supSetThresholds supSetThresholdsDef same
    (fun p s => 8 ≤ p.u 4 1 ∧ ((vget s.srt.sensor (p.u 4 1 - 8) {}).hot = true ∨
      (vget s.srt.sensor (p.u 4 1 - 8) {}).now ≤ p.i 8 2 * 64))
    (fun p s => s.setSensor (p.u 4 1 - 8) fun x => { x with high1 := p.i 8 2 }) ∧
  Gives .supSetThresholds supSetThresholdsDef same
    (fun p s => ∃ r : Fin 8, p.u 4 1 = r.val ∧ r.val < 7 ∧ s.srt.rail[r].now < ceilDiv (railNominal r * (1000 - p.u 10 2)) 1000)
    (fun p s t => t.cpx.phase = .inReset ∧ t.srt.cause.kind = 1 ∧ t.srt.cause.detail = BitVec.ofNat 8 (p.u 4 1) ∧
      t.srt.cause.chips = 0 ∧ t.mbx.flights = [] ∧ t.sec.root = s.sec.root ∧ t.sec.tamper = s.sec.tamper)

/-! ### Host accesses (R45–R76, R313, R357–R359, R368–R370) -/

/-- MBX_CQ_TAIL and MBX_CC_HEAD: a TAIL that stays within 256 of HEAD and does not move back, and a CHEAD that neither
passes CTAIL nor moves back, are taken; any other leaves the index, sets DOORBELL_ERROR and raises source 5 (R60). -/
def Obligations.RefusedIndexWritesKeepTheIndex : Prop :=
  (∀ (r : RingId) (v : Word) (s : State), s.clocked = true → (r.val = 4 → s.srt.straps.swin = true) →
    let g := s.ring r.val
    let x := v.setWidth 16
    if (x - g.head).toNat ≤ 256 ∧ (g.tail - g.head).toNat ≤ (x - g.head).toNat then
      exec (.mbxCqTail r v) s = .next (s.setRing r.val fun g => { g with tail := x })
    else ∃ t, exec (.mbxCqTail r v) s = .next t ∧
      t = { s.setRing r.val (fun g => { g with doorbellError := true }) with intc := t.intc } ∧ Raised 0x20 s t) ∧
  (∀ (r : RingId) (v : Word) (s : State), s.clocked = true → (r.val = 4 → s.srt.straps.swin = true) →
    let g := s.ring r.val
    let x := v.setWidth 16
    if (x - g.chead).toNat ≤ (g.ctail - g.chead).toNat then
      exec (.mbxCcHead r v) s = .next (s.setRing r.val fun g =>
        { g with chead := x, unconsumed := g.unconsumed.drop (x - g.chead).toNat })
    else ∃ t, exec (.mbxCcHead r v) s = .next t ∧
      t = { s.setRing r.val (fun g => { g with doorbellError := true }) with intc := t.intc } ∧ Raised 0x20 s t)

/-- INTC_STATUS clears the bits written, but those of sources whose condition still holds; INTC_MASK keeps bit 31 at 0
and in MSI-X mode sends a message for each source that becomes pending; INTC_MODE keeps pin mode in SPI mode and sends a
message for each pending source when MSI-X begins; CC_HOLDOFF_EXPIRY raises the source of a ring whose trigger holds
(R51, R73–R75). The model's own choices and readings behind it: log entries 85, 92. -/
def Obligations.InterruptRegistersAct : Prop :=
  (∀ (v : Word) (s : State), s.clocked = true → (∀ r : RingId, ccTrigger (s.ring r.val) = false) →
    exec (.intcStatus v) s = .next { s with intc := { s.intc with status := s.intc.status &&& ~~~v } }) ∧
  (∀ (v : Word) (s : State) (r : RingId), s.clocked = true → ccTrigger (s.ring r.val) = true →
    (r.val = 4 → s.srt.straps.swin = true) →
    ∃ t, exec (.intcStatus v) s = .next t ∧ t.intc.status.getLsbD r.val = true ∧
      { t with intc := s.intc } = s ∧ ∀ n : Fin 32, 5 ≤ n.val → t.intc.status.getLsbD n.val = (s.intc.status &&& ~~~v).getLsbD n.val) ∧
  (∀ (v : Word) (s : State), s.clocked = true →
    exec (.intcMask v) s = .next { s with intc := { s.intc with
      mask := v &&& 0x7FFFFFFF
      sent := if s.intc.pin then s.intc.sent else s.intc.sent ++
        ((List.finRange 32).filter fun n => s.intc.status.getLsbD n.val && s.intc.mask.getLsbD n.val &&
          !(v &&& 0x7FFFFFFF).getLsbD n.val).map fun n => s.intc.map[n] } }) ∧
  (∀ (v : Word) (s : State), s.clocked = true →
    exec (.intcMode v) s = .next (if s.srt.straps.spi then s else { s with intc := { s.intc with
      pin := v.getLsbD 0
      sent := if s.intc.pin = true ∧ v.getLsbD 0 = false then s.intc.sent ++
          ((List.finRange 32).filter fun n => s.intc.status.getLsbD n.val && !s.intc.mask.getLsbD n.val).map fun n => s.intc.map[n]
        else s.intc.sent } })) ∧
  (∀ r : RingId, Moves (.ccHoldoffExpiry r)
    (fun s => ccTrigger (s.ring r.val) = true ∧ (r.val = 4 → s.srt.straps.swin = true)) (BitVec.ofNat 32 (2 ^ r.val)) id)

/-- TSNAP_LATCH latches all four domains and counts; FCO_ACK clears the classes of its mask, in Window N all but 1 and
6; PCU_CNT_LO_READ answers the lower word and latches the upper one, and zero where Window N may not read the counter
(R76, R306, R357, R359, R369, R370). The model's own choices and readings behind it: log entries 13, 14. -/
def Obligations.LatchAndAcknowledgeRegistersAct : Prop :=
  (∀ (v : Word) (s : State), s.clocked = true → s.sec.part.getLsbD 6 = false →
    ∃ t, exec (.tsnapLatch v) s = .next t ∧ { t with tsnap := s.tsnap } = s ∧ t.tsnap.seq = s.tsnap.seq + 1 ∧
      ∀ d : Fin 4, t.tsnap.dom[d].time = timeNow s d.val ∧ t.tsnap.dom[d].bound = BitVec.ofNat 48 (viewBound s d.val) ∧
        t.tsnap.dom[d].growth = BitVec.ofInt 32 (viewGrowth s d.val)) ∧
  (∀ (w : Window) (v : Word) (s : State), s.clocked = true → (w = .s → s.srt.straps.swin = true) →
    exec (.fcoAck w v) s = .next { s with fco := { s.fco with cls := (Vector.ofFn fun (c : Fin 8) =>
      if v.getLsbD c.val = true ∧ (w = .n → c.val ≠ 1 ∧ c.val ≠ 6) then {} else s.fco.cls[c]) } }) ∧
  (∀ (w : Window) (n : Fin 64) (s : State), s.clocked = true → (w = .s → s.srt.straps.swin = true) →
    (w = .n → s.sec.part.getLsbD 16 = false) →
    exec (.pcuCntLoRead w n) s = .next (
      if w = .s ∨ s.pcu.ctr[n].userRead = true then
        { s with mbx := { s.mbx with readData := (s.pcu.ctr[n].count.setWidth 32).setWidth 64 }
                 pcu := { s.pcu with latch := vmod s.pcu.latch (if w = .n then 0 else 1) (fun _ => some (n, s.pcu.ctr[n].count.extractLsb' 32 16)) } }
      else { s with mbx := { s.mbx with readData := 0 } }))

/-- An aligned access of 4 or 8 bytes to ring memory or staging writes or reads exactly its bytes; an offset that is not
listed reads zero and discards a write; a misaligned or wrongly sized access is discarded, reads zero and raises source
33; one across worlds is discarded, reads zero, counts and raises source 32; in SPI mode a transaction of one word is
that access, and an unknown command, or one of an absent Window S, is ignored (R45–R49, R306, R312, R313). The model's
own choices and readings behind it: log entries 17, 86, 91. -/
def Obligations.HostAccessReachesItsPlace : Prop :=
  (∀ (a : HostAccess) (s : State) (x : Nat) (v : BitVec 64), Inv s → s.clocked = true → a.wire = [] → windowPresent s a.win = true →
    placeOf s a = .memory x → (a.size = 4 ∨ a.size = 8) → a.off.toNat % a.size = 0 → a.data = some v →
    ∃ t, exec (.registerWrite a) s = .next t ∧ { t with mbx := { t.mbx with mem := s.mbx.mem } } = s ∧
      (∀ i, i < a.size → Memory.read t.mbx.mem (x + i) = v.extractLsb' (8 * i) 8) ∧
      ∀ y, (y < x ∨ x + a.size ≤ y) → Memory.read t.mbx.mem y = Memory.read s.mbx.mem y) ∧
  (∀ (a : HostAccess) (s : State) (x : Nat), s.clocked = true → a.wire = [] → windowPresent s a.win = true →
    placeOf s a = .memory x → (a.size = 4 ∨ a.size = 8) → a.off.toNat % a.size = 0 → a.data = none →
    exec (.registerWrite a) s = .next { s with mbx := { s.mbx with
      readData := BitVec.ofNat 64 (leNat (Memory.readBytes s.mbx.mem x a.size)) } }) ∧
  (∀ (a : HostAccess) (s : State), s.clocked = true → a.wire = [] → windowPresent s a.win = true → placeOf s a = .reserved → a.size = 4 →
    a.off.toNat % 4 = 0 →
    exec (.registerWrite a) s = .next (if a.data.isSome then s else { s with mbx := { s.mbx with readData := 0 } })) ∧
  (∀ a : HostAccess, Reports (.registerWrite a)
    (fun s => s.clocked = true ∧ a.wire = [] ∧ windowPresent s a.win = true ∧ aligned (placeOf s a) a = false) 33 a.off.toNat 0
    (fun s => if a.data.isSome then s else { s with mbx := { s.mbx with readData := 0 } })) ∧
  (∀ a : HostAccess, Reports (.registerWrite a)
    (fun s => s.clocked = true ∧ a.wire = [] ∧ windowPresent s a.win = true ∧ aligned (placeOf s a) a = true ∧
      crossesWorlds s (placeOf s a) a.win = true) 32 a.off.toNat 0
    (fun s =>
      let t := { s with sec := { s.sec with denials := BitVec.ofNat 16 (min 65535 (s.sec.denials.toNat + 1)) } }
      if a.data.isSome then t else { t with mbx := { t.mbx with readData := 0 } })) ∧
  (∀ (a : HostAccess) (w : Window) (x : BitVec 24) (v : Word) (s : State), s.clocked = true → s.srt.straps.spi = true →
    (w = .s → s.srt.straps.swin = true) →
    a.wire = (if w = .n then 0x02 else 0x12) :: (beBytes 3 x.toNat ++ leBytes 4 v.toNat) →
    exec (.registerWrite a) s = .next (
      let t := hostAccess { win := w, off := x, size := 4, data := some (v.setWidth 64) } s
      { t with mbx := { t.mbx with spiOut := List.replicate 8 0 } })) ∧
  (∀ (a : HostAccess) (w : Window) (x : BitVec 24) (s : State), s.clocked = true → s.srt.straps.spi = true →
    (w = .s → s.srt.straps.swin = true) →
    a.wire = (if w = .n then 0x03 else 0x13) :: (beBytes 3 x.toNat ++ List.replicate 8 0) →
    exec (.registerWrite a) s = .next (
      let t := hostAccess { win := w, off := x, size := 4, data := none } s
      { t with mbx := { t.mbx with spiOut := List.replicate 8 0 ++ leBytes 4 t.mbx.readData.toNat } })) ∧
  (∀ (a : HostAccess) (c : Byte) (rest : List Byte) (s : State), s.clocked = true → s.srt.straps.spi = true →
    a.wire = c :: rest → c ≠ 0x02 → c ≠ 0x03 → ((c = 0x12 ∨ c = 0x13) → s.srt.straps.swin = false) →
    exec (.registerWrite a) s = .next { s with mbx := { s.mbx with spiOut := List.replicate a.wire.length 0 } })

/-! ### Events of time (R22, R27–R35, R41, R85–R103, R111–R118) -/

/-- IMPRESSION_BOUNDARY and SECOND_BOUNDARY (R27, R98, R400): time runs on to the boundary, the sequencer numbers the
new impression, the counters move as their frequencies say; a chip reset or a restart that waits begins; at impression 0
leap seconds apply, the coarse seconds load and source 7 rises. The model's own choices and readings behind it: log
entries 14, 26, 27, 28. -/
def Obligations.BoundariesBegin : Prop :=
  (∀ b : BoundaryIn, b.overrun = 0 → Leads (.impressionBoundary b)
    (fun s => sequences s ∧ quiet s ∧ defaultSources s)
    (fun s t =>
      let l := nextBoundary s
      t.cpx.impressions = s.cpx.impressions + 1 ∧ t.cpx.phase = s.cpx.phase ∧
      t.tcr.seq = { l.seq with overran := 0 } ∧ t.tcr.cycles = s.tcr.cycles + l.cycles ∧ t.tcr.active = s.tcr.active ∧
      t.tcr.remainder = remainderAfter s l.cycles ∧ (∀ d : Fin 4, t.tcr.dom[d].count = countAfter s d.val l.cycles) ∧
      t.mbx.mem = s.mbx.mem ∧ t.mbx.flights = [])) ∧
  (∀ b : BoundaryIn, Leads (.impressionBoundary b)
    (fun s => sequences s ∧ s.cpx.chipResetDue = true)
    (fun _ t => t.cpx.phase = .inReset ∧ t.srt.cause.kind = 4 ∧ t.srt.cause.detail = 0 ∧ t.mbx = {})) ∧
  (∀ (b : BoundaryIn) (reload : Bool), Leads (.impressionBoundary b)
    (fun s => sequences s ∧ s.fwRuns = true ∧ s.cpx.chipResetDue = false ∧ s.cpx.warmDue = some reload ∧ defaultSources s)
    (fun s t =>
      t.cpx.warm = some { byJob := true, reload := reload, since := s.cpx.impressions + 1 } ∧ t.cpx.warmDue = none ∧
      t.mbx.restarting = true ∧ t.mbx.fwReady = false ∧ (∀ r : RingId, (t.ring r.val).frozen = true) ∧
      t.mbx.flights = s.mbx.flights.map (fun f => { f with spanned := true }) ∧ t.mbx.mem = s.mbx.mem)) ∧
  (∀ b : BoundaryIn, b.overrun = 0 → Leads (.secondBoundary b)
    (fun s => sequences s ∧ quiet s ∧ defaultSources s ∧ (nextBoundary s).seq.imp = 0)
    (fun s t =>
      let l := nextBoundary s
      t.tcr.seq.imp = 0 ∧ t.tcr.seq.second = l.seq.second ∧ t.tcr.cycles = s.tcr.cycles + l.cycles ∧
      t.intc.status.getLsbD 7 = true ∧
      (s.blockRuns 7 = true → t.ehu.holdDue = true ∧
        ∀ k : Fin 8, ∃ e, t.ehu.hold[k].closed = e :: s.ehu.hold[k].closed ∧ e.second = l.seq.second - 1) ∧
      (∀ d : Fin 4, t.tcr.dom[d].utcOffset = s.tcr.dom[d].utcOffset +
        (if s.tcr.dom[d].leapSecond ≤ countAfter s d.val l.cycles / 10 ^ 42 ∧
            (s.tcr.active ≠ d ∨ s.tcr.dom[d].leapSecond ≤ viewAfter s l.cycles / 10 ^ 42) then
          (match s.tcr.dom[d].leap with
           | .none => 0
           | .insert => 1
           | .delete => -1)
         else 0)) ∧
      (s.tcr.dom[s.tcr.active].valid = true → t.srt.coarseValid = true ∧ t.srt.coarseNs = 0 ∧
        t.srt.coarse = viewAfter s l.cycles / 10 ^ 42)))

/-- IMPOSITION_CHANGE, TIME_STEP_LAND, HANDOVER_REMAINDER_ZERO, SLEW_END, PHASE_STEP_MOVEMENT_END, CONFIRMATION_END and
SUPPLY_CHARGE_RELEASE (R35, R41, R42, R92, R93, R101, R113, R116, R150): what each leaves of the imposition, the
counters, the movements and the ledgers. The model's own choices and readings behind it: log entries 14, 25, 26, 27, 39,
79, 97, 100. -/
def Obligations.TimeEventsAct : Prop :=
  (∀ new : Imposition, Leads .impositionChange
    (fun s => sequences s ∧ s.fwRuns = true ∧ settled s (fun h => h == .imposition) ∧ defaultSources s ∧
      s.cpx.nextImposition = some new ∧ (nextBoundary s).seq.imp = 0)
    (fun s t =>
      let cleared := fun i => (poolAreas s.cpx.imposition)[i]? != (poolAreas new)[i]?
      let span := archiveSpan new / max 1 (archivedCount s)
      t.cpx.imposition = new ∧ t.cpx.nextImposition = none ∧ t.cpx.impositionLate = false ∧ t.mbx.flights = [] ∧
      t.tcr.seq.imp = 0 ∧ t.tcr.cycles = s.tcr.cycles + (nextBoundary s).cycles ∧
      t.gtr.store = (if cleared 0 then [] else s.gtr.store) ∧
      (∀ k : Fin 8,
        let h := s.ehu.hold[k]
        t.ehu.hold[k].hist = (if cleared 1 && h.archive then [] else h.hist) ∧
        t.ehu.hold[k].windowS = (if h.archive = true ∧ span < spanOf s k.val ∧ span < h.windowS + h.guardS then span - h.guardS
          else h.windowS)) ∧
      t.sau.stream = (if cleared 2 then s.sau.stream.map (fun y => (y.1, svCleared y.2)) else s.sau.stream) ∧
      t.peu.fifo = (if cleared 3 then [] else s.peu.fifo) ∧ t.tpe.ledger = (if cleared 4 then [] else s.tpe.ledger))) ∧
  (∀ (d : DomId) (p : PendingStep), Leads (.timeStepLand d)
    (fun s => s.clocked = true ∧ s.clockOk = true ∧ s.tcr.dom[d].pending = some p ∧ s.tcr.dom[d].count % 10 ^ 42 < 10 ^ 33 ∧
      s.tcr.dom[d].ledger.modelLost = false ∧
      ∀ r, p = .adopt r → s.tcr.dom[d].timeSource = some r ∧ givesTod s r.val = true)
    (fun s t =>
      t.tcr.dom[d].count = (match p with
        | .absolute sec _ => sec * 10 ^ 42
        | .relative iv _ => ((s.tcr.dom[d].count : Int) + iv * ivlU).toNat
        | .return o => ((s.tcr.dom[d].count : Int) - o).toNat
        | .adopt r => stepTarget s d.val (.adopt r)) ∧
      t.tcr.dom[d].valid = true ∧ t.tcr.dom[d].slew = none ∧ t.tcr.dom[d].pending = none ∧ t.tcr.dom[d].ledger.known = true ∧
      (∀ e : Fin 4, e ≠ d → t.tcr.dom[e] = s.tcr.dom[e]) ∧ t.tcr.cycles = s.tcr.cycles ∧
      (s.tcr.active ≠ d → t.tcr.seq.realign = s.tcr.seq.realign ∧ t.tcr.seq.imp = s.tcr.seq.imp) ∧
      (s.tcr.active = d → t.tcr.seq.realign.isSome = true))) ∧
  (∀ (d : DomId) (p : PendingStep) (n : Nat), Leads (.timeStepLand d)
    (fun s => s.clocked = true ∧ s.clockOk = true ∧ s.tcr.dom[d].pending = some p ∧
      (∀ r, p = .adopt r → s.tcr.dom[d].timeSource = some r ∧ givesTod s r.val = true) ∧
      10 ^ 33 ≤ s.tcr.dom[d].count % 10 ^ 42 ∧
      comesAt s (fun m => (s.tcr.dom[d].count / 10 ^ 42 + 1) * 10 ^ 42 ≤ countAfter s d.val m) n ∧
      countAfter s d.val n % 10 ^ 42 < 2 * 10 ^ 33)
    (fun s t =>
      t.tcr.dom[d].count = stepTarget (advance n s) d.val p ∧ t.tcr.dom[d].valid = true ∧ t.tcr.dom[d].pending = none ∧
      t.tcr.cycles = s.tcr.cycles + n ∧ ∀ e : Fin 4, e ≠ d → t.tcr.dom[e].count = countAfter s e.val n)) ∧
  (∀ n, Moves .handoverRemainderZero (fun s => s.clocked = true ∧ comesAt s (fun m => remainderAfter s m = 0) n) 0
    (fun s => { advance n s with tcr := { (advance n s).tcr with remainder := 0 } })) ∧
  (∀ (d : DomId) (n : Nat), Moves (.slewEnd d)
    (fun s => s.clocked = true ∧ comesAt s (fun m => slewRemainder s d.val - slewPart s d.val m = 0) n) 0
    (fun s => (advance n s).setDom d.val fun x => { x with slew := none })) ∧
  (∀ (k : DpllId) (n : Nat), Moves (.phaseStepMovementEnd k)
    (fun s => s.clocked = true ∧ comesAt s (fun m => (s.dpllOf k.val).moving - movePart s k.val m = 0) n) 0
    (fun s => (advance n s).setDpll k.val fun x => { x with moving := 0, stepMoving := false })) ∧
  (∀ (d : DomId) (r : Fin 32) (n : Nat), Sets (.confirmationEnd d)
    (fun s => s.fwRuns = true ∧ s.tcr.dom[d].ledger.confirming = some n ∧ 8000 * s.tcr.dom[d].confirmS ≤ n ∧
      followedRef s d.val = some r.val)
    (fun s => s.setLedger d.val fun g =>
      { g with cHold := 0, cSupply := if s.srt.dip = true ∧ g.modelLost = false then g.cSupply else 0
               cRef := refUnc s r.val * psL, confirmed := true
               everConfirmed := true, confirming := none, holdover := false, known := g.known || s.tcr.dom[d].valid
               modelLost := false, sinceConfirm := 0, sinceImp := 0, updImpression := s.tcr.seq.imp, updSecond := BitVec.ofNat 48 s.tcr.seq.second })) ∧
  (∀ (d : DomId) (k : Fin 8) (r : Fin 32), Sets (.supplyChargeRelease d)
    (fun s => s.srt.dip = false ∧ s.tcr.dom[d].dpll = some k ∧ s.dsb.dpll[k].selected = some r ∧ follows s.dsb.dpll[k] = true ∧
      isTimeRef s r.val = true ∧ s.rim.ref[r].st = .qualified ∧ s.tcr.dom[d].ledger.holdover = false ∧
      s.tcr.dom[d].ledger.confirming = none ∧ ∀ c, s.srt.dipEnded = some c → c + 16 * 10 ^ 9 ≤ s.tcr.cycles)
    (fun s => s.setLedger d.val fun g => { g with cSupply := 0 }))

/-- SECOND_CROSSING gives each PPS, IRIG and TOD generator of the view its pulse, frame or due message where its gate is
open; TOD_MESSAGE_SEND sends the message of the oldest second due; EVENT_EDGE queues a record or counts a rejection or a
drop; EVENT_QUEUE_DRAIN moves the queues into the FIFO (R202–R219). The model's own choices and readings behind it: log
entries 25, 48, 87, 99, 103. -/
def Obligations.PulseEventsAct : Prop :=
  (∀ v : ViewId, Leads (.secondCrossing v)
    (fun s => s.clocked = true ∧ s.clockOk = true ∧ s.blockRuns 10 = true ∧ viewCount s v.val % 10 ^ 42 < 10 ^ 33 ∧
      (s.domain (viewDomain s v.val)).pending = none)
    (fun s t =>
      let sec := viewCount s v.val / 10 ^ 42
      let far := fun (last : Option Int) (at' : Int) => ∀ l, last = some l → 500000000000 ≤ at' - l
      { t with peu := s.peu, pcu := s.pcu, intc := s.intc } = s ∧
      (∀ n : Fin 4,
        let x := s.peu.pps[n]
        let edge := crossingPs s v.val + x.delayPs - calValue s (0x2100 + n.val)
        let due := x.st = .running ∧ x.view = v ∧ sec % x.period = x.phase ∧ x.startFrom ≤ s.tcr.cycles ∧ gateOpen s v.val x.gate = true
        (due ∧ far x.last edge → t.peu.pps[n] =
          { x with last := some edge, lastEnd := some (edge + x.widthNs * 1000), lastInverted := x.inverted }) ∧
        (¬(due ∧ far x.last edge) → t.peu.pps[n] = x)) ∧
      (∀ n : Fin 2,
        let x := s.peu.irig[n]
        let start := crossingPs s v.val + x.delayPs - calValue s (0x2200 + n.val)
        let due := x.view = v ∧ x.st = .running ∧ gateOpen s v.val x.gate = true ∧ far x.last start
        (due → t.peu.irig[n] = { x with frame := some (irigFrame s x sec), frameManchester := x.manchester, last := some start }) ∧
        (¬due → t.peu.irig[n] = x)) ∧
      (∀ n : Fin 2,
        let x := s.peu.tod[n]
        let due := x.view = v ∧ x.st = .running ∧ gateOpen s v.val x.gate = true ∧ ∀ l, x.last = some l → l + 500000000 ≤ s.tcr.cycles
        (due → t.peu.tod[n] = { x with due := x.due ++ [(sec, s.tcr.cycles)], last := some s.tcr.cycles }) ∧
        (¬due → t.peu.tod[n] = x)) ∧
      { t.peu with pps := s.peu.pps, irig := s.peu.irig, tod := s.peu.tod } = s.peu)) ∧
  (∀ (n : Fin 2) (sec c : Nat) (rest : List (Nat × Nat)), Sets (.todMessageSend n)
    (fun s => s.blockRuns 10 = true ∧ s.clockOk = true ∧ s.peu.tod[n].st = .running ∧ s.peu.tod[n].due = (sec, c) :: rest ∧
      todStart s.peu.tod[n] c ≤ s.tcr.cycles)
    (fun s => s.setTod n.val fun y =>
      { y with due := rest, seq := y.seq + 1
               line := some { start := nowPs s, baud := y.baud, bytes := todMessage s s.peu.tod[n] sec }
               sent := y.sent ++ (match y.line with
                 | some m => [m.bytes]
                 | none => []) })) ∧
  (∀ (i : Fin 16) (falling : Bool) (stamp heldNs levelNs : Nat),
    let e := Instr.eventEdge i falling stamp heldNs levelNs
    let wanted := fun (s : State) => s.blockRuns 10 = true ∧ s.peu.evt[i].enable = true ∧
      (s.peu.evt[i].edge = 2 ∨ (s.peu.evt[i].edge = 1 ↔ falling = true))
    let passes := fun (s : State) => s.peu.evt[i].filterNs ≤ heldNs ∧ s.peu.evt[i].filterNs ≤ levelNs
    Moves e (fun s => s.blockRuns 10 = true ∧ s.peu.evt[i].enable = true ∧ heldNs < s.peu.evt[i].filterNs) 0 id ∧
    Sets e (fun s => s.peu.evt[i].filterNs ≤ heldNs ∧ (levelNs < s.peu.evt[i].filterNs ∨ ¬wanted s)) id ∧
    Leads e (fun s => wanted s ∧ passes s ∧ s.peu.evt[i].queue.length < 64)
      (fun s t =>
        { t with peu := s.peu, intc := s.intc, pcu := s.pcu } = s ∧
        (∀ n : Fin 16, n ≠ i → t.peu.evt[n] = s.peu.evt[n]) ∧ { t.peu with evt := s.peu.evt } = s.peu ∧
        ∃ rec' : BitVec 256, t.peu.evt[i] = { s.peu.evt[i] with
            seq := s.peu.evt[i].seq + 1, blind := false, queue := s.peu.evt[i].queue ++ [rec'] } ∧
          rec'.extractLsb' 128 4 = BitVec.ofNat 4 i.val ∧ rec'.getLsbD 132 = falling ∧ rec'.getLsbD 136 = s.peu.evt[i].blind ∧
          rec'.extractLsb' 144 16 = s.peu.evt[i].seq ∧ rec'.extractLsb' 224 32 = BitVec.ofNat 32 (min (2 ^ 32 - 1) levelNs)) ∧
    Moves e (fun s => wanted s ∧ passes s ∧ 64 ≤ s.peu.evt[i].queue.length) 0x1000
      (fun s => { s with peu := { s.peu with
        evt := s.peu.evt.set i.val { s.peu.evt[i] with seq := s.peu.evt[i].seq + 1 }
        drops := min (2 ^ 32 - 1) (s.peu.drops + 1), overflow := true } })) ∧
  Leads .eventQueueDrain (fun s => s.blockRuns 10 = true)
    (fun s t =>
      let all := s.peu.evt.toList.flatMap fun x => x.queue
      let room := fifoCapacity s - s.peu.fifo.length
      { t with peu := s.peu, intc := s.intc, pcu := s.pcu } = s ∧
      { t.peu with evt := s.peu.evt, fifo := s.peu.fifo, drops := s.peu.drops, overflow := s.peu.overflow } = s.peu ∧
      t.peu.fifo = s.peu.fifo ++ all.take room ∧ (∀ i : Fin 16, t.peu.evt[i] = { s.peu.evt[i] with queue := [] }) ∧
      (room < all.length → t.peu.overflow = true ∧ t.intc.status.getLsbD 12 = true ∧
        (s.peu.drops < 2 ^ 32 → t.peu.drops = min (2 ^ 32 - 1) (s.peu.drops + (all.length - room)))) ∧
      (all.length ≤ room → t.peu.drops = s.peu.drops ∧ t.peu.overflow = s.peu.overflow))

/-! ### Events of references, DPLLs, the ensemble and holdover (R104–R109, R121–R152) -/

/-- ENSEMBLE_CYCLE takes up the settings that wait and gives weight to none but enabled members with a source;
DEWEIGHT_END begins the ramp; HOLDOVER_RECOMPUTE archives the seconds that have ended; HOLDOVER_UPDATE follows the
model; OSC_STEER_UPDATE sends the code (R34, R105–R108, R114, R144–R146, R152). The model's own choices and readings
behind it: log entries 3, 25, 28, 74, 75. -/
def Obligations.EnsembleAndHoldoverEventsAct : Prop :=
  (∀ phases : List Int, Leads (.ensembleCycle phases)
    (fun s => s.fwRuns = true ∧ s.blockRuns 7 = true ∧ s.clockOk = true ∧ s.ehu.due = true ∧ defaultSources s)
    (fun s t =>
      t.ehu.policy = s.ehu.nextPolicy.getD s.ehu.policy ∧ t.ehu.nextPolicy = none ∧ t.ehu.lag = 0 ∧
      t.ehu.due = s.ehu.late ∧ t.ehu.late = false ∧
      (∀ m : Fin 8,
        let cfg := s.ehu.member[m].next.getD s.ehu.member[m].cfg
        t.ehu.member[m].next = none ∧ t.ehu.member[m].cfg = cfg ∧
        (cfg.enable = false ∨ cfg.source = .unassigned → t.ehu.member[m].weight = 0) ∧
        (∀ p, phases[m.val]? = some p → cfg.enable = true →
          (cfg.source = .localOscillator ∨ ∃ r : Fin 32, cfg.source = .ref r ∧ (s.refEntry r.val).enable = true ∧ (s.refEntry r.val).los = false) →
          t.ehu.member[m].phasePs = some p)) ∧
      (∀ f ∈ t.mbx.flights, f ∈ s.mbx.flights ∧ f.hold ≠ .cycle) ∧ t.ehu.hold = s.ehu.hold ∧ t.ehu.steer = s.ehu.steer)) ∧
  (∀ (m : Fin 8) (n : Nat), Leads (.deweightEnd m)
    (fun s => s.fwRuns = true ∧ s.blockRuns 7 = true ∧ s.ehu.member[m].dew = .zero n ∧ s.ehu.policy.deweightS ≤ n)
    (fun s t =>
      t.ehu = { s.ehu with member := (s.ehu.member.set m.val
        { s.ehu.member[m] with dew := if s.ehu.policy.reinstateS = 0 then .none else .ramp 0 }) } ∧
      (∀ r : Fin 32, t.rim.ref[r] =
        if memberRef s.ehu.member[m] = some r then { s.rim.ref[r] with outlierNow := false } else s.rim.ref[r]) ∧
      { t.rim with ref := s.rim.ref } = s.rim ∧ { t with ehu := s.ehu, rim := s.rim } = s)) ∧
  Sets .holdoverRecompute (fun s => s.cpx.warm.isSome = true ∨ s.ehu.holdDue = false) id ∧
  Leads .holdoverRecompute (fun s => s.blockRuns 7 = true ∧ s.fwRuns = true ∧ s.ehu.holdDue = true)
    (fun s t =>
      { t with ehu := { t.ehu with hold := s.ehu.hold, holdDue := s.ehu.holdDue, holdLate := s.ehu.holdLate } } = s ∧
      t.ehu.holdDue = s.ehu.holdLate ∧ t.ehu.holdLate = false ∧
      ∀ k : Fin 8,
        let h := s.ehu.hold[k]
        let keep := if s.ehu.holdLate then 1 else 0
        t.ehu.hold[k].hist = (h.closed.drop keep ++ h.hist).take (spanOf s k.val) ∧
        t.ehu.hold[k].closed = h.closed.take keep ∧
        t.ehu.hold[k].value = holdoverValue t k.val s.tcr.seq.second ∧ t.ehu.hold[k].used = h.used) ∧
  (∀ (k : DpllId) (v : HoldValue), Sets (.holdoverUpdate k)
    (fun s => s.fwRuns = true ∧ s.dsb.dpll[k].st = .holdover ∧ s.ehu.hold[k].used = some v)
    (fun s =>
      let n := lostFor s s.dsb.dpll[k]
      { s with
        dsb := { s.dsb with dpll := (s.dsb.dpll.set k.val
          { s.dsb.dpll[k] with control := holdFreq s k.val v n, inUse := some (holdFreq s k.val v n) }) }
        tcr := { s.tcr with dom := (Vector.ofFn fun (d : Fin 4) =>
          if s.tcr.dom[d].dpll = some k then
            { s.tcr.dom[d] with ledger := { s.tcr.dom[d].ledger with growthFs := holdGrowth s k.val v n } }
          else s.tcr.dom[d]) } })) ∧
  (∀ k : Fin 8, Leads .oscSteerUpdate
    (fun s => s.fwRuns = true ∧ s.ehu.steer.dpll = some k ∧ steerGain s ≠ 0 ∧ steerDue s = true)
    (fun s t =>
      let x := s.ehu.steer
      let last : Int := (x.lastCode.getD x.centre : Nat)
      let want : Int := x.centre + round ((s.dsb.dpll[k].control : ℚ) / steerGain s)
      let code := (max 0 (min (2 ^ x.dacBits - 1) (max (last - x.maxStep) (min (last + x.maxStep) want)))).toNat
      t.ehu.steer.lastCode = some code ∧ t.ehu.steer.sentAt = some s.cpx.impressions ∧ t.ehu.steer.applied = ((code : Int) - x.centre) * steerGain s ∧
      t.ehu.steer.residue = s.dsb.dpll[k].control - t.ehu.steer.applied ∧
      (∃ b, t.ehu.steer.sent = x.sent ++ [(code, b)] ∧ (x.serial = false → b = [])) ∧
      { t with ehu := { t.ehu with hold := s.ehu.hold, steer := s.ehu.steer } } = s))

/-- REF_EDGE and REF_LOS move the state of an entry; QUALIFICATION_END and DRIFT_CLEAR qualify it; WTR_EXPIRY restores a
candidate (R123, R124, R127, R128, R135). The model's own choices and readings behind it: log entry 25. -/
def Obligations.ReferenceEventsAct : Prop :=
  (∀ (r : Fin 16) (stamp : Nat), Leads (.refEdge r stamp)
    (fun s => s.blockRuns 5 = true ∧ (s.refEntry r.val).enable = true ∧ (r.val < 12 ∨ squelched s (r.val - 12) = false))
    (fun s t =>
      let e := s.refEntry r.val
      let e' := t.refEntry r.val
      let mark := unsteered s ((stamp : ℚ) / 128)
      e'.lastStamp = some mark ∧ e'.lastEdge = some (stamp / 128) ∧ e'.edges = e.edges + 1 ∧ e'.los = false ∧ e'.arrived = true ∧
      e'.firstStamp = (if e.firstStamp.isNone then some mark else e.firstStamp) ∧ e'.jumpNow = phaseJumped s r.val stamp ∧
      (e.st = .unqualified → e'.st = .qualifying) ∧
      (phaseJumped s r.val stamp = true → e.st ≠ .unqualified → e'.st = .disqualified) ∧
      (e.timeKind = true → ∃ q, e'.lag = some (q, stamp / 128)) ∧
      ∀ q : Fin 32, q.val ≠ r.val → t.rim.ref[q] = s.rim.ref[q])) ∧
  (∀ r : RefId, Sets (.refLos r) (fun s => s.rim.ref[r].los = true) id) ∧
  (∀ r : RefId, Leads (.refLos r)
    (fun s => s.blockRuns 5 = true ∧ s.rim.ref[r].enable = true ∧ s.rim.ref[r].los = false ∧
      ((12 ≤ r.val ∧ r.val < 16 ∧ squelched s (r.val - 12) = true) ∨ ∃ c, losCycle s r.val = some c ∧ c ≤ s.tcr.cycles))
    (fun s t =>
      let e := s.rim.ref[r]
      t.rim.ref[r].los = true ∧ t.rim.ref[r].st = (if e.st = .unqualified then .unqualified else .disqualified) ∧
      t.rim.ref[r].history.getLsbD 0 = true ∧
      (e.st ≠ .unqualified → e.st ≠ .disqualified → t.rim.ref[r].history.getLsbD 9 = true) ∧
      ∀ q : Fin 32, q ≠ r → t.rim.ref[q] = s.rim.ref[q])) ∧
  (∀ r : RefId,
    let qualified := fun (s t : State) =>
      t.rim.ref[r].st = .qualified ∧ t.rim.ref[r].clean = 0 ∧ t.rim.ref[r].qualifiedAt = s.cpx.impressions ∧ t.rim.ref[r].history.getLsbD 7 = true ∧
      (∀ q : Fin 32, q ≠ r → t.rim.ref[q] = s.rim.ref[q]) ∧
      ∀ k : Fin 8, t.dsb.dpll[k] = { s.dsb.dpll[k] with restored := s.dsb.dpll[k].restored.filter fun c => c != r }
    Leads (.qualificationEnd r)
      (fun s => let e := s.rim.ref[r]; e.st = .qualifying ∧ hardNow e = false ∧ softNow e = false ∧ e.qualS ≤ e.clean) qualified ∧
    Leads (.driftClear r)
      (fun s => let e := s.rim.ref[r]; e.st = .drifting ∧ hardNow e = false ∧ softNow e = false ∧ e.driftClearS ≤ e.clean) qualified) ∧
  (∀ (k : DpllId) (r : RefId), Sets (.wtrExpiry k r)
    (fun s => s.dsb.dpll[k].cands.contains r = true ∧ selectable s r.val = true ∧ waited s k.val r = true ∧
      s.dsb.dpll[k].restored.contains r = false)
    (fun s => s.setDpll k.val fun x => { x with restored := x.restored ++ [r] }))

/-- DRIFT_TAKEOVER and the steps of a switch: freeze, capture of the phase difference, release; and the halving of the
bandwidth down to lock (R134, R138, R140–R142). The model's own choices and readings behind it: log entries 25, 80, 81,
101. -/
def Obligations.SwitchEventsAct : Prop :=
  (∀ (k : DpllId) (c0 c : Fin 32) (n : Nat), Sets (.driftTakeover k)
    (fun s => let x := s.dsb.dpll[k]; x.selected = some c0 ∧ s.fwRuns = true ∧ x.mode = .automatic ∧ x.sw = none ∧
      x.forced = none ∧ s.rim.ref[c0].st = .drifting ∧ x.takeoverFor = some n ∧ 8000 * x.driftHoldoffS ≤ n ∧
      bestCandidate s k.val (fun q => q != c0 && (s.refEntry q.val).st == .qualified) = some c)
    (fun s => s.setDpll k.val fun x => { x with
      sw := some { target := c, decidedAt := s.cpx.impressions, takeover := true, fromLost := x.st == .freerun || x.st == .holdover } })) ∧
  (∀ (k : DpllId) (w : Switch),
    Leads (.switchFreeze k)
      (fun s => s.dsb.dpll[k].sw = some w ∧ w.frozen = false ∧ w.decidedAt < s.cpx.impressions ∧ selectable s w.target.val = true)
      (fun s t =>
        let x := s.dsb.dpll[k]
        t.dsb.dpll = s.dsb.dpll.set k.val { x with
          st := .switching
          sw := some { w with
            frozen := true, frozenAt := s.cpx.impressions, edge := s.tcr.began
            counts := (List.range 4).map fun d => timeAtMark s d (128 * s.tcr.began) }
          frozeAt := s.cpx.impressions
          lastSelected := if x.selected.isSome then x.selected else x.lastSelected
          steer := if x.st = .freerun ∨ x.st = .holdover then 0 else x.steer } ∧
        (x.st = .holdover → t.intc.status.getLsbD 10 = true) ∧
        (∀ c, x.selected = some c → t.rim.ref[c].history.getLsbD 10 = true ∧
          (w.takeover = true → t.rim.ref[c].history.getLsbD 13 = true)) ∧
        { t with dsb := s.dsb, rim := s.rim, intc := s.intc, pcu := s.pcu } = s) ∧
    Sets (.switchFreeze k) (fun s => s.dsb.dpll[k].sw = some w ∧ (w.frozen = true ∨ s.cpx.impressions ≤ w.decidedAt)) id ∧
    Sets (.switchFreeze k)
      (fun s => s.dsb.dpll[k].sw = some w ∧ w.frozen = false ∧ w.decidedAt < s.cpx.impressions ∧
        selectable s w.target.val = false ∧ s.fwRuns = true)
      (fun s => decide1 k.val s) ∧
    (∀ (d : Fin 4) (ns : ℚ) (cyc : Nat), Sets (.switchCapture k)
      (fun s => s.dsb.dpll[k].sw = some w ∧ w.frozen = true ∧ w.delta = none ∧ isTimeRef s w.target.val = true ∧
        (12 ≤ w.target.val ∨ (s.refEntry w.target.val).tod.isSome = true) ∧ s.rim.ref[w.target].lag = some (ns, cyc) ∧
        ∀ e : Fin 4, (s.tcr.dom[e].dpll = some k ∧ s.tcr.dom[e].valid = true) ↔ e = d)
      (fun s =>
        let time : ℚ := unsteered s w.edge + ns + refFreq s.rim.ref[w.target] * ((w.edge : ℚ) - cyc) / 10 ^ 12
        let o := round (((w.counts.getD d.val s.tcr.dom[d].count : ℚ) / 10 ^ 33 - time) * 10 ^ 6)
        s.setDpll k.val fun x =>
          { x with sw := some { w with delta := some (-o), offsets := [(d.val, o)] }, buildOut := (-o * 65536).tdiv 1000000 })) ∧
    Leads (.switchCapture k)
      (fun s => s.dsb.dpll[k].sw = some w ∧ w.frozen = true ∧ w.delta = none ∧
        (isTimeRef s w.target.val = false ∨ s.rim.ref[w.target].lag = none ∨
          ∀ e : Fin 4, s.tcr.dom[e].dpll = some k → s.tcr.dom[e].valid = false))
      (fun s t => ∃ d b, t = { s.setDpll k.val (fun x => { x with
        sw := some { w with delta := some d, offsets := [] }, buildOut := b }) with fresh := s.fresh + 1 }) ∧
    (∀ delta : Int,
      let commits := fun (s : State) => s.dsb.dpll[k].sw = some w ∧ w.frozen = true ∧ w.delta = some delta ∧ s.fwRuns = true ∧
        s.blockRuns 8 = true
      let due := fun (s : State) => w.frozenAt + (if s.tcr.ended.getLsbD 1 then 2 else 1) ≤ s.cpx.impressions
      Sets (.switchRelease k) (fun s => commits s ∧ ¬due s) id ∧
      Leads (.switchRelease k)
        (fun s => commits s ∧ due s ∧ s.mbx.flights = [] ∧
          ∀ x ∈ w.offsets, ∀ d : Fin 4, d.val = x.1 → s.tcr.dom[d].dpll = some k)
        (fun s t =>
          let x := s.dsb.dpll[k]
          let y := t.dsb.dpll[k]
          let err := if isTimeRef s w.target.val = true ∨ x.pbo = true then 0 else delta.natAbs
          y.sw = none ∧ y.selected = some w.target ∧ y.tookOver = w.takeover ∧ y.inUse = none ∧ t.ehu.hold[k].used = none ∧
          (selectable s w.target.val = true →
            y.st = if w.fromLost = false ∧ err ≤ x.lockNs * 1000000 then .locked else .acquiring) ∧
          (selectable s w.target.val = false → y.st = x.st) ∧
          t.rim.ref[w.target].history.getLsbD 8 = true ∧
          (∀ q : Fin 32, q ≠ w.target → t.rim.ref[q] = s.rim.ref[q]) ∧ (∀ i : Fin 8, i ≠ k → t.dsb.dpll[i] = s.dsb.dpll[i]) ∧
          (∀ d : Fin 4, s.tcr.dom[d].dpll = some k → t.tcr.dom[d].ledger.holdover = false) ∧
          (∀ d : Fin 4, s.tcr.dom[d].dpll ≠ some k → t.tcr.dom[d] = s.tcr.dom[d])))) ∧
  (∀ k : DpllId, Sets (.dpllBandwidthHalving k)
    (fun s => let x := s.dsb.dpll[k]; x.st = .acquiring ∧ 8000 * x.lockS ≤ x.inLock)
    (fun s => s.setDpll k.val fun x =>
      { x with curBw := max x.bw (x.curBw / 2), inLock := 0, st := if x.curBw / 2 ≤ x.bw then .locked else .acquiring }))

/-! ### Events of the receiver (R154–R177) -/

/-- GNSS_EPOCH takes up thresholds, starts a survey and takes the epoch; GNSS_SOLUTION decides the solutions and
delivers them; and the events of exclusions, integrity, the anchor, GCLK, the front end, the survey, notches and jamming
(R155–R176). The model's own choices and readings behind it: log entries 25, 34, 69, 70, 104, 105, 106. -/
def Obligations.GnssEventsAct : Prop :=
  let onSecond := fun (s : State) => s.tcr.dom[s.gtr.cfg.domain].count % 10 ^ 42 < 10 ^ 33
  let taken := fun (s : State) => { s.gtr with
    limits := s.gtr.nextLimits.getD s.gtr.limits, nextLimits := none
    epoch := if s.gtr.st = .idle then s.gtr.epoch else some (s.tcr.cycles, s.tcr.dom[s.gtr.cfg.domain].count) }
  Sets .gnssEpoch
    (fun s => s.blockRuns 14 = true ∧ onSecond s ∧ (∀ f ∈ s.mbx.flights, f.hold ≠ .survey) ∧ noFences s = true)
    (fun s => { s with gtr := taken s }) ∧
  (∀ f : Flight, Leads .gnssEpoch
    (fun s => s.blockRuns 14 = true ∧ s.fwRuns = true ∧ onSecond s ∧ s.mbx.flights = [f] ∧ f.hold = .survey ∧
      (jobInline f.job).u 4 1 = 0 ∧ s.gtr.st ≠ .idle ∧ s.gtr.st ≠ .hold)
    (fun s t => t.mbx.flights = [] ∧ t.gtr = { taken s with
      st := .survey, surveyShort := false
      survey := some { minS := (jobInline f.job).u 8 4, maxS := (jobInline f.job).u 12 4, accMm := (jobInline f.job).u 16 4 } })) ∧
  (∀ (o : GnssObs) (cycle count : Nat), Leads (.gnssSolution o)
    (fun s =>
      let ch := channelsOf s.gtr o.sats
      s.blockRuns 14 = true ∧ s.cpx.warm = none ∧ s.gtr.st ≠ .idle ∧ s.gtr.epoch = some (cycle, count) ∧
      residualBad (hearBroadcasts ch s.gtr) ch = [])
    (fun s t =>
      let ch := channelsOf s.gtr o.sats
      let g := hearBroadcasts ch s.gtr
      let up := usedUpper g ch
      let two := usedDual g ch
      let live := !g.clockFault && !g.feFault && !g.restarted
      let solves := fun (sats : List (Fin 4 × Fin 64)) (sol : Option SolObs) =>
        live && !sats.isEmpty && decide (satsNeeded s.gtr sats ≤ sats.length) && sol.any fun x => !(taiOffsets sats x).isEmpty
      let one := solves up o.single
      let both := g.cfg.lower && solves two o.dual
      t.gtr.epoch = none ∧ t.gtr.channels = ch ∧ t.gtr.used = up ∧ t.gtr.restarted = false ∧
      t.gtr.heard = g.heard ∧ t.gtr.store = g.store ∧
      t.gtr.valid17 = (one && !t.gtr.integrity) ∧ t.gtr.valid16 = (both && !t.gtr.integrity) ∧
      t.gtr.st = (if s.gtr.st = .search ∧ (one || both) = true then (if s.gtr.held.isSome then .hold else .solve) else s.gtr.st) ∧
      (t.gtr.failed &&& ~~~s.gtr.limits.checks = 0) ∧ (t.gtr.failed ≠ 0 → t.gtr.integrity = true) ∧
      (∀ x, o.single = some x → t.gtr.valid17 = true → s.rim.ref[17].enable = true → s.blockRuns 5 = true →
        let off : ℚ := (((reportedOffset s.gtr false (taiOffsets up x)).getD 0 - calValue s 0x3000 : Int) : ℚ)
        let now := s.tcr.cycles
        t.rim.ref[17].lag = some ((count : ℚ) / 10 ^ 33 - off / 1000 - cycle + now - unsteered s now, now) ∧
        t.rim.ref[17].los = false) ∧
      t.mbx = s.mbx ∧ t.tcr.cycles = s.tcr.cycles)) ∧
  (∀ (k : Fin 4) (n : Fin 64), Sets (.satelliteExclusionEnd k n) (fun s => s.blockRuns 14 = true)
    (fun s => { s with gtr := { s.gtr with excluded := s.gtr.excluded.filter fun x =>
      !(x.1 == k && x.2.1 == n && decide (480000 ≤ s.cpx.impressions - x.2.2)) } })) ∧
  Leads .integrityClear
    (fun s => s.blockRuns 14 = true ∧ s.gtr.integrity = true ∧ s.gtr.limits.clearS ≤ s.gtr.cleanFor ∧
      s.rim.ref[16].outlierNow = false ∧ s.rim.ref[17].outlierNow = false)
    (fun s t => t.gtr = { s.gtr with integrity := false } ∧
      (∀ r : Fin 32, r = 16 ∨ r = 17 →
        let e := { s.rim.ref[r] with gnssFail := false }
        t.rim.ref[r].gnssFail = false ∧
        (e.enable = true → e.st = .disqualified → hardNow e = false → t.rim.ref[r].st = .qualifying)) ∧
      ∀ r : Fin 32, r ≠ 16 → r ≠ 17 → t.rim.ref[r] = s.rim.ref[r]) ∧
  (∀ (v : HoldValue) (p : Int) (c : Nat), Sets .timeCheckAnchorMove
    (fun s => s.blockRuns 14 = true ∧ s.gtr.anchor.isSome = true ∧ s.gtr.limits.windowS ≤ s.gtr.windowFor ∧
      s.gtr.windowBad = false ∧ s.gtr.integrity = false ∧ checkValue s = some v ∧ s.gtr.phase = some (p, c))
    (fun s => { s with gtr := { s.gtr with
      windowFor := 0, windowBad := false, anchor := some { cycle := c, phasePs := p, h := v.h, sigma := v.sigma } } })) ∧
  Sets .timeCheckAnchorMove
    (fun s => s.blockRuns 14 = true ∧ s.gtr.anchor.isSome = true ∧ s.gtr.limits.windowS ≤ s.gtr.windowFor ∧
      (s.gtr.windowBad = true ∨ s.gtr.integrity = true))
    (fun s => { s with gtr := { s.gtr with windowFor := 0, windowBad := false } }) ∧
  (Reports .gnssClockFault (fun s => s.blockRuns 14 = true ∧ s.gtr.clockFault = false) 72 0 0x8000
      (fun s => { s with gtr := { s.gtr with clockFault := true } }) ∧
    Faults .gnssClockFault (fun s => s.blockRuns 14 = true ∧ s.gtr.clockFault = false) 72 14) ∧
  Leads .gclkReturn (fun s => s.blockRuns 14 = true ∧ s.gtr.clockFault = true)
    (fun s t =>
      let st := if s.gtr.cfg.enable then GnssState.search else .idle
      t.gtr = { s.gtr with
        clockFault := false, feSent := s.gtr.feSent ++ s.gtr.feList.map (fun x => feTransfer false x.1 x.2)
        st := st, channels := [], used := [], epoch := none, survey := none, valid16 := false, valid17 := false
        cn0For := 0, posFor := 0, phase := none, cross := [] } ∧
      (st ≠ s.gtr.st → t.intc.status.getLsbD 15 = true) ∧ { t with gtr := s.gtr, intc := s.intc } = s) ∧
  (∀ (v : Byte) (a : BitVec 16), Sets (.feStatusPoll v)
    (fun s => s.blockRuns 14 = true ∧ s.gtr.cfg.feReg = some a)
    (fun s => { s with gtr := { s.gtr with
      feSent := s.gtr.feSent ++ [feTransfer true a v]
      feFault := decide (v &&& s.gtr.cfg.feMask ≠ s.gtr.cfg.feMask) } })) ∧
  (∀ v : Survey, Moves .surveyEnd
    (fun s => s.blockRuns 14 = true ∧ s.gtr.st = .survey ∧ s.gtr.survey = some v ∧ 0 < v.count ∧
      ((v.minS ≤ v.elapsed ∧ surveyMet v = true) ∨ v.maxS ≤ v.elapsed)) 0x8000
    (fun s => { s with gtr := { s.gtr with
      st := .hold, survey := none, posFor := 0
      held := some ({ x := v.sum.x / v.count, y := v.sum.y / v.count, z := v.sum.z / v.count }, surveyAccuracy v)
      surveyShort := !(decide (v.minS ≤ v.elapsed) && surveyMet v) } })) ∧
  (∀ (band : Fin 2) (n : Fin 4) (seen : List Interferer),
    let adapts := fun (s : State) => s.blockRuns 14 = true ∧ s.gtr.cfg.enable = true ∧ s.gtr.notch[band][n].mode = 2
    let sees := fun (s : State) => notchSees s band.val n.val seen
    (∀ held : Bool, Moves (.notchAdapt band n seen)
      (fun s => adapts s ∧ sees s = [] ∧ s.gtr.notch[band][n].holds.isSome = held) (if held then 0x8000 else 0)
      (fun s => { s with gtr := { s.gtr with
        notch := s.gtr.notch.set band.val (s.gtr.notch[band].set n.val { s.gtr.notch[band][n] with holds := none }) } })) ∧
    (∀ i : Interferer,
      let waits := fun (s : State) => s.gtr.notch[band][n].holds = some i.freq ∨
        ∃ m, s.gtr.notch[band][n].movedAt = some m ∧ s.cpx.impressions < m + 80
      Sets (.notchAdapt band n seen) (fun s => adapts s ∧ strongest (sees s) = some i ∧ waits s) id ∧
      Leads (.notchAdapt band n seen) (fun s => adapts s ∧ strongest (sees s) = some i ∧ ¬waits s)
        (fun s t =>
          let x := s.gtr.notch[band][n]
          t.gtr.notch[band][n] = { x with holds := some i.freq, movedAt := some s.cpx.impressions } ∧
          (∀ m : Fin 4, m ≠ n → t.gtr.notch[band][m] =
            let y := s.gtr.notch[band][m]
            if n < m ∧ y.mode = 2 ∧ y.holds = some i.freq then { y with holds := none } else y) ∧
          (∀ b : Fin 2, b ≠ band → t.gtr.notch[b] = s.gtr.notch[b]) ∧
          (x.holds = none → t.intc.status.getLsbD 15 = true) ∧
          { t with gtr := { t.gtr with notch := s.gtr.notch }, intc := s.intc, pcu := s.pcu } = s))) ∧
  (∀ (band : Fin 2) (power : Int) (crosses : Bool), Moves (.jamThreshold band power)
    (fun s => s.blockRuns 14 = true ∧ s.gtr.cfg.enable = true ∧
      (crosses = true ↔ ¬(s.gtr.limits.jam < s.gtr.jam[band].toNat ↔ s.gtr.limits.jam < (jamIndicator s.gtr band.val power).toNat)))
    (if crosses then 0x8000 else 0)
    (fun s => { s with gtr := { s.gtr with jam := s.gtr.jam.set band.val (jamIndicator s.gtr band.val power) } }))

/-! ### Events of synthesis (R178–R198) -/

/-- APLL_LOCK_LOST holds the running outputs, APLL_LOCK sets the anchor, OUTPUT_RESTART releases the outputs at their
target phase; a retune ends or times out; OUTPUT_PHASE_SUBSTEP moves a phase by at most its limit; OUTPUT_ALIGN_MEASURE
corrects a misalignment above 2 ps (R179–R181, R185, R189, R191, R194–R196, R198). The model's own choices and readings
behind it: log entries 25, 46, 107, 118. -/
def Obligations.SynthesisEventsAct : Prop :=
  (∀ n : ApllId,
    let loses := fun (s : State) => s.blockRuns 9 = true ∧ s.fso.apll[n].loop = .locked
    let lost := fun (s : State) => { s with fso := {
      apll := s.fso.apll.set n.val { s.fso.apll[n] with loop := .relockAnchor, restartDue := true, afterLoss := true }
      out := s.fso.out.mapIdx fun o x => if x.apll = n then heldOut s false o x else x } }
    Reports (.apllLockLost n) (fun s => loses s ∧ inRetune s.fso.apll[n] = false) (80 + n.val) 0 0 lost ∧
    Moves (.apllLockLost n) (fun s => loses s ∧ inRetune s.fso.apll[n] = true) 0 lost) ∧
  (∀ (s : State) (o : Nat) (x : Output), x.st = .running → (heldOut s false o x).held = true ∧ (heldOut s false o x).st = .running) ∧
  (∀ n : ApllId, Sets (.apllLock n) (fun s => s.blockRuns 9 = true ∧ s.clockOk = true ∧ s.fso.apll[n].loop ≠ .locked)
    (fun s => s.setApll n.val fun a => { a with
      loop := .locked, anchor := if a.loop = .relockNominal then a.vco else a.anchor, lockedAt := s.tcr.cycles, timedOut := false
      large := a.large.map fun g => { g with relock := some (g.relock.getD ((s.tcr.cycles - g.commit) / 1000)) } })) ∧
  (∀ n : ApllId, Leads (.outputRestart n)
    (fun s => s.blockRuns 9 = true ∧ s.clockOk = true ∧ s.fso.apll[n].loop = .locked ∧ s.cpx.list = none ∧
      (s.fso.apll[n].afterLoss = true → s.fso.apll[n].lockedAt + 1000000 ≤ s.tcr.cycles))
    (fun s t =>
      let a := s.fso.apll[n]
      (∃ m : BitVec 24, (∀ o : Fin 24, m.getLsbD o.val = (decide (s.fso.out[o].apll = n) && s.fso.out[o].held)) ∧
        t.fso.apll = s.fso.apll.set n.val { a with
          turns := if a.restartDue then 0 else a.turns, yRest := if a.restartDue then 0 else a.yRest
          restartDue := false, afterLoss := false
          large := a.large.map fun g => { g with restarted := some (g.restarted.getD 0 ||| m) } }) ∧
      (∀ o : Fin 24,
        let x := s.fso.out[o]
        let restarts := x.apll = n ∧ (x.held = true ∨ x.startDue = true)
        (¬restarts → t.fso.out[o] = x) ∧
        (restarts → t.fso.out[o] = restartedOut { s with fso := { s.fso with apll := t.fso.apll } } o.val x) ∧
        (restarts → x.settled.apll = n →
          t.fso.out[o].st = .running ∧ t.fso.out[o].held = false ∧ t.fso.out[o].startDue = false ∧
          t.fso.out[o].left = 0 ∧ t.fso.out[o].steps = x.steps + x.left)) ∧
      (∀ f ∈ t.mbx.flights, ∀ w c, f.hold = .outputs w c → w ≠ 0) ∧
      { t with fso := s.fso, mbx := s.mbx, intc := s.intc, pcu := s.pcu } = s)) ∧
  (∀ (n : ApllId) (g : LargeRetune), Ends (.apllRetuneTimeout n)
    (fun s => s.fso.apll[n].large = some g ∧ g.relock = none ∧ g.commit + 10 ^ 7 ≤ s.tcr.cycles) (fun h => h == .retune n) 0
    (fun s => { s with fso := {
      apll := s.fso.apll.set n.val { s.fso.apll[n] with large := none, timedOut := true }
      out := s.fso.out.map fun x => if x.apll = n then { x with oldDivider := none } else x } })) ∧
  (∀ n : ApllId,
    let rest := fun (a : Apll) => if a.yRest.natAbs ≤ sourceStep a 125000 then 0 else a.yRest
    (∀ v : Nat, Ends (.apllRampEnd n)
      (fun s => let a := s.fso.apll[n]
        s.blockRuns 9 = true ∧ a.rampTo = some v ∧ ((v : Int) - a.vco).natAbs ≤ rampStep a 125000) (fun h => h == .retune n) 0
      (fun s => s.setApll n.val fun a => { a with vco := v, rampTo := none, rampFrom := none, yRest := rest a })) ∧
    Sets (.apllRampEnd n) (fun s => s.blockRuns 9 = true ∧ s.fso.apll[n].rampTo = none)
      (fun s => s.setApll n.val fun a => { a with yRest := rest a })) ∧
  (∀ o : OutId,
    let runs := fun (s : State) => s.blockRuns 9 = true ∧ s.fso.out[o].st = .running ∧ s.fso.out[o].held = false
    let move := fun (s : State) (top : Nat) (want : Int) =>
      let top' : Int := if want < 0 then cycleLimit s o.val top else top
      max (-top') (min top' want)
    Moves (.outputPhaseSubstep o) (fun s => runs s ∧ s.fso.out[o].left ≠ 0 ∧ paceOk s s.fso.out[o] = true) 0
      (fun s => s.setOut o.val fun x =>
        let m := move s x.stepMax x.left
        { x with left := x.left - m, steps := x.steps + m, paced := (x.paced.1 + x.spacing, x.paced.2) }) ∧
    Moves (.outputPhaseSubstep o) (fun s => runs s ∧ s.fso.out[o].left = 0 ∧ s.fso.out[o].delayLeft ≠ 0) 0
      (fun s => s.setOut o.val fun x => { x with delayLeft := x.delayLeft - move s 100 x.delayLeft }) ∧
    Moves (.outputPhaseSubstep o)
      (fun s => runs s ∧ s.fso.out[o].left = 0 ∧ s.fso.out[o].delayLeft = 0 ∧ s.fso.out[o].aligning ≠ 0 ∧
        inRetune s.fso.apll[s.fso.out[o].apll] = false ∧ alignRoom s s.fso.out[o] ≠ 0) 0
      (fun s => s.setOut o.val fun x =>
        let m := move s (min 100 (alignRoom s x)) x.aligning
        { x with aligning := x.aligning - m, trim := x.trim + m
                 alignAt := x.alignAt + ceilDiv (m.natAbs * 10 ^ 6) (2 * x.alignSlew) }) ∧
    Sets (.outputPhaseSubstep o)
      (fun s => s.fso.out[o].left = 0 ∧ s.fso.out[o].delayLeft = 0 ∧
        (s.fso.out[o].aligning = 0 ∨ inRetune s.fso.apll[s.fso.out[o].apll] = true)) id) ∧
  (∀ (o : OutId) (errPs : Int), Sets (.outputAlignMeasure o errPs)
    (fun s => s.blockRuns 9 = true ∧ s.clockOk = true ∧ s.fso.out[o].align = true ∧ s.fso.out[o].st = .running ∧
      s.fso.out[o].held = false ∧ inRetune s.fso.apll[s.fso.out[o].apll] = false)
    (fun s => s.setOut o.val fun x =>
      let mis : ℚ := misalignment s o.val s.fso.out[o] + (max (-150) (min 150 errPs) : Int)
      { x with aligning := if |mis| ≤ 2 then 0 else round (-(2 * mis))
               alignAt := if x.aligning = 0 then s.tcr.cycles else x.alignAt }))

/-! ### Events of lanes (R225–R242) -/

/-- LOS, LOL, alignment, HI_BER, FEC lock and the transmit PLL: status bits set and clear, adaptation freezes and
resumes, slots are squelched, a latency event clears LAT_VALID, and a lane in UP enters RECOVER with its reason, or
waits for the end of a restart (R225, R229, R231, R233, R235, R236, R240, R242). The model's own choices and readings
behind it: log entries 25, 49, 111. -/
def Obligations.LaneLossEventsAct : Prop :=
  let acts := fun (l : LaneId) (s : State) => s.blockRuns 11 = true ∧ s.lanePresent l.val = true ∧ defaultSources s
  let only := fun (l : LaneId) (s t : State) => (∀ m : Fin 24, m ≠ l → t.nlu.lane[m] = s.nlu.lane[m]) ∧ t.nlu.slot = s.nlu.slot
  let lost := fun (l : LaneId) (src : Fin 256) (reason : Fin 8) (x y : Lane) (s t : State) =>
    only l s t ∧
    (x.st ≠ .up ∨ x.recoverDue.isSome = true → y.st = x.st ∧ y.reason = x.reason ∧ y.recoverDue = x.recoverDue) ∧
    (x.st = .up → x.recoverDue = none → y.reason = reason) ∧
    (x.st = .up → x.recoverDue = none → s.fwRuns = true →
      y.st = .recover ∧ y.recovers = min 65535 (x.recovers + 1) ∧ t.intc.status.getLsbD 13 = true) ∧
    (x.st = .up → x.recoverDue = none → s.fwRuns = false → y.st = .up ∧ y.recoverDue = some src)
  let event := fun (s : State) (x : Lane) => { x with
    latValid := false, latEventAt := s.tcr.cycles
    latLostAt := if x.latValid then s.tcr.cycles else x.latLostAt
    latWas := if x.latValid then some (x.rxPs, x.txPs, latIndex x) else x.latWas }
  (∀ l : LaneId, Leads (.losAssert l) (fun s => acts l s ∧ s.nlu.lane[l].los = false)
    (fun s t =>
      let x := s.nlu.lane[l]
      let y := t.nlu.lane[l]
      y.los = true ∧ y.aligned = false ∧ y.fecLock = false ∧ y.frozen = true ∧ y.mode = x.mode ∧ t.intc.status.getLsbD 13 = true ∧
      lost l 128 3 x y s t ∧
      (∀ k : Fin 4, s.nlu.slot[k] = some l → (s.refEntry (12 + k.val)).enable = true → (t.refEntry (12 + k.val)).los = true) ∧
      ∀ i : Fin 8, piEnabled s l.val i.val = true → t.tpe.pi[l][i].st = .faulty)) ∧
  (∀ l : LaneId, Leads (.losDeassert l) (fun s => acts l s ∧ s.nlu.lane[l].los = true)
    (fun s t => only l s t ∧ t.nlu.lane[l] = { s.nlu.lane[l] with los := false } ∧ t.intc.status.getLsbD 13 = true)) ∧
  (∀ l : LaneId, Leads (.lolAssert l) (fun s => acts l s ∧ s.nlu.lane[l].lol = false)
    (fun s t =>
      let x := s.nlu.lane[l]
      let y := t.nlu.lane[l]
      y.lol = true ∧ y.aligned = false ∧ y.fecLock = false ∧ y.mode = x.mode ∧ y.los = x.los ∧ t.intc.status.getLsbD 13 = true ∧
      lost l 129 4 x y s t ∧
      ∀ k : Fin 4, s.nlu.slot[k] = some l → (s.refEntry (12 + k.val)).enable = true → (t.refEntry (12 + k.val)).los = true)) ∧
  (∀ l : LaneId, Leads (.lolDeassert l) (fun s => acts l s ∧ s.nlu.lane[l].lol = true)
    (fun s t => only l s t ∧ t.intc.status.getLsbD 13 = true ∧
      t.nlu.lane[l] = event s { s.nlu.lane[l] with lol := false })) ∧
  (∀ (l : LaneId) (slip : Nat), Leads (.alignmentGained l slip) (fun s => acts l s)
    (fun s t => only l s t ∧ t.nlu.lane[l] = event s { s.nlu.lane[l] with
      aligned := true, slip := min (slipTop s.nlu.lane[l]) slip, winAt := s.tcr.cycles })) ∧
  (∀ l : LaneId, Leads (.alignmentLost l) (fun s => acts l s)
    (fun s t => t.nlu.lane[l].aligned = false ∧ lost l 130 6 s.nlu.lane[l] t.nlu.lane[l] s t)) ∧
  (∀ l : LaneId, Leads (.hiBer l) (fun s => acts l s ∧ 2 ≤ s.nlu.lane[l].mode.val)
    (fun s t => lost l 131 5 s.nlu.lane[l] t.nlu.lane[l] s t)) ∧
  (∀ (l : LaneId) (gained : Bool), Leads (.fecLockChange l gained) (fun s => acts l s ∧ s.nlu.lane[l].fec ≠ 0)
    (fun s t => only l s t ∧
      t.nlu.lane[l] = event s { s.nlu.lane[l] with fecLock := gained, winAt := s.tcr.cycles })) ∧
  (∀ l : LaneId, Leads (.laneTxpllUnlock l) (fun s => acts l s ∧ s.nlu.lane[l].txLocked = true)
    (fun s t => only l s t ∧ t.nlu.lane[l] = { s.nlu.lane[l] with txLocked := false })) ∧
  (∀ l : LaneId, Leads (.txpllRelock l) (fun s => acts l s ∧ s.nlu.lane[l].txLocked = false)
    (fun s t =>
      let x := s.nlu.lane[l]
      let y := t.nlu.lane[l]
      only l s t ∧ y.txLocked = true ∧
      (x.st = .down ∨ x.st = .prbs → y = { x with txLocked := true }) ∧
      (x.st ≠ .down → x.st ≠ .prbs → s.fwRuns = true → y.st = .low ∧ y.mode = lowestMode x ∧ y.qualified = none ∧
        y.fallingBack = false ∧ y.aligned = false ∧ y.fecLock = false) ∧
      (x.st ≠ .down → x.st ≠ .prbs → s.fwRuns = false → y = { x with txLocked := true, lowDue := true }))) ∧
  (∀ (l : LaneId) (density : Nat),
    Sets (.adaptationFreeze l density) (fun s => s.nlu.lane[l].densityMin ≤ density) id ∧
    Leads (.adaptationFreeze l density) (fun s => acts l s ∧ density < s.nlu.lane[l].densityMin)
      (fun s t => only l s t ∧ t.nlu.lane[l].frozen = true ∧
        { t.nlu.lane[l] with frozen := s.nlu.lane[l].frozen, code := s.nlu.lane[l].code, codeAt := s.nlu.lane[l].codeAt
                             codeSeen := s.nlu.lane[l].codeSeen } = s.nlu.lane[l]) ∧
    Sets (.adaptationResume l density) (fun s => s.nlu.lane[l].los = true ∨ density < s.nlu.lane[l].densityMin) id ∧
    Sets (.adaptationResume l density)
      (fun s => acts l s ∧ s.nlu.lane[l].los = false ∧ s.nlu.lane[l].frozen = true ∧ s.nlu.lane[l].densityMin ≤ density)
      (fun s => s.setLane l.val fun x => { x with codeSeen := s.tcr.cycles, frozen := false })) ∧
  (∀ (l : LaneId) (rxPs txPs : Int), Leads (.latencyMeasurementEnd l rxPs txPs) (fun s => acts l s ∧ s.nlu.lane[l].latValid = false)
    (fun s t => only l s t ∧ t.intc.status.getLsbD 13 = true ∧
      t.nlu.lane[l] = { s.nlu.lane[l] with
        latValid := true, latAt := s.tcr.cycles, rxPs := rxPs, txPs := txPs, measures := min 65535 (s.nlu.lane[l].measures + 1) } ∧
      ∀ r : Fin 32, t.rim.ref[r] =
        if s.rim.ref[r].port = some l then { s.rim.ref[r] with fallbackPs := 0 } else s.rim.ref[r]))

/-- LANE_QUALIFIED, TRAIN_TIMEOUT, STEP_TIMEOUT, RELOCK_TIMEOUT, MODULE_READ_DONE and AUTONEG_COMPLETE move a lane
through its bring-up; the PRBS checker counts from its synchronisation and the generator injects errors (R227–R230,
R237). The model's own choices and readings behind it: log entries 3, 25, 49, 50. -/
def Obligations.LaneBringUpEventsAct : Prop :=
  let acts := fun (l : LaneId) (s : State) => s.blockRuns 11 = true ∧ s.lanePresent l.val = true ∧ s.fwRuns = true ∧ defaultSources s
  let only := fun (l : LaneId) (s t : State) => (∀ m : Fin 24, m ≠ l → t.nlu.lane[m] = s.nlu.lane[m]) ∧ t.nlu.slot = s.nlu.slot
  let next := fun (x y : Lane) =>
    match higherMode x x.mode with
    | some m => y.st = .step ∧ y.mode = m
    | none => y.st = .up ∧ y.mode = x.mode
  (∀ (l : LaneId) (errors : Nat), Leads (.laneQualified l errors)
    (fun s => let x := s.nlu.lane[l]; acts l s ∧ x.los = false ∧ x.lol = false ∧ x.aligned = true ∧
      (x.fec = 0 ∨ x.fecLock = true) ∧ x.winAt + x.qualMs * 10 ^ 6 ≤ s.tcr.cycles ∧
      ((x.st = .low ∧ x.medium ≠ 1) ∨ x.st = .step ∨ x.st = .recover))
    (fun s t =>
      let x := s.nlu.lane[l]
      let y := t.nlu.lane[l]
      only l s t ∧ y.qualErrs = min 65535 errors ∧
      (x.qualErrors < errors → y = { x with qualErrs := min 65535 errors, winAt := s.tcr.cycles }) ∧
      (errors ≤ x.qualErrors →
        (x.st = .recover → y.st = .up ∧ y.mode = x.mode) ∧
        (x.st = .step → x.fallingBack = true → y.st = .up ∧ y.mode = x.mode) ∧
        (x.st = .step → x.fallingBack = false → next x y) ∧
        (x.st = .low →
          if (x.medium = 0 ∧ x.modBus.isSome = true) ∨ (x.medium = 2 ∧ x.an1g = true ∧ x.mode.val < 2) then y.st = .learn
          else next x y) ∧
        (∀ b : Fin 4, x.st = .low → x.medium = 0 → x.modBus = some b → t.nlu.modUsed = s.nlu.modUsed ||| BitVec.ofNat 4 (2 ^ b.val)) ∧
        (y.st = .up → y.upAt = s.tcr.cycles ∧ y.lastUp = some x.mode ∧ t.intc.status.getLsbD 13 = true)))) ∧
  (∀ l : LaneId, Leads (.trainTimeout l)
    (fun s => let x := s.nlu.lane[l]; acts l s ∧ x.st = .low ∧ x.stageAt + x.trainMs * 10 ^ 6 ≤ s.tcr.cycles)
    (fun s t =>
      let x := s.nlu.lane[l]
      let y := t.nlu.lane[l]
      only l s t ∧ y.st = .low ∧ y.reason = 1 ∧
      y.mode = if x.medium = 1 then x.mode else (higherMode x x.mode).getD (lowestMode x))) ∧
  (∀ l : LaneId, Leads (.stepTimeout l)
    (fun s => let x := s.nlu.lane[l]; acts l s ∧ x.st = .step ∧ x.stageAt + x.stepMs * 10 ^ 6 ≤ s.tcr.cycles)
    (fun s t =>
      let x := s.nlu.lane[l]
      let y := t.nlu.lane[l]
      only l s t ∧ y.reason = 2 ∧
      (x.fallingBack = true → y.st = .low) ∧
      (x.fallingBack = false → y.removed = x.removed ||| BitVec.ofNat 4 (2 ^ x.mode.val) ∧
        y.failed = x.failed ||| BitVec.ofNat 4 (2 ^ x.mode.val)) ∧
      (∀ m, x.fallingBack = false → higherMode x x.mode = some m → y.st = .step ∧ y.mode = m) ∧
      (∀ q, x.fallingBack = false → higherMode x x.mode = none → x.qualified = some q →
        y.st = .step ∧ y.mode = q ∧ y.fallingBack = true) ∧
      (x.fallingBack = false → higherMode x x.mode = none → x.qualified = none → y.st = .low))) ∧
  (∀ l : LaneId, Leads (.relockTimeout l)
    (fun s => let x := s.nlu.lane[l]; acts l s ∧ x.st = .recover ∧ x.stageAt + x.relockMs * 10 ^ 6 ≤ s.tcr.cycles)
    (fun s t => only l s t ∧ t.nlu.lane[l].st = .low ∧ t.nlu.lane[l].mode = lowestMode s.nlu.lane[l] ∧
      t.nlu.lane[l].qualified = none)) ∧
  (∀ (l : LaneId) (ident a b : Byte), Leads (.moduleReadDone l (.ok ident a b))
    (fun s => acts l s ∧ s.nlu.lane[l].st = .learn ∧ s.nlu.lane[l].medium = 0 ∧
      (ident = 0x03 ∨ ident = 0x0C ∨ ident = 0x0D ∨ ident = 0x11))
    (fun s t =>
      let x := s.nlu.lane[l]
      let y := t.nlu.lane[l]
      let mbd := if a = 0xFF then b.toNat * 250 else a.toNat * 100
      only l s t ∧ y.moduleRead = true ∧ y.moduleRate = mbd / 100 ∧
      (∀ m : Fin 4, y.removed.getLsbD m.val =
        (x.failed.getLsbD m.val || (x.rateMask.getLsbD m.val && decide (101 * mbd * 100 < 100 * lineRate m)))) ∧
      next { x with removed := y.removed } y)) ∧
  (∀ (l : LaneId) (r : ModuleRead), Leads (.moduleReadDone l r)
    (fun s => acts l s ∧ s.nlu.lane[l].st = .learn ∧ s.nlu.lane[l].medium = 0 ∧
      (r = .failed ∨ ∃ ident a b, r = .ok ident a b ∧ ident ≠ 0x03 ∧ ident ≠ 0x0C ∧ ident ≠ 0x0D ∧ ident ≠ 0x11))
    (fun s t => only l s t ∧ t.nlu.lane[l].removed = s.nlu.lane[l].removed ∧
      t.nlu.lane[l].moduleRead = false ∧ t.nlu.lane[l].moduleRate = 0 ∧ next s.nlu.lane[l] t.nlu.lane[l] ∧
      (faultOwner s 133 { addr := l.val } = some 11 → inShadow s 11 = false → t.fco.cls[(4 : Fin 8)].pending = true))) ∧
  (∀ (l : LaneId) (m : Fin 4) (fec : Fin 3), Leads (.autonegComplete l (.backplane m fec))
    (fun s => acts l s ∧ s.nlu.lane[l].st = .low ∧ s.nlu.lane[l].medium = 1 ∧
      s.nlu.lane[l].rateMask.getLsbD m.val = true ∧ s.nlu.lane[l].failed.getLsbD m.val = false)
    (fun s t => only l s t ∧ t.nlu.lane[l].st = .step ∧ t.nlu.lane[l].mode = m ∧
      candidates t.nlu.lane[l] = BitVec.ofNat 4 (2 ^ m.val))) ∧
  (∀ (l : LaneId) (r : AutonegResult), Leads (.autonegComplete l r)
    (fun s => acts l s ∧ s.nlu.lane[l].st = .learn ∧ s.nlu.lane[l].medium = 2 ∧ (r = .direct ∨ r = .sgmii 1000))
    (fun s t => only l s t ∧ next s.nlu.lane[l] t.nlu.lane[l])) ∧
  (∀ (l : LaneId) (mbps : Nat), mbps ≠ 1000 → Sets (.autonegComplete l (.sgmii mbps))
    (fun s => acts l s ∧ s.nlu.lane[l].st = .learn ∧ s.nlu.lane[l].medium = 2)
    (fun s => s.setLane l.val fun x => { x with reason := 7 })) ∧
  (∀ l : LaneId,
    let checks := fun (s : State) => s.blockRuns 11 = true ∧ s.lanePresent l.val = true ∧ s.nlu.lane[l].st = .prbs ∧
      2 ≤ s.nlu.lane[l].prbs.mode.val
    Sets (.prbsCheckerSync l) (fun s => checks s ∧ s.nlu.lane[l].prbs.syncAt = none)
      (fun s => s.setLane l.val fun x => { x with prbs := { x.prbs with syncAt := some s.tcr.cycles } }) ∧
    (∀ errors : Nat, Leads (.prbsCheckerResync l errors)
      (fun s => checks s ∧ s.nlu.lane[l].prbs.syncAt.isSome = true ∧ 512 ≤ errors)
      (fun s t =>
        let x := s.nlu.lane[l].prbs
        let y := t.nlu.lane[l].prbs
        only l s t ∧ y.syncAt = none ∧ y.resyncs = min 255 (x.resyncs + 1) ∧ y.bits = prbsBits s x ∧
        x.errors + errors ≤ y.errors)) ∧
    Sets (.prbsErrorInject l)
      (fun s => let x := s.nlu.lane[l].prbs; s.blockRuns 11 = true ∧ s.lanePresent l.val = true ∧ s.nlu.lane[l].st = .prbs ∧
        (x.mode = 1 ∨ x.mode = 3) ∧ x.inject ≠ 0 ∧ (x.interval ≠ 0 ∨ x.injected = 0))
      (fun s => s.setLane l.val fun y => { y with prbs := { y.prbs with
        injected := y.prbs.injected + if y.prbs.inject = 1 then 1 else y.prbs.burst } }))

/-! ### Events of frames, of the galley and of the host path (R245–R272, R285) -/

/-- FRAME_RECEIVE counts and polices what its classifier finds and sends the rest of a front port to the host;
HOST_UPLINK_FRAME_RECEIVE queues a host frame, HOST_FRAME_TRANSMIT starts it; PRP supervision frames count (R249, R259,
R268–R272, R285). The model's own choices and readings behind it: log entries 25, 56, 58, 66, 109, 113. -/
def Obligations.FrameEventsAct : Prop :=
  (∀ (l : LaneId) (mark : Nat) (f : Frame),
    let c := Instr.frameReceive l mark f
    let up := fun (s : State) => s.lanePresent l.val = true ∧ s.blockRuns 12 = true ∧ laneUp s.nlu.lane[l] = true
    let port := fun (s : State) => s.tpe.port[l]
    let timed := fun (s : State) => up s ∧ (port s).hostPath ≠ 1 ∧ (port s).enable = true
    let uplinked := fun (s t : State) => t.tpe.hostOut = s.tpe.hostOut ∧ (port t).queue = (port s).queue ∧ t.tpe.pi = s.tpe.pi ∧
      (port t).ctr[0] = (if (port s).enable = true ∧ rxFallback s l.val mark = true then min (2 ^ 32 - 1) ((port s).ctr[0] + 1)
        else (port s).ctr[0]) ∧
      { t with tpe := s.tpe, intc := s.intc, pcu := s.pcu } = s
    Leads c (fun s => up s ∧ (port s).hostPath = 1 ∧ f.body = .hostTagged)
      (fun s t => (port t).discarded = (port s).discarded ∧ uplinked s t) ∧
    Leads c (fun s => up s ∧ (port s).hostPath = 1 ∧ f.body ≠ .hostTagged)
      (fun s t => (port t).discarded = min (2 ^ 32 - 1) ((port s).discarded + 1) ∧ uplinked s t) ∧
    (∀ i : Fin 8, Leads c
      (fun s => timed s ∧ classify s l.val f = .ptp i.val true ∧ (port s).ptpSeen < (port s).ptpLimit * 1000)
      (fun s t => (port t).ptpSeen = (port s).ptpSeen + 1 ∧ t.tpe.pi = s.tpe.pi ∧ t.tpe.hostOut = s.tpe.hostOut ∧
        ((port s).queue < 512 → (port t).queue = (port s).queue + 1 ∧ t.tpe.server = s.tpe.server) ∧
        (512 ≤ (port s).queue → (port t).queue = (port s).queue ∧
          t.tpe.server.ctr[12] = min (2 ^ 32 - 1) (s.tpe.server.ctr[12] + 1)) ∧
        (rxFallback s l.val mark = true → (port t).ctr[0] = min (2 ^ 32 - 1) ((port s).ctr[0] + 1)) ∧
        { t with tpe := s.tpe, intc := s.intc, pcu := s.pcu } = s)) ∧
    (∀ i : Fin 8, Leads c
      (fun s => timed s ∧ classify s l.val f = .ptp i.val true ∧ (port s).ptpLimit * 1000 ≤ (port s).ptpSeen)
      (fun s t => (port t).ptpSeen = (port s).ptpSeen ∧ t.tpe.hostOut = s.tpe.hostOut ∧
        t.tpe.pi[l][i].ctr[7] = min (2 ^ 32 - 1) (s.tpe.pi[l][i].ctr[7] + 1) ∧
        { t with tpe := s.tpe, intc := s.intc, pcu := s.pcu } = s)) ∧
    Leads c
      (fun s => timed s ∧ classify s l.val f = .ntpServer true ∧ prpCopy s l.val f = false ∧
        (port s).ntpSeen < (port s).ntpLimit * 1000)
      (fun s t => (port t).ntpSeen = (port s).ntpSeen + 1 ∧
        ((port s).queue < 512 → (port t).queue = (port s).queue + 1 ∧ t.tpe.server = s.tpe.server) ∧
        (512 ≤ (port s).queue → (port t).queue = (port s).queue ∧
          t.tpe.server.ctr[12] = min (2 ^ 32 - 1) (s.tpe.server.ctr[12] + 1)) ∧
        { t with tpe := s.tpe, intc := s.intc, pcu := s.pcu } = s) ∧
    Leads c
      (fun s => timed s ∧ classify s l.val f = .ntpServer true ∧ prpCopy s l.val f = false ∧
        (port s).ntpLimit * 1000 ≤ (port s).ntpSeen)
      (fun s t => t.tpe.server.ctr[6] = min (2 ^ 32 - 1) (s.tpe.server.ctr[6] + 1) ∧
        { t with tpe := s.tpe, intc := s.intc, pcu := s.pcu } = s) ∧
    (∀ u : Nat,
      let bytes := max 64 (42 + (f.bytes - 4))
      let hosts := fun (s : State) => up s ∧ (port s).hostPath = 2 ∧ ((port s).enable = true → classify s l.val f = .rest) ∧
        prpCopy s l.val f = false ∧ uplink s = some u
      let rest := fun (s t : State) => { t with tpe := s.tpe, intc := s.intc, pcu := s.pcu } = s
      Leads c (fun s => hosts s ∧ (port s).enable = true ∧ (drainHost s).tpe.hostFill + bytes ≤ 1048576)
        (fun s t => t.tpe.hostOut = s.tpe.hostOut ++ [{
            type := 0, port := l.val, handle := 0, time := hostIngress s l.val mark, inner := some f, dst := (s.portOf u).hostMac, src := portMac s u }] ∧
          t.tpe.hostFill = (drainHost s).tpe.hostFill + bytes ∧
          (port t).toHost = min (2 ^ 32 - 1) ((port s).toHost + 1) ∧ rest s t) ∧
      Leads c (fun s => hosts s ∧ (port s).enable = false ∧ (drainHost s).tpe.hostFill + bytes ≤ 1048576)
        (fun s t => t.tpe.hostOut = s.tpe.hostOut ++ [{
            type := 0, port := l.val, handle := 0, time := 0, inner := some f, dst := (s.portOf u).hostMac, src := portMac s u }] ∧
          t.tpe.hostFill = (drainHost s).tpe.hostFill + bytes ∧
          (port t).toHost = min (2 ^ 32 - 1) ((port s).toHost + 1) ∧ rest s t) ∧
      Leads c (fun s => hosts s ∧ (port s).enable = true ∧ 1048576 < (drainHost s).tpe.hostFill + bytes)
        (fun s t => t.tpe.hostOut = s.tpe.hostOut ∧ (port t).toHost = (port s).toHost ∧ rest s t)) ∧
    Leads c (fun s => timed s ∧ classify s l.val f = .rest ∧ (port s).hostPath = 0)
      (fun s t => (port t).discarded = min (2 ^ 32 - 1) ((port s).discarded + 1) ∧ t.tpe.hostOut = s.tpe.hostOut ∧
        { t with tpe := s.tpe, intc := s.intc, pcu := s.pcu } = s)) ∧
  (∀ (h : HostTagged) (p : LaneId), Leads (.hostUplinkFrameReceive h)
    (fun s => s.blockRuns 12 = true ∧ laneUp s.nlu.lane[h.uplink] = true ∧ s.tpe.port[h.uplink].hostPath = 1 ∧ h.version = 1 ∧
      h.type = 1 ∧ h.port.toNat = p.val ∧ s.lanePresent p.val = true ∧ s.tpe.port[p].hostPath = 2 ∧ h.bytes ≤ s.tpe.port[p].hostMax ∧
      (s.pairOf (p.val / 2)).enable = false)
    (fun s t => t = s.setPort p.val fun x =>
      { x with hostQueue := x.hostQueue ++ [{ handle := h.handle, report := h.flags.getLsbD 0, bytes := h.bytes, rct := none }] })) ∧
  (∀ (h : HostTagged) (p q : LaneId) (n : Fin 12),
    ((p.val = 2 * n.val ∧ q.val = 2 * n.val + 1) ∨ (q.val = 2 * n.val ∧ p.val = 2 * n.val + 1)) → Sets (.hostUplinkFrameReceive h)
    (fun s => s.blockRuns 12 = true ∧ laneUp s.nlu.lane[h.uplink] = true ∧ s.tpe.port[h.uplink].hostPath = 1 ∧ h.version = 1 ∧
      h.type = 1 ∧ h.port.toNat = p.val ∧ s.lanePresent p.val = true ∧ s.tpe.port[p].hostPath = 2 ∧ h.bytes ≤ s.tpe.port[p].hostMax ∧
      s.tpe.prp[n].enable = true)
    (fun s =>
      let frame := fun (report : Bool) => ({ handle := h.handle, report := report, bytes := h.bytes + 6
                                             rct := some s.tpe.prp[n].rctSeq } : HostFrame)
      let s' := (s.setPort p.val fun x => { x with hostQueue := x.hostQueue ++ [frame (h.flags.getLsbD 0)] }).setPort q.val fun x =>
        { x with hostQueue := x.hostQueue ++ [frame false] }
      { s' with tpe := { s'.tpe with prp := s.tpe.prp.set n.val { s.tpe.prp[n] with rctSeq := s.tpe.prp[n].rctSeq + 1 } } })) ∧
  (∀ h : HostTagged, Sets (.hostUplinkFrameReceive h)
    (fun s => s.blockRuns 12 = true ∧ laneUp s.nlu.lane[h.uplink] = true ∧ s.tpe.port[h.uplink].hostPath = 1 ∧
      (h.version ≠ 1 ∨ h.type ≠ 1 ∨ 24 ≤ h.port.toNat))
    (fun s => s.setPort h.uplink.val fun x => { x with discarded := min (2 ^ 32 - 1) (x.discarded + 1) })) ∧
  (∀ (l : LaneId) (h : HostFrame) (rest : List HostFrame), Leads (.hostFrameTransmit l)
    (fun s => s.tpe.port[l].hostQueue = h :: rest ∧ laneUp s.nlu.lane[l] = true ∧ s.blockRuns 12 = true ∧
      s.tpe.port[l].hostEnd ≤ s.tcr.cycles ∧ hostFits s l.val h.bytes = true)
    (fun s t =>
      let x := s.tpe.port[l]
      let y := t.tpe.port[l]
      y.hostQueue = rest ∧ y.fromHost = min (2 ^ 32 - 1) (x.fromHost + 1) ∧ y.ctr[9] = min (2 ^ 32 - 1) (x.ctr[9] + 1) ∧
      s.tcr.cycles * 10 ^ 33 + (h.bytes + 20) * byteU s.nlu.lane[l] ≤ y.hostEnd * 10 ^ 33 ∧
      (h.report = false → t.tpe.hostOut = s.tpe.hostOut) ∧
      (h.report = true → ∀ u : Nat, uplink s = some u → (drainHost s).tpe.hostFill + 64 ≤ 1048576 → t.tpe.hostOut = s.tpe.hostOut ++
        [{ type := 2, port := l.val, handle := h.handle, time := if x.enable then hostEgress s l.val else 0, inner := none
           dst := (s.portOf u).hostMac, src := portMac s u }]) ∧
      t.tpe.galley = s.tpe.galley ∧ { t with tpe := s.tpe, intc := s.intc, pcu := s.pcu } = s)) ∧
  (∀ l : LaneId, Sets (.prpSupervisionReceive l)
    (fun s => s.blockRuns 12 = true ∧ laneUp s.nlu.lane[l] = true ∧ (s.pairOf (l.val / 2)).enable = true)
    (fun s => s.setPort l.val fun x => { x with supRx := x.supRx + 1 })) ∧
  (∀ n : Fin 12, Leads (.prpSupervisionSend n)
    (fun s => s.fwRuns = true ∧ s.blockRuns 12 = true ∧ s.tpe.prp[n].enable = true ∧
      ∀ c, s.tpe.prp[n].supAt = some c → c + s.tpe.prp[n].lifeCheckMs * 10 ^ 6 ≤ s.tcr.cycles)
    (fun s t => { t with pcu := s.pcu, intc := s.intc } = { s with tpe := { s.tpe with
      prp := s.tpe.prp.set n.val { s.tpe.prp[n] with supAt := some s.tcr.cycles }
      port := (Vector.ofFn fun (p : Fin 24) =>
        if p.val / 2 = n.val ∧ laneUp s.nlu.lane[p] = true then
          { s.tpe.port[p] with supTx := s.tpe.port[p].supTx + 1
                               supSent := s.tpe.port[p].supSent ++ [BitVec.ofNat 48 (0x01154E000100 + s.tpe.prp[n].supLsb.toNat)] }
        else s.tpe.port[p]) } }))

/-- AUE_JOB_COMPLETE completes a frame and returns its slot, and a transaction on a received message goes on with its
result: to its instance, to a repetition under the previous key, to the second job of an NTS request, or to its discard;
LAUNCH_COMMIT commits a complete frame, drops one whose link is down or whose rebuilds are used up; FRAME_LAUNCH sends a
committed frame (R255, R256, R260–R262, R265, R280, R289, R300, R315). The model's own choices and readings behind it:
log entries 25, 55, 57, 111. -/
def Obligations.GalleyEventsAct : Prop :=
  (∀ (tx : Nat) (ok : Bool) (f : GalleyFrame), Sets (.aueJobComplete tx ok)
    (fun s => s.blockRuns 13 = true ∧ (∀ w ∈ s.aue.work, w.tx ≠ tx) ∧ s.tpe.galley.find? (fun g => g.tx == some tx) = some f ∧
      ((∃ k, f.auth = .nts k) → s.sec.trngReady = true))
    (fun s => { s with
      aue := { s.aue with slots := s.aue.slots.filter fun x => x.tx != tx }
      tpe := { s.tpe with galley := (s.tpe.galley.map fun g => if g.id = f.id then { f with tx := none, complete := ok } else g) } })) ∧
  (∀ (tx : Nat) (ok : Bool), Sets (.aueJobComplete tx ok)
    (fun s => s.blockRuns 13 = true ∧ (∀ w ∈ s.aue.work, w.tx ≠ tx) ∧ ∀ g ∈ s.tpe.galley, g.tx ≠ some tx)
    (fun s => { s with aue := { s.aue with slots := s.aue.slots.filter fun x => x.tx != tx } })) ∧
  (∀ (tx : Nat) (ok : Bool) (w : RxWork),
    let works := fun (s : State) => s.blockRuns 13 = true ∧ s.aue.work.find? (fun x => x.tx == tx) = some w
    let ended := fun (s t : State) =>
      t.aue = { s.aue with slots := s.aue.slots.filter fun x => x.tx != tx, work := s.aue.work.filter fun x => x.tx != tx }
    let goesOn := fun (s t : State) (y : RxWork) =>
      t.aue = { s.aue with work := s.aue.work.map fun x => if x.tx = tx then y else x }
    let passes := (w.pass && ok) = true
    (∀ (rx : PtpRx) (c : RxCont), w.msg = .ptp rx c →
      (¬passes → w.again = none → Leads (.aueJobComplete tx ok) works
        (fun s t => ended s t ∧
          t.tpe.pi[rx.port][rx.inst].ctr[4] = min (2 ^ 32 - 1) (s.tpe.pi[rx.port][rx.inst].ctr[4] + 1) ∧
          { t with tpe := s.tpe, aue := s.aue, intc := s.intc, pcu := s.pcu } = s)) ∧
      (¬passes → ∀ r, w.again = some r → Leads (.aueJobComplete tx ok) works
        (fun s t => goesOn s t { w with pass := r, again := none } ∧
          (∀ k : Fin 128, k.val ≠ w.key → t.sec.key[k] = s.sec.key[k]) ∧
          (∀ k : Fin 128, k.val = w.key → s.sec.key[k].st ≠ .empty →
            t.sec.key[k].useCount = min (2 ^ 32 - 1) (s.sec.key[k].useCount + 1)) ∧
          { t with sec := s.sec, aue := s.aue, intc := s.intc, pcu := s.pcu } = s)) ∧
      (passes → c = .message .sync 0 → rx.msg.twoStep = true → Leads (.aueJobComplete tx ok)
        (fun s =>
          let x := s.tpe.pi[rx.port][rx.inst]
          works s ∧ s.blockRuns 12 = true ∧ piEnabled s rx.port.val rx.inst.val = true ∧ x.st ≠ .initializing ∧
          s.tpe.inst[rx.inst].role ≠ 2 ∧ fromParent x rx.msg = true ∧ x.early = none)
        (fun s t => ended s t ∧
          t.tpe.pi[rx.port][rx.inst].ctr[0] = min (2 ^ 32 - 1) (s.tpe.pi[rx.port][rx.inst].ctr[0] + 1) ∧
          t.tpe.pi[rx.port][rx.inst].half = some
            { seq := rx.msg.seq, t1 := rx.msg.correction, t2 := rxClient s rx.port.val w.ingress, fallback := w.fallback } ∧
          { t with tpe := s.tpe, aue := s.aue, intc := s.intc, pcu := s.pcu } = s))) ∧
    (∀ (rx : NtpRx) (n : NtsFields) (c2s s2c : List Byte),
      (passes → w.msg = .request rx n (some (c2s, s2c)) false → Leads (.aueJobComplete tx ok) works
        (fun s t => goesOn s t { w with pass := (Config.sivOpen c2s n.nonce n.covered n.cipher).isSome
                                        msg := .request rx n (some (c2s, s2c)) true } ∧ { t with aue := s.aue } = s)) ∧
      (¬passes → w.msg = .request rx n (some (c2s, s2c)) true → Leads (.aueJobComplete tx ok) works
        (fun s t => ended s t ∧ t.tpe.server.ctr[5] = min (2 ^ 32 - 1) (s.tpe.server.ctr[5] + 1) ∧
          t.tpe.galley = s.tpe.galley ∧ { t with tpe := s.tpe, aue := s.aue, intc := s.intc, pcu := s.pcu } = s))) ∧
    (∀ (c : Fin 8) (rx : NtpRx) (t1 : Int) (plain : List Byte), ¬passes → w.msg = .response c rx t1 plain →
      Leads (.aueJobComplete tx ok) works
        (fun s t => ended s t ∧ t.tpe.client[c] = { s.tpe.client[c] with missed := s.tpe.client[c].missed + 1 } ∧
          { t with tpe := s.tpe, aue := s.aue } = s))) ∧
  (∀ (id : Nat) (movedPs : Int) (f : GalleyFrame),
    let here := fun (s : State) => s.blockRuns 12 = true ∧ frameOf s id = some f ∧ f.committed = false ∧
      f.launch ≤ viewCount s f.view.val + 1500 * 10 ^ 33
    let linked := fun (s : State) => laneUp s.nlu.lane[f.port] = true ∧ s.tpe.port[f.port].enable = true
    let e := fun (s : State) => movedPs + txDelay s f.port.val - f.predicted
    Leads (.launchCommit id movedPs) (fun s => here s ∧ linked s ∧ f.complete = true ∧ (e s).natAbs ≤ 1000)
      (fun s t =>
        t.tpe.galley = s.tpe.galley.map (fun g => if g.id = f.id then { f with committed := true } else g) ∧
        t.tpe.port[f.port].ctr[1] = min (2 ^ 32 - 1) (s.tpe.port[f.port].ctr[1] + 1) ∧
        (launchAccuracy s.nlu.lane[f.port] < (e s).natAbs →
          t.tpe.port[f.port].ctr[8] = min (2 ^ 32 - 1) (s.tpe.port[f.port].ctr[8] + 1)) ∧
        (∀ (i : Fin 8) (ty : PtpType), kindPtp f.kind = some (i.val, ty) →
          if isEvent ty then t.tpe.pi[f.port][i].ctr[2] = min (2 ^ 32 - 1) (s.tpe.pi[f.port][i].ctr[2] + 1)
          else t.tpe.pi[f.port][i].ctr[3] = min (2 ^ 32 - 1) (s.tpe.pi[f.port][i].ctr[3] + 1)) ∧
        t.tpe.sent = s.tpe.sent ∧ { t with tpe := s.tpe, intc := s.intc, pcu := s.pcu } = s) ∧
    Leads (.launchCommit id movedPs) (fun s => here s ∧ ¬linked s)
      (fun s t =>
        t.tpe.galley = s.tpe.galley.filter (fun g => !(g.id == f.id || g.follows == some f.id)) ∧ t.tpe.sent = s.tpe.sent ∧
        (∀ tx, f.tx = some tx → ∀ x ∈ t.aue.slots, x.tx ≠ tx) ∧
        { t with tpe := s.tpe, aue := s.aue, intc := s.intc, pcu := s.pcu } = s) ∧
    Leads (.launchCommit id movedPs)
      (fun s => here s ∧ linked s ∧ (f.complete = false ∨ 1000 < (e s).natAbs) ∧ s.tpe.port[f.port].maxRebuilds ≤ f.rebuilds)
      (fun s t =>
        let cause : Fin 10 := if f.complete then 3 else 2
        t.tpe.galley = s.tpe.galley.filter (fun g => !(g.id == f.id || g.follows == some f.id)) ∧
        t.tpe.port[f.port].ctr[cause] = min (2 ^ 32 - 1) (s.tpe.port[f.port].ctr[cause] + 1) ∧
        t.tpe.port[f.port].ctr[5] = min (2 ^ 32 - 1) (s.tpe.port[f.port].ctr[5] + 1) ∧ t.tpe.sent = s.tpe.sent)) ∧
  (∀ (id : Nat) (errPs : Int) (f : GalleyFrame), Leads (.frameLaunch id errPs)
    (fun s => frameOf s id = some f ∧ f.committed = true ∧ f.launch ≤ viewCount s f.view.val ∧ defaultSources s)
    (fun s t =>
      t.tpe.galley = s.tpe.galley.filter (fun g => g.id != f.id) ∧ t.tpe.sent = s.tpe.sent ++ [f] ∧
      t.tpe.worked = s.tpe.worked + 1 ∧ t.tpe.port = s.tpe.port ∧ t.aue = s.aue ∧
      (∀ (c : Fin 8) (m : NtpMsg), f.kind = .ntpRequest c m →
        t.tpe.client[c].t1 = some (ticks f.launch - ticksOfPs (asymmetry s f.port.val)) ∧ t.tpe.client[c].t1Ntp = some m.xmit ∧
        t.tpe.client[c].t1Fallback = f.fallback) ∧
      (∀ (i : Fin 8) (m : PtpMsg) (d : DelayRec), f.kind = .ptp i .delayReq m ∨ f.kind = .ptp i .pdelayReq m →
        s.tpe.pi[f.port][i].delay = some d → d.seq = m.seq →
        t.tpe.pi[f.port][i].delay = some { d with
          t3 := some (ticks f.launch - ticksOfPs (asymmetry s f.port.val)), fallback := d.fallback || f.fallback }) ∧
      (errPs.natAbs ≤ 1000 → t.fco = s.fco ∧ t.pcu = (pcuCount 0x2002 f.port.val 1 s).pcu ∧
        t.intc = (pcuCount 0x2002 f.port.val 1 s).intc)))

/-! ### Events of PTP (R276–R286) -/

/-- PTP messages received: Sync and Follow_Up give a measurement, Announce the foreign master, Delay_Req an answer,
Delay_Resp and Pdelay_Resp the path delay, signalling the grants; a transparent clock forwards with the residence time;
a message without the authentication that AUTH 2 requires is counted and discarded, one with it waits for AUE; the
pipelines serve the input queues in turn (R270, R276–R283, R300, R303). The model's own choices and readings behind it:
log entries 25, 52, 54, 55, 56, 59, 61, 66, 112. -/
def Obligations.PtpMessagesAct : Prop :=
  (∀ rx : PtpRx, rx.msg.auth = none →
    ∀ c : Instr, (c = .ptpSyncReceive rx ∨ c = .ptpFollowUpReceive rx ∨ c = .ptpAnnounceReceive rx ∨ c = .ptpDelayRespReceive rx ∨
      c = .ptpPdelayRespReceive rx) → Moves c
    (fun s => ptpHears s rx = true ∧ served s rx.port rx.mark ∧ s.tpe.inst[rx.inst].role ≠ 2 ∧ s.tpe.inst[rx.inst].auth = 2) 0
    (fun s => s.setPi rx.port.val rx.inst.val fun x => { x with ctr := x.ctr.set 5 (min (2 ^ 32 - 1) (x.ctr[5] + 1)) })) ∧
  (∀ rx : PtpRx,
    let m := rx.msg
    let x := fun (s : State) => s.tpe.pi[rx.port][rx.inst]
    let counted := fun (k : Fin 11) (s t : State) => (x t).ctr[k] = min (2 ^ 32 - 1) ((x s).ctr[k] + 1)
    let ing := fun (s : State) => ingressStamp s rx.port.val rx.mark s.tpe.inst[rx.inst].view.val
    let here := fun (s : State) => rxClient s rx.port.val (ing s)
    let fb := fun (s : State) => rxFallback s rx.port.val rx.mark
    let behind := fun (s : State) (q : Fin 24) => (q.val + 23 - s.tpe.turn.val) % 24
    Leads (.ptpSyncReceive rx) (fun s => ptpHears s rx = true ∧ ¬served s rx.port rx.mark ∧ s.tpe.port[rx.port].queue ≠ 0)
      (fun s t => t.tpe.turn = rx.port ∧ t.tpe.serving = some (rx.port, rx.mark) ∧
        ∀ q : Fin 24, t.tpe.port[q].queue =
          if behind s q ≤ behind s rx.port then s.tpe.port[q].queue - 1 else s.tpe.port[q].queue) ∧
    (∀ (a : AuthTlv) (k : Nat), m.auth = some a → Leads (.ptpSyncReceive rx)
      (fun s => ptpHears s rx = true ∧ served s rx.port rx.mark ∧ s.tpe.inst[rx.inst].role ≠ 2 ∧ s.tpe.inst[rx.inst].auth = 2 ∧
        a.spp = s.tpe.inst[rx.inst].spp ∧ verifySlotFor s s.tpe.inst[rx.inst] a.keyId = some k)
      (fun s t => x t = (if s.blockRuns 13 = true ∧ s.aue.slots.length < 1024 then x s
          else { x s with ctr := (x s).ctr.set 10 (min (2 ^ 32 - 1) ((x s).ctr[10] + 1)) }) ∧
        (s.blockRuns 13 = true → s.aue.slots.length < 1024 → t.aue.work = s.aue.work ++ [{
          tx := s.tpe.built, pass := icvMatches (s.keySlot k).key a, again := (prevKey s k).map fun old => icvMatches old a
          key := k, ingress := ing s, fallback := fb s, msg := .ptp rx (.message .sync 0) }] ∧
          (∃ y ∈ t.aue.slots, y.tx = s.tpe.built ∧ y.nts = false)))) ∧
    Leads (.ptpSyncReceive rx) (fun s => hearsPlain s rx ∧ fromParent (x s) m = true ∧ m.twoStep = true ∧ (x s).early = none)
      (fun s t => counted 0 s t ∧ (x t).last = (x s).last ∧ (x t).half = some
        { seq := m.seq, t1 := m.correction, t2 := here s, fallback := fb s }) ∧
    (∀ (d : Int) (f : Foreign) (q : Fin 32), Leads (.ptpSyncReceive rx)
      (fun s => hearsPlain s rx ∧ fromParent (x s) m = true ∧ m.twoStep = false ∧ followsMaster (x s).st = true ∧
        (x s).st ≠ .passiveSlave ∧ (x s).pathDelay = some d ∧ (x s).foreign = some f ∧ fb s = false ∧
        (x s).pathFallback = false ∧ s.tpe.inst[rx.inst].ref = some q)
      (fun s t =>
        let off := ptpTicks m.time + m.correction + d - here s
        counted 0 s t ∧ (x t).half = none ∧ (x t).offset = off ∧ (x t).st = .slave ∧ (x t).measuredAt = s.tcr.cycles ∧
        (x t).missed = 0 ∧ (x t).offsets = (s.tcr.seq.second, off) :: (x s).offsets.filter (fun o => s.tcr.seq.second < o.1 + 16) ∧
        ((x s).st = .uncalibrated → t.intc.status.getLsbD 14 = true) ∧
        (s.rim.ref[q].enable = true → s.blockRuns 5 = true →
          t.rim.ref[q].lag = some ((viewCount s s.tpe.inst[rx.inst].view.val : ℚ) / 10 ^ 33 + off / 65536 -
            unsteered s s.tcr.cycles, s.tcr.cycles) ∧ t.rim.ref[q].los = false))) ∧
    Leads (.ptpSyncReceive rx)
      (fun s => hearsPlain s rx ∧ fromParent (x s) m = true ∧ m.twoStep = false ∧ (x s).pathDelay.isSome = true ∧
        fb s = true ∧ s.tpe.port[rx.port].refUseFallback = false)
      (fun s t => counted 0 s t ∧ (x t).missed = (x s).missed + 1 ∧ (x t).offset = (x s).offset ∧ t.rim = s.rim) ∧
    Leads (.ptpFollowUpReceive rx)
      (fun s => hearsPlain s rx ∧ fromParent (x s) m = true ∧ (x s).half = none)
      (fun s t => counted 1 s t ∧ (x t).early = some { seq := m.seq, srcPort := m.srcPort, t1 := ptpTicks m.time + m.correction } ∧
        (x t).last = (x s).last) ∧
    (∀ r : SyncRec, Leads (.ptpFollowUpReceive rx)
      (fun s => hearsPlain s rx ∧ (x s).half = some r ∧ r.seq = m.seq ∧ fromParent (x s) m = true)
      (fun s t => counted 1 s t ∧ (x t).half = none ∧
        (x t).last = some { r with t1 := r.t1 + ptpTicks m.time + m.correction })) ∧
    (∀ b : AnnounceBody, Leads (.ptpAnnounceReceive rx)
      (fun s => hearsPlain s rx ∧ m.announce = some b ∧ m.srcPort.toNat / 65536 ≠ (clockIdentity s rx.inst.val).toNat ∧
        ((x s).foreign = none ∨ ∃ g, (x s).foreign = some g ∧ g.srcPort = m.srcPort))
      (fun s t => counted 1 s t ∧ (x t).foreign = some { body := b, srcPort := m.srcPort, assurance := m.assurance } ∧
        (x t).timedOut = false ∧ (x t).annAt = s.tcr.cycles ∧ t.tpe.inst[rx.inst].bmcaDue = !s.fwRuns)) ∧
    Leads (.ptpDelayReqReceive rx)
      (fun s => hearsPlain s rx ∧ (instProfile s rx.inst.val).peer = false ∧ (instProfile s rx.inst.val).required = false ∧
        actsMaster s rx.port.val rx.inst.val = true ∧ s.tpe.ledger = [] ∧ sendsPlain s rx.port rx.inst)
      (fun s t => counted 0 s t ∧ ∃ f a, t.tpe.galley = [f] ∧ placed s rx.port f ∧ f.kind = .ptp rx.inst .delayResp a ∧
        a.seq = m.seq ∧ a.reqPort = m.srcPort ∧ a.correction = m.correction ∧
        a.time = ptpTime (ing s)) ∧
    (∀ (d : DelayRec) (y : SyncRec) (t3 : Int), Leads (.ptpDelayRespReceive rx)
      (fun s => hearsPlain s rx ∧ (x s).delay = some d ∧ (x s).last = some y ∧ d.t3 = some t3 ∧
        (instProfile s rx.inst.val).peer = false ∧ d.seq = m.seq ∧ m.reqPort = portIdentity s rx.port.val rx.inst.val ∧
        fromParent (x s) m = true)
      (fun s t => counted 1 s t ∧ (x t).delay = none ∧ (x t).pathFallback = (d.fallback || y.fallback) ∧
        (x t).pathDelay = some (((y.t2 - y.t1) + (ptpTicks m.time - m.correction - t3)).tdiv 2))) ∧
    Leads (.ptpPdelayReqReceive rx)
      (fun s => hearsPlain s rx ∧ (instProfile s rx.inst.val).peer = true ∧ (x s).st ≠ .calibrating ∧
        sendsPlain s rx.port rx.inst)
      (fun s t => counted 0 s t ∧ ∃ f a rest, t.tpe.galley = f :: rest ∧ placed s rx.port f ∧
        f.kind = .ptp rx.inst .pdelayResp a ∧ a.seq = m.seq ∧ a.reqPort = m.srcPort) ∧
    (∀ (d : DelayRec) (t3 : Int),
      let waits := fun (s : State) => hearsPlain s rx ∧ (instProfile s rx.inst.val).peer = true ∧ (x s).delay = some d ∧
        d.t3 = some t3 ∧ d.seq = m.seq ∧ m.reqPort = portIdentity s rx.port.val rx.inst.val
      Leads (.ptpPdelayRespReceive rx) (fun s => waits s ∧ d.half = none ∧ m.twoStep = false)
        (fun s t => counted 0 s t ∧ (x t).delay = none ∧ (x t).pathDelay = some ((here s - t3 - m.correction).tdiv 2)) ∧
      Leads (.ptpPdelayRespReceive rx) (fun s => waits s ∧ d.half = none ∧ m.twoStep = true)
        (fun s t => (x t).pathDelay = (x s).pathDelay ∧ (x t).delay = some { d with
          half := some (here s + ptpTicks m.time - m.correction), fallback := d.fallback || fb s }) ∧
      (∀ h : Int, Leads (.ptpPdelayRespReceive rx) (fun s => waits s ∧ d.half = some h)
        (fun _ t => (x t).delay = none ∧ (x t).pathDelay = some ((h - t3 - ptpTicks m.time - m.correction).tdiv 2)))) ∧
    (∀ egress : LaneId,
      let forwards := fun (s : State) => ptpHears s rx = true ∧ served s rx.port rx.mark ∧ s.tpe.inst[rx.inst].role = 2 ∧ egress ≠ rx.port ∧
        piEnabled s egress.val rx.inst.val = true ∧ canReserve s egress
      ∀ delayReq : Bool,
      let t' := if delayReq then PtpType.delayReq else .sync
      Leads (.ptpTcForward delayReq rx egress) (fun s => forwards s ∧ s.tpe.inst[rx.inst].twoStep = true)
        (fun s t => counted 0 s t ∧ ∃ f, t.tpe.galley = [f] ∧ placed s egress f ∧
          f.kind = .forwarded rx.inst t' m (ing s) rx.port false) ∧
      Leads (.ptpTcForward delayReq rx egress)
        (fun s => forwards s ∧ s.tpe.inst[rx.inst].twoStep = false ∧ m.auth = none ∧ (instProfile s rx.inst.val).peer = false)
        (fun s t => counted 0 s t ∧ ∃ f, t.tpe.galley = [f] ∧ placed s egress f ∧
          f.kind = .forwarded rx.inst t' { m with correction := m.correction + ticks f.launch - ticks (ing s) } (ing s) rx.port true))) ∧
  (∀ sg : Signaling,
    let addr := fun (s : State) => clientAddr s.tpe.pi[sg.rx.port][sg.rx.inst].transport sg.rx.mac sg.rx.addr
    let same := fun (s : State) (g : LedgerRec) =>
      g.type == 3 && g.port == sg.rx.port && g.inst == sg.rx.inst && g.addr == addr s && g.flags.toNat == sg.msgType.toNat
    Leads (.ptpSignalingReceive sg) (fun s => hearsPlain s sg.rx ∧ s.fwRuns = false)
      (fun s t => t.tpe.held = s.tpe.held ++ [sg] ∧ t.tpe.ledger = s.tpe.ledger) ∧
    (∀ (li : Int) (dur k : Nat) (fast : Int), sg.action = .request li dur → Leads (.ptpSignalingReceive sg)
      (fun s =>
        let y := s.tpe.inst[sg.rx.inst]
        hearsPlain s sg.rx ∧ s.fwRuns = true ∧ y.grantor = true ∧ negotiates s sg.rx.inst.val = true ∧
        (∀ e ∈ s.tpe.ledger, same s e.2 = false) ∧ grantCount s none < grantCap s.cpx.imposition ∧
        grantCount s (some sg.rx.inst.val) < min (grantCap s.cpx.imposition) (y.maxGrants.getD (grantCap s.cpx.imposition)) ∧
        freeIndex s = some k ∧ fastest y sg.msgType = some fast ∧ fast ≤ li ∧
        (s.tpe.pi[sg.rx.port][sg.rx.inst].transport = 0 ∨ s.tpe.port[sg.rx.port].nextHop ≠ 0))
      (fun s t => t.tpe.ledger = insertRec k
        { addr := addr s, port := sg.rx.port, type := 3, inst := sg.rx.inst
          transport := s.tpe.pi[sg.rx.port][sg.rx.inst].transport, last := BitVec.ofNat 16 (now16 s)
          tokens := BitVec.ofNat 16 (now16 s + min dur s.tpe.inst[sg.rx.inst].grantMax), interval := BitVec.ofInt 8 li
          flags := BitVec.ofNat 8 sg.msgType.toNat, filledAt := if sg.msgType = 0x9 then s.tcr.cycles else 0
          bucket := 1024 } s.tpe.ledger)) ∧
    (sg.action = .cancel → Leads (.ptpSignalingReceive sg) (fun s => hearsPlain s sg.rx ∧ s.fwRuns = true)
      (fun s t => t.tpe.ledger = s.tpe.ledger.filter fun e => !same s e.2)) ∧
    (∀ (li : Int) (dur : Nat), sg.action = .granted li dur → Leads (.ptpSignalingReceive sg)
      (fun s => hearsPlain s sg.rx ∧ s.fwRuns = true ∧ negotiates s sg.rx.inst.val = true ∧
        s.tpe.pi[sg.rx.port][sg.rx.inst].unicastMaster ≠ 0 ∧ addr s = s.tpe.pi[sg.rx.port][sg.rx.inst].unicastMaster)
      (fun s t =>
        let k : Fin 3 := if sg.msgType = 0xB then 0 else if sg.msgType = 0x0 then 1 else 2
        t.tpe.pi[sg.rx.port][sg.rx.inst].grants = s.tpe.pi[sg.rx.port][sg.rx.inst].grants.set k.val
          (if dur = 0 then none else some { expiry := s.tcr.cycles + dur * 10 ^ 9, duration := dur, log := li }))))

/-- PTP messages sent and PTP timers: Announce, Sync and Delay_Req reserve their frames, a lost Announce ends the
foreign master, grants are renewed and expire, the ledger is swept, a PASSIVE_SLAVE takes over (R276–R278, R282, R286,
R298). The model's own choices and readings behind it: log entries 25, 52, 57, 61, 110, 114. -/
def Obligations.PtpTimersAct : Prop :=
  (∀ (i : PtpId) (l : LaneId),
    let x := fun (s : State) => s.tpe.pi[l][i]
    let masters := fun (s : State) => piEnabled s l.val i.val = true ∧ actsMaster s l.val i.val = true ∧ s.tpe.ledger = [] ∧
      (instProfile s i.val).required = false ∧ sendsPlain s l i
    let due := fun (n : Fin 3) (log : Int) (s : State) => ∀ c, (x s).sentAt[n] = some c → c + logCycles log ≤ s.tcr.cycles
    Leads (.ptpAnnounceSend i l) (fun s => masters s ∧ due 0 (ownLog s l.val i.val 0) s ∧ s.fwRuns = true)
      (fun s t => (x t).seqAnnounce = (x s).seqAnnounce + 1 ∧ (x t).sentAt = (x s).sentAt.set 0 (some s.tcr.cycles) ∧
        (x t).template = some (announceMessage s l.val i.val) ∧
        ∃ f, t.tpe.galley = [f] ∧ placed s l f ∧ f.kind = .ptp i .announce (announceMessage s l.val i.val) ∧ f.complete = true) ∧
    (∀ m b : _, Leads (.ptpAnnounceSend i l)
      (fun s => masters s ∧ due 0 (ownLog s l.val i.val 0) s ∧ s.fwRuns = false ∧ (x s).st = .master ∧ (x s).template = some m ∧
        m.announce = some b)
      (fun s t => ∃ f a o c, t.tpe.galley = [f] ∧ placed s l f ∧ f.kind = .ptp i .announce a ∧ a.seq = (x s).seqAnnounce ∧
        (announceMessage s l.val i.val).announce = some o ∧ a.announce = some c ∧ c.gmIdentity = b.gmIdentity ∧
        c.priority1 = b.priority1 ∧ c.priority2 = b.priority2 ∧ c.steps = b.steps ∧ c.clockClass = o.clockClass ∧
        c.accuracy = o.accuracy ∧ c.utc = o.utc)) ∧
    Leads (.ptpSyncSend i l) (fun s => masters s ∧ due 1 (ownLog s l.val i.val 1) s)
      (fun s t => (x t).seqSync = (x s).seqSync + 1 ∧ (x t).sentAt = (x s).sentAt.set 1 (some s.tcr.cycles) ∧
        ∃ f m rest, t.tpe.galley = f :: rest ∧ placed s l f ∧ f.kind = .ptp i .sync m ∧ m.seq = (x s).seqSync ∧
          m.time = (if s.tpe.inst[i].twoStep then { sec := 0, ns := 0 } else ptpTime f.launch) ∧
          (s.tpe.inst[i].twoStep = false → rest = [])) ∧
    Leads (.ptpDelayReqSend i l)
      (fun s => piEnabled s l.val i.val = true ∧ followsMaster (x s).st = true ∧ s.tpe.inst[i].role ≠ 2 ∧
        (instProfile s i.val).peer = false ∧ sendsPlain s l i ∧ due 2 (heardLog s l.val i.val 2) s)
      (fun s t => (x t).sentAt = (x s).sentAt.set 2 (some s.tcr.cycles) ∧ (x t).seqDelay = (x s).seqDelay + 1 ∧ (x t).delay = some { seq := (x s).seqDelay } ∧
        ∃ f m, t.tpe.galley = [f] ∧ placed s l f ∧ f.kind = .ptp i .delayReq m ∧ m.seq = (x s).seqDelay) ∧
    Leads (.announceReceiptTimeout i l) (fun s => piEnabled s l.val i.val = true ∧ s.blockRuns 12 = true ∧
        (x s).annAt + announceWait s l.val i.val ≤ s.tcr.cycles)
      (fun s t => (x t).foreign = none ∧ (x t).timedOut = true ∧ t.tpe.inst[i].bmcaDue = !s.fwRuns) ∧
    Leads (.unicastGrantRenew i l)
      (fun s => s.fwRuns = true ∧ piEnabled s l.val i.val = true ∧ negotiates s i.val = true ∧ (x s).unicastMaster ≠ 0 ∧
        mayOriginate s l.val = true)
      (fun s t => (x t).seqSignal = (x s).seqSignal + BitVec.ofNat 16 ((List.range 3).filter (wantsGrant s l.val i.val)).length ∧
        t.tpe.ledger = s.tpe.ledger)) ∧
  (∀ k : Nat, Sets (.unicastGrantExpiry k) (fun s => s.fwRuns = true)
    (fun s => { s with tpe := { s.tpe with ledger := s.tpe.ledger.filter fun e => !(e.1 == k && e.2.type == 3 && grantExpired s e.2) } })) ∧
  Sets .ledgerSweep (fun s => s.fwRuns = true ∧ s.blockRuns 12 = true)
    (fun s => { s with tpe := { s.tpe with ledger := (s.tpe.ledger.filter fun e =>
      (if e.2.type = 3 then !grantExpired s e.2 else decide (age16 s e.2.last < s.tpe.idleS))) } }) ∧
  (∀ (i : PtpId) (n : Fin 12) (a b : LaneId), (a.val = 2 * n.val ∧ b.val = 2 * n.val + 1) →
    let gone := fun (s : State) (q : LaneId) => laneUp s.nlu.lane[q] = false ∨
      (s.tpe.pi[q][i].st ≠ .slave ∧ s.tpe.pi[q][i].st ≠ .uncalibrated) ∨
      s.tpe.pi[q][i].measuredAt + announceWait s q.val i.val ≤ s.tcr.cycles
    Leads (.prpSlaveTakeover i n)
    (fun s => s.tpe.prp[n].enable = true ∧ s.blockRuns 12 = true ∧ s.tpe.pi[a][i].st = .passiveSlave ∧ gone s b)
    (fun s t => t.tpe.pi[a][i].st = .slave ∧ t.intc.status.getLsbD 14 = true ∧
      t.tpe.pi[b][i].st = (if s.tpe.pi[b][i].st = .slave ∨ s.tpe.pi[b][i].st = .uncalibrated then .passiveSlave
        else s.tpe.pi[b][i].st))) ∧
  (∀ (i : PtpId) (n : Fin 12) (a b : LaneId), (a.val = 2 * n.val ∧ b.val = 2 * n.val + 1) →
    let gone := fun (s : State) (q : LaneId) => laneUp s.nlu.lane[q] = false ∨
      (s.tpe.pi[q][i].st ≠ .slave ∧ s.tpe.pi[q][i].st ≠ .uncalibrated) ∨
      s.tpe.pi[q][i].measuredAt + announceWait s q.val i.val ≤ s.tcr.cycles
    Leads (.prpSlaveTakeover i n)
    (fun s => s.tpe.prp[n].enable = true ∧ s.blockRuns 12 = true ∧ s.tpe.pi[a][i].st ≠ .passiveSlave ∧
      s.tpe.pi[b][i].st = .passiveSlave ∧ gone s a)
    (fun s t => t.tpe.pi[b][i].st = .slave ∧ t.intc.status.getLsbD 14 = true ∧
      t.tpe.pi[a][i].st = (if s.tpe.pi[a][i].st = .slave ∨ s.tpe.pi[a][i].st = .uncalibrated then .passiveSlave
        else s.tpe.pi[a][i].st)))

/-! ### Events of NTP, of ESMC and of the sample ports (R287–R302, R337–R349) -/

/-- The server answers a plain request with its stamps, counts a closed GATE, discards an ill-formed NTS request, starts
the transaction of another one, and answers it by what its cookie opens to; a client measures, counts a miss, obeys a
kiss code and polls; ESMC codes are taken, sent and timed out (R256, R287–R296, R302). The model's own choices and
readings behind it: log entries 25, 55, 56, 63, 66, 112. -/
def Obligations.NtpAndEsmcEventsAct : Prop :=
  (∀ rx : NtpRx,
    let p := rx.port
    let m := rx.msg
    let heard := fun (s : State) => served s p rx.mark ∧ serves s p.val = true ∧ m.mode = 3 ∧
      ((m.version = 3 ∧ s.tpe.server.versions.getLsbD 0 = true) ∨ (m.version = 4 ∧ s.tpe.server.versions.getLsbD 1 = true))
    let admits := fun (s : State) => heard s ∧ gateOpen s s.tpe.server.view.val s.tpe.server.gate = true ∧
      s.nlu.lane[p].latValid = true ∧ s.tpe.port[p].monitor = false
    let up := fun (k : Fin 12) (s t : State) => t.tpe.server.ctr[k] = min (2 ^ 32 - 1) (s.tpe.server.ctr[k] + 1)
    let quietly := fun (s t : State) => t.tpe.galley = s.tpe.galley ∧ { t with tpe := s.tpe, intc := s.intc, pcu := s.pcu } = s
    let answered := fun (a : NtpMsg) (s : State) (f : GalleyFrame) => a.mode = 4 ∧ a.version = m.version ∧ a.orig = m.xmit ∧
      a.recv = ntpTimestamp s s.tpe.server.view.val (ingressStamp s p.val rx.mark s.tpe.server.view.val) ∧
      a.xmit = ntpTimestamp s s.tpe.server.view.val f.launch
    let v := fun (s : State) => s.tpe.server.view.val
    Leads (.ntpRequestReceive rx)
      (fun s => m.nts = none ∧ admits s ∧ s.tpe.nts.require = false ∧ canReserve s p ∧ mayOriginate s p.val = true)
      (fun s t => up 0 s t ∧ up 1 s t ∧ { t with tpe := s.tpe, intc := s.intc, pcu := s.pcu, fresh := s.fresh } = s ∧
        ∃ f a, t.tpe.galley = [f] ∧ placed s p f ∧ f.kind = .ntpResponse a [] ∧ f.complete = true ∧ answered a s f ∧
          a.stratum = BitVec.ofNat 8 (serverStratum s (v s)) ∧ f.dst = rx.addr) ∧
    Leads (.ntpRequestReceive rx)
      (fun s => m.nts = none ∧ heard s ∧ s.tpe.nts.require = false ∧ gateOpen s (v s) s.tpe.server.gate = false)
      (fun s t => up 0 s t ∧ up 8 s t ∧ quietly s t) ∧
    Leads (.ntpRequestReceive rx) (fun s => m.nts = none ∧ heard s ∧ s.tpe.nts.require = true)
      (fun s t => up 0 s t ∧ t.tpe.server.ctr[1] = s.tpe.server.ctr[1] ∧ quietly s t) ∧
    (∀ n : NtsFields, m.nts = some n →
      Leads (.ntsRequestReceive rx) (fun s => heard s ∧ n.wellFormed = false)
        (fun s t => up 0 s t ∧ up 2 s t ∧ up 11 s t ∧ quietly s t) ∧
      Leads (.ntsRequestReceive rx) (fun s => admits s ∧ n.wellFormed = true ∧ s.blockRuns 13 = false)
        (fun s t => up 0 s t ∧ up 2 s t ∧ up 10 s t ∧ quietly s t) ∧
      Leads (.ntsRequestReceive rx)
        (fun s => admits s ∧ n.wellFormed = true ∧ s.blockRuns 13 = true ∧ s.aue.slots.length < 1024)
        (fun s t =>
          let keys := (openCookie (n.cookies.headD []) s).1
          up 0 s t ∧ up 2 s t ∧ t.tpe.galley = s.tpe.galley ∧
          (∃ y ∈ t.aue.slots, y.tx = s.tpe.built ∧ y.nts = true) ∧
          t.aue.work = s.aue.work ++ [{
            tx := s.tpe.built, pass := keys.isSome, key := 0, ingress := ingressStamp s p.val rx.mark (v s)
            fallback := rxFallback s p.val rx.mark, msg := .request rx n keys false }]) ∧
      (∀ (tx : Nat) (ok : Bool) (w : RxWork),
        let ends := fun (s : State) => s.blockRuns 13 = true ∧ s.aue.work.find? (fun x => x.tx == tx) = some w ∧ canReserve s p ∧
          mayOriginate s p.val = true ∧ s.aue.slots.length < 1024
        let reply := fun (a : NtpMsg) (s : State) (f : GalleyFrame) => a.mode = 4 ∧ a.version = m.version ∧ a.orig = m.xmit ∧
          a.recv = ntpTimestamp s (v s) w.ingress ∧ a.xmit = ntpTimestamp s (v s) f.launch ∧ f.dst = rx.addr
        (w.msg = .request rx n none false → Leads (.aueJobComplete tx ok) (fun s => ends s ∧ s.tpe.nts.nak = true)
          (fun s t => up 4 s t ∧ ∃ f a, t.tpe.galley = [f] ∧ placed s p f ∧ f.kind = .ntpResponse a [] ∧ f.complete = true ∧
            reply a s f ∧ a.stratum = 0 ∧ a.refId = 0x4E54534E)) ∧
        (∀ c2s s2c, (w.pass && ok) = true → w.msg = .request rx n (some (c2s, s2c)) true →
          Leads (.aueJobComplete tx ok) ends
            (fun s t => up 1 s t ∧ up 3 s t ∧ ∃ f a cookies, t.tpe.galley = [f] ∧ placed s p f ∧ f.kind = .ntpResponse a cookies ∧
              f.complete = false ∧ reply a s f ∧ cookies.length ≤ s.tpe.nts.maxCookies ∧
              a.stratum = BitVec.ofNat 8 (serverStratum s (v s)) ∧ ∃ y ∈ t.aue.slots, f.tx = some y.tx ∧ y.nts = true))))) ∧
  (∀ (c : Fin 8) (rx : NtpRx),
    let m := rx.msg
    let x := fun (s : State) => s.tpe.client[c]
    let heard := fun (s : State) => served s rx.port rx.mark ∧ (x s).enable = true ∧ (x s).stopped = false ∧ s.blockRuns 12 = true ∧
      laneUp s.nlu.lane[rx.port] = true ∧ s.tpe.port[rx.port].enable = true
    Sets (.ntpResponseReceive c rx) (fun s => heard s ∧ ((x s).t1 = none ∨ (x s).t1Ntp ≠ some m.orig))
      (fun s => s.setClient c.val fun y => { y with missed := y.missed + 1 }) ∧
    (∀ t1 : Int,
      let plain := fun (s : State) => heard s ∧ (x s).t1 = some t1 ∧ (x s).t1Ntp = some m.orig ∧ (x s).nts = false
      Sets (.ntpResponseReceive c rx) (fun s => plain s ∧ m.stratum = 0)
        (fun s => s.setClient c.val fun y =>
          let y := { y with t1 := none, t1Ntp := none, uid := none, missed := y.missed + 1 }
          if m.refId = 0x4E54534E then { y with jar := [] }
          else if m.refId = 0x52415445 then { y with poll := min 10 (y.poll + 1) }
          else if m.refId = 0x44454E59 ∨ m.refId = 0x52535452 then { y with stopped := true }
          else y) ∧
      (∀ q : Fin 32, Leads (.ntpResponseReceive c rx)
        (fun s => plain s ∧ m.stratum ≠ 0 ∧ m.stratum ≠ 16 ∧ m.leap ≠ 3 ∧ (x s).t1Fallback = false ∧
          rxFallback s rx.port.val rx.mark = false ∧ (x s).ref = some q)
        (fun s t =>
          let d := (x s).dom.val
          let t4 := ticks (ingressStamp s rx.port.val rx.mark d) - ticksOfPs (asymmetry s rx.port.val)
          let out := ntpLess s d m.recv t1
          let back := ntpLess s d m.xmit t4
          x t = { x s with t1 := none, t1Ntp := none, uid := none, t1Fallback := false, missed := 0 } ∧
          (s.rim.ref[q].enable = true → s.blockRuns 5 = true →
            t.rim.ref[q].lag = some ((viewCount s d : ℚ) / 10 ^ 33 + ((out + back).tdiv 2 : ℚ) / 65536 - unsteered s s.tcr.cycles,
              s.tcr.cycles) ∧ t.rim.ref[q].los = false ∧
            t.rim.ref[q].srcClass = 3 ∧ t.rim.ref[q].hops = m.stratum.toNat))) ∧
      Sets (.ntpResponseReceive c rx)
        (fun s => plain s ∧ m.stratum ≠ 0 ∧ (m.stratum = 16 ∨ m.leap = 3 ∨
          ((x s).t1Fallback || rxFallback s rx.port.val rx.mark) = true ∧ s.tpe.port[rx.port].refUseFallback = false))
        (fun s => s.setClient c.val fun y =>
          { y with t1 := none, t1Ntp := none, uid := none, t1Fallback := false, missed := y.missed + 1 }) ∧
      (∀ (n : NtsFields) (k : Fin 128), m.nts = some n → ¬(m.stratum = 0 ∧ m.refId = 0x4E54534E) → Leads (.ntpResponseReceive c rx)
        (fun s => heard s ∧ (x s).t1 = some t1 ∧ (x s).t1Ntp = some m.orig ∧ (x s).nts = true ∧ (x s).uid = some n.uid ∧
          (x s).s2c = some k ∧ keyUsable s k.val 1 = true ∧ s.blockRuns 13 = true ∧ s.aue.slots.length < 1024)
        (fun s t =>
          let opened := Config.sivOpen s.sec.key[k].key n.nonce n.covered n.cipher
          x t = x s ∧ t.aue.work = s.aue.work ++ [{
            tx := s.tpe.built, pass := opened.isSome, key := k.val, ingress := ingressStamp s rx.port.val rx.mark (x s).dom.val
            fallback := rxFallback s rx.port.val rx.mark, msg := .response c rx t1 (opened.getD []) }])) ∧
      (∀ (n : NtsFields) (k : Fin 128), m.nts = some n → m.stratum = 0 → m.refId = 0x4E54534E → Sets (.ntpResponseReceive c rx)
        (fun s => heard s ∧ (x s).t1 = some t1 ∧ (x s).t1Ntp = some m.orig ∧ (x s).nts = true ∧ (x s).uid = some n.uid ∧ (x s).s2c = some k)
        (fun s => s.setClient c.val fun y =>
          { y with t1 := none, t1Ntp := none, uid := none, missed := y.missed + 1, jar := [] })))) ∧
  (∀ c : Fin 8,
    let x := fun (s : State) => s.tpe.client[c]
    let due := fun (s : State) => ∀ n, (x s).polledAt = some n → n + logCycles (x s).poll ≤ s.tcr.cycles
    (∀ p : LaneId, Leads (.ntpClientPoll c)
      (fun s => due s ∧ (x s).enable = true ∧ (x s).stopped = false ∧ (x s).nts = false ∧ (x s).port = p ∧
        (s.pairOf (p.val / 2)).enable = false ∧ canReserve s p ∧ mayOriginate s p.val = true)
      (fun s t => x t = { x s with t1 := none, t1Ntp := none, uid := none, t1Fallback := false, polledAt := some s.tcr.cycles } ∧
        { t with tpe := s.tpe, fresh := s.fresh } = s ∧
        ∃ f m, t.tpe.galley = [f] ∧ placed s p f ∧ f.kind = .ntpRequest c m ∧ f.complete = true ∧ m.mode = 3 ∧ m.version = 4 ∧
          m.poll = BitVec.ofInt 8 (x s).poll ∧ m.xmit = ntpTimestamp s (x s).dom.val f.launch ∧ f.dst = (x s).server)) ∧
    Sets (.ntpClientPoll c) (fun s => due s ∧ ((x s).enable = false ∨ (x s).stopped = true)) id ∧
    Sets (.ntpClientPoll c)
      (fun s => due s ∧ (x s).enable = true ∧ (x s).stopped = false ∧ mayOriginate s (clientPort s (x s)) = true ∧
        (x s).nts = true ∧ (x s).jar = [])
      (fun s => s.setClient c.val fun y => { y with polledAt := some s.tcr.cycles })) ∧
  (∀ (l : LaneId) (pdu : EsmcPdu) (e : Option Byte),
    let y := fun (s : State) => s.tpe.port[l]
    let news := fun (s : State) => (y s).ssm ≠ pdu.code ∨ (y s).essm ≠ e.getD 0xFF ∨
      ((y s).esmcTimeout = true ∧ pdu.event = false)
    let take := fun (s : State) => s.setPort l.val fun x =>
      { x with ssm := pdu.code, essm := e.getD 0xFF, esmcTimeout := pdu.event && x.esmcTimeout
               esmcHeardAt := if pdu.event then x.esmcHeardAt else s.tcr.cycles
               esmcRx := min (2 ^ 32 - 1) (x.esmcRx + 1) }
    Moves (.esmcPduReceive l pdu e) (fun s => esmcOn s l.val 0 = true ∧ news s) 0x2000 take ∧
    Sets (.esmcPduReceive l pdu e) (fun s => esmcOn s l.val 0 = true ∧ ¬news s) take) ∧
  (∀ l : LaneId,
    let y := fun (s : State) => s.tpe.port[l]
    let sends := fun (s : State) => esmcOn s l.val 1 = true ∧ s.fwRuns = true ∧ portMac s l.val ≠ 0
    let sent := fun (b : Bool) (s : State) => s.setPort l.val fun x =>
      { x with esmcSent := x.esmcSent ++ [(b, esmcCode s l.val)], ssmSent := some (esmcCode s l.val)
               esmcSentAt := if b then x.esmcSentAt else some s.tcr.cycles }
    Sets (.esmcInfoSend l) (fun s => sends s ∧ ∀ n, (y s).esmcSentAt = some n → n + 10 ^ 9 ≤ s.tcr.cycles)
      (fun s => pcuCount 0x2002 l.val 1 (sent false s)) ∧
    Sets (.esmcEventSend l) (fun s => sends s ∧ (y s).ssmSent ≠ some (esmcCode s l.val))
      (fun s => pcuCount 0x2002 l.val 1 (sent true s)) ∧
    Sets (.esmcEventSend l) (fun s => (y s).ssmSent = some (esmcCode s l.val)) id ∧
    Moves (.esmcTimeout l)
      (fun s => s.blockRuns 12 = true ∧ (y s).esmcMode.getLsbD 0 = true ∧ (y s).esmcHeardAt + 5 * 10 ^ 9 ≤ s.tcr.cycles ∧
        ((y s).ssm ≠ 0xF ∨ (y s).esmcTimeout = false)) 0x2000
      (fun s => s.setPort l.val fun x => { x with ssm := 0xF, esmcTimeout := true }))

/-- SAMPLE_FRAME numbers, stamps and captures or drives a frame and takes a mask whose shadow is two bits old; mask jobs
time out; RATE_FAULT sets and clears; a ratio locks and a channel re-enters, with its group after a step; the
sampled-value monitor counts a frame and closes a second (R337–R348). The model's own choices and readings behind it:
log entries 25, 71, 73. -/
def Obligations.SampleEventsAct : Prop :=
  (∀ (p : Fin 8) (dir : Fin 2) (stamp : Nat) (slots : List Word),
    let x := fun (s : State) => s.dirOf p.val dir.val
    let runs := fun (s : State) => sauRuns s = true ∧ (x s).cfg.enable = true ∧ (x s).cfg.master = false
    let begun := fun (s t : State) => (x t).cfg = (x s).cfg ∧ (x t).last = some stamp ∧ (x t).first = some ((x s).first.getD stamp) ∧
      (x t).badSince = (if ∃ a, (x s).last = some a ∧ goodRate (x s).cfg a stamp = false then some ((x s).badSince.getD stamp) else none) ∧
      (x t).frame = some (match (x s).frame with
        | none => 0
        | some n => n + 1)
    Leads (.sampleFrame p dir stamp slots) (fun s => runs s ∧ dir = 0 ∧ (x s).shadow = none)
      (fun s t => begun s t ∧ (x t).active = (x s).active ∧ (x t).words = (List.range (x s).cfg.slots).map (fun i =>
          if (x s).active.getLsbD i then dataWord (x s).cfg (slots.getD i 0) else 0) ∧
        (∀ c : Fin 32, s.sau.chan[c].cfg.enable = true → s.sau.chan[c].cfg.srcPort = p →
          t.sau.chan[c].clean = (if (x s).rateFault = false ∧ slotOpen (x s) s.sau.chan[c].cfg.srcSlot.val = true ∧
            s.sau.chan[c].ratio.isSome = true then s.sau.chan[c].clean + 1 else 0)) ∧
        { t with sau := s.sau } = s) ∧
    Leads (.sampleFrame p dir stamp slots) (fun s => runs s ∧ dir = 1 ∧ (x s).shadow = none)
      (fun s t => begun s t ∧ (x t).active = (x s).active ∧ (x t).words.length = (x s).cfg.slots ∧
        (∀ i, i < (x s).cfg.slots → (x s).active.getLsbD i = false → (x t).words.getD i 0 = 0) ∧
        (∀ k : Fin 31, (x s).cfg.stampSlot = some k → k.val + 1 < (x s).cfg.slots →
          ((x s).active.getLsbD k.val = true → (x t).words.getD k.val 0 = word (secondsOf (timeAtMark s (x s).cfg.view.val stamp))) ∧
          ((x s).active.getLsbD (k.val + 1) = true →
            (x t).words.getD (k.val + 1) 0 = word (nsOf (timeAtMark s (x s).cfg.view.val stamp)))) ∧
        { t with sau := s.sau, intc := s.intc, pcu := s.pcu, fresh := s.fresh } = s) ∧
    (∀ (w : Word) (since : Nat), Leads (.sampleFrame p dir stamp slots)
      (fun s => runs s ∧ (x s).shadow = some (w, since) ∧ since + twoBits (x s).cfg + 1 ≤ stamp ∧ s.cpx.list = none)
      (fun s t => begun s t ∧ (x t).active = w ∧ (x t).shadow = none ∧
        ∀ f ∈ t.mbx.flights, f ∈ s.mbx.flights ∧ ∀ n, f.hold ≠ .slotMask p dir n)) ∧
    (∀ (w : Word) (since : Nat), Leads (.sampleFrame p dir stamp slots)
      (fun s => runs s ∧ (x s).shadow = some (w, since) ∧ stamp < since + twoBits (x s).cfg + 1)
      (fun s t => begun s t ∧ (x t).active = (x s).active ∧ (x t).shadow = (x s).shadow ∧ t.mbx = s.mbx)) ∧
    Leads (.sampleFrame p dir stamp slots)
      (fun s => sauRuns s = true ∧ (x s).cfg.enable = true ∧ (x s).cfg.master = true ∧ (x s).shadow = none ∧
        ceilDiv (nextGrid s (x s) * secU) (x s).cfg.frameHz ≤ viewCount s (x s).cfg.view.val)
      (fun s t => (x t).cfg = (x s).cfg ∧ (x t).grid = nextGrid s (x s) ∧ (x t).last = some (128 * s.tcr.cycles) ∧
        (x t).frame = some (match (x s).frame with
          | none => 0
          | some n => n + 1) ∧ t.tcr = s.tcr) ∧
    Sets (.slotMaskTimeout p dir) (fun s => maskJobs s p.val dir.val = []) id ∧
    (∀ (f : Flight) (rest : List Flight) (n : Nat), f.hold = .slotMask p dir n → f.chain = none → Leads (.slotMaskTimeout p dir)
      (fun s => s.fwRuns = true ∧ maskJobs s p.val dir.val = f :: rest ∧ n + 8000 ≤ s.cpx.impressions ∧ s.cpx.list = none ∧
        posting s = true)
      (fun s t => { t with mbx := s.mbx, intc := s.intc, pcu := s.pcu } = s ∧ f ∉ t.mbx.flights ∧
        (Inv s → noFences s = true →
          (t.ring f.job.ring.val).ctail = (s.ring f.job.ring.val).ctail + 1 ∧
          statusAt t f.job.ring (s.ring f.job.ring.val).ctail = 0x22))) ∧
    Leads (.sampleRateFault p dir) (fun s => runs s ∧ (x s).rateFault = false ∧ rateFaultAt (x s) ≤ s.tcr.cycles)
      (fun s t => x t = { x s with rateFault := true, good := 0, first := none } ∧
        (∀ c : Fin 32, t.sau.chan[c] = (if (if dir = 0 then s.sau.chan[c].cfg.srcPort else s.sau.chan[c].cfg.dstPort) = p then
          { s.sau.chan[c] with ratio := none, clean := 0, tracked := s.tcr.cycles } else s.sau.chan[c])) ∧
        { t with sau := s.sau, intc := s.intc, pcu := s.pcu } = s) ∧
    Sets (.sampleRateFaultClear p dir) (fun s => sauRuns s = true ∧ (x s).rateFault = true ∧ 16 ≤ (x s).good)
      (fun s => s.setDir p.val dir.val fun y => { y with rateFault := false }) ∧
    Sets (.sampleRateFaultClear p dir) (fun s => (x s).good < 16) id) ∧
  (∀ (c : Fin 32) (r : Nat), Sets (.channelRatioLock c r)
    (fun s => sauRuns s = true ∧ s.sau.chan[c].cfg.enable = true ∧ 2 ^ 28 ≤ r ∧ r ≤ 2 ^ 36 ∧
      ∃ n, lockableAt s s.sau.chan[c] = some n ∧ n ≤ s.tcr.cycles)
    (fun s => { s with sau := { s.sau with chan := (s.sau.chan.set c { s.sau.chan[c] with ratio := some r }) } })) ∧
  (∀ c : Fin 32,
    let x := fun (s : State) => s.sau.chan[c]
    let ready := fun (s : State) => sauRuns s = true ∧ mayReenter s c.val = true
    let mate := fun (s : State) (i : Fin 32) => s.sau.chan[i].cfg.enable = true ∧ s.sau.chan[i].cfg.group = (x s).cfg.group ∧
      s.sau.chan[i].stepped.isSome = true
    Sets (.channelReentry c) (fun s => ready s ∧ ((x s).stepped = none ∨ groupOf s (x s).cfg = none))
      (fun s => { s with sau := { s.sau with chan := (s.sau.chan.set c { s.sau.chan[c] with under := false, stepped := none }) } }) ∧
    Leads (.channelReentry c)
      (fun s => ready s ∧ (x s).stepped.isSome = true ∧ (groupOf s (x s).cfg).isSome = true ∧
        ∀ i, mate s i → mayReenter s i.val = true)
      (fun s t => (∀ i, (mate s i → t.sau.chan[i] = { s.sau.chan[i] with under := false, stepped := none }) ∧
          (¬mate s i → t.sau.chan[i] = s.sau.chan[i])) ∧ { t with sau := { t.sau with chan := s.sau.chan } } = s) ∧
    Sets (.channelReentry c)
      (fun s => (x s).stepped.isSome = true ∧ (groupOf s (x s).cfg).isSome = true ∧ ∃ i, mate s i ∧ mayReenter s i.val = false) id ∧
    Sets (.channelReentry c) (fun s => mayReenter s c.val = false) id) ∧
  Sets .svMonitorSecond (fun s => s.tcr.seq.second = s.sau.svSecond) id ∧
  Leads .svMonitorSecond (fun s => sauRuns s = true ∧ Inv s ∧ s.tcr.seq.second ≠ s.sau.svSecond)
    (fun s t =>
      (∀ i, i ∈ s.sau.stream.map Prod.fst → streamOf t i =
        (if streamLive s i then svSecond s.tcr.cycles (streamOf s i) else streamOf s i)) ∧
      (t.intc.status.getLsbD 16 = true ↔ s.intc.status.getLsbD 16 = true ∨ ∃ i ∈ s.sau.stream.map Prod.fst,
        streamLive s i = true ∧ (streamOf t i).alarms &&& ~~~(streamOf s i).alarms &&& (streamOf s i).alarmMask ≠ 0) ∧
      t.sau.svSecond = s.tcr.seq.second ∧
      { t with sau := { t.sau with stream := s.sau.stream, svSecond := s.sau.svSecond }, intc := s.intc } = s) ∧
  (∀ f : SvFrame,
    let matching := fun (s : State) => s.sau.stream.find? fun x =>
      streamLive s x.1 && x.2.port == f.port && x.2.appid == f.appid && x.2.svid == f.svid
    let heard := fun (s : State) => sauRuns s = true ∧ s.lanePresent f.port.val = true ∧ s.blockRuns 12 = true ∧
      laneUp s.nlu.lane[f.port] = true
    Moves (.svFrameReceive f) (fun s => heard s ∧ matching s = none) 0 id ∧
    (∀ (i c last : Nat) (r : SvRec), Leads (.svFrameReceive f)
      (fun s => heard s ∧ matching s = some (i, r) ∧ streamOf s i = r ∧ f.smpCnts = [c] ∧ r.lastCnt = some last ∧ 1 < r.rate ∧
        c < r.rate ∧ last < r.rate)
      (fun s t =>
        let y := streamOf t i
        y.lastMark = some f.mark ∧ y.synch = f.smpSynch ∧ y.synchLow = (r.synchLow || decide (f.smpSynch < r.synchMin)) ∧
        (c = last → y.dups = r.dups + 1 ∧ y.missing = r.missing ∧ y.lastCnt = some last) ∧
        (c = (last + 1) % r.rate → y.lastCnt = some c ∧ y.missing = r.missing ∧ y.dups = r.dups) ∧
        (4 < r.rate → c = (last + 2) % r.rate → y.lastCnt = some c ∧ y.missing = r.missing + 1) ∧
        (rxFallback s f.port.val f.mark = true → y.minD = r.minD ∧ y.hist = r.hist) ∧
        (∀ k, k ≠ i → streamOf t k = streamOf s k) ∧
        { t with sau := { t.sau with stream := s.sau.stream }, intc := s.intc, pcu := s.pcu } = s)))

/-! ### Security and fault events (R26, R316–R336, R351–R361) -/

/-- A tamper source zeroes the keys and the root secret and records itself, with the main supplies raises sources 18 and
192; its end; key expiry and the end of a previous key; the TRNG (R316, R318, R324–R327, R336). Clock monitors,
lockstep, ECC, watchdog and the other monitors raise their fault and its reaction; a shadow ends; a BLOCK reset is
released (R18, R26, R351–R361). The model's own choices and readings behind it: log entries 25, 41, 68, 115, 116. -/
def Obligations.SecurityAndFaultEventsAct : Prop :=
  (∀ src : Fin 7,
    let b : BitVec 4 := if src.val < 4 then BitVec.ofNat 4 (2 ^ src.val) else 0
    let armed := fun (s : State) => s.srt.vbat = true ∧ (src.val < 4 → s.sec.tamper.enable.getLsbD src.val = true)
    let tam := fun (s : State) => s.sec.tamper
    Sets (.tamperEvent src) (fun s => ¬armed s) (fun s => { s with sec := { s.sec with tamper := { s.sec.tamper with
      pins := (s.sec.tamper.pins &&& ~~~b) ||| (s.sec.tamper.level &&& b) } } }) ∧
    Leads (.tamperEvent src) armed (fun s t =>
      (∀ k : Fin 128, t.sec.key[k] = {}) ∧ t.sec.root = none ∧ tam t = { tam s with
        pins := ((tam s).pins &&& ~~~b) ||| ((tam s).level &&& b)
        seen := (tam s).seen ||| BitVec.ofNat 7 (2 ^ src.val), standing := (tam s).standing ||| BitVec.ofNat 7 (2 ^ src.val)
        first := if (tam s).recorded then (tam s).first else coarseWord s
        recorded := true, locked := false }) ∧
    Leads (.tamperEvent src) (fun s => armed s ∧ s.clocked = true ∧ defaultSources s) (fun s t =>
      t.intc.status.getLsbD 18 = true ∧ t.intc.status.getLsbD 8 = true ∧ t.aue = {} ∧ Recorded s t 192 0) ∧
    Sets (.tamperConditionEnd src) (fun _ => True) (fun s => { s with sec := { s.sec with tamper := { s.sec.tamper with
      standing := s.sec.tamper.standing &&& ~~~BitVec.ofNat 7 (2 ^ src.val)
      pins := (s.sec.tamper.pins &&& ~~~b) ||| (~~~s.sec.tamper.level &&& b) } } })) ∧
  (∀ k : Fin 128,
    let x := fun (s : State) => s.sec.key[k]
    Sets (.keyExpiry k) (fun s => (x s).st = .active ∧ (x s).expiry ≠ 0 ∧ (x s).expiry ≤ keyTime s)
      (fun s => s.setKey k.val fun y => { y with st := .expired }) ∧
    Sets (.keyExpiry k) (fun s => (x s).st ≠ .active ∨ (x s).expiry = 0 ∨ keyTime s < (x s).expiry) id ∧
    Sets (.keyPrevZeroed k) (fun s => (x s).prevUntil ≤ keyTime s) (fun s => s.setKey k.val fun y => { y with prev := none }) ∧
    Sets (.keyPrevZeroed k) (fun s => keyTime s < (x s).prevUntil) id) ∧
  Sets .trngHealthTestEnd (fun s => s.blockRuns 2 = true ∧ s.sec.trngFrom + 10 ^ 6 ≤ s.tcr.cycles) (fun s => { s with sec := { s.sec with trngReady := true } }) ∧
  (Reports .trngHealth (fun s => s.clocked = true) 193 0 0 id ∧ Faults .trngHealth (fun s => s.clocked = true) 193 2) ∧
  (∀ k : Fin 3,
    let bad := fun (s : State) => s.tcr.clockBad ||| BitVec.ofNat 3 (2 ^ k.val)
    let good := fun (s : State) => s.tcr.clockBad &&& ~~~BitVec.ofNat 3 (2 ^ k.val)
    Leads (.clockMonitorFault k) (fun s => s.cpx.phase ≠ .inReset ∧ s.tcr.clockBad.getLsbD k.val = false ∧ defaultSources s)
      (fun s t => t.tcr = { s.tcr with clockBad := bad s } ∧ Recorded s t (64 + k.val) 0 ∧
        t.fco.traps = s.fco.traps ∧ t.fco.trapsDue = s.fco.trapsDue + 1 ∧
        t.intc.status.getLsbD 8 = true ∧ t.intc.status.getLsbD 31 = true ∧
        (∀ o : Fin 24, s.fso.out[o].st = .running → t.fso.out[o].held = true) ∧
        (∀ n : Fin 4, t.fso.apll[n].loop ≠ .locked) ∧
        { t with tcr := s.tcr, fso := s.fso, peu := s.peu, fco := s.fco, intc := s.intc, pcu := s.pcu } = s) ∧
    Sets (.clockMonitorFault k) (fun s => s.tcr.clockBad.getLsbD k.val = true) id ∧
    Sets (.clockReturn k) (fun s => good s ≠ 0) (fun s => { s with tcr := { s.tcr with clockBad := good s } }) ∧
    Sets (.clockReturn k) (fun s => good s = 0) (fun s =>
      { s with tcr := { s.tcr with clockBad := 0 }
               fco := { s.fco with traps := s.fco.traps + s.fco.trapsDue, trapsDue := 0 } })) ∧
  (∀ pair : Fin 2,
    let n := fun (s : State) => s.fco.cls[(7 : Fin 8)].n
    Leads (.lockstepMismatch pair) (fun s => s.fwRuns = true ∧ defaultSources s ∧ n s = 0 ∧ s.fco.block[(0 : Fin 16)] ≠ .asserted)
      (fun s t => t.cpx.warm = some { byJob := false, reload := false, since := s.cpx.impressions } ∧ t.mbx.restarting = true ∧
        t.mbx.fwReady = false ∧ (∀ r : RingId, (t.ring r.val).frozen = true) ∧ t.fco.block[(0 : Fin 16)] = .asserted ∧
        t.fco.cls[(7 : Fin 8)].pending = true ∧ t.fco.cls[(7 : Fin 8)].n = 1 ∧ t.intc.status.getLsbD 8 = true ∧
        { t with cpx := s.cpx, mbx := s.mbx, ehu := s.ehu, fco := s.fco, intc := s.intc, pcu := s.pcu } = s) ∧
    Leads (.lockstepMismatch pair) (fun s => s.fwRuns = true ∧ defaultSources s ∧ 1 ≤ n s)
      (fun s t => t.cpx.phase = .inReset ∧ t.srt.cause.kind = 3 ∧ t.srt.cause.detail.toNat = 226 + pair.val ∧
        t.srt.cause.chips.toNat = min 65535 (s.srt.cause.chips.toNat + 1) ∧ t.mbx = {} ∧ t.pending = s.pending) ∧
    Sets (.lockstepMismatch pair) (fun s => s.cpx.phase = .inReset) id) ∧
  (∀ (src : Fin 32) (a : BitVec 64),
    Reports (.memoryEccError src a) (fun _ => True) src.val a.toNat 0 id ∧
    Leads (.memoryEccError src a)
      (fun s => (src = 0 ∨ src = 20) ∧ defaultSources s ∧ s.cpx.phase ≠ .inReset ∧
        ∃ b, faultOwner s src.val { addr := a.toNat } = some b ∧ inShadow s b = false)
      (fun s t => t.fco.cls[(0 : Fin 8)].recorded = min 65535 (s.fco.cls[(0 : Fin 8)].recorded + 1) ∧
        t.fco.cls[(0 : Fin 8)].pending = s.fco.cls[(0 : Fin 8)].pending ∧ t.fco.cls[(0 : Fin 8)].n = s.fco.cls[(0 : Fin 8)].n ∧
        t.fco.cls[(0 : Fin 8)].cap.isSome = true ∧ t.fco.traps = s.fco.traps ∧
        { t with fco := s.fco, intc := s.intc, pcu := s.pcu } = s) ∧
    (∀ b : Fin 16, (b.val = 2 ∨ 5 ≤ b.val) → src.val = 4 + b.val → Leads (.memoryEccError src a)
      (fun s => defaultSources s ∧ s.cpx.phase ≠ .inReset ∧ s.present b.val = true ∧ inShadow s b.val = false)
      (fun _ t => t.fco.block[b] = .asserted ∧ t.fco.cls[(0 : Fin 8)].pending = true ∧ t.intc.status.getLsbD 8 = true)) ∧
    Sets (.memoryEccError src a) (fun s => 22 ≤ src.val ∨ s.cpx.phase = .inReset) id) ∧
  Sets .watchdog (fun s => watchdogOut s = false) id ∧
  Leads .watchdog (fun s => watchdogOut s = true ∧ defaultSources s)
    (fun s t => t.cpx.phase = .inReset ∧ t.srt.cause.kind = 3 ∧ t.srt.cause.detail = 228 ∧
      t.srt.cause.chips.toNat = min 65535 (s.srt.cause.chips.toNat + 1) ∧ t.mbx = {} ∧ t.pending = s.pending) ∧
  (Reports .interpCheck (fun _ => True) 101 0 0 id ∧ Faults .interpCheck (fun _ => True) 101 6) ∧
  (Reports .cdaonFault (fun _ => True) 67 0 0 id ∧ Faults .cdaonFault (fun _ => True) 67 4) ∧
  (∀ pin : Fin 3, Reports (.lrefclkFault pin) (fun _ => True) 68 pin.val 0 id ∧ Faults (.lrefclkFault pin) (fun _ => True) 68 11) ∧
  (∀ b : Fin 16,
    Sets (.resetShadowEnd b) (fun s => s.fco.block[b] = .shadow ∧ s.fco.shadowTo[b] ≤ s.tcr.cycles) (fun s => s.setBlock b.val .none) ∧
    Sets (.resetShadowEnd b) (fun s => s.fco.block[b] ≠ .shadow) id ∧
    Sets (.blockResetRelease b)
      (fun s => s.fco.block[b] = .asserted ∧ b.val ≠ 0 ∧ noFences s = true ∧ ∀ f ∈ s.mbx.flights, f.hold ≠ .block b)
      (fun s =>
        let t := { s with fco := { s.fco with
          block := s.fco.block.set b .shadow, shadowTo := s.fco.shadowTo.set b (max s.fco.shadowTo[b] (s.tcr.cycles + 64000)) } }
        if b.val = 14 then
          { t with gtr := { s.gtr with feSent := s.gtr.feSent ++ s.gtr.feList.map fun x => feTransfer false x.1 x.2 } }
        else t) ∧
    Sets (.blockResetRelease b) (fun s => s.fco.block[b] ≠ .asserted ∨ b.val = 0) id)

/-! ### Events of the supplies, of the resets and of the boot (R331, R384–R407) -/

/-- A rail or a sensor past its threshold raises its source once, the first rail of a dip charges the ledgers and sets
EXCURSION; VBAT warns, is lost and returns; POR, PIN, CHIP and supply resets wipe the engine, record their cause and
keep the battery domain; a reset's end latches the straps (R386–R402). The model's own choices and readings behind it:
log entries 10, 11, 25, 42, 84, 117. -/
def Obligations.SupplyAndResetEventsAct : Prop :=
  (∀ (k : Fin 5) (temp : Int),
    let x := fun (s : State) => s.srt.sensor[k]
    let seen := fun (s : State) => ({ x s with now := temp, low := min (x s).low temp, high := max (x s).high temp } : Sensor)
    let put := fun (s : State) (y : Sensor) => { s with srt := { s.srt with sensor := (s.srt.sensor.set k y) } }
    Sets (.thermalHigh k temp) (fun s => (x s).hot = true ∨ temp ≤ (x s).high1 * 64) (fun s => put s (seen s)) ∧
    Reports (.thermalHigh k temp) (fun s => (x s).hot = false ∧ (x s).high1 * 64 < temp) (176 + k.val) 0 0
      (fun s => put s { seen s with hot := true, crossings := min 65535 ((x s).crossings + 1) }) ∧
    Sets (.thermalHighClear k) (fun s => (x s).hot = false) id ∧
    Leads (.thermalHighClear k) (fun s => (x s).hot = true) (fun s t =>
      (x t).hot = false ∧ (x t).now ≤ ((x s).high1 - 5) * 64 ∧ (x t).low ≤ (x t).now ∧ (x t).crossings = (x s).crossings ∧
      { t with srt := { t.srt with sensor := s.srt.sensor } } = s)) ∧
  (∀ (r : Fin 7) (mv : Nat),
    let i : Fin 8 := r.castSucc
    let x := fun (s : State) => s.srt.rail[i]
    let seen := fun (s : State) => ({ x s with now := mv, low := min (x s).low mv, high := max (x s).high mv } : Rail)
    let put := fun (s : State) (y : Rail) => { s with srt := { s.srt with rail := (s.srt.rail.set i y) } }
    let crosses := fun (s : State) => (x s).below = false ∧ mv * 1000 < railNominal i * (1000 - (x s).warn)
    Sets (.supplyDipStart r mv) (fun s => ¬crosses s) (fun s => put s (seen s)) ∧
    Reports (.supplyDipStart r mv) crosses (160 + r.val) 0 0 (fun s =>
      let t := put s { seen s with below := true, belowAt := s.tcr.cycles, dips := min 65535 ((x s).dips + 1) }
      { t with
        srt := { t.srt with dip := true, dipAt := if s.srt.dip then s.srt.dipAt else s.tcr.cycles }
        tcr := if s.srt.dip then s.tcr else { s.tcr with dom := s.tcr.dom.map fun d =>
          { d with ledger := { d.ledger with cSupply := d.supplyChargePs * psL } } }
        ehu := { s.ehu with hold := s.ehu.hold.map fun h => { h with secExcursion := true } } }) ∧
    Reports (.supplyDipLong r)
      (fun s => s.srt.dip = true ∧ (x s).below = true ∧ (x s).long = false ∧ (x s).belowAt ≤ s.srt.dipAt + 10 ^ 6 ∧
        s.srt.dipAt + 10 ^ 6 ≤ s.tcr.cycles) (168 + r.val) 0 0 (fun s => put s { x s with long := true }) ∧
    Sets (.supplyDipLong r) (fun s => s.srt.dip = false ∨ (x s).below = false ∨ (x s).long = true) id) ∧
  Sets .supplyDipEnd (fun s => s.srt.dip = false) id ∧
  Leads .supplyDipEnd
    (fun s => s.srt.dip = true ∧ s.srt.dipAt + 10000 ≤ s.tcr.cycles ∧
      ∀ r : Fin 7, s.srt.rail[r.castSucc].belowAt + 10000 ≤ s.tcr.cycles) (fun s t =>
    t.srt.dip = false ∧ t.srt.dipEnded = some s.tcr.cycles ∧
    t.srt.rail[(7 : Fin 8)] = { s.srt.rail[(7 : Fin 8)] with long := false } ∧
    (∀ r : Fin 7, let y := s.srt.rail[r.castSucc]
      let z := t.srt.rail[r.castSucc]
      z.below = false ∧ z.dips = y.dips ∧ z.warn = y.warn ∧ z.rst = y.rst ∧ (y.below = false → z = { y with long := false }) ∧
      (y.below = true → railNominal r.castSucc * (1000 - y.warn) ≤ z.now * 1000)) ∧
    { t with srt := { t.srt with dip := s.srt.dip, dipEnded := s.srt.dipEnded, rail := s.srt.rail } } = s) ∧
  (∀ mv : Nat,
    let x := fun (s : State) => s.srt.rail[(7 : Fin 8)]
    let seen := fun (s : State) => ({ x s with now := mv, low := min (x s).low mv, high := max (x s).high mv } : Rail)
    let put := fun (s : State) (y : Rail) => { s with srt := { s.srt with rail := (s.srt.rail.set 7 y) } }
    Sets (.vbatWarning mv) (fun s => (x s).below = true ∨ (x s).warn ≤ mv) (fun s => put s (seen s)) ∧
    Reports (.vbatWarning mv) (fun s => (x s).below = false ∧ mv < (x s).warn) 167 0 0 (fun s => put s { seen s with below := true, belowAt := s.tcr.cycles })) ∧
  Leads .vbatLoss (fun _ => True) (fun s t =>
    (∀ k : Fin 128, t.sec.key[k] = {}) ∧ t.sec.root = none ∧ t.srt.coarse = 0 ∧ t.srt.coarseValid = false ∧ t.srt.vbat = false ∧
    t.sec.tamper = { pins := s.sec.tamper.pins } ∧ { t with sec := s.sec, srt := s.srt } = s) ∧
  Leads .vbatReturn (fun s => s.srt.vbat = false) (fun s t =>
    t.srt.vbat = true ∧ t.srt.rail[(7 : Fin 8)].below = false ∧ t.sec.root = none ∧ t.srt.coarse = 0 ∧ t.srt.coarseValid = false ∧
    t.sec.tamper = { pins := s.sec.tamper.pins } ∧ { t with sec := s.sec, srt := s.srt } = s) ∧
  (let resets := fun (c : Instr) (kind detail : Nat) => Leads c (fun s => kind = 2 → s.srt.held.getLsbD 0 = false) (fun s t =>
      t.srt.held = (if kind = 2 then (s.srt.held &&& 1) ||| 2 else (s.srt.held &&& 2) ||| 1) ∧
      t.cpx = { phase := .inReset } ∧ t.srt.cause.kind.toNat = kind ∧ t.srt.cause.detail.toNat = detail ∧
      t.srt.cause.chips = (if kind = 2 then s.srt.cause.chips else 0) ∧
      t.srt.cause.coarse = (if kind = 0 then 0 else coarseWord s) ∧
      t.mbx = {} ∧ t.tcr = {} ∧ t.fco = {} ∧ t.pcu = {} ∧ t.tpe = {} ∧ t.intc = { pin := s.srt.straps.spi } ∧
      t.srt.straps = s.srt.straps ∧ t.srt.vbat = s.srt.vbat ∧ t.col.part = s.col.part ∧ t.pending = s.pending ∧
      ∀ g : PinGroup, pinDriven t g = false);
    (∀ r : Fin 7, resets (.supplyReset r) 1 r.val) ∧ resets .por 0 0 ∧ resets .pinReset 2 0) ∧
  (∀ src : Byte, Sets (.chipReset src) (fun s => s.cpx.phase = .inReset) id) ∧
  (∀ src : Byte, Leads (.chipReset src) (fun s => s.cpx.phase ≠ .inReset) (fun s t =>
    t.cpx = { phase := .inReset } ∧ t.srt.held = 4 ∧ t.srt.cause.coarse = coarseWord s ∧
    t.srt.cause.kind = (if s.cpx.chipResetDue then 4 else 3) ∧ t.srt.cause.detail = (if s.cpx.chipResetDue then 0 else src) ∧
    t.srt.cause.chips.toNat = min 65535 (s.srt.cause.chips.toNat + 1) ∧ t.mbx = {} ∧ t.tcr = {} ∧ t.fco = {} ∧ t.pcu = {} ∧ t.tpe = {} ∧
    (src ≠ 228 ∨ s.cpx.chipResetDue = true → t.sec.slot = s.sec.slot) ∧ t.srt.straps = s.srt.straps ∧ t.col.part = s.col.part ∧
    t.pending = s.pending ∧ ∀ g : PinGroup, pinDriven t g = false)) ∧
  (let releases := fun (c : Instr) (b : Fin 3) (f : Straps → Straps) (por : Bool → Bool) =>
    Sets c (fun s => s.srt.held.getLsbD b.val = true) (fun s =>
      let held := s.srt.held &&& ~~~BitVec.ofNat 3 (2 ^ b.val)
      { s with cpx := { s.cpx with phase := if held = 0 then .starting else s.cpx.phase }
               srt := { s.srt with straps := f s.srt.straps, held := held, factoryPor := por s.srt.factoryPor }
               intc := { s.intc with pin := (f s.srt.straps).spi } }) ∧
    Sets c (fun s => s.srt.held.getLsbD b.val = false) id;
    (∀ v : BitVec 7, releases (.porEnd v) 0
      (fun _ => { boot := v.extractLsb' 0 2, spi := v.getLsbD 2, swin := v.getLsbD 3, xo := v.extractLsb' 4 2, test := v.getLsbD 6 })
      (fun _ => v.getLsbD 6 && v.extractLsb' 0 2 == 3)) ∧
    (∀ v : BitVec 6, releases (.pinResetEnd v) 1
      (fun x => { boot := v.extractLsb' 0 2, spi := v.getLsbD 2, swin := v.getLsbD 3, xo := v.extractLsb' 4 2, test := x.test }) id) ∧
    releases .chipResetEnd 2 id id)

/-- The PLL locks: domains loaded, sequencer started, root secret checked; firmware starts from a valid slot or
BOOT_FAILED rises; a host-loaded boot answers its job; FW_READY; a WARM restart ends; the flash writes and times out; a
proof ends (R86, R321, R328–R332, R367, R384, R385, R403–R407). The model's own choices and readings behind it: log
entries 9, 25, 32, 33, 35, 43, 76, 89, 119, 120. -/
def Obligations.BootAndFlashEventsAct : Prop :=
  Leads .systemPllLock (fun s => s.cpx.phase = .starting ∧ s.clockOk = true)
    (fun s t =>
      let sec := if s.srt.coarseValid then s.srt.coarse else 0
      t.cpx = { s.cpx with phase := .rom } ∧ t.tcr.seq = { running := true, second := sec } ∧
      (∀ d : Fin 4, t.tcr.dom[d].count = sec * secU ∧ t.tcr.dom[d].valid = s.tcr.dom[d].valid) ∧
      (s.sec.root.isSome = true → t.sec.root = s.sec.root ∧ t.sec.rootNew = false) ∧
      (s.sec.root = none → tamperStands s = true → t.sec.root = none ∧ t.sec.rootNew = false) ∧
      (s.sec.root = none → tamperStands s = false → t.sec.root.isSome = true ∧ t.sec.rootNew = true) ∧
      { t with cpx := s.cpx, tcr := s.tcr, sec := s.sec, cal := s.cal, fresh := s.fresh } = s) ∧
  Sets .systemPllLock (fun s => s.cpx.phase ≠ .starting ∨ s.clockOk = false) id ∧
  Reports .firmwareStart
    (fun s => s.cpx.phase = .rom ∧ ((s.srt.straps.boot = 3 ∧ s.srt.straps.test = false) ∨
      (s.srt.straps.boot = 2 ∧ s.srt.straps.spi = true) ∨ (s.srt.straps.boot.toNat ≤ 1 ∧ bootChoice s = none) ∨
      (s.srt.straps.boot = 3 ∧ s.srt.straps.test = true ∧ bootChoice s = none))) 225 0 0
    (fun s => { s with cpx := { s.cpx with phase := .failed } }) ∧
  Sets .firmwareStart (fun s => s.cpx.phase ≠ .rom ∨ (s.srt.straps.boot = 2 ∧ s.srt.straps.spi = false)) id ∧
  Leads .firmwareStart
    (fun s => s.cpx.phase = .rom ∧ s.srt.straps.boot ≠ 2 ∧ (s.srt.straps.boot = 3 → s.srt.straps.test = true) ∧
      s.sec.config.length < 256 ∧ defaultSources s ∧ inShadow s 0 = false)
    (fun s t => match bootChoice s with
      | none => t.cpx.phase = .failed ∧ t.cpx.bootHash = s.cpx.bootHash
      | some i => t.cpx.phase = .firmware ∧ t.sec.running = i ∧ t.cpx.image = s.sec.slot[i].image ∧
          t.cpx.bootHash = some (Config.sha384 s.sec.slot[i].image) ∧ t.cpx.list = none ∧ t.fco.cls[(7 : Fin 8)].pending = true) ∧
  (∀ fw cfg : List Byte,
    let j := fun (s : State) => headJob [] s 0
    Leads (.hostLoadBoot fw cfg)
      (fun s => Inv s ∧ s.cpx.phase = .rom ∧ s.srt.straps.boot = 2 ∧ s.srt.straps.spi = false ∧ (s.ring 0).head ≠ (s.ring 0).tail ∧
        (j s).code = 0 ∧ (j s).dma = true ∧ (j s).noCompletion = false ∧ s.cpx.list = none ∧ posting s = true ∧ defaultSources s ∧
        (let image := cfg.take (j s).resultLen
         listFormOk ((image.drop 256).take (hdr image 4 4)) = false))
      (fun s t => (t.ring 0).head = (s.ring 0).head + 1 ∧ (t.ring 0).ctail = (s.ring 0).ctail + 1 ∧
        (let a := imageCode s 1 (fw.take (j s).paramLen)
         let b := imageCode s 2 (cfg.take (j s).resultLen)
         if a ≠ 0 ∨ b ≠ 0 then
           t.cpx = s.cpx ∧ statusAt t 0 (s.ring 0).ctail = 0x11 ∧
             (resultsAt t 0 (s.ring 0).ctail).head? = some (word (if a ≠ 0 then a else b))
         else t.cpx.hostLoaded = true ∧ t.cpx.bootHash = some (Config.sha384 (fw.take (j s).paramLen)) ∧
           statusAt t 0 (s.ring 0).ctail = 0)) ∧
    Sets (.hostLoadBoot fw cfg) (fun s => s.cpx.phase ≠ .rom ∨ s.srt.straps.boot ≠ 2 ∨ (s.ring 0).head = (s.ring 0).tail) id) ∧
  Leads .fwReady (fun s => s.cpx.phase = .firmware ∧ s.cpx.warm = none ∧ s.cpx.list = none)
    (fun s t => t.cpx.phase = .ready ∧ t.mbx.fwReady = true ∧ t.col = { s.col with fwRevValid := true } ∧
      t.intc.status.getLsbD 6 = true ∧ t.cal.copy = s.cal.copy ∧ t.cal.uncommitted = false ∧
      (s.cpx.hostLoaded = false → t.sec.slot[s.sec.running].trial = false)) ∧
  Leads .fwReady
    (fun s => s.cpx.phase = .firmware ∧ s.cpx.warm = none ∧ s.cpx.list = none ∧ s.cal.user = [] ∧
      ∀ k : Fin 128, s.sec.key[k].st = .empty)
    (fun s t => t.cpx = { s.cpx with phase := .ready } ∧ t.mbx = { s.mbx with fwReady := true } ∧
      t.cal = { s.cal with uncommitted := false, loadFailed := true } ∧
      { t with cpx := s.cpx, mbx := s.mbx, col := s.col, intc := s.intc, cal := s.cal, sec := s.sec } = s) ∧
  Sets .fwReady (fun s => s.cpx.phase ≠ .firmware ∨ s.cpx.warm.isSome = true ∨ (s.cpx.list.isSome = true ∧ s.mbx.flights ≠ [])) id ∧
  (∀ w : Warm,
    Leads .warmRestartEnd
      (fun s => s.cpx.warm = some w ∧ w.reload = false ∧ s.cpx.bootHash = some (Config.sha384 s.cpx.image) ∧ defaultSources s)
      (fun s t => t.cpx.warm = none ∧ t.mbx.restarting = false ∧ (t.mbx.fwReady = true ↔ s.cpx.phase = .ready) ∧
        (∀ r : RingId, (t.ring r.val).frozen = false) ∧ t.fco.block[(0 : Fin 16)] = .shadow ∧ t.tpe.held = [] ∧
        t.cpx.phase = s.cpx.phase ∧ (s.cpx.phase = .ready → t.intc.status.getLsbD 6 = true)) ∧
    Leads .warmRestartEnd
      (fun s => s.cpx.warm = some w ∧ restartImage w s = none ∧ w.stuck = false ∧ s.cpx.phase ≠ .inReset ∧
        s.fco.block[(0 : Fin 16)] = .asserted)
      (fun s t => t.cpx = { s.cpx with warm := some { w with stuck := true } } ∧ t.fco.cls[(7 : Fin 8)].conseq = min 255 (s.fco.cls[(7 : Fin 8)].conseq + 1) ∧
        t.fco.cls[(7 : Fin 8)].recorded = s.fco.cls[(7 : Fin 8)].recorded ∧
        { t with cpx := s.cpx, fco := s.fco, intc := s.intc, pcu := s.pcu } = s) ∧
    Sets .warmRestartEnd (fun s => s.cpx.warm = some w ∧ restartImage w s = none ∧ w.stuck = true) id) ∧
  Sets .warmRestartEnd (fun s => s.cpx.warm = none) id ∧
  (∀ f : Flight,
    let only := fun (s : State) => s.fwRuns = true ∧ s.cpx.list = none ∧ flashJobs s = [f]
    let ended := fun (st : Byte) (s t : State) => f ∉ t.mbx.flights ∧
      (Inv s → noFences s = true → f.late = false → f.chain = none → f.job.noCompletion = false → posting s = true →
        (t.ring f.job.ring.val).ctail = (s.ring f.job.ring.val).ctail + 1 ∧ statusAt t f.job.ring (s.ring f.job.ring.val).ctail = st)
    (∀ (i : Fin 2) (c : CalCopy), Leads .flashWriteDone (fun s => only s ∧ f.code = 0x5004 ∧ s.cal.writing = some (i, c))
      (fun s t => ended 0 s t ∧ t.cal = { s.cal with
          copy := (s.cal.copy.set i (some c)), writing := none, uncommitted := c.items != s.cal.user } ∧
        { t with cal := s.cal, mbx := s.mbx, intc := s.intc, pcu := s.pcu } = s)) ∧
    Leads .flashWriteDone (fun s => only s ∧ f.code ≠ 0x5004 ∧ (jobInline f.job).bit 36 0 = false)
      (fun s t => ended 0 s t ∧ { t with mbx := s.mbx, intc := s.intc, pcu := s.pcu } = s) ∧
    Leads .flashWriteDone (fun s => only s ∧ f.code ≠ 0x5004 ∧ (jobInline f.job).bit 36 0 = true ∧ defaultSources s)
      (fun s t =>
        let i := 1 - s.sec.bootSlot.val
        let code := imageCode s 1 (vget s.sec.slot i {}).image
        ended 0 s t ∧ t.sec = { s.sec with stageAt := 0, slot := vmod s.sec.slot i fun x => { x with verified := code == 0, invalid := code != 0 } } ∧
        (code ≠ 0 → Recorded s t 194 0) ∧ (code = 0 → t.fco = s.fco)) ∧
    Sets .flashWriteTimeout (fun s => only s ∧ f.code = 0x5004 ∧ s.cpx.impressions < s.cal.writingAt + 16000) id ∧
    Leads .flashWriteTimeout (fun s => only s ∧ f.chain = none ∧ (f.code = 0x5004 → s.cal.writingAt + 16000 ≤ s.cpx.impressions))
      (fun s t => ended 0x22 s t ∧ t.cal = (if f.code = 0x5004 then { s.cal with writing := none } else s.cal) ∧
        t.sec = (if f.code = 0x5004 then s.sec else { s.sec with
          slot := vmod s.sec.slot (1 - s.sec.bootSlot.val) fun x => { x with verified := false, invalid := true } }) ∧
        { t with cal := s.cal, sec := s.sec, mbx := s.mbx, intc := s.intc, pcu := s.pcu } = s)) ∧
  (∀ c : Instr, (c = .flashWriteDone ∨ c = .flashWriteTimeout) → Sets c (fun s => flashJobs s = []) id) ∧
  (∀ (passed failed : BitVec 6) (v : Proof),
    Ends (.proofEnd passed failed)
      (fun s => s.fwRuns = true ∧ s.cpx.proof = some v ∧ failed &&& (v.units &&& ~~~v.skipped) = 0) (fun h => h == .proof) 0
      (fun s => { s with cpx := { s.cpx with proof := none } }) ∧
    Leads (.proofEnd passed failed)
      (fun s => s.fwRuns = true ∧ s.cpx.proof = some v ∧ failed &&& (v.units &&& ~~~v.skipped) ≠ 0 ∧ defaultSources s ∧ inShadow s 0 = false ∧
        s.cpx.list = none)
      (fun s t => t.cpx = { s.cpx with proof := none } ∧ t.fco.cls[(7 : Fin 8)].pending = true ∧ ∀ g ∈ t.mbx.flights, g.hold ≠ .proof) ∧
    (∀ f : Flight, Leads (.proofEnd passed failed)
      (fun s => s.fwRuns = true ∧ s.cpx.proof = some v ∧ failed &&& (v.units &&& ~~~v.skipped) = 0 ∧ Inv s ∧ s.cpx.list = none ∧
        s.mbx.flights = [f] ∧ f.hold = .proof ∧ f.job.noCompletion = false ∧ posting s = true)
      (fun s t =>
        let ok := passed &&& (v.units &&& ~~~v.skipped)
        resultsAt t f.job.ring (s.ring f.job.ring.val).ctail =
          [ok.setWidth 32, 0, (v.units &&& ~~~ok).setWidth 32, word (min v.maxImp (s.cpx.impressions - v.since))])))

/-! ### The engine as a whole -/

/-- A CHIP, PIN, POR or supply reset zeroes the key slots and keeps the root secret, the tamper configuration and the
tamper record; BLOCK resets of SEC and AUE and a WARM restart keep the key slots, and every BLOCK reset keeps the rest
(R323). -/
def Obligations.KeysAcrossResets : Prop :=
  (∀ c : Instr, ((∃ r, c = .supplyReset r) ∨ c = .por ∨ c = .pinReset ∨ (∃ src, c = .chipReset src)) →
    Leads c (fun s => s.cpx.phase ≠ .inReset) (fun s t => (∀ k : Fin 128, t.sec.key[k] = {}) ∧ t.sec.root = s.sec.root ∧ t.sec.tamper = s.sec.tamper)) ∧
  (∀ (b : Fin 16) (s : State),
    ((b.val = 0 ∨ b.val = 2 ∨ b.val = 13) → (blockReset b s).sec.key = s.sec.key) ∧
    (blockReset b s).sec.root = s.sec.root ∧ (blockReset b s).sec.tamper = s.sec.tamper) ∧
  (∀ (reload byJob : Bool) (s : State), (warmStart reload byJob s).sec = s.sec) ∧
  Leads .warmRestartEnd defaultSources (fun s t =>
    (∀ k : Fin 128, t.sec.key[k].key = s.sec.key[k].key ∧ t.sec.key[k].prev = s.sec.key[k].prev ∧
      t.sec.key[k].keyId = s.sec.key[k].keyId ∧ t.sec.key[k].dest = s.sec.key[k].dest) ∧
    t.sec.root = s.sec.root ∧ t.sec.tamper = s.sec.tamper)

/-- A job taken up is refused with the first of its failures in the order of R57: a duplicate tag, an unknown code, the
world, factory mode, an absent unit, its parameters, its own state and resources; its completion carries that status,
and beside the mailboxes, the interrupt controller and the counters nothing changes (R56–R58). The model's own choices
and readings behind it: a job row takes its job up at once (log entry 16); no rule is cited for that. -/
def Obligations.FirstFailureIsReported : Prop :=
  ∀ (d : JobDef) (j : Job) (s : State),
    let j' := takenJob d j s
    let p := jobParams d j s
    let e := takenState j s
    Inv s → takesJobs s j.ring = true → s.cpx.list = none → noFences s = true → posting s = true →
    ((withCode d.code j).dma = true → stagedBlocks s = true ∨ (withCode d.code j).paramLen ≤ (withCode d.code j).block.length) →
    ((s.ring j.ring.val).inChain = false ∨ (s.ring j.ring.val).chainBroken = false) → j'.noCompletion = false →
    let failure : Option Nat :=
      if tagInUse s j' then some 0x12
      else match catalogue j'.code with
        | none => some 0x14
        | some row =>
          if j'.secure = false ∧ (row.secure = true ∨ s.sec.part.getLsbD row.target = true ∨ d.nsForbids e p = true) then some 0x10
          else if row.factory = true ∧ row.code ≠ 0x0208 ∧ s.fco.injectUnlocked = false then some 0x13
          else if row.code = 0x0208 ∧ s.srt.factoryPor = false then some 0x13
          else if s.present (subsystemOf row.target) = false ∨ d.absent e p = true then some 0x12
          else if (paramOffence e d j').isSome then some 0x11
          else (d.check e j' p).map Reply.status
    ∀ v, failure = some v →
      let t := directJob d j s
      (t.ring j.ring.val).ctail = (s.ring j.ring.val).ctail + 1 ∧
      (statusAt t j.ring (s.ring j.ring.val).ctail).toNat = v % 256 ∧ t.mbx.flights = s.mbx.flights ∧
      { t with mbx := s.mbx, intc := s.intc, pcu := s.pcu } = s

/-- A step takes the command at the front of the queue and runs it on the state with the queue's rest; every command
answers a next state in every state; on an empty queue one CD-TIME cycle passes. The queue and the idle step are the
model's own (log entry 1). -/
def Obligations.StepRunsTheFrontCommand : Prop :=
  (∀ (s : State) (c : Instr) (rest : List Instr), s.pending = c :: rest → step s = exec c { s with pending := rest }) ∧
  (∀ (c : Instr) (s : State), ∃ t, exec c s = .next t) ∧
  (∀ s : State, s.pending = [] → ∃ t, step s = .next t ∧ t.mbx = s.mbx ∧ t.cpx = s.cpx ∧ t.fco = s.fco ∧ t.sec = s.sec ∧
    t.pending = [] ∧ (s.clocked = true → s.clockOk = true → t.tcr.cycles = s.tcr.cycles + 1))

/-- Every step keeps the invariant: the canonical form of SRAM, the fixed bits of the partition table, of the regions
and of INTC_MASK, pin mode in SPI mode, what FW_READY and RESTARTING stand for, the numbers of the jobs in flight, and
one record for a stream (R52, R70, R73, R75, R304, R305, R310). -/
def Obligations.EveryStepKeepsTheInvariant : Prop :=
  ∀ s t : State, Inv s → step s = .next t → Inv t

/-- What the spec gives for reset: empty, disabled and unfrozen rings, no pending interrupt, FOLIO, no VALID domain, SEC
and AUE secure and nothing else, regions 0 to 2 secure, empty key slots, no fault, every source at its default, no event
counted, no stream, every DPLL in FREERUN and every lane DOWN; and the invariant holds (R37, R51, R52, R304, R305, R308,
R315, R366, R374). The model's own choices and readings behind it: log entry 12. -/
def Obligations.ResetState : Prop :=
  Inv State.reset ∧ State.reset.pending = [] ∧
  (∀ r : RingId, let g := State.reset.ring r.val
    g.head = 0 ∧ g.tail = 0 ∧ g.chead = 0 ∧ g.ctail = 0 ∧ g.enable = false ∧ g.frozen = false ∧ g.doorbellError = false) ∧
  State.reset.mbx.flights = [] ∧ State.reset.mbx.fwReady = false ∧ State.reset.mbx.restarting = false ∧
  State.reset.intc.status = 0 ∧ State.reset.cpx.imposition = .folio ∧ State.reset.cpx.phase = .starting ∧
  (∀ d : Fin 4, State.reset.tcr.dom[d].valid = false) ∧
  State.reset.sec.part = 0x2004 ∧ State.reset.sec.locked = false ∧ State.reset.sec.region = 7 ∧
  (∀ k : Fin 128, State.reset.sec.key[k] = {}) ∧
  (∀ c : Fin 8, State.reset.fco.cls[c] = {}) ∧ State.reset.fco.cfg = [] ∧ (∀ b : Fin 16, State.reset.fco.block[b] = .none) ∧
  (∀ n : Fin 64, State.reset.pcu.ctr[n].event = 0 ∧ State.reset.pcu.ctr[n].inst = 0xFF ∧ State.reset.pcu.ctr[n].count = 0 ∧
    State.reset.pcu.ctr[n].userRead = true) ∧
  State.reset.tpe.galley = [] ∧ State.reset.tpe.ledger = [] ∧ State.reset.sau.stream = [] ∧
  (∀ r : Fin 32, State.reset.rim.ref[r].enable = false) ∧ (∀ k : Fin 8, State.reset.dsb.dpll[k].st = .freerun) ∧
  (∀ l : Fin 24, State.reset.nlu.lane[l].st = .down) ∧ ∀ g : PinGroup, pinDriven State.reset g = false
end

