-- ==== Sys2Proof/Laws/Memory.lean ====
section
/-! SUPPORT. Laws of the mailbox SRAM: a read after a write, and that every memory operation keeps the canonical form. -/

namespace Sys2Proof.Machine

theorem Memory.read_of_lt : ∀ (m : List Host.Cell) (x : Nat), Memory.wf m = true → (∀ c ∈ m.head?, x < c.1) →
    Memory.read m x = Memory.blank
  | [], _, _, _ => rfl
  | [(a, b)], x, _, h => by
    have : x < a := h (a, b) (by simp)
    simp [Memory.read, Nat.ne_of_lt this]
  | (a, b) :: (a', b') :: t, x, w, h => by
    have hx : x < a := h (a, b) (by simp)
    simp only [Memory.wf, Bool.and_eq_true, decide_eq_true_eq] at w
    rw [Memory.read, if_neg (Nat.ne_of_lt hx)]
    exact Memory.read_of_lt ((a', b') :: t) x w.2 (by simp; omega)

theorem Memory.wf_tail : ∀ (c : Host.Cell) (t : List Host.Cell), Memory.wf (c :: t) = true → Memory.wf t = true
  | _, [], _ => rfl
  | (a, b), (a', b') :: t, w => by
    simp only [Memory.wf, Bool.and_eq_true] at w
    exact w.2

theorem Memory.wf_head (a : Nat) (b : Byte) (t : List Host.Cell) (w : Memory.wf ((a, b) :: t) = true) :
    b ≠ Memory.blank ∧ ∀ c ∈ t.head?, a < c.1 := by
  cases t with
  | nil => simpa [Memory.wf] using w
  | cons c t =>
    obtain ⟨a', b'⟩ := c
    simp only [Memory.wf, Bool.and_eq_true, decide_eq_true_eq, bne_iff_ne] at w
    exact ⟨w.1.1, by simpa using w.1.2⟩

theorem Memory.wf_cons (a : Nat) (b : Byte) (t : List Host.Cell) (hb : b ≠ Memory.blank) (ht : Memory.wf t = true)
    (h : ∀ c ∈ t.head?, a < c.1) : Memory.wf ((a, b) :: t) = true := by
  cases t with
  | nil => simpa [Memory.wf] using hb
  | cons c t =>
    obtain ⟨a', b'⟩ := c
    have : a < a' := h (a', b') (by simp)
    simp [Memory.wf, hb, this, ht]

theorem Memory.head_erase (m : List Host.Cell) (x y : Nat) (w : Memory.wf m = true) (h : ∀ c ∈ m.head?, y < c.1) :
    ∀ c ∈ (Memory.erase m x).head?, y < c.1 := by
  cases m with
  | nil => simp [Memory.erase]
  | cons d t =>
    obtain ⟨a, b⟩ := d
    have hy : y < a := h (a, b) (by simp)
    have hw := (Memory.wf_head a b t w).2
    by_cases hx : x = a
    · rw [Memory.erase, if_pos hx]
      intro c hc
      have := hw c hc
      omega
    · rw [Memory.erase, if_neg hx]
      simp only [List.head?_cons, Option.mem_def, Option.some.injEq]
      rintro c rfl
      exact hy

/-- Removing an entry keeps the canonical form. -/
theorem Memory.wf_erase : ∀ (m : List Host.Cell) (x : Nat), Memory.wf m = true → Memory.wf (Memory.erase m x) = true
  | [], _, _ => rfl
  | (a, b) :: t, x, w => by
    by_cases hx : x = a
    · rw [Memory.erase, if_pos hx]
      exact Memory.wf_tail _ _ w
    · rw [Memory.erase, if_neg hx]
      have hw := Memory.wf_head a b t w
      exact Memory.wf_cons a b _ hw.1 (Memory.wf_erase t x (Memory.wf_tail _ _ w))
        (Memory.head_erase t x a (Memory.wf_tail _ _ w) hw.2)

theorem Memory.head_insert (m : List Host.Cell) (x y : Nat) (v : Byte) (h : ∀ c ∈ m.head?, y < c.1) (hx : y < x) :
    ∀ c ∈ (Memory.insert m x v).head?, y < c.1 := by
  cases m with
  | nil => simpa [Memory.insert] using hx
  | cons d t =>
    obtain ⟨a, b⟩ := d
    have hy : y < a := h (a, b) (by simp)
    rw [Memory.insert]
    split
    · simpa using hx
    · split
      · simpa using hx
      · simpa using hy

/-- Putting in an entry that is not blank keeps the canonical form. -/
theorem Memory.wf_insert : ∀ (m : List Host.Cell) (x : Nat) (v : Byte), v ≠ Memory.blank → Memory.wf m = true →
    Memory.wf (Memory.insert m x v) = true
  | [], _, v, hv, _ => by simpa [Memory.insert, Memory.wf] using hv
  | (a, b) :: t, x, v, hv, w => by
    have hw := Memory.wf_head a b t w
    rw [Memory.insert]
    split
    next hlt => exact Memory.wf_cons x v _ hv w (by simpa using hlt)
    next hlt =>
      split
      next heq => exact Memory.wf_cons x v t hv (Memory.wf_tail _ _ w) (heq ▸ hw.2)
      next hne =>
        exact Memory.wf_cons a b _ hw.1 (Memory.wf_insert t x v hv (Memory.wf_tail _ _ w))
          (Memory.head_insert t x a v hw.2 (by omega))

/-- Writing a byte keeps the canonical form. -/
theorem Memory.wf_write (m : List Host.Cell) (x : Nat) (v : Byte) (w : Memory.wf m = true) :
    Memory.wf (Memory.write m x v) = true := by
  rw [Memory.write]
  split
  · exact Memory.wf_erase m x w
  next h => exact Memory.wf_insert m x v h w

/-- Writing bytes keeps the canonical form. -/
theorem Memory.wf_writeBytes : ∀ (bs : List Byte) (m : List Host.Cell) (x : Nat), Memory.wf m = true →
    Memory.wf (Memory.writeBytes m x bs) = true
  | [], _, _, w => w
  | b :: t, m, x, w => Memory.wf_writeBytes t _ (x + 1) (Memory.wf_write m x b w)

theorem Memory.read_erase_ne : ∀ (m : List Host.Cell) (x y : Nat), y ≠ x → Memory.read (Memory.erase m x) y = Memory.read m y
  | [], _, _, _ => rfl
  | (a, b) :: t, x, y, h => by
    rw [Memory.erase]
    split
    next hx => rw [Memory.read, if_neg (by omega)]
    next hx => simp only [Memory.read, Memory.read_erase_ne t x y h]

theorem Memory.read_erase_eq : ∀ (m : List Host.Cell) (x : Nat), Memory.wf m = true →
    Memory.read (Memory.erase m x) x = Memory.blank
  | [], _, _ => rfl
  | (a, b) :: t, x, w => by
    rw [Memory.erase]
    split
    next hx => exact Memory.read_of_lt t x (Memory.wf_tail _ _ w) (hx ▸ (Memory.wf_head a b t w).2)
    next hx => rw [Memory.read, if_neg hx, Memory.read_erase_eq t x (Memory.wf_tail _ _ w)]

theorem Memory.read_insert_ne : ∀ (m : List Host.Cell) (x y : Nat) (v : Byte), y ≠ x →
    Memory.read (Memory.insert m x v) y = Memory.read m y
  | [], _, _, _, h => by simp [Memory.insert, Memory.read, h]
  | (a, b) :: t, x, y, v, h => by
    rw [Memory.insert]
    split
    · rw [Memory.read, if_neg h]
    · split
      next hx => simp only [Memory.read, if_neg h, if_neg (hx ▸ h)]
      next hx => simp only [Memory.read, Memory.read_insert_ne t x y v h]

theorem Memory.read_insert_eq : ∀ (m : List Host.Cell) (x : Nat) (v : Byte), Memory.read (Memory.insert m x v) x = v
  | [], _, _ => by simp [Memory.insert, Memory.read]
  | (a, b) :: t, x, v => by
    rw [Memory.insert]
    split
    · simp [Memory.read]
    · split
      · simp [Memory.read]
      next hx => rw [Memory.read, if_neg hx, Memory.read_insert_eq t x v]

/-- A read at the address written gives the byte written. -/
theorem Memory.read_write_eq (m : List Host.Cell) (x : Nat) (v : Byte) (w : Memory.wf m = true) :
    Memory.read (Memory.write m x v) x = v := by
  rw [Memory.write]
  split
  next h => rw [Memory.read_erase_eq m x w, h]
  · exact Memory.read_insert_eq m x v

/-- A write leaves every other byte as it was. -/
theorem Memory.read_write_ne (m : List Host.Cell) (x y : Nat) (v : Byte) (h : y ≠ x) :
    Memory.read (Memory.write m x v) y = Memory.read m y := by
  rw [Memory.write]
  split
  · exact Memory.read_erase_ne m x y h
  · exact Memory.read_insert_ne m x y v h

/-- Writing bytes leaves every byte outside them as it was. -/
theorem Memory.read_writeBytes_ne : ∀ (bs : List Byte) (m : List Host.Cell) (x y : Nat), y < x ∨ x + bs.length ≤ y →
    Memory.read (Memory.writeBytes m x bs) y = Memory.read m y
  | [], _, _, _, _ => rfl
  | b :: t, m, x, y, h => by
    simp only [List.length_cons] at h
    rw [Memory.writeBytes, Memory.read_writeBytes_ne t _ (x + 1) y (by omega), Memory.read_write_ne m x y b (by omega)]

/-- The bytes written are read back. -/
theorem Memory.readBytes_writeBytes : ∀ (bs : List Byte) (m : List Host.Cell) (x : Nat), Memory.wf m = true →
    Memory.readBytes (Memory.writeBytes m x bs) x bs.length = bs
  | [], _, _, _ => rfl
  | b :: t, m, x, w => by
    rw [List.length_cons, Memory.readBytes, Memory.writeBytes, Memory.read_writeBytes_ne t _ (x + 1) x (by omega),
      Memory.read_write_eq m x b w, Memory.readBytes_writeBytes t _ (x + 1) (Memory.wf_write m x b w)]

/-- Bytes outside those written are read as before. -/
theorem Memory.readBytes_writeBytes_ne (bs : List Byte) (m : List Host.Cell) (x : Nat) :
    ∀ (n y : Nat), y + n ≤ x ∨ x + bs.length ≤ y →
      Memory.readBytes (Memory.writeBytes m x bs) y n = Memory.readBytes m y n
  | 0, _, _ => rfl
  | n + 1, y, h => by
    rw [Memory.readBytes, Memory.readBytes, Memory.read_writeBytes_ne bs m x y (by omega),
      Memory.readBytes_writeBytes_ne bs m x n (y + 1) (by omega)]

/-- A canonical memory is determined by what its bytes read as. -/
theorem Memory.ext_read : ∀ (m n : List Host.Cell), Memory.wf m = true → Memory.wf n = true →
    (∀ a, Memory.read m a = Memory.read n a) → m = n
  | [], [], _, _, _ => rfl
  | [], (a, b) :: t, _, w, h => by
    have := h a
    simp only [Memory.read, if_true] at this
    exact absurd this.symm (Memory.wf_head a b t w).1
  | (a, b) :: t, [], w, _, h => by
    have := h a
    simp only [Memory.read, if_true] at this
    exact absurd this (Memory.wf_head a b t w).1
  | (a, b) :: t, (a', b') :: t', w, w', h => by
    have hw := Memory.wf_head a b t w
    have hw' := Memory.wf_head a' b' t' w'
    have ht : ∀ y, y ≤ a → Memory.read t y = Memory.blank := fun y hy =>
      Memory.read_of_lt t y (Memory.wf_tail _ _ w) (fun c hc => by have := hw.2 c hc; omega)
    have ht' : ∀ y, y ≤ a' → Memory.read t' y = Memory.blank := fun y hy =>
      Memory.read_of_lt t' y (Memory.wf_tail _ _ w') (fun c hc => by have := hw'.2 c hc; omega)
    have hab : a = a' := by
      rcases Nat.lt_trichotomy a a' with hlt | heq | hgt
      · have := h a
        rw [Memory.read, if_pos rfl, Memory.read, if_neg (by omega), ht' a (by omega)] at this
        exact absurd this hw.1
      · exact heq
      · have := h a'
        rw [Memory.read, if_neg (by omega), Memory.read, if_pos rfl, ht a' (by omega)] at this
        exact absurd this.symm hw'.1
    subst hab
    have hb : b = b' := by simpa [Memory.read] using h a
    subst hb
    congr 1
    refine Memory.ext_read t t' (Memory.wf_tail _ _ w) (Memory.wf_tail _ _ w') fun y => ?_
    by_cases hy : y = a
    · rw [hy, ht a (Nat.le_refl a), ht' a (Nat.le_refl a)]
    · simpa [Memory.read, hy] using h y

end Sys2Proof.Machine
end

