-- ==== Sys2Proof/Laws/State.lean ====
section
/-! SUPPORT. What each update of one part of the state leaves as it was: one lemma for each update and each other part. -/

namespace Sys2Proof.Machine

@[simp] theorem State.setGtr_mbx (s : State) (f : Gtr → Gtr) : (s.setGtr f).mbx = s.mbx := rfl
@[simp] theorem State.setGtr_intc (s : State) (f : Gtr → Gtr) : (s.setGtr f).intc = s.intc := rfl
@[simp] theorem State.setGtr_tsnap (s : State) (f : Gtr → Gtr) : (s.setGtr f).tsnap = s.tsnap := rfl
@[simp] theorem State.setGtr_col (s : State) (f : Gtr → Gtr) : (s.setGtr f).col = s.col := rfl
@[simp] theorem State.setGtr_cpx (s : State) (f : Gtr → Gtr) : (s.setGtr f).cpx = s.cpx := rfl
@[simp] theorem State.setGtr_tcr (s : State) (f : Gtr → Gtr) : (s.setGtr f).tcr = s.tcr := rfl
@[simp] theorem State.setGtr_rim (s : State) (f : Gtr → Gtr) : (s.setGtr f).rim = s.rim := rfl
@[simp] theorem State.setGtr_dsb (s : State) (f : Gtr → Gtr) : (s.setGtr f).dsb = s.dsb := rfl
@[simp] theorem State.setGtr_ehu (s : State) (f : Gtr → Gtr) : (s.setGtr f).ehu = s.ehu := rfl
@[simp] theorem State.setGtr_fso (s : State) (f : Gtr → Gtr) : (s.setGtr f).fso = s.fso := rfl
@[simp] theorem State.setGtr_peu (s : State) (f : Gtr → Gtr) : (s.setGtr f).peu = s.peu := rfl
@[simp] theorem State.setGtr_nlu (s : State) (f : Gtr → Gtr) : (s.setGtr f).nlu = s.nlu := rfl
@[simp] theorem State.setGtr_tpe (s : State) (f : Gtr → Gtr) : (s.setGtr f).tpe = s.tpe := rfl
@[simp] theorem State.setGtr_aue (s : State) (f : Gtr → Gtr) : (s.setGtr f).aue = s.aue := rfl
@[simp] theorem State.setGtr_sau (s : State) (f : Gtr → Gtr) : (s.setGtr f).sau = s.sau := rfl
@[simp] theorem State.setGtr_fco (s : State) (f : Gtr → Gtr) : (s.setGtr f).fco = s.fco := rfl
@[simp] theorem State.setGtr_pcu (s : State) (f : Gtr → Gtr) : (s.setGtr f).pcu = s.pcu := rfl
@[simp] theorem State.setGtr_srt (s : State) (f : Gtr → Gtr) : (s.setGtr f).srt = s.srt := rfl
@[simp] theorem State.setGtr_sec (s : State) (f : Gtr → Gtr) : (s.setGtr f).sec = s.sec := rfl
@[simp] theorem State.setGtr_cal (s : State) (f : Gtr → Gtr) : (s.setGtr f).cal = s.cal := rfl
@[simp] theorem State.setGtr_pending (s : State) (f : Gtr → Gtr) : (s.setGtr f).pending = s.pending := rfl
@[simp] theorem State.setGtr_fresh (s : State) (f : Gtr → Gtr) : (s.setGtr f).fresh = s.fresh := rfl

@[simp] theorem State.setNotch_mbx (s : State) (b n : Nat) (f : Notch → Notch) : (s.setNotch b n f).mbx = s.mbx := rfl
@[simp] theorem State.setNotch_intc (s : State) (b n : Nat) (f : Notch → Notch) : (s.setNotch b n f).intc = s.intc := rfl
@[simp] theorem State.setNotch_tsnap (s : State) (b n : Nat) (f : Notch → Notch) : (s.setNotch b n f).tsnap = s.tsnap := rfl
@[simp] theorem State.setNotch_col (s : State) (b n : Nat) (f : Notch → Notch) : (s.setNotch b n f).col = s.col := rfl
@[simp] theorem State.setNotch_cpx (s : State) (b n : Nat) (f : Notch → Notch) : (s.setNotch b n f).cpx = s.cpx := rfl
@[simp] theorem State.setNotch_tcr (s : State) (b n : Nat) (f : Notch → Notch) : (s.setNotch b n f).tcr = s.tcr := rfl
@[simp] theorem State.setNotch_rim (s : State) (b n : Nat) (f : Notch → Notch) : (s.setNotch b n f).rim = s.rim := rfl
@[simp] theorem State.setNotch_dsb (s : State) (b n : Nat) (f : Notch → Notch) : (s.setNotch b n f).dsb = s.dsb := rfl
@[simp] theorem State.setNotch_ehu (s : State) (b n : Nat) (f : Notch → Notch) : (s.setNotch b n f).ehu = s.ehu := rfl
@[simp] theorem State.setNotch_fso (s : State) (b n : Nat) (f : Notch → Notch) : (s.setNotch b n f).fso = s.fso := rfl
@[simp] theorem State.setNotch_peu (s : State) (b n : Nat) (f : Notch → Notch) : (s.setNotch b n f).peu = s.peu := rfl
@[simp] theorem State.setNotch_nlu (s : State) (b n : Nat) (f : Notch → Notch) : (s.setNotch b n f).nlu = s.nlu := rfl
@[simp] theorem State.setNotch_tpe (s : State) (b n : Nat) (f : Notch → Notch) : (s.setNotch b n f).tpe = s.tpe := rfl
@[simp] theorem State.setNotch_aue (s : State) (b n : Nat) (f : Notch → Notch) : (s.setNotch b n f).aue = s.aue := rfl
@[simp] theorem State.setNotch_sau (s : State) (b n : Nat) (f : Notch → Notch) : (s.setNotch b n f).sau = s.sau := rfl
@[simp] theorem State.setNotch_fco (s : State) (b n : Nat) (f : Notch → Notch) : (s.setNotch b n f).fco = s.fco := rfl
@[simp] theorem State.setNotch_pcu (s : State) (b n : Nat) (f : Notch → Notch) : (s.setNotch b n f).pcu = s.pcu := rfl
@[simp] theorem State.setNotch_srt (s : State) (b n : Nat) (f : Notch → Notch) : (s.setNotch b n f).srt = s.srt := rfl
@[simp] theorem State.setNotch_sec (s : State) (b n : Nat) (f : Notch → Notch) : (s.setNotch b n f).sec = s.sec := rfl
@[simp] theorem State.setNotch_cal (s : State) (b n : Nat) (f : Notch → Notch) : (s.setNotch b n f).cal = s.cal := rfl
@[simp] theorem State.setNotch_pending (s : State) (b n : Nat) (f : Notch → Notch) : (s.setNotch b n f).pending = s.pending := rfl
@[simp] theorem State.setNotch_fresh (s : State) (b n : Nat) (f : Notch → Notch) : (s.setNotch b n f).fresh = s.fresh := rfl

@[simp] theorem State.setDom_mbx (s : State) (d : Nat) (f : Domain → Domain) : (s.setDom d f).mbx = s.mbx := rfl
@[simp] theorem State.setDom_intc (s : State) (d : Nat) (f : Domain → Domain) : (s.setDom d f).intc = s.intc := rfl
@[simp] theorem State.setDom_tsnap (s : State) (d : Nat) (f : Domain → Domain) : (s.setDom d f).tsnap = s.tsnap := rfl
@[simp] theorem State.setDom_col (s : State) (d : Nat) (f : Domain → Domain) : (s.setDom d f).col = s.col := rfl
@[simp] theorem State.setDom_cpx (s : State) (d : Nat) (f : Domain → Domain) : (s.setDom d f).cpx = s.cpx := rfl
@[simp] theorem State.setDom_rim (s : State) (d : Nat) (f : Domain → Domain) : (s.setDom d f).rim = s.rim := rfl
@[simp] theorem State.setDom_dsb (s : State) (d : Nat) (f : Domain → Domain) : (s.setDom d f).dsb = s.dsb := rfl
@[simp] theorem State.setDom_ehu (s : State) (d : Nat) (f : Domain → Domain) : (s.setDom d f).ehu = s.ehu := rfl
@[simp] theorem State.setDom_fso (s : State) (d : Nat) (f : Domain → Domain) : (s.setDom d f).fso = s.fso := rfl
@[simp] theorem State.setDom_peu (s : State) (d : Nat) (f : Domain → Domain) : (s.setDom d f).peu = s.peu := rfl
@[simp] theorem State.setDom_nlu (s : State) (d : Nat) (f : Domain → Domain) : (s.setDom d f).nlu = s.nlu := rfl
@[simp] theorem State.setDom_tpe (s : State) (d : Nat) (f : Domain → Domain) : (s.setDom d f).tpe = s.tpe := rfl
@[simp] theorem State.setDom_aue (s : State) (d : Nat) (f : Domain → Domain) : (s.setDom d f).aue = s.aue := rfl
@[simp] theorem State.setDom_gtr (s : State) (d : Nat) (f : Domain → Domain) : (s.setDom d f).gtr = s.gtr := rfl
@[simp] theorem State.setDom_sau (s : State) (d : Nat) (f : Domain → Domain) : (s.setDom d f).sau = s.sau := rfl
@[simp] theorem State.setDom_fco (s : State) (d : Nat) (f : Domain → Domain) : (s.setDom d f).fco = s.fco := rfl
@[simp] theorem State.setDom_pcu (s : State) (d : Nat) (f : Domain → Domain) : (s.setDom d f).pcu = s.pcu := rfl
@[simp] theorem State.setDom_srt (s : State) (d : Nat) (f : Domain → Domain) : (s.setDom d f).srt = s.srt := rfl
@[simp] theorem State.setDom_sec (s : State) (d : Nat) (f : Domain → Domain) : (s.setDom d f).sec = s.sec := rfl
@[simp] theorem State.setDom_cal (s : State) (d : Nat) (f : Domain → Domain) : (s.setDom d f).cal = s.cal := rfl
@[simp] theorem State.setDom_pending (s : State) (d : Nat) (f : Domain → Domain) : (s.setDom d f).pending = s.pending := rfl
@[simp] theorem State.setDom_fresh (s : State) (d : Nat) (f : Domain → Domain) : (s.setDom d f).fresh = s.fresh := rfl

@[simp] theorem State.setLedger_mbx (s : State) (d : Nat) (f : Ledger → Ledger) : (s.setLedger d f).mbx = s.mbx := rfl
@[simp] theorem State.setLedger_intc (s : State) (d : Nat) (f : Ledger → Ledger) : (s.setLedger d f).intc = s.intc := rfl
@[simp] theorem State.setLedger_tsnap (s : State) (d : Nat) (f : Ledger → Ledger) : (s.setLedger d f).tsnap = s.tsnap := rfl
@[simp] theorem State.setLedger_col (s : State) (d : Nat) (f : Ledger → Ledger) : (s.setLedger d f).col = s.col := rfl
@[simp] theorem State.setLedger_cpx (s : State) (d : Nat) (f : Ledger → Ledger) : (s.setLedger d f).cpx = s.cpx := rfl
@[simp] theorem State.setLedger_rim (s : State) (d : Nat) (f : Ledger → Ledger) : (s.setLedger d f).rim = s.rim := rfl
@[simp] theorem State.setLedger_dsb (s : State) (d : Nat) (f : Ledger → Ledger) : (s.setLedger d f).dsb = s.dsb := rfl
@[simp] theorem State.setLedger_ehu (s : State) (d : Nat) (f : Ledger → Ledger) : (s.setLedger d f).ehu = s.ehu := rfl
@[simp] theorem State.setLedger_fso (s : State) (d : Nat) (f : Ledger → Ledger) : (s.setLedger d f).fso = s.fso := rfl
@[simp] theorem State.setLedger_peu (s : State) (d : Nat) (f : Ledger → Ledger) : (s.setLedger d f).peu = s.peu := rfl
@[simp] theorem State.setLedger_nlu (s : State) (d : Nat) (f : Ledger → Ledger) : (s.setLedger d f).nlu = s.nlu := rfl
@[simp] theorem State.setLedger_tpe (s : State) (d : Nat) (f : Ledger → Ledger) : (s.setLedger d f).tpe = s.tpe := rfl
@[simp] theorem State.setLedger_aue (s : State) (d : Nat) (f : Ledger → Ledger) : (s.setLedger d f).aue = s.aue := rfl
@[simp] theorem State.setLedger_gtr (s : State) (d : Nat) (f : Ledger → Ledger) : (s.setLedger d f).gtr = s.gtr := rfl
@[simp] theorem State.setLedger_sau (s : State) (d : Nat) (f : Ledger → Ledger) : (s.setLedger d f).sau = s.sau := rfl
@[simp] theorem State.setLedger_fco (s : State) (d : Nat) (f : Ledger → Ledger) : (s.setLedger d f).fco = s.fco := rfl
@[simp] theorem State.setLedger_pcu (s : State) (d : Nat) (f : Ledger → Ledger) : (s.setLedger d f).pcu = s.pcu := rfl
@[simp] theorem State.setLedger_srt (s : State) (d : Nat) (f : Ledger → Ledger) : (s.setLedger d f).srt = s.srt := rfl
@[simp] theorem State.setLedger_sec (s : State) (d : Nat) (f : Ledger → Ledger) : (s.setLedger d f).sec = s.sec := rfl
@[simp] theorem State.setLedger_cal (s : State) (d : Nat) (f : Ledger → Ledger) : (s.setLedger d f).cal = s.cal := rfl
@[simp] theorem State.setLedger_pending (s : State) (d : Nat) (f : Ledger → Ledger) : (s.setLedger d f).pending = s.pending := rfl
@[simp] theorem State.setLedger_fresh (s : State) (d : Nat) (f : Ledger → Ledger) : (s.setLedger d f).fresh = s.fresh := rfl

@[simp] theorem State.setSeq_mbx (s : State) (f : Seq → Seq) : (s.setSeq f).mbx = s.mbx := rfl
@[simp] theorem State.setSeq_intc (s : State) (f : Seq → Seq) : (s.setSeq f).intc = s.intc := rfl
@[simp] theorem State.setSeq_tsnap (s : State) (f : Seq → Seq) : (s.setSeq f).tsnap = s.tsnap := rfl
@[simp] theorem State.setSeq_col (s : State) (f : Seq → Seq) : (s.setSeq f).col = s.col := rfl
@[simp] theorem State.setSeq_cpx (s : State) (f : Seq → Seq) : (s.setSeq f).cpx = s.cpx := rfl
@[simp] theorem State.setSeq_rim (s : State) (f : Seq → Seq) : (s.setSeq f).rim = s.rim := rfl
@[simp] theorem State.setSeq_dsb (s : State) (f : Seq → Seq) : (s.setSeq f).dsb = s.dsb := rfl
@[simp] theorem State.setSeq_ehu (s : State) (f : Seq → Seq) : (s.setSeq f).ehu = s.ehu := rfl
@[simp] theorem State.setSeq_fso (s : State) (f : Seq → Seq) : (s.setSeq f).fso = s.fso := rfl
@[simp] theorem State.setSeq_peu (s : State) (f : Seq → Seq) : (s.setSeq f).peu = s.peu := rfl
@[simp] theorem State.setSeq_nlu (s : State) (f : Seq → Seq) : (s.setSeq f).nlu = s.nlu := rfl
@[simp] theorem State.setSeq_tpe (s : State) (f : Seq → Seq) : (s.setSeq f).tpe = s.tpe := rfl
@[simp] theorem State.setSeq_aue (s : State) (f : Seq → Seq) : (s.setSeq f).aue = s.aue := rfl
@[simp] theorem State.setSeq_gtr (s : State) (f : Seq → Seq) : (s.setSeq f).gtr = s.gtr := rfl
@[simp] theorem State.setSeq_sau (s : State) (f : Seq → Seq) : (s.setSeq f).sau = s.sau := rfl
@[simp] theorem State.setSeq_fco (s : State) (f : Seq → Seq) : (s.setSeq f).fco = s.fco := rfl
@[simp] theorem State.setSeq_pcu (s : State) (f : Seq → Seq) : (s.setSeq f).pcu = s.pcu := rfl
@[simp] theorem State.setSeq_srt (s : State) (f : Seq → Seq) : (s.setSeq f).srt = s.srt := rfl
@[simp] theorem State.setSeq_sec (s : State) (f : Seq → Seq) : (s.setSeq f).sec = s.sec := rfl
@[simp] theorem State.setSeq_cal (s : State) (f : Seq → Seq) : (s.setSeq f).cal = s.cal := rfl
@[simp] theorem State.setSeq_pending (s : State) (f : Seq → Seq) : (s.setSeq f).pending = s.pending := rfl
@[simp] theorem State.setSeq_fresh (s : State) (f : Seq → Seq) : (s.setSeq f).fresh = s.fresh := rfl

@[simp] theorem State.setRef_mbx (s : State) (r : Nat) (f : RefEntry → RefEntry) : (s.setRef r f).mbx = s.mbx := rfl
@[simp] theorem State.setRef_intc (s : State) (r : Nat) (f : RefEntry → RefEntry) : (s.setRef r f).intc = s.intc := rfl
@[simp] theorem State.setRef_tsnap (s : State) (r : Nat) (f : RefEntry → RefEntry) : (s.setRef r f).tsnap = s.tsnap := rfl
@[simp] theorem State.setRef_col (s : State) (r : Nat) (f : RefEntry → RefEntry) : (s.setRef r f).col = s.col := rfl
@[simp] theorem State.setRef_cpx (s : State) (r : Nat) (f : RefEntry → RefEntry) : (s.setRef r f).cpx = s.cpx := rfl
@[simp] theorem State.setRef_tcr (s : State) (r : Nat) (f : RefEntry → RefEntry) : (s.setRef r f).tcr = s.tcr := rfl
@[simp] theorem State.setRef_dsb (s : State) (r : Nat) (f : RefEntry → RefEntry) : (s.setRef r f).dsb = s.dsb := rfl
@[simp] theorem State.setRef_ehu (s : State) (r : Nat) (f : RefEntry → RefEntry) : (s.setRef r f).ehu = s.ehu := rfl
@[simp] theorem State.setRef_fso (s : State) (r : Nat) (f : RefEntry → RefEntry) : (s.setRef r f).fso = s.fso := rfl
@[simp] theorem State.setRef_peu (s : State) (r : Nat) (f : RefEntry → RefEntry) : (s.setRef r f).peu = s.peu := rfl
@[simp] theorem State.setRef_nlu (s : State) (r : Nat) (f : RefEntry → RefEntry) : (s.setRef r f).nlu = s.nlu := rfl
@[simp] theorem State.setRef_tpe (s : State) (r : Nat) (f : RefEntry → RefEntry) : (s.setRef r f).tpe = s.tpe := rfl
@[simp] theorem State.setRef_aue (s : State) (r : Nat) (f : RefEntry → RefEntry) : (s.setRef r f).aue = s.aue := rfl
@[simp] theorem State.setRef_gtr (s : State) (r : Nat) (f : RefEntry → RefEntry) : (s.setRef r f).gtr = s.gtr := rfl
@[simp] theorem State.setRef_sau (s : State) (r : Nat) (f : RefEntry → RefEntry) : (s.setRef r f).sau = s.sau := rfl
@[simp] theorem State.setRef_fco (s : State) (r : Nat) (f : RefEntry → RefEntry) : (s.setRef r f).fco = s.fco := rfl
@[simp] theorem State.setRef_pcu (s : State) (r : Nat) (f : RefEntry → RefEntry) : (s.setRef r f).pcu = s.pcu := rfl
@[simp] theorem State.setRef_srt (s : State) (r : Nat) (f : RefEntry → RefEntry) : (s.setRef r f).srt = s.srt := rfl
@[simp] theorem State.setRef_sec (s : State) (r : Nat) (f : RefEntry → RefEntry) : (s.setRef r f).sec = s.sec := rfl
@[simp] theorem State.setRef_cal (s : State) (r : Nat) (f : RefEntry → RefEntry) : (s.setRef r f).cal = s.cal := rfl
@[simp] theorem State.setRef_pending (s : State) (r : Nat) (f : RefEntry → RefEntry) : (s.setRef r f).pending = s.pending := rfl
@[simp] theorem State.setRef_fresh (s : State) (r : Nat) (f : RefEntry → RefEntry) : (s.setRef r f).fresh = s.fresh := rfl

@[simp] theorem State.setDpll_mbx (s : State) (k : Nat) (f : Dpll → Dpll) : (s.setDpll k f).mbx = s.mbx := rfl
@[simp] theorem State.setDpll_intc (s : State) (k : Nat) (f : Dpll → Dpll) : (s.setDpll k f).intc = s.intc := rfl
@[simp] theorem State.setDpll_tsnap (s : State) (k : Nat) (f : Dpll → Dpll) : (s.setDpll k f).tsnap = s.tsnap := rfl
@[simp] theorem State.setDpll_col (s : State) (k : Nat) (f : Dpll → Dpll) : (s.setDpll k f).col = s.col := rfl
@[simp] theorem State.setDpll_cpx (s : State) (k : Nat) (f : Dpll → Dpll) : (s.setDpll k f).cpx = s.cpx := rfl
@[simp] theorem State.setDpll_tcr (s : State) (k : Nat) (f : Dpll → Dpll) : (s.setDpll k f).tcr = s.tcr := rfl
@[simp] theorem State.setDpll_rim (s : State) (k : Nat) (f : Dpll → Dpll) : (s.setDpll k f).rim = s.rim := rfl
@[simp] theorem State.setDpll_ehu (s : State) (k : Nat) (f : Dpll → Dpll) : (s.setDpll k f).ehu = s.ehu := rfl
@[simp] theorem State.setDpll_fso (s : State) (k : Nat) (f : Dpll → Dpll) : (s.setDpll k f).fso = s.fso := rfl
@[simp] theorem State.setDpll_peu (s : State) (k : Nat) (f : Dpll → Dpll) : (s.setDpll k f).peu = s.peu := rfl
@[simp] theorem State.setDpll_nlu (s : State) (k : Nat) (f : Dpll → Dpll) : (s.setDpll k f).nlu = s.nlu := rfl
@[simp] theorem State.setDpll_tpe (s : State) (k : Nat) (f : Dpll → Dpll) : (s.setDpll k f).tpe = s.tpe := rfl
@[simp] theorem State.setDpll_aue (s : State) (k : Nat) (f : Dpll → Dpll) : (s.setDpll k f).aue = s.aue := rfl
@[simp] theorem State.setDpll_gtr (s : State) (k : Nat) (f : Dpll → Dpll) : (s.setDpll k f).gtr = s.gtr := rfl
@[simp] theorem State.setDpll_sau (s : State) (k : Nat) (f : Dpll → Dpll) : (s.setDpll k f).sau = s.sau := rfl
@[simp] theorem State.setDpll_fco (s : State) (k : Nat) (f : Dpll → Dpll) : (s.setDpll k f).fco = s.fco := rfl
@[simp] theorem State.setDpll_pcu (s : State) (k : Nat) (f : Dpll → Dpll) : (s.setDpll k f).pcu = s.pcu := rfl
@[simp] theorem State.setDpll_srt (s : State) (k : Nat) (f : Dpll → Dpll) : (s.setDpll k f).srt = s.srt := rfl
@[simp] theorem State.setDpll_sec (s : State) (k : Nat) (f : Dpll → Dpll) : (s.setDpll k f).sec = s.sec := rfl
@[simp] theorem State.setDpll_cal (s : State) (k : Nat) (f : Dpll → Dpll) : (s.setDpll k f).cal = s.cal := rfl
@[simp] theorem State.setDpll_pending (s : State) (k : Nat) (f : Dpll → Dpll) : (s.setDpll k f).pending = s.pending := rfl
@[simp] theorem State.setDpll_fresh (s : State) (k : Nat) (f : Dpll → Dpll) : (s.setDpll k f).fresh = s.fresh := rfl

@[simp] theorem State.setHold_mbx (s : State) (k : Nat) (f : Hold1 → Hold1) : (s.setHold k f).mbx = s.mbx := rfl
@[simp] theorem State.setHold_intc (s : State) (k : Nat) (f : Hold1 → Hold1) : (s.setHold k f).intc = s.intc := rfl
@[simp] theorem State.setHold_tsnap (s : State) (k : Nat) (f : Hold1 → Hold1) : (s.setHold k f).tsnap = s.tsnap := rfl
@[simp] theorem State.setHold_col (s : State) (k : Nat) (f : Hold1 → Hold1) : (s.setHold k f).col = s.col := rfl
@[simp] theorem State.setHold_cpx (s : State) (k : Nat) (f : Hold1 → Hold1) : (s.setHold k f).cpx = s.cpx := rfl
@[simp] theorem State.setHold_tcr (s : State) (k : Nat) (f : Hold1 → Hold1) : (s.setHold k f).tcr = s.tcr := rfl
@[simp] theorem State.setHold_rim (s : State) (k : Nat) (f : Hold1 → Hold1) : (s.setHold k f).rim = s.rim := rfl
@[simp] theorem State.setHold_dsb (s : State) (k : Nat) (f : Hold1 → Hold1) : (s.setHold k f).dsb = s.dsb := rfl
@[simp] theorem State.setHold_fso (s : State) (k : Nat) (f : Hold1 → Hold1) : (s.setHold k f).fso = s.fso := rfl
@[simp] theorem State.setHold_peu (s : State) (k : Nat) (f : Hold1 → Hold1) : (s.setHold k f).peu = s.peu := rfl
@[simp] theorem State.setHold_nlu (s : State) (k : Nat) (f : Hold1 → Hold1) : (s.setHold k f).nlu = s.nlu := rfl
@[simp] theorem State.setHold_tpe (s : State) (k : Nat) (f : Hold1 → Hold1) : (s.setHold k f).tpe = s.tpe := rfl
@[simp] theorem State.setHold_aue (s : State) (k : Nat) (f : Hold1 → Hold1) : (s.setHold k f).aue = s.aue := rfl
@[simp] theorem State.setHold_gtr (s : State) (k : Nat) (f : Hold1 → Hold1) : (s.setHold k f).gtr = s.gtr := rfl
@[simp] theorem State.setHold_sau (s : State) (k : Nat) (f : Hold1 → Hold1) : (s.setHold k f).sau = s.sau := rfl
@[simp] theorem State.setHold_fco (s : State) (k : Nat) (f : Hold1 → Hold1) : (s.setHold k f).fco = s.fco := rfl
@[simp] theorem State.setHold_pcu (s : State) (k : Nat) (f : Hold1 → Hold1) : (s.setHold k f).pcu = s.pcu := rfl
@[simp] theorem State.setHold_srt (s : State) (k : Nat) (f : Hold1 → Hold1) : (s.setHold k f).srt = s.srt := rfl
@[simp] theorem State.setHold_sec (s : State) (k : Nat) (f : Hold1 → Hold1) : (s.setHold k f).sec = s.sec := rfl
@[simp] theorem State.setHold_cal (s : State) (k : Nat) (f : Hold1 → Hold1) : (s.setHold k f).cal = s.cal := rfl
@[simp] theorem State.setHold_pending (s : State) (k : Nat) (f : Hold1 → Hold1) : (s.setHold k f).pending = s.pending := rfl
@[simp] theorem State.setHold_fresh (s : State) (k : Nat) (f : Hold1 → Hold1) : (s.setHold k f).fresh = s.fresh := rfl

@[simp] theorem State.setMember_mbx (s : State) (m : Nat) (f : Member → Member) : (s.setMember m f).mbx = s.mbx := rfl
@[simp] theorem State.setMember_intc (s : State) (m : Nat) (f : Member → Member) : (s.setMember m f).intc = s.intc := rfl
@[simp] theorem State.setMember_tsnap (s : State) (m : Nat) (f : Member → Member) : (s.setMember m f).tsnap = s.tsnap := rfl
@[simp] theorem State.setMember_col (s : State) (m : Nat) (f : Member → Member) : (s.setMember m f).col = s.col := rfl
@[simp] theorem State.setMember_cpx (s : State) (m : Nat) (f : Member → Member) : (s.setMember m f).cpx = s.cpx := rfl
@[simp] theorem State.setMember_tcr (s : State) (m : Nat) (f : Member → Member) : (s.setMember m f).tcr = s.tcr := rfl
@[simp] theorem State.setMember_rim (s : State) (m : Nat) (f : Member → Member) : (s.setMember m f).rim = s.rim := rfl
@[simp] theorem State.setMember_dsb (s : State) (m : Nat) (f : Member → Member) : (s.setMember m f).dsb = s.dsb := rfl
@[simp] theorem State.setMember_fso (s : State) (m : Nat) (f : Member → Member) : (s.setMember m f).fso = s.fso := rfl
@[simp] theorem State.setMember_peu (s : State) (m : Nat) (f : Member → Member) : (s.setMember m f).peu = s.peu := rfl
@[simp] theorem State.setMember_nlu (s : State) (m : Nat) (f : Member → Member) : (s.setMember m f).nlu = s.nlu := rfl
@[simp] theorem State.setMember_tpe (s : State) (m : Nat) (f : Member → Member) : (s.setMember m f).tpe = s.tpe := rfl
@[simp] theorem State.setMember_aue (s : State) (m : Nat) (f : Member → Member) : (s.setMember m f).aue = s.aue := rfl
@[simp] theorem State.setMember_gtr (s : State) (m : Nat) (f : Member → Member) : (s.setMember m f).gtr = s.gtr := rfl
@[simp] theorem State.setMember_sau (s : State) (m : Nat) (f : Member → Member) : (s.setMember m f).sau = s.sau := rfl
@[simp] theorem State.setMember_fco (s : State) (m : Nat) (f : Member → Member) : (s.setMember m f).fco = s.fco := rfl
@[simp] theorem State.setMember_pcu (s : State) (m : Nat) (f : Member → Member) : (s.setMember m f).pcu = s.pcu := rfl
@[simp] theorem State.setMember_srt (s : State) (m : Nat) (f : Member → Member) : (s.setMember m f).srt = s.srt := rfl
@[simp] theorem State.setMember_sec (s : State) (m : Nat) (f : Member → Member) : (s.setMember m f).sec = s.sec := rfl
@[simp] theorem State.setMember_cal (s : State) (m : Nat) (f : Member → Member) : (s.setMember m f).cal = s.cal := rfl
@[simp] theorem State.setMember_pending (s : State) (m : Nat) (f : Member → Member) : (s.setMember m f).pending = s.pending := rfl
@[simp] theorem State.setMember_fresh (s : State) (m : Nat) (f : Member → Member) : (s.setMember m f).fresh = s.fresh := rfl

@[simp] theorem State.setRing_intc (s : State) (r : Nat) (f : Ring → Ring) : (s.setRing r f).intc = s.intc := rfl
@[simp] theorem State.setRing_tsnap (s : State) (r : Nat) (f : Ring → Ring) : (s.setRing r f).tsnap = s.tsnap := rfl
@[simp] theorem State.setRing_col (s : State) (r : Nat) (f : Ring → Ring) : (s.setRing r f).col = s.col := rfl
@[simp] theorem State.setRing_cpx (s : State) (r : Nat) (f : Ring → Ring) : (s.setRing r f).cpx = s.cpx := rfl
@[simp] theorem State.setRing_tcr (s : State) (r : Nat) (f : Ring → Ring) : (s.setRing r f).tcr = s.tcr := rfl
@[simp] theorem State.setRing_rim (s : State) (r : Nat) (f : Ring → Ring) : (s.setRing r f).rim = s.rim := rfl
@[simp] theorem State.setRing_dsb (s : State) (r : Nat) (f : Ring → Ring) : (s.setRing r f).dsb = s.dsb := rfl
@[simp] theorem State.setRing_ehu (s : State) (r : Nat) (f : Ring → Ring) : (s.setRing r f).ehu = s.ehu := rfl
@[simp] theorem State.setRing_fso (s : State) (r : Nat) (f : Ring → Ring) : (s.setRing r f).fso = s.fso := rfl
@[simp] theorem State.setRing_peu (s : State) (r : Nat) (f : Ring → Ring) : (s.setRing r f).peu = s.peu := rfl
@[simp] theorem State.setRing_nlu (s : State) (r : Nat) (f : Ring → Ring) : (s.setRing r f).nlu = s.nlu := rfl
@[simp] theorem State.setRing_tpe (s : State) (r : Nat) (f : Ring → Ring) : (s.setRing r f).tpe = s.tpe := rfl
@[simp] theorem State.setRing_aue (s : State) (r : Nat) (f : Ring → Ring) : (s.setRing r f).aue = s.aue := rfl
@[simp] theorem State.setRing_gtr (s : State) (r : Nat) (f : Ring → Ring) : (s.setRing r f).gtr = s.gtr := rfl
@[simp] theorem State.setRing_sau (s : State) (r : Nat) (f : Ring → Ring) : (s.setRing r f).sau = s.sau := rfl
@[simp] theorem State.setRing_fco (s : State) (r : Nat) (f : Ring → Ring) : (s.setRing r f).fco = s.fco := rfl
@[simp] theorem State.setRing_pcu (s : State) (r : Nat) (f : Ring → Ring) : (s.setRing r f).pcu = s.pcu := rfl
@[simp] theorem State.setRing_srt (s : State) (r : Nat) (f : Ring → Ring) : (s.setRing r f).srt = s.srt := rfl
@[simp] theorem State.setRing_sec (s : State) (r : Nat) (f : Ring → Ring) : (s.setRing r f).sec = s.sec := rfl
@[simp] theorem State.setRing_cal (s : State) (r : Nat) (f : Ring → Ring) : (s.setRing r f).cal = s.cal := rfl
@[simp] theorem State.setRing_pending (s : State) (r : Nat) (f : Ring → Ring) : (s.setRing r f).pending = s.pending := rfl
@[simp] theorem State.setRing_fresh (s : State) (r : Nat) (f : Ring → Ring) : (s.setRing r f).fresh = s.fresh := rfl

@[simp] theorem State.setClass_mbx (s : State) (c : Nat) (f : FaultClass → FaultClass) : (s.setClass c f).mbx = s.mbx := rfl
@[simp] theorem State.setClass_intc (s : State) (c : Nat) (f : FaultClass → FaultClass) : (s.setClass c f).intc = s.intc := rfl
@[simp] theorem State.setClass_tsnap (s : State) (c : Nat) (f : FaultClass → FaultClass) : (s.setClass c f).tsnap = s.tsnap := rfl
@[simp] theorem State.setClass_col (s : State) (c : Nat) (f : FaultClass → FaultClass) : (s.setClass c f).col = s.col := rfl
@[simp] theorem State.setClass_cpx (s : State) (c : Nat) (f : FaultClass → FaultClass) : (s.setClass c f).cpx = s.cpx := rfl
@[simp] theorem State.setClass_tcr (s : State) (c : Nat) (f : FaultClass → FaultClass) : (s.setClass c f).tcr = s.tcr := rfl
@[simp] theorem State.setClass_rim (s : State) (c : Nat) (f : FaultClass → FaultClass) : (s.setClass c f).rim = s.rim := rfl
@[simp] theorem State.setClass_dsb (s : State) (c : Nat) (f : FaultClass → FaultClass) : (s.setClass c f).dsb = s.dsb := rfl
@[simp] theorem State.setClass_ehu (s : State) (c : Nat) (f : FaultClass → FaultClass) : (s.setClass c f).ehu = s.ehu := rfl
@[simp] theorem State.setClass_fso (s : State) (c : Nat) (f : FaultClass → FaultClass) : (s.setClass c f).fso = s.fso := rfl
@[simp] theorem State.setClass_peu (s : State) (c : Nat) (f : FaultClass → FaultClass) : (s.setClass c f).peu = s.peu := rfl
@[simp] theorem State.setClass_nlu (s : State) (c : Nat) (f : FaultClass → FaultClass) : (s.setClass c f).nlu = s.nlu := rfl
@[simp] theorem State.setClass_tpe (s : State) (c : Nat) (f : FaultClass → FaultClass) : (s.setClass c f).tpe = s.tpe := rfl
@[simp] theorem State.setClass_aue (s : State) (c : Nat) (f : FaultClass → FaultClass) : (s.setClass c f).aue = s.aue := rfl
@[simp] theorem State.setClass_gtr (s : State) (c : Nat) (f : FaultClass → FaultClass) : (s.setClass c f).gtr = s.gtr := rfl
@[simp] theorem State.setClass_sau (s : State) (c : Nat) (f : FaultClass → FaultClass) : (s.setClass c f).sau = s.sau := rfl
@[simp] theorem State.setClass_pcu (s : State) (c : Nat) (f : FaultClass → FaultClass) : (s.setClass c f).pcu = s.pcu := rfl
@[simp] theorem State.setClass_srt (s : State) (c : Nat) (f : FaultClass → FaultClass) : (s.setClass c f).srt = s.srt := rfl
@[simp] theorem State.setClass_sec (s : State) (c : Nat) (f : FaultClass → FaultClass) : (s.setClass c f).sec = s.sec := rfl
@[simp] theorem State.setClass_cal (s : State) (c : Nat) (f : FaultClass → FaultClass) : (s.setClass c f).cal = s.cal := rfl
@[simp] theorem State.setClass_pending (s : State) (c : Nat) (f : FaultClass → FaultClass) : (s.setClass c f).pending = s.pending := rfl
@[simp] theorem State.setClass_fresh (s : State) (c : Nat) (f : FaultClass → FaultClass) : (s.setClass c f).fresh = s.fresh := rfl

@[simp] theorem State.setBlock_mbx (s : State) (b : Nat) (v : BlockReset) : (s.setBlock b v).mbx = s.mbx := rfl
@[simp] theorem State.setBlock_intc (s : State) (b : Nat) (v : BlockReset) : (s.setBlock b v).intc = s.intc := rfl
@[simp] theorem State.setBlock_tsnap (s : State) (b : Nat) (v : BlockReset) : (s.setBlock b v).tsnap = s.tsnap := rfl
@[simp] theorem State.setBlock_col (s : State) (b : Nat) (v : BlockReset) : (s.setBlock b v).col = s.col := rfl
@[simp] theorem State.setBlock_cpx (s : State) (b : Nat) (v : BlockReset) : (s.setBlock b v).cpx = s.cpx := rfl
@[simp] theorem State.setBlock_tcr (s : State) (b : Nat) (v : BlockReset) : (s.setBlock b v).tcr = s.tcr := rfl
@[simp] theorem State.setBlock_rim (s : State) (b : Nat) (v : BlockReset) : (s.setBlock b v).rim = s.rim := rfl
@[simp] theorem State.setBlock_dsb (s : State) (b : Nat) (v : BlockReset) : (s.setBlock b v).dsb = s.dsb := rfl
@[simp] theorem State.setBlock_ehu (s : State) (b : Nat) (v : BlockReset) : (s.setBlock b v).ehu = s.ehu := rfl
@[simp] theorem State.setBlock_fso (s : State) (b : Nat) (v : BlockReset) : (s.setBlock b v).fso = s.fso := rfl
@[simp] theorem State.setBlock_peu (s : State) (b : Nat) (v : BlockReset) : (s.setBlock b v).peu = s.peu := rfl
@[simp] theorem State.setBlock_nlu (s : State) (b : Nat) (v : BlockReset) : (s.setBlock b v).nlu = s.nlu := rfl
@[simp] theorem State.setBlock_tpe (s : State) (b : Nat) (v : BlockReset) : (s.setBlock b v).tpe = s.tpe := rfl
@[simp] theorem State.setBlock_aue (s : State) (b : Nat) (v : BlockReset) : (s.setBlock b v).aue = s.aue := rfl
@[simp] theorem State.setBlock_gtr (s : State) (b : Nat) (v : BlockReset) : (s.setBlock b v).gtr = s.gtr := rfl
@[simp] theorem State.setBlock_sau (s : State) (b : Nat) (v : BlockReset) : (s.setBlock b v).sau = s.sau := rfl
@[simp] theorem State.setBlock_pcu (s : State) (b : Nat) (v : BlockReset) : (s.setBlock b v).pcu = s.pcu := rfl
@[simp] theorem State.setBlock_srt (s : State) (b : Nat) (v : BlockReset) : (s.setBlock b v).srt = s.srt := rfl
@[simp] theorem State.setBlock_sec (s : State) (b : Nat) (v : BlockReset) : (s.setBlock b v).sec = s.sec := rfl
@[simp] theorem State.setBlock_cal (s : State) (b : Nat) (v : BlockReset) : (s.setBlock b v).cal = s.cal := rfl
@[simp] theorem State.setBlock_pending (s : State) (b : Nat) (v : BlockReset) : (s.setBlock b v).pending = s.pending := rfl
@[simp] theorem State.setBlock_fresh (s : State) (b : Nat) (v : BlockReset) : (s.setBlock b v).fresh = s.fresh := rfl

@[simp] theorem State.setKey_mbx (s : State) (k : Nat) (f : KeySlot → KeySlot) : (s.setKey k f).mbx = s.mbx := rfl
@[simp] theorem State.setKey_intc (s : State) (k : Nat) (f : KeySlot → KeySlot) : (s.setKey k f).intc = s.intc := rfl
@[simp] theorem State.setKey_tsnap (s : State) (k : Nat) (f : KeySlot → KeySlot) : (s.setKey k f).tsnap = s.tsnap := rfl
@[simp] theorem State.setKey_col (s : State) (k : Nat) (f : KeySlot → KeySlot) : (s.setKey k f).col = s.col := rfl
@[simp] theorem State.setKey_cpx (s : State) (k : Nat) (f : KeySlot → KeySlot) : (s.setKey k f).cpx = s.cpx := rfl
@[simp] theorem State.setKey_tcr (s : State) (k : Nat) (f : KeySlot → KeySlot) : (s.setKey k f).tcr = s.tcr := rfl
@[simp] theorem State.setKey_rim (s : State) (k : Nat) (f : KeySlot → KeySlot) : (s.setKey k f).rim = s.rim := rfl
@[simp] theorem State.setKey_dsb (s : State) (k : Nat) (f : KeySlot → KeySlot) : (s.setKey k f).dsb = s.dsb := rfl
@[simp] theorem State.setKey_ehu (s : State) (k : Nat) (f : KeySlot → KeySlot) : (s.setKey k f).ehu = s.ehu := rfl
@[simp] theorem State.setKey_fso (s : State) (k : Nat) (f : KeySlot → KeySlot) : (s.setKey k f).fso = s.fso := rfl
@[simp] theorem State.setKey_peu (s : State) (k : Nat) (f : KeySlot → KeySlot) : (s.setKey k f).peu = s.peu := rfl
@[simp] theorem State.setKey_nlu (s : State) (k : Nat) (f : KeySlot → KeySlot) : (s.setKey k f).nlu = s.nlu := rfl
@[simp] theorem State.setKey_tpe (s : State) (k : Nat) (f : KeySlot → KeySlot) : (s.setKey k f).tpe = s.tpe := rfl
@[simp] theorem State.setKey_aue (s : State) (k : Nat) (f : KeySlot → KeySlot) : (s.setKey k f).aue = s.aue := rfl
@[simp] theorem State.setKey_gtr (s : State) (k : Nat) (f : KeySlot → KeySlot) : (s.setKey k f).gtr = s.gtr := rfl
@[simp] theorem State.setKey_sau (s : State) (k : Nat) (f : KeySlot → KeySlot) : (s.setKey k f).sau = s.sau := rfl
@[simp] theorem State.setKey_fco (s : State) (k : Nat) (f : KeySlot → KeySlot) : (s.setKey k f).fco = s.fco := rfl
@[simp] theorem State.setKey_pcu (s : State) (k : Nat) (f : KeySlot → KeySlot) : (s.setKey k f).pcu = s.pcu := rfl
@[simp] theorem State.setKey_srt (s : State) (k : Nat) (f : KeySlot → KeySlot) : (s.setKey k f).srt = s.srt := rfl
@[simp] theorem State.setKey_cal (s : State) (k : Nat) (f : KeySlot → KeySlot) : (s.setKey k f).cal = s.cal := rfl
@[simp] theorem State.setKey_pending (s : State) (k : Nat) (f : KeySlot → KeySlot) : (s.setKey k f).pending = s.pending := rfl
@[simp] theorem State.setKey_fresh (s : State) (k : Nat) (f : KeySlot → KeySlot) : (s.setKey k f).fresh = s.fresh := rfl

@[simp] theorem State.setRail_mbx (s : State) (r : Nat) (f : Rail → Rail) : (s.setRail r f).mbx = s.mbx := rfl
@[simp] theorem State.setRail_intc (s : State) (r : Nat) (f : Rail → Rail) : (s.setRail r f).intc = s.intc := rfl
@[simp] theorem State.setRail_tsnap (s : State) (r : Nat) (f : Rail → Rail) : (s.setRail r f).tsnap = s.tsnap := rfl
@[simp] theorem State.setRail_col (s : State) (r : Nat) (f : Rail → Rail) : (s.setRail r f).col = s.col := rfl
@[simp] theorem State.setRail_cpx (s : State) (r : Nat) (f : Rail → Rail) : (s.setRail r f).cpx = s.cpx := rfl
@[simp] theorem State.setRail_tcr (s : State) (r : Nat) (f : Rail → Rail) : (s.setRail r f).tcr = s.tcr := rfl
@[simp] theorem State.setRail_rim (s : State) (r : Nat) (f : Rail → Rail) : (s.setRail r f).rim = s.rim := rfl
@[simp] theorem State.setRail_dsb (s : State) (r : Nat) (f : Rail → Rail) : (s.setRail r f).dsb = s.dsb := rfl
@[simp] theorem State.setRail_ehu (s : State) (r : Nat) (f : Rail → Rail) : (s.setRail r f).ehu = s.ehu := rfl
@[simp] theorem State.setRail_fso (s : State) (r : Nat) (f : Rail → Rail) : (s.setRail r f).fso = s.fso := rfl
@[simp] theorem State.setRail_peu (s : State) (r : Nat) (f : Rail → Rail) : (s.setRail r f).peu = s.peu := rfl
@[simp] theorem State.setRail_nlu (s : State) (r : Nat) (f : Rail → Rail) : (s.setRail r f).nlu = s.nlu := rfl
@[simp] theorem State.setRail_tpe (s : State) (r : Nat) (f : Rail → Rail) : (s.setRail r f).tpe = s.tpe := rfl
@[simp] theorem State.setRail_aue (s : State) (r : Nat) (f : Rail → Rail) : (s.setRail r f).aue = s.aue := rfl
@[simp] theorem State.setRail_gtr (s : State) (r : Nat) (f : Rail → Rail) : (s.setRail r f).gtr = s.gtr := rfl
@[simp] theorem State.setRail_sau (s : State) (r : Nat) (f : Rail → Rail) : (s.setRail r f).sau = s.sau := rfl
@[simp] theorem State.setRail_fco (s : State) (r : Nat) (f : Rail → Rail) : (s.setRail r f).fco = s.fco := rfl
@[simp] theorem State.setRail_pcu (s : State) (r : Nat) (f : Rail → Rail) : (s.setRail r f).pcu = s.pcu := rfl
@[simp] theorem State.setRail_sec (s : State) (r : Nat) (f : Rail → Rail) : (s.setRail r f).sec = s.sec := rfl
@[simp] theorem State.setRail_cal (s : State) (r : Nat) (f : Rail → Rail) : (s.setRail r f).cal = s.cal := rfl
@[simp] theorem State.setRail_pending (s : State) (r : Nat) (f : Rail → Rail) : (s.setRail r f).pending = s.pending := rfl
@[simp] theorem State.setRail_fresh (s : State) (r : Nat) (f : Rail → Rail) : (s.setRail r f).fresh = s.fresh := rfl

@[simp] theorem State.setSensor_mbx (s : State) (k : Nat) (f : Sensor → Sensor) : (s.setSensor k f).mbx = s.mbx := rfl
@[simp] theorem State.setSensor_intc (s : State) (k : Nat) (f : Sensor → Sensor) : (s.setSensor k f).intc = s.intc := rfl
@[simp] theorem State.setSensor_tsnap (s : State) (k : Nat) (f : Sensor → Sensor) : (s.setSensor k f).tsnap = s.tsnap := rfl
@[simp] theorem State.setSensor_col (s : State) (k : Nat) (f : Sensor → Sensor) : (s.setSensor k f).col = s.col := rfl
@[simp] theorem State.setSensor_cpx (s : State) (k : Nat) (f : Sensor → Sensor) : (s.setSensor k f).cpx = s.cpx := rfl
@[simp] theorem State.setSensor_tcr (s : State) (k : Nat) (f : Sensor → Sensor) : (s.setSensor k f).tcr = s.tcr := rfl
@[simp] theorem State.setSensor_rim (s : State) (k : Nat) (f : Sensor → Sensor) : (s.setSensor k f).rim = s.rim := rfl
@[simp] theorem State.setSensor_dsb (s : State) (k : Nat) (f : Sensor → Sensor) : (s.setSensor k f).dsb = s.dsb := rfl
@[simp] theorem State.setSensor_ehu (s : State) (k : Nat) (f : Sensor → Sensor) : (s.setSensor k f).ehu = s.ehu := rfl
@[simp] theorem State.setSensor_fso (s : State) (k : Nat) (f : Sensor → Sensor) : (s.setSensor k f).fso = s.fso := rfl
@[simp] theorem State.setSensor_peu (s : State) (k : Nat) (f : Sensor → Sensor) : (s.setSensor k f).peu = s.peu := rfl
@[simp] theorem State.setSensor_nlu (s : State) (k : Nat) (f : Sensor → Sensor) : (s.setSensor k f).nlu = s.nlu := rfl
@[simp] theorem State.setSensor_tpe (s : State) (k : Nat) (f : Sensor → Sensor) : (s.setSensor k f).tpe = s.tpe := rfl
@[simp] theorem State.setSensor_aue (s : State) (k : Nat) (f : Sensor → Sensor) : (s.setSensor k f).aue = s.aue := rfl
@[simp] theorem State.setSensor_gtr (s : State) (k : Nat) (f : Sensor → Sensor) : (s.setSensor k f).gtr = s.gtr := rfl
@[simp] theorem State.setSensor_sau (s : State) (k : Nat) (f : Sensor → Sensor) : (s.setSensor k f).sau = s.sau := rfl
@[simp] theorem State.setSensor_fco (s : State) (k : Nat) (f : Sensor → Sensor) : (s.setSensor k f).fco = s.fco := rfl
@[simp] theorem State.setSensor_pcu (s : State) (k : Nat) (f : Sensor → Sensor) : (s.setSensor k f).pcu = s.pcu := rfl
@[simp] theorem State.setSensor_sec (s : State) (k : Nat) (f : Sensor → Sensor) : (s.setSensor k f).sec = s.sec := rfl
@[simp] theorem State.setSensor_cal (s : State) (k : Nat) (f : Sensor → Sensor) : (s.setSensor k f).cal = s.cal := rfl
@[simp] theorem State.setSensor_pending (s : State) (k : Nat) (f : Sensor → Sensor) : (s.setSensor k f).pending = s.pending := rfl
@[simp] theorem State.setSensor_fresh (s : State) (k : Nat) (f : Sensor → Sensor) : (s.setSensor k f).fresh = s.fresh := rfl

@[simp] theorem State.setPps_mbx (s : State) (n : Nat) (f : Pps → Pps) : (s.setPps n f).mbx = s.mbx := rfl
@[simp] theorem State.setPps_intc (s : State) (n : Nat) (f : Pps → Pps) : (s.setPps n f).intc = s.intc := rfl
@[simp] theorem State.setPps_tsnap (s : State) (n : Nat) (f : Pps → Pps) : (s.setPps n f).tsnap = s.tsnap := rfl
@[simp] theorem State.setPps_col (s : State) (n : Nat) (f : Pps → Pps) : (s.setPps n f).col = s.col := rfl
@[simp] theorem State.setPps_cpx (s : State) (n : Nat) (f : Pps → Pps) : (s.setPps n f).cpx = s.cpx := rfl
@[simp] theorem State.setPps_tcr (s : State) (n : Nat) (f : Pps → Pps) : (s.setPps n f).tcr = s.tcr := rfl
@[simp] theorem State.setPps_rim (s : State) (n : Nat) (f : Pps → Pps) : (s.setPps n f).rim = s.rim := rfl
@[simp] theorem State.setPps_dsb (s : State) (n : Nat) (f : Pps → Pps) : (s.setPps n f).dsb = s.dsb := rfl
@[simp] theorem State.setPps_ehu (s : State) (n : Nat) (f : Pps → Pps) : (s.setPps n f).ehu = s.ehu := rfl
@[simp] theorem State.setPps_fso (s : State) (n : Nat) (f : Pps → Pps) : (s.setPps n f).fso = s.fso := rfl
@[simp] theorem State.setPps_nlu (s : State) (n : Nat) (f : Pps → Pps) : (s.setPps n f).nlu = s.nlu := rfl
@[simp] theorem State.setPps_tpe (s : State) (n : Nat) (f : Pps → Pps) : (s.setPps n f).tpe = s.tpe := rfl
@[simp] theorem State.setPps_aue (s : State) (n : Nat) (f : Pps → Pps) : (s.setPps n f).aue = s.aue := rfl
@[simp] theorem State.setPps_gtr (s : State) (n : Nat) (f : Pps → Pps) : (s.setPps n f).gtr = s.gtr := rfl
@[simp] theorem State.setPps_sau (s : State) (n : Nat) (f : Pps → Pps) : (s.setPps n f).sau = s.sau := rfl
@[simp] theorem State.setPps_fco (s : State) (n : Nat) (f : Pps → Pps) : (s.setPps n f).fco = s.fco := rfl
@[simp] theorem State.setPps_pcu (s : State) (n : Nat) (f : Pps → Pps) : (s.setPps n f).pcu = s.pcu := rfl
@[simp] theorem State.setPps_srt (s : State) (n : Nat) (f : Pps → Pps) : (s.setPps n f).srt = s.srt := rfl
@[simp] theorem State.setPps_sec (s : State) (n : Nat) (f : Pps → Pps) : (s.setPps n f).sec = s.sec := rfl
@[simp] theorem State.setPps_cal (s : State) (n : Nat) (f : Pps → Pps) : (s.setPps n f).cal = s.cal := rfl
@[simp] theorem State.setPps_pending (s : State) (n : Nat) (f : Pps → Pps) : (s.setPps n f).pending = s.pending := rfl
@[simp] theorem State.setPps_fresh (s : State) (n : Nat) (f : Pps → Pps) : (s.setPps n f).fresh = s.fresh := rfl

@[simp] theorem State.setIrig_mbx (s : State) (n : Nat) (f : Irig → Irig) : (s.setIrig n f).mbx = s.mbx := rfl
@[simp] theorem State.setIrig_intc (s : State) (n : Nat) (f : Irig → Irig) : (s.setIrig n f).intc = s.intc := rfl
@[simp] theorem State.setIrig_tsnap (s : State) (n : Nat) (f : Irig → Irig) : (s.setIrig n f).tsnap = s.tsnap := rfl
@[simp] theorem State.setIrig_col (s : State) (n : Nat) (f : Irig → Irig) : (s.setIrig n f).col = s.col := rfl
@[simp] theorem State.setIrig_cpx (s : State) (n : Nat) (f : Irig → Irig) : (s.setIrig n f).cpx = s.cpx := rfl
@[simp] theorem State.setIrig_tcr (s : State) (n : Nat) (f : Irig → Irig) : (s.setIrig n f).tcr = s.tcr := rfl
@[simp] theorem State.setIrig_rim (s : State) (n : Nat) (f : Irig → Irig) : (s.setIrig n f).rim = s.rim := rfl
@[simp] theorem State.setIrig_dsb (s : State) (n : Nat) (f : Irig → Irig) : (s.setIrig n f).dsb = s.dsb := rfl
@[simp] theorem State.setIrig_ehu (s : State) (n : Nat) (f : Irig → Irig) : (s.setIrig n f).ehu = s.ehu := rfl
@[simp] theorem State.setIrig_fso (s : State) (n : Nat) (f : Irig → Irig) : (s.setIrig n f).fso = s.fso := rfl
@[simp] theorem State.setIrig_nlu (s : State) (n : Nat) (f : Irig → Irig) : (s.setIrig n f).nlu = s.nlu := rfl
@[simp] theorem State.setIrig_tpe (s : State) (n : Nat) (f : Irig → Irig) : (s.setIrig n f).tpe = s.tpe := rfl
@[simp] theorem State.setIrig_aue (s : State) (n : Nat) (f : Irig → Irig) : (s.setIrig n f).aue = s.aue := rfl
@[simp] theorem State.setIrig_gtr (s : State) (n : Nat) (f : Irig → Irig) : (s.setIrig n f).gtr = s.gtr := rfl
@[simp] theorem State.setIrig_sau (s : State) (n : Nat) (f : Irig → Irig) : (s.setIrig n f).sau = s.sau := rfl
@[simp] theorem State.setIrig_fco (s : State) (n : Nat) (f : Irig → Irig) : (s.setIrig n f).fco = s.fco := rfl
@[simp] theorem State.setIrig_pcu (s : State) (n : Nat) (f : Irig → Irig) : (s.setIrig n f).pcu = s.pcu := rfl
@[simp] theorem State.setIrig_srt (s : State) (n : Nat) (f : Irig → Irig) : (s.setIrig n f).srt = s.srt := rfl
@[simp] theorem State.setIrig_sec (s : State) (n : Nat) (f : Irig → Irig) : (s.setIrig n f).sec = s.sec := rfl
@[simp] theorem State.setIrig_cal (s : State) (n : Nat) (f : Irig → Irig) : (s.setIrig n f).cal = s.cal := rfl
@[simp] theorem State.setIrig_pending (s : State) (n : Nat) (f : Irig → Irig) : (s.setIrig n f).pending = s.pending := rfl
@[simp] theorem State.setIrig_fresh (s : State) (n : Nat) (f : Irig → Irig) : (s.setIrig n f).fresh = s.fresh := rfl

@[simp] theorem State.setTod_mbx (s : State) (n : Nat) (f : Tod → Tod) : (s.setTod n f).mbx = s.mbx := rfl
@[simp] theorem State.setTod_intc (s : State) (n : Nat) (f : Tod → Tod) : (s.setTod n f).intc = s.intc := rfl
@[simp] theorem State.setTod_tsnap (s : State) (n : Nat) (f : Tod → Tod) : (s.setTod n f).tsnap = s.tsnap := rfl
@[simp] theorem State.setTod_col (s : State) (n : Nat) (f : Tod → Tod) : (s.setTod n f).col = s.col := rfl
@[simp] theorem State.setTod_cpx (s : State) (n : Nat) (f : Tod → Tod) : (s.setTod n f).cpx = s.cpx := rfl
@[simp] theorem State.setTod_tcr (s : State) (n : Nat) (f : Tod → Tod) : (s.setTod n f).tcr = s.tcr := rfl
@[simp] theorem State.setTod_rim (s : State) (n : Nat) (f : Tod → Tod) : (s.setTod n f).rim = s.rim := rfl
@[simp] theorem State.setTod_dsb (s : State) (n : Nat) (f : Tod → Tod) : (s.setTod n f).dsb = s.dsb := rfl
@[simp] theorem State.setTod_ehu (s : State) (n : Nat) (f : Tod → Tod) : (s.setTod n f).ehu = s.ehu := rfl
@[simp] theorem State.setTod_fso (s : State) (n : Nat) (f : Tod → Tod) : (s.setTod n f).fso = s.fso := rfl
@[simp] theorem State.setTod_nlu (s : State) (n : Nat) (f : Tod → Tod) : (s.setTod n f).nlu = s.nlu := rfl
@[simp] theorem State.setTod_tpe (s : State) (n : Nat) (f : Tod → Tod) : (s.setTod n f).tpe = s.tpe := rfl
@[simp] theorem State.setTod_aue (s : State) (n : Nat) (f : Tod → Tod) : (s.setTod n f).aue = s.aue := rfl
@[simp] theorem State.setTod_gtr (s : State) (n : Nat) (f : Tod → Tod) : (s.setTod n f).gtr = s.gtr := rfl
@[simp] theorem State.setTod_sau (s : State) (n : Nat) (f : Tod → Tod) : (s.setTod n f).sau = s.sau := rfl
@[simp] theorem State.setTod_fco (s : State) (n : Nat) (f : Tod → Tod) : (s.setTod n f).fco = s.fco := rfl
@[simp] theorem State.setTod_pcu (s : State) (n : Nat) (f : Tod → Tod) : (s.setTod n f).pcu = s.pcu := rfl
@[simp] theorem State.setTod_srt (s : State) (n : Nat) (f : Tod → Tod) : (s.setTod n f).srt = s.srt := rfl
@[simp] theorem State.setTod_sec (s : State) (n : Nat) (f : Tod → Tod) : (s.setTod n f).sec = s.sec := rfl
@[simp] theorem State.setTod_cal (s : State) (n : Nat) (f : Tod → Tod) : (s.setTod n f).cal = s.cal := rfl
@[simp] theorem State.setTod_pending (s : State) (n : Nat) (f : Tod → Tod) : (s.setTod n f).pending = s.pending := rfl
@[simp] theorem State.setTod_fresh (s : State) (n : Nat) (f : Tod → Tod) : (s.setTod n f).fresh = s.fresh := rfl

@[simp] theorem State.setEvt_mbx (s : State) (n : Nat) (f : EvtInput → EvtInput) : (s.setEvt n f).mbx = s.mbx := rfl
@[simp] theorem State.setEvt_intc (s : State) (n : Nat) (f : EvtInput → EvtInput) : (s.setEvt n f).intc = s.intc := rfl
@[simp] theorem State.setEvt_tsnap (s : State) (n : Nat) (f : EvtInput → EvtInput) : (s.setEvt n f).tsnap = s.tsnap := rfl
@[simp] theorem State.setEvt_col (s : State) (n : Nat) (f : EvtInput → EvtInput) : (s.setEvt n f).col = s.col := rfl
@[simp] theorem State.setEvt_cpx (s : State) (n : Nat) (f : EvtInput → EvtInput) : (s.setEvt n f).cpx = s.cpx := rfl
@[simp] theorem State.setEvt_tcr (s : State) (n : Nat) (f : EvtInput → EvtInput) : (s.setEvt n f).tcr = s.tcr := rfl
@[simp] theorem State.setEvt_rim (s : State) (n : Nat) (f : EvtInput → EvtInput) : (s.setEvt n f).rim = s.rim := rfl
@[simp] theorem State.setEvt_dsb (s : State) (n : Nat) (f : EvtInput → EvtInput) : (s.setEvt n f).dsb = s.dsb := rfl
@[simp] theorem State.setEvt_ehu (s : State) (n : Nat) (f : EvtInput → EvtInput) : (s.setEvt n f).ehu = s.ehu := rfl
@[simp] theorem State.setEvt_fso (s : State) (n : Nat) (f : EvtInput → EvtInput) : (s.setEvt n f).fso = s.fso := rfl
@[simp] theorem State.setEvt_nlu (s : State) (n : Nat) (f : EvtInput → EvtInput) : (s.setEvt n f).nlu = s.nlu := rfl
@[simp] theorem State.setEvt_tpe (s : State) (n : Nat) (f : EvtInput → EvtInput) : (s.setEvt n f).tpe = s.tpe := rfl
@[simp] theorem State.setEvt_aue (s : State) (n : Nat) (f : EvtInput → EvtInput) : (s.setEvt n f).aue = s.aue := rfl
@[simp] theorem State.setEvt_gtr (s : State) (n : Nat) (f : EvtInput → EvtInput) : (s.setEvt n f).gtr = s.gtr := rfl
@[simp] theorem State.setEvt_sau (s : State) (n : Nat) (f : EvtInput → EvtInput) : (s.setEvt n f).sau = s.sau := rfl
@[simp] theorem State.setEvt_fco (s : State) (n : Nat) (f : EvtInput → EvtInput) : (s.setEvt n f).fco = s.fco := rfl
@[simp] theorem State.setEvt_pcu (s : State) (n : Nat) (f : EvtInput → EvtInput) : (s.setEvt n f).pcu = s.pcu := rfl
@[simp] theorem State.setEvt_srt (s : State) (n : Nat) (f : EvtInput → EvtInput) : (s.setEvt n f).srt = s.srt := rfl
@[simp] theorem State.setEvt_sec (s : State) (n : Nat) (f : EvtInput → EvtInput) : (s.setEvt n f).sec = s.sec := rfl
@[simp] theorem State.setEvt_cal (s : State) (n : Nat) (f : EvtInput → EvtInput) : (s.setEvt n f).cal = s.cal := rfl
@[simp] theorem State.setEvt_pending (s : State) (n : Nat) (f : EvtInput → EvtInput) : (s.setEvt n f).pending = s.pending := rfl
@[simp] theorem State.setEvt_fresh (s : State) (n : Nat) (f : EvtInput → EvtInput) : (s.setEvt n f).fresh = s.fresh := rfl

@[simp] theorem State.setLane_mbx (s : State) (l : Nat) (f : Lane → Lane) : (s.setLane l f).mbx = s.mbx := rfl
@[simp] theorem State.setLane_intc (s : State) (l : Nat) (f : Lane → Lane) : (s.setLane l f).intc = s.intc := rfl
@[simp] theorem State.setLane_tsnap (s : State) (l : Nat) (f : Lane → Lane) : (s.setLane l f).tsnap = s.tsnap := rfl
@[simp] theorem State.setLane_col (s : State) (l : Nat) (f : Lane → Lane) : (s.setLane l f).col = s.col := rfl
@[simp] theorem State.setLane_cpx (s : State) (l : Nat) (f : Lane → Lane) : (s.setLane l f).cpx = s.cpx := rfl
@[simp] theorem State.setLane_tcr (s : State) (l : Nat) (f : Lane → Lane) : (s.setLane l f).tcr = s.tcr := rfl
@[simp] theorem State.setLane_rim (s : State) (l : Nat) (f : Lane → Lane) : (s.setLane l f).rim = s.rim := rfl
@[simp] theorem State.setLane_dsb (s : State) (l : Nat) (f : Lane → Lane) : (s.setLane l f).dsb = s.dsb := rfl
@[simp] theorem State.setLane_ehu (s : State) (l : Nat) (f : Lane → Lane) : (s.setLane l f).ehu = s.ehu := rfl
@[simp] theorem State.setLane_fso (s : State) (l : Nat) (f : Lane → Lane) : (s.setLane l f).fso = s.fso := rfl
@[simp] theorem State.setLane_peu (s : State) (l : Nat) (f : Lane → Lane) : (s.setLane l f).peu = s.peu := rfl
@[simp] theorem State.setLane_tpe (s : State) (l : Nat) (f : Lane → Lane) : (s.setLane l f).tpe = s.tpe := rfl
@[simp] theorem State.setLane_aue (s : State) (l : Nat) (f : Lane → Lane) : (s.setLane l f).aue = s.aue := rfl
@[simp] theorem State.setLane_gtr (s : State) (l : Nat) (f : Lane → Lane) : (s.setLane l f).gtr = s.gtr := rfl
@[simp] theorem State.setLane_sau (s : State) (l : Nat) (f : Lane → Lane) : (s.setLane l f).sau = s.sau := rfl
@[simp] theorem State.setLane_fco (s : State) (l : Nat) (f : Lane → Lane) : (s.setLane l f).fco = s.fco := rfl
@[simp] theorem State.setLane_pcu (s : State) (l : Nat) (f : Lane → Lane) : (s.setLane l f).pcu = s.pcu := rfl
@[simp] theorem State.setLane_srt (s : State) (l : Nat) (f : Lane → Lane) : (s.setLane l f).srt = s.srt := rfl
@[simp] theorem State.setLane_sec (s : State) (l : Nat) (f : Lane → Lane) : (s.setLane l f).sec = s.sec := rfl
@[simp] theorem State.setLane_cal (s : State) (l : Nat) (f : Lane → Lane) : (s.setLane l f).cal = s.cal := rfl
@[simp] theorem State.setLane_pending (s : State) (l : Nat) (f : Lane → Lane) : (s.setLane l f).pending = s.pending := rfl
@[simp] theorem State.setLane_fresh (s : State) (l : Nat) (f : Lane → Lane) : (s.setLane l f).fresh = s.fresh := rfl

@[simp] theorem State.setPort_mbx (s : State) (p : Nat) (f : TpePort → TpePort) : (s.setPort p f).mbx = s.mbx := rfl
@[simp] theorem State.setPort_intc (s : State) (p : Nat) (f : TpePort → TpePort) : (s.setPort p f).intc = s.intc := rfl
@[simp] theorem State.setPort_tsnap (s : State) (p : Nat) (f : TpePort → TpePort) : (s.setPort p f).tsnap = s.tsnap := rfl
@[simp] theorem State.setPort_col (s : State) (p : Nat) (f : TpePort → TpePort) : (s.setPort p f).col = s.col := rfl
@[simp] theorem State.setPort_cpx (s : State) (p : Nat) (f : TpePort → TpePort) : (s.setPort p f).cpx = s.cpx := rfl
@[simp] theorem State.setPort_tcr (s : State) (p : Nat) (f : TpePort → TpePort) : (s.setPort p f).tcr = s.tcr := rfl
@[simp] theorem State.setPort_rim (s : State) (p : Nat) (f : TpePort → TpePort) : (s.setPort p f).rim = s.rim := rfl
@[simp] theorem State.setPort_dsb (s : State) (p : Nat) (f : TpePort → TpePort) : (s.setPort p f).dsb = s.dsb := rfl
@[simp] theorem State.setPort_ehu (s : State) (p : Nat) (f : TpePort → TpePort) : (s.setPort p f).ehu = s.ehu := rfl
@[simp] theorem State.setPort_fso (s : State) (p : Nat) (f : TpePort → TpePort) : (s.setPort p f).fso = s.fso := rfl
@[simp] theorem State.setPort_peu (s : State) (p : Nat) (f : TpePort → TpePort) : (s.setPort p f).peu = s.peu := rfl
@[simp] theorem State.setPort_nlu (s : State) (p : Nat) (f : TpePort → TpePort) : (s.setPort p f).nlu = s.nlu := rfl
@[simp] theorem State.setPort_aue (s : State) (p : Nat) (f : TpePort → TpePort) : (s.setPort p f).aue = s.aue := rfl
@[simp] theorem State.setPort_gtr (s : State) (p : Nat) (f : TpePort → TpePort) : (s.setPort p f).gtr = s.gtr := rfl
@[simp] theorem State.setPort_sau (s : State) (p : Nat) (f : TpePort → TpePort) : (s.setPort p f).sau = s.sau := rfl
@[simp] theorem State.setPort_fco (s : State) (p : Nat) (f : TpePort → TpePort) : (s.setPort p f).fco = s.fco := rfl
@[simp] theorem State.setPort_pcu (s : State) (p : Nat) (f : TpePort → TpePort) : (s.setPort p f).pcu = s.pcu := rfl
@[simp] theorem State.setPort_srt (s : State) (p : Nat) (f : TpePort → TpePort) : (s.setPort p f).srt = s.srt := rfl
@[simp] theorem State.setPort_sec (s : State) (p : Nat) (f : TpePort → TpePort) : (s.setPort p f).sec = s.sec := rfl
@[simp] theorem State.setPort_cal (s : State) (p : Nat) (f : TpePort → TpePort) : (s.setPort p f).cal = s.cal := rfl
@[simp] theorem State.setPort_pending (s : State) (p : Nat) (f : TpePort → TpePort) : (s.setPort p f).pending = s.pending := rfl
@[simp] theorem State.setPort_fresh (s : State) (p : Nat) (f : TpePort → TpePort) : (s.setPort p f).fresh = s.fresh := rfl

@[simp] theorem State.setInst_mbx (s : State) (i : Nat) (f : PtpInst → PtpInst) : (s.setInst i f).mbx = s.mbx := rfl
@[simp] theorem State.setInst_intc (s : State) (i : Nat) (f : PtpInst → PtpInst) : (s.setInst i f).intc = s.intc := rfl
@[simp] theorem State.setInst_tsnap (s : State) (i : Nat) (f : PtpInst → PtpInst) : (s.setInst i f).tsnap = s.tsnap := rfl
@[simp] theorem State.setInst_col (s : State) (i : Nat) (f : PtpInst → PtpInst) : (s.setInst i f).col = s.col := rfl
@[simp] theorem State.setInst_cpx (s : State) (i : Nat) (f : PtpInst → PtpInst) : (s.setInst i f).cpx = s.cpx := rfl
@[simp] theorem State.setInst_tcr (s : State) (i : Nat) (f : PtpInst → PtpInst) : (s.setInst i f).tcr = s.tcr := rfl
@[simp] theorem State.setInst_rim (s : State) (i : Nat) (f : PtpInst → PtpInst) : (s.setInst i f).rim = s.rim := rfl
@[simp] theorem State.setInst_dsb (s : State) (i : Nat) (f : PtpInst → PtpInst) : (s.setInst i f).dsb = s.dsb := rfl
@[simp] theorem State.setInst_ehu (s : State) (i : Nat) (f : PtpInst → PtpInst) : (s.setInst i f).ehu = s.ehu := rfl
@[simp] theorem State.setInst_fso (s : State) (i : Nat) (f : PtpInst → PtpInst) : (s.setInst i f).fso = s.fso := rfl
@[simp] theorem State.setInst_peu (s : State) (i : Nat) (f : PtpInst → PtpInst) : (s.setInst i f).peu = s.peu := rfl
@[simp] theorem State.setInst_nlu (s : State) (i : Nat) (f : PtpInst → PtpInst) : (s.setInst i f).nlu = s.nlu := rfl
@[simp] theorem State.setInst_aue (s : State) (i : Nat) (f : PtpInst → PtpInst) : (s.setInst i f).aue = s.aue := rfl
@[simp] theorem State.setInst_gtr (s : State) (i : Nat) (f : PtpInst → PtpInst) : (s.setInst i f).gtr = s.gtr := rfl
@[simp] theorem State.setInst_sau (s : State) (i : Nat) (f : PtpInst → PtpInst) : (s.setInst i f).sau = s.sau := rfl
@[simp] theorem State.setInst_fco (s : State) (i : Nat) (f : PtpInst → PtpInst) : (s.setInst i f).fco = s.fco := rfl
@[simp] theorem State.setInst_pcu (s : State) (i : Nat) (f : PtpInst → PtpInst) : (s.setInst i f).pcu = s.pcu := rfl
@[simp] theorem State.setInst_srt (s : State) (i : Nat) (f : PtpInst → PtpInst) : (s.setInst i f).srt = s.srt := rfl
@[simp] theorem State.setInst_sec (s : State) (i : Nat) (f : PtpInst → PtpInst) : (s.setInst i f).sec = s.sec := rfl
@[simp] theorem State.setInst_cal (s : State) (i : Nat) (f : PtpInst → PtpInst) : (s.setInst i f).cal = s.cal := rfl
@[simp] theorem State.setInst_pending (s : State) (i : Nat) (f : PtpInst → PtpInst) : (s.setInst i f).pending = s.pending := rfl
@[simp] theorem State.setInst_fresh (s : State) (i : Nat) (f : PtpInst → PtpInst) : (s.setInst i f).fresh = s.fresh := rfl

@[simp] theorem State.setPi_mbx (s : State) (p i : Nat) (f : PortInst → PortInst) : (s.setPi p i f).mbx = s.mbx := rfl
@[simp] theorem State.setPi_intc (s : State) (p i : Nat) (f : PortInst → PortInst) : (s.setPi p i f).intc = s.intc := rfl
@[simp] theorem State.setPi_tsnap (s : State) (p i : Nat) (f : PortInst → PortInst) : (s.setPi p i f).tsnap = s.tsnap := rfl
@[simp] theorem State.setPi_col (s : State) (p i : Nat) (f : PortInst → PortInst) : (s.setPi p i f).col = s.col := rfl
@[simp] theorem State.setPi_cpx (s : State) (p i : Nat) (f : PortInst → PortInst) : (s.setPi p i f).cpx = s.cpx := rfl
@[simp] theorem State.setPi_tcr (s : State) (p i : Nat) (f : PortInst → PortInst) : (s.setPi p i f).tcr = s.tcr := rfl
@[simp] theorem State.setPi_rim (s : State) (p i : Nat) (f : PortInst → PortInst) : (s.setPi p i f).rim = s.rim := rfl
@[simp] theorem State.setPi_dsb (s : State) (p i : Nat) (f : PortInst → PortInst) : (s.setPi p i f).dsb = s.dsb := rfl
@[simp] theorem State.setPi_ehu (s : State) (p i : Nat) (f : PortInst → PortInst) : (s.setPi p i f).ehu = s.ehu := rfl
@[simp] theorem State.setPi_fso (s : State) (p i : Nat) (f : PortInst → PortInst) : (s.setPi p i f).fso = s.fso := rfl
@[simp] theorem State.setPi_peu (s : State) (p i : Nat) (f : PortInst → PortInst) : (s.setPi p i f).peu = s.peu := rfl
@[simp] theorem State.setPi_nlu (s : State) (p i : Nat) (f : PortInst → PortInst) : (s.setPi p i f).nlu = s.nlu := rfl
@[simp] theorem State.setPi_aue (s : State) (p i : Nat) (f : PortInst → PortInst) : (s.setPi p i f).aue = s.aue := rfl
@[simp] theorem State.setPi_gtr (s : State) (p i : Nat) (f : PortInst → PortInst) : (s.setPi p i f).gtr = s.gtr := rfl
@[simp] theorem State.setPi_sau (s : State) (p i : Nat) (f : PortInst → PortInst) : (s.setPi p i f).sau = s.sau := rfl
@[simp] theorem State.setPi_fco (s : State) (p i : Nat) (f : PortInst → PortInst) : (s.setPi p i f).fco = s.fco := rfl
@[simp] theorem State.setPi_pcu (s : State) (p i : Nat) (f : PortInst → PortInst) : (s.setPi p i f).pcu = s.pcu := rfl
@[simp] theorem State.setPi_srt (s : State) (p i : Nat) (f : PortInst → PortInst) : (s.setPi p i f).srt = s.srt := rfl
@[simp] theorem State.setPi_sec (s : State) (p i : Nat) (f : PortInst → PortInst) : (s.setPi p i f).sec = s.sec := rfl
@[simp] theorem State.setPi_cal (s : State) (p i : Nat) (f : PortInst → PortInst) : (s.setPi p i f).cal = s.cal := rfl
@[simp] theorem State.setPi_pending (s : State) (p i : Nat) (f : PortInst → PortInst) : (s.setPi p i f).pending = s.pending := rfl
@[simp] theorem State.setPi_fresh (s : State) (p i : Nat) (f : PortInst → PortInst) : (s.setPi p i f).fresh = s.fresh := rfl

@[simp] theorem State.setClient_mbx (s : State) (c : Nat) (f : NtpClient → NtpClient) : (s.setClient c f).mbx = s.mbx := rfl
@[simp] theorem State.setClient_intc (s : State) (c : Nat) (f : NtpClient → NtpClient) : (s.setClient c f).intc = s.intc := rfl
@[simp] theorem State.setClient_tsnap (s : State) (c : Nat) (f : NtpClient → NtpClient) : (s.setClient c f).tsnap = s.tsnap := rfl
@[simp] theorem State.setClient_col (s : State) (c : Nat) (f : NtpClient → NtpClient) : (s.setClient c f).col = s.col := rfl
@[simp] theorem State.setClient_cpx (s : State) (c : Nat) (f : NtpClient → NtpClient) : (s.setClient c f).cpx = s.cpx := rfl
@[simp] theorem State.setClient_tcr (s : State) (c : Nat) (f : NtpClient → NtpClient) : (s.setClient c f).tcr = s.tcr := rfl
@[simp] theorem State.setClient_rim (s : State) (c : Nat) (f : NtpClient → NtpClient) : (s.setClient c f).rim = s.rim := rfl
@[simp] theorem State.setClient_dsb (s : State) (c : Nat) (f : NtpClient → NtpClient) : (s.setClient c f).dsb = s.dsb := rfl
@[simp] theorem State.setClient_ehu (s : State) (c : Nat) (f : NtpClient → NtpClient) : (s.setClient c f).ehu = s.ehu := rfl
@[simp] theorem State.setClient_fso (s : State) (c : Nat) (f : NtpClient → NtpClient) : (s.setClient c f).fso = s.fso := rfl
@[simp] theorem State.setClient_peu (s : State) (c : Nat) (f : NtpClient → NtpClient) : (s.setClient c f).peu = s.peu := rfl
@[simp] theorem State.setClient_nlu (s : State) (c : Nat) (f : NtpClient → NtpClient) : (s.setClient c f).nlu = s.nlu := rfl
@[simp] theorem State.setClient_aue (s : State) (c : Nat) (f : NtpClient → NtpClient) : (s.setClient c f).aue = s.aue := rfl
@[simp] theorem State.setClient_gtr (s : State) (c : Nat) (f : NtpClient → NtpClient) : (s.setClient c f).gtr = s.gtr := rfl
@[simp] theorem State.setClient_sau (s : State) (c : Nat) (f : NtpClient → NtpClient) : (s.setClient c f).sau = s.sau := rfl
@[simp] theorem State.setClient_fco (s : State) (c : Nat) (f : NtpClient → NtpClient) : (s.setClient c f).fco = s.fco := rfl
@[simp] theorem State.setClient_pcu (s : State) (c : Nat) (f : NtpClient → NtpClient) : (s.setClient c f).pcu = s.pcu := rfl
@[simp] theorem State.setClient_srt (s : State) (c : Nat) (f : NtpClient → NtpClient) : (s.setClient c f).srt = s.srt := rfl
@[simp] theorem State.setClient_sec (s : State) (c : Nat) (f : NtpClient → NtpClient) : (s.setClient c f).sec = s.sec := rfl
@[simp] theorem State.setClient_cal (s : State) (c : Nat) (f : NtpClient → NtpClient) : (s.setClient c f).cal = s.cal := rfl
@[simp] theorem State.setClient_pending (s : State) (c : Nat) (f : NtpClient → NtpClient) : (s.setClient c f).pending = s.pending := rfl
@[simp] theorem State.setClient_fresh (s : State) (c : Nat) (f : NtpClient → NtpClient) : (s.setClient c f).fresh = s.fresh := rfl

@[simp] theorem State.setSau_mbx (s : State) (f : Sau → Sau) : (s.setSau f).mbx = s.mbx := rfl
@[simp] theorem State.setSau_intc (s : State) (f : Sau → Sau) : (s.setSau f).intc = s.intc := rfl
@[simp] theorem State.setSau_tsnap (s : State) (f : Sau → Sau) : (s.setSau f).tsnap = s.tsnap := rfl
@[simp] theorem State.setSau_col (s : State) (f : Sau → Sau) : (s.setSau f).col = s.col := rfl
@[simp] theorem State.setSau_cpx (s : State) (f : Sau → Sau) : (s.setSau f).cpx = s.cpx := rfl
@[simp] theorem State.setSau_tcr (s : State) (f : Sau → Sau) : (s.setSau f).tcr = s.tcr := rfl
@[simp] theorem State.setSau_rim (s : State) (f : Sau → Sau) : (s.setSau f).rim = s.rim := rfl
@[simp] theorem State.setSau_dsb (s : State) (f : Sau → Sau) : (s.setSau f).dsb = s.dsb := rfl
@[simp] theorem State.setSau_ehu (s : State) (f : Sau → Sau) : (s.setSau f).ehu = s.ehu := rfl
@[simp] theorem State.setSau_fso (s : State) (f : Sau → Sau) : (s.setSau f).fso = s.fso := rfl
@[simp] theorem State.setSau_peu (s : State) (f : Sau → Sau) : (s.setSau f).peu = s.peu := rfl
@[simp] theorem State.setSau_nlu (s : State) (f : Sau → Sau) : (s.setSau f).nlu = s.nlu := rfl
@[simp] theorem State.setSau_tpe (s : State) (f : Sau → Sau) : (s.setSau f).tpe = s.tpe := rfl
@[simp] theorem State.setSau_aue (s : State) (f : Sau → Sau) : (s.setSau f).aue = s.aue := rfl
@[simp] theorem State.setSau_gtr (s : State) (f : Sau → Sau) : (s.setSau f).gtr = s.gtr := rfl
@[simp] theorem State.setSau_fco (s : State) (f : Sau → Sau) : (s.setSau f).fco = s.fco := rfl
@[simp] theorem State.setSau_pcu (s : State) (f : Sau → Sau) : (s.setSau f).pcu = s.pcu := rfl
@[simp] theorem State.setSau_srt (s : State) (f : Sau → Sau) : (s.setSau f).srt = s.srt := rfl
@[simp] theorem State.setSau_sec (s : State) (f : Sau → Sau) : (s.setSau f).sec = s.sec := rfl
@[simp] theorem State.setSau_cal (s : State) (f : Sau → Sau) : (s.setSau f).cal = s.cal := rfl
@[simp] theorem State.setSau_pending (s : State) (f : Sau → Sau) : (s.setSau f).pending = s.pending := rfl
@[simp] theorem State.setSau_fresh (s : State) (f : Sau → Sau) : (s.setSau f).fresh = s.fresh := rfl

@[simp] theorem State.setDir_mbx (s : State) (port dir : Nat) (f : SampDir → SampDir) : (s.setDir port dir f).mbx = s.mbx := rfl
@[simp] theorem State.setDir_intc (s : State) (port dir : Nat) (f : SampDir → SampDir) : (s.setDir port dir f).intc = s.intc := rfl
@[simp] theorem State.setDir_tsnap (s : State) (port dir : Nat) (f : SampDir → SampDir) : (s.setDir port dir f).tsnap = s.tsnap := rfl
@[simp] theorem State.setDir_col (s : State) (port dir : Nat) (f : SampDir → SampDir) : (s.setDir port dir f).col = s.col := rfl
@[simp] theorem State.setDir_cpx (s : State) (port dir : Nat) (f : SampDir → SampDir) : (s.setDir port dir f).cpx = s.cpx := rfl
@[simp] theorem State.setDir_tcr (s : State) (port dir : Nat) (f : SampDir → SampDir) : (s.setDir port dir f).tcr = s.tcr := rfl
@[simp] theorem State.setDir_rim (s : State) (port dir : Nat) (f : SampDir → SampDir) : (s.setDir port dir f).rim = s.rim := rfl
@[simp] theorem State.setDir_dsb (s : State) (port dir : Nat) (f : SampDir → SampDir) : (s.setDir port dir f).dsb = s.dsb := rfl
@[simp] theorem State.setDir_ehu (s : State) (port dir : Nat) (f : SampDir → SampDir) : (s.setDir port dir f).ehu = s.ehu := rfl
@[simp] theorem State.setDir_fso (s : State) (port dir : Nat) (f : SampDir → SampDir) : (s.setDir port dir f).fso = s.fso := rfl
@[simp] theorem State.setDir_peu (s : State) (port dir : Nat) (f : SampDir → SampDir) : (s.setDir port dir f).peu = s.peu := rfl
@[simp] theorem State.setDir_nlu (s : State) (port dir : Nat) (f : SampDir → SampDir) : (s.setDir port dir f).nlu = s.nlu := rfl
@[simp] theorem State.setDir_tpe (s : State) (port dir : Nat) (f : SampDir → SampDir) : (s.setDir port dir f).tpe = s.tpe := rfl
@[simp] theorem State.setDir_aue (s : State) (port dir : Nat) (f : SampDir → SampDir) : (s.setDir port dir f).aue = s.aue := rfl
@[simp] theorem State.setDir_gtr (s : State) (port dir : Nat) (f : SampDir → SampDir) : (s.setDir port dir f).gtr = s.gtr := rfl
@[simp] theorem State.setDir_fco (s : State) (port dir : Nat) (f : SampDir → SampDir) : (s.setDir port dir f).fco = s.fco := rfl
@[simp] theorem State.setDir_pcu (s : State) (port dir : Nat) (f : SampDir → SampDir) : (s.setDir port dir f).pcu = s.pcu := rfl
@[simp] theorem State.setDir_srt (s : State) (port dir : Nat) (f : SampDir → SampDir) : (s.setDir port dir f).srt = s.srt := rfl
@[simp] theorem State.setDir_sec (s : State) (port dir : Nat) (f : SampDir → SampDir) : (s.setDir port dir f).sec = s.sec := rfl
@[simp] theorem State.setDir_cal (s : State) (port dir : Nat) (f : SampDir → SampDir) : (s.setDir port dir f).cal = s.cal := rfl
@[simp] theorem State.setDir_pending (s : State) (port dir : Nat) (f : SampDir → SampDir) : (s.setDir port dir f).pending = s.pending := rfl
@[simp] theorem State.setDir_fresh (s : State) (port dir : Nat) (f : SampDir → SampDir) : (s.setDir port dir f).fresh = s.fresh := rfl

@[simp] theorem State.setChan_mbx (s : State) (c : Nat) (f : SampChan → SampChan) : (s.setChan c f).mbx = s.mbx := rfl
@[simp] theorem State.setChan_intc (s : State) (c : Nat) (f : SampChan → SampChan) : (s.setChan c f).intc = s.intc := rfl
@[simp] theorem State.setChan_tsnap (s : State) (c : Nat) (f : SampChan → SampChan) : (s.setChan c f).tsnap = s.tsnap := rfl
@[simp] theorem State.setChan_col (s : State) (c : Nat) (f : SampChan → SampChan) : (s.setChan c f).col = s.col := rfl
@[simp] theorem State.setChan_cpx (s : State) (c : Nat) (f : SampChan → SampChan) : (s.setChan c f).cpx = s.cpx := rfl
@[simp] theorem State.setChan_tcr (s : State) (c : Nat) (f : SampChan → SampChan) : (s.setChan c f).tcr = s.tcr := rfl
@[simp] theorem State.setChan_rim (s : State) (c : Nat) (f : SampChan → SampChan) : (s.setChan c f).rim = s.rim := rfl
@[simp] theorem State.setChan_dsb (s : State) (c : Nat) (f : SampChan → SampChan) : (s.setChan c f).dsb = s.dsb := rfl
@[simp] theorem State.setChan_ehu (s : State) (c : Nat) (f : SampChan → SampChan) : (s.setChan c f).ehu = s.ehu := rfl
@[simp] theorem State.setChan_fso (s : State) (c : Nat) (f : SampChan → SampChan) : (s.setChan c f).fso = s.fso := rfl
@[simp] theorem State.setChan_peu (s : State) (c : Nat) (f : SampChan → SampChan) : (s.setChan c f).peu = s.peu := rfl
@[simp] theorem State.setChan_nlu (s : State) (c : Nat) (f : SampChan → SampChan) : (s.setChan c f).nlu = s.nlu := rfl
@[simp] theorem State.setChan_tpe (s : State) (c : Nat) (f : SampChan → SampChan) : (s.setChan c f).tpe = s.tpe := rfl
@[simp] theorem State.setChan_aue (s : State) (c : Nat) (f : SampChan → SampChan) : (s.setChan c f).aue = s.aue := rfl
@[simp] theorem State.setChan_gtr (s : State) (c : Nat) (f : SampChan → SampChan) : (s.setChan c f).gtr = s.gtr := rfl
@[simp] theorem State.setChan_fco (s : State) (c : Nat) (f : SampChan → SampChan) : (s.setChan c f).fco = s.fco := rfl
@[simp] theorem State.setChan_pcu (s : State) (c : Nat) (f : SampChan → SampChan) : (s.setChan c f).pcu = s.pcu := rfl
@[simp] theorem State.setChan_srt (s : State) (c : Nat) (f : SampChan → SampChan) : (s.setChan c f).srt = s.srt := rfl
@[simp] theorem State.setChan_sec (s : State) (c : Nat) (f : SampChan → SampChan) : (s.setChan c f).sec = s.sec := rfl
@[simp] theorem State.setChan_cal (s : State) (c : Nat) (f : SampChan → SampChan) : (s.setChan c f).cal = s.cal := rfl
@[simp] theorem State.setChan_pending (s : State) (c : Nat) (f : SampChan → SampChan) : (s.setChan c f).pending = s.pending := rfl
@[simp] theorem State.setChan_fresh (s : State) (c : Nat) (f : SampChan → SampChan) : (s.setChan c f).fresh = s.fresh := rfl

@[simp] theorem State.setApll_mbx (s : State) (n : Nat) (f : Apll → Apll) : (s.setApll n f).mbx = s.mbx := rfl
@[simp] theorem State.setApll_intc (s : State) (n : Nat) (f : Apll → Apll) : (s.setApll n f).intc = s.intc := rfl
@[simp] theorem State.setApll_tsnap (s : State) (n : Nat) (f : Apll → Apll) : (s.setApll n f).tsnap = s.tsnap := rfl
@[simp] theorem State.setApll_col (s : State) (n : Nat) (f : Apll → Apll) : (s.setApll n f).col = s.col := rfl
@[simp] theorem State.setApll_cpx (s : State) (n : Nat) (f : Apll → Apll) : (s.setApll n f).cpx = s.cpx := rfl
@[simp] theorem State.setApll_tcr (s : State) (n : Nat) (f : Apll → Apll) : (s.setApll n f).tcr = s.tcr := rfl
@[simp] theorem State.setApll_rim (s : State) (n : Nat) (f : Apll → Apll) : (s.setApll n f).rim = s.rim := rfl
@[simp] theorem State.setApll_dsb (s : State) (n : Nat) (f : Apll → Apll) : (s.setApll n f).dsb = s.dsb := rfl
@[simp] theorem State.setApll_ehu (s : State) (n : Nat) (f : Apll → Apll) : (s.setApll n f).ehu = s.ehu := rfl
@[simp] theorem State.setApll_peu (s : State) (n : Nat) (f : Apll → Apll) : (s.setApll n f).peu = s.peu := rfl
@[simp] theorem State.setApll_nlu (s : State) (n : Nat) (f : Apll → Apll) : (s.setApll n f).nlu = s.nlu := rfl
@[simp] theorem State.setApll_tpe (s : State) (n : Nat) (f : Apll → Apll) : (s.setApll n f).tpe = s.tpe := rfl
@[simp] theorem State.setApll_aue (s : State) (n : Nat) (f : Apll → Apll) : (s.setApll n f).aue = s.aue := rfl
@[simp] theorem State.setApll_gtr (s : State) (n : Nat) (f : Apll → Apll) : (s.setApll n f).gtr = s.gtr := rfl
@[simp] theorem State.setApll_sau (s : State) (n : Nat) (f : Apll → Apll) : (s.setApll n f).sau = s.sau := rfl
@[simp] theorem State.setApll_fco (s : State) (n : Nat) (f : Apll → Apll) : (s.setApll n f).fco = s.fco := rfl
@[simp] theorem State.setApll_pcu (s : State) (n : Nat) (f : Apll → Apll) : (s.setApll n f).pcu = s.pcu := rfl
@[simp] theorem State.setApll_srt (s : State) (n : Nat) (f : Apll → Apll) : (s.setApll n f).srt = s.srt := rfl
@[simp] theorem State.setApll_sec (s : State) (n : Nat) (f : Apll → Apll) : (s.setApll n f).sec = s.sec := rfl
@[simp] theorem State.setApll_cal (s : State) (n : Nat) (f : Apll → Apll) : (s.setApll n f).cal = s.cal := rfl
@[simp] theorem State.setApll_pending (s : State) (n : Nat) (f : Apll → Apll) : (s.setApll n f).pending = s.pending := rfl
@[simp] theorem State.setApll_fresh (s : State) (n : Nat) (f : Apll → Apll) : (s.setApll n f).fresh = s.fresh := rfl

@[simp] theorem State.setOut_mbx (s : State) (o : Nat) (f : Output → Output) : (s.setOut o f).mbx = s.mbx := rfl
@[simp] theorem State.setOut_intc (s : State) (o : Nat) (f : Output → Output) : (s.setOut o f).intc = s.intc := rfl
@[simp] theorem State.setOut_tsnap (s : State) (o : Nat) (f : Output → Output) : (s.setOut o f).tsnap = s.tsnap := rfl
@[simp] theorem State.setOut_col (s : State) (o : Nat) (f : Output → Output) : (s.setOut o f).col = s.col := rfl
@[simp] theorem State.setOut_cpx (s : State) (o : Nat) (f : Output → Output) : (s.setOut o f).cpx = s.cpx := rfl
@[simp] theorem State.setOut_tcr (s : State) (o : Nat) (f : Output → Output) : (s.setOut o f).tcr = s.tcr := rfl
@[simp] theorem State.setOut_rim (s : State) (o : Nat) (f : Output → Output) : (s.setOut o f).rim = s.rim := rfl
@[simp] theorem State.setOut_dsb (s : State) (o : Nat) (f : Output → Output) : (s.setOut o f).dsb = s.dsb := rfl
@[simp] theorem State.setOut_ehu (s : State) (o : Nat) (f : Output → Output) : (s.setOut o f).ehu = s.ehu := rfl
@[simp] theorem State.setOut_peu (s : State) (o : Nat) (f : Output → Output) : (s.setOut o f).peu = s.peu := rfl
@[simp] theorem State.setOut_nlu (s : State) (o : Nat) (f : Output → Output) : (s.setOut o f).nlu = s.nlu := rfl
@[simp] theorem State.setOut_tpe (s : State) (o : Nat) (f : Output → Output) : (s.setOut o f).tpe = s.tpe := rfl
@[simp] theorem State.setOut_aue (s : State) (o : Nat) (f : Output → Output) : (s.setOut o f).aue = s.aue := rfl
@[simp] theorem State.setOut_gtr (s : State) (o : Nat) (f : Output → Output) : (s.setOut o f).gtr = s.gtr := rfl
@[simp] theorem State.setOut_sau (s : State) (o : Nat) (f : Output → Output) : (s.setOut o f).sau = s.sau := rfl
@[simp] theorem State.setOut_fco (s : State) (o : Nat) (f : Output → Output) : (s.setOut o f).fco = s.fco := rfl
@[simp] theorem State.setOut_pcu (s : State) (o : Nat) (f : Output → Output) : (s.setOut o f).pcu = s.pcu := rfl
@[simp] theorem State.setOut_srt (s : State) (o : Nat) (f : Output → Output) : (s.setOut o f).srt = s.srt := rfl
@[simp] theorem State.setOut_sec (s : State) (o : Nat) (f : Output → Output) : (s.setOut o f).sec = s.sec := rfl
@[simp] theorem State.setOut_cal (s : State) (o : Nat) (f : Output → Output) : (s.setOut o f).cal = s.cal := rfl
@[simp] theorem State.setOut_pending (s : State) (o : Nat) (f : Output → Output) : (s.setOut o f).pending = s.pending := rfl
@[simp] theorem State.setOut_fresh (s : State) (o : Nat) (f : Output → Output) : (s.setOut o f).fresh = s.fresh := rfl

end Sys2Proof.Machine
end

