-- ==== Sys2Proof/Laws/Ops.lean ====
section
/-! SUPPORT. What the shared operations can do: one lemma for each, which says which parts of the state it leaves. -/

namespace Sys2Proof.Machine

/-! ### Indexed parts -/

@[simp] theorem vget_vmod_self {α : Type} {n : Nat} (v : Vector α n) (i : Nat) (f : α → α) (d : α) (h : i < n) :
    vget (vmod v i f) i d = f (vget v i d) := by
  simp [vget, vmod, h]

theorem vget_vmod_ne {α : Type} {n : Nat} (v : Vector α n) (i j : Nat) (f : α → α) (d : α) (h : i ≠ j) :
    vget (vmod v i f) j d = vget v j d := by
  unfold vmod
  split
  · unfold vget
    split
    · exact Vector.getElem_set_ne _ _ h
    · rfl
  · rfl

theorem vget_vmod {α : Type} {n : Nat} (v : Vector α n) (i j : Nat) (f : α → α) (d : α) (h : i < n) :
    vget (vmod v i f) j d = if i = j then f (vget v j d) else vget v j d := by
  split
  next e => subst e; exact vget_vmod_self v i f d h
  next e => exact vget_vmod_ne v i j f d e

theorem vmod_of_le {α : Type} {n : Nat} (v : Vector α n) (i : Nat) (f : α → α) (h : n ≤ i) : vmod v i f = v := by
  simp [vmod, Nat.not_lt.mpr h]

@[simp] theorem State.domain_setDom (s : State) (d : Nat) (f : Domain → Domain) (h : d < 4) :
    (s.setDom d f).domain d = f (s.domain d) := vget_vmod_self _ _ _ _ h
theorem State.domain_setDom_ne (s : State) (d e : Nat) (f : Domain → Domain) (h : d ≠ e) :
    (s.setDom d f).domain e = s.domain e := vget_vmod_ne _ _ _ _ _ h
@[simp] theorem State.refEntry_setRef (s : State) (r : Nat) (f : RefEntry → RefEntry) (h : r < 32) :
    (s.setRef r f).refEntry r = f (s.refEntry r) := vget_vmod_self _ _ _ _ h
theorem State.refEntry_setRef_ne (s : State) (r q : Nat) (f : RefEntry → RefEntry) (h : r ≠ q) :
    (s.setRef r f).refEntry q = s.refEntry q := vget_vmod_ne _ _ _ _ _ h
@[simp] theorem State.dpllOf_setDpll (s : State) (k : Nat) (f : Dpll → Dpll) (h : k < 8) :
    (s.setDpll k f).dpllOf k = f (s.dpllOf k) := vget_vmod_self _ _ _ _ h
theorem State.dpllOf_setDpll_ne (s : State) (k q : Nat) (f : Dpll → Dpll) (h : k ≠ q) :
    (s.setDpll k f).dpllOf q = s.dpllOf q := vget_vmod_ne _ _ _ _ _ h
@[simp] theorem State.holdOf_setHold (s : State) (k : Nat) (f : Hold1 → Hold1) (h : k < 8) :
    (s.setHold k f).holdOf k = f (s.holdOf k) := vget_vmod_self _ _ _ _ h
@[simp] theorem State.ring_setRing (s : State) (r : Nat) (f : Ring → Ring) (h : r < 5) :
    (s.setRing r f).ring r = f (s.ring r) := vget_vmod_self _ _ _ _ h
theorem State.ring_setRing_ne (s : State) (r q : Nat) (f : Ring → Ring) (h : r ≠ q) :
    (s.setRing r f).ring q = s.ring q := vget_vmod_ne _ _ _ _ _ h
@[simp] theorem State.keySlot_setKey (s : State) (k : Nat) (f : KeySlot → KeySlot) (h : k < 128) :
    (s.setKey k f).keySlot k = f (s.keySlot k) := vget_vmod_self _ _ _ _ h
@[simp] theorem State.laneOf_setLane (s : State) (l : Nat) (f : Lane → Lane) (h : l < 24) :
    (s.setLane l f).laneOf l = f (s.laneOf l) := vget_vmod_self _ _ _ _ h
theorem State.laneOf_setLane_ne (s : State) (l q : Nat) (f : Lane → Lane) (h : l ≠ q) :
    (s.setLane l f).laneOf q = s.laneOf q := vget_vmod_ne _ _ _ _ _ h
@[simp] theorem State.apllOf_setApll (s : State) (n : Nat) (f : Apll → Apll) (h : n < 4) :
    (s.setApll n f).apllOf n = f (s.apllOf n) := vget_vmod_self _ _ _ _ h
@[simp] theorem State.outOf_setOut (s : State) (o : Nat) (f : Output → Output) (h : o < 24) :
    (s.setOut o f).outOf o = f (s.outOf o) := vget_vmod_self _ _ _ _ h
@[simp] theorem State.portOf_setPort (s : State) (p : Nat) (f : TpePort → TpePort) (h : p < 24) :
    (s.setPort p f).portOf p = f (s.portOf p) := vget_vmod_self _ _ _ _ h
@[simp] theorem State.instOf_setInst (s : State) (i : Nat) (f : PtpInst → PtpInst) (h : i < 8) :
    (s.setInst i f).instOf i = f (s.instOf i) := vget_vmod_self _ _ _ _ h
@[simp] theorem State.clientOf_setClient (s : State) (c : Nat) (f : NtpClient → NtpClient) (h : c < 8) :
    (s.setClient c f).clientOf c = f (s.clientOf c) := vget_vmod_self _ _ _ _ h

/-! ### A fold over indices -/

/-- A property that every round of a fold keeps holds after the fold. -/
theorem forAll_keeps (P : State → Prop) (n : Nat) (f : Nat → State → State) (s : State)
    (hf : ∀ i t, P t → P (f i t)) (h : P s) : P (forAll n s f) := by
  unfold forAll
  generalize List.range n = l
  induction l generalizing s with
  | nil => exact h
  | cons i l ih => exact ih (f i s) (hf i s h)

/-- The same for any list. -/
theorem foldl_keeps {α : Type} (P : State → Prop) (l : List α) (f : State → α → State) (s : State)
    (hf : ∀ t x, P t → P (f t x)) (h : P s) : P (l.foldl f s) := by
  induction l generalizing s with
  | nil => exact h
  | cons i l ih => exact ih (f s i) (hf s i h)

/-! ### Interrupts and counters -/

/-- Raising an interrupt source touches the interrupt controller alone. -/
theorem raiseIrq_eq (n : Nat) (s : State) : raiseIrq n s = { s with intc := (raiseIrq n s).intc } := by
  unfold raiseIrq
  split <;> rfl

/-- A raised source keeps the mask, the mode and the vectors. -/
theorem raiseIrq_intc (n : Nat) (s : State) : (raiseIrq n s).intc.mask = s.intc.mask ∧
    (raiseIrq n s).intc.pin = s.intc.pin ∧ (raiseIrq n s).intc.map = s.intc.map := by
  unfold raiseIrq
  split <;> exact ⟨rfl, rfl, rfl⟩

/-- A source other than 4 sets its status bit. -/
theorem raiseIrq_status (n : Nat) (s : State) (h : n ≠ 4) :
    (raiseIrq n s).intc.status = s.intc.status ||| BitVec.ofNat 32 (2 ^ n) := by
  simp [raiseIrq, h]

/-- Counting touches the counters and, where OVF rises, the interrupt controller. -/
theorem pcuCount_eq (ev inst n : Nat) (s : State) :
    pcuCount ev inst n s = { s with pcu := (pcuCount ev inst n s).pcu, intc := (pcuCount ev inst n s).intc } := by
  unfold pcuCount
  dsimp only
  split
  · rw [raiseIrq_eq]
  · rfl

/-- Counting keeps the mask and the mode of the interrupt controller. -/
theorem pcuCount_intc (ev inst n : Nat) (s : State) : (pcuCount ev inst n s).intc.mask = s.intc.mask ∧
    (pcuCount ev inst n s).intc.pin = s.intc.pin := by
  unfold pcuCount
  dsimp only
  split
  · exact ⟨(raiseIrq_intc _ _).1, (raiseIrq_intc _ _).2.1⟩
  · exact ⟨rfl, rfl⟩

/-! ### What completions touch -/

/-- `t` differs from `s` in the mailboxes, the interrupt controller and the counters alone. -/
def ServiceOnly (s t : State) : Prop := t = { s with mbx := t.mbx, intc := t.intc, pcu := t.pcu }

theorem ServiceOnly.refl (s : State) : ServiceOnly s s := rfl

theorem ServiceOnly.trans {s t u : State} (h : ServiceOnly s t) (g : ServiceOnly t u) : ServiceOnly s u := by
  unfold ServiceOnly at *
  rw [g, h]

theorem ServiceOnly.cpx {s t : State} (h : ServiceOnly s t) : t.cpx = s.cpx := by rw [h]
theorem ServiceOnly.fco {s t : State} (h : ServiceOnly s t) : t.fco = s.fco := by rw [h]
theorem ServiceOnly.srt {s t : State} (h : ServiceOnly s t) : t.srt = s.srt := by rw [h]
theorem ServiceOnly.tcr {s t : State} (h : ServiceOnly s t) : t.tcr = s.tcr := by rw [h]
theorem ServiceOnly.clocked {s t : State} (h : ServiceOnly s t) : t.clocked = s.clocked := by
  unfold State.clocked; rw [h.cpx]

theorem raiseIrq_service (n : Nat) (s : State) : ServiceOnly s (raiseIrq n s) := by
  unfold ServiceOnly; rw [raiseIrq_eq]

theorem pcuCount_service (ev inst n : Nat) (s : State) : ServiceOnly s (pcuCount ev inst n s) := by
  unfold ServiceOnly; rw [pcuCount_eq]

theorem raiseCompletion_service (r : Nat) (s : State) : ServiceOnly s (raiseCompletion r s) := by
  unfold raiseCompletion
  split
  · exact raiseIrq_service _ _
  · exact .refl _

theorem setRing_service (s : State) (r : Nat) (f : Ring → Ring) : ServiceOnly s (s.setRing r f) := rfl

theorem withMbx_service (s : State) (m : Mbx) : ServiceOnly s { s with mbx := m } := rfl

theorem writeResult_service (j : Job) (out : List Byte) (s : State) : ServiceOnly s (writeResult j out s) := by
  unfold writeResult
  split <;> rfl

theorem putCompletion_service (j : Job) (r : Reply) (f : DoneFlags) (w : Bool) (s : State) :
    ServiceOnly s (putCompletion j r f w s) := rfl

theorem postNow_service (j : Job) (r : Reply) (f : DoneFlags) (s : State) : ServiceOnly s (postNow j r f s) := by
  unfold postNow
  extract_lets w s1 s2 s3
  have h1 : ServiceOnly s s1 := by
    unfold s1
    split
    · exact writeResult_service _ _ _
    · exact .refl _
  split
  · exact h1
  · have h2 : ServiceOnly s1 s2 := .trans (putCompletion_service _ _ _ _ _) (pcuCount_service _ _ _ _)
    have h3 : ServiceOnly s2 s3 := by
      unfold s3
      split
      · exact pcuCount_service _ _ _ _
      · exact .refl _
    exact .trans h1 (.trans h2 (.trans h3 (raiseCompletion_service _ _)))

/-- A completion touches the mailboxes, the interrupt controller and the counters, unless the configuration list runs. -/
theorem postCompletion_service (j : Job) (r : Reply) (f : DoneFlags) (s : State) (h : s.cpx.list = none) :
    ServiceOnly s (postCompletion j r f s) := by
  unfold postCompletion
  split
  · exact .refl _
  · rw [h]
    dsimp only
    split
    · exact postNow_service _ _ _ _
    · exact withMbx_service _ _

theorem dropFlight_service (f : Flight) (s : State) : ServiceOnly s (dropFlight f s) := rfl

theorem foldl_service {α : Type} (l : List α) (g : State → α → State) (s : State) (h : s.cpx.list = none)
    (hg : ∀ t x, t.cpx.list = none → ServiceOnly t (g t x)) : ServiceOnly s (l.foldl g s) := by
  induction l generalizing s with
  | nil => exact .refl _
  | cons x l ih =>
    have hx := hg s x h
    exact .trans hx (ih (g s x) (by rw [hx.cpx]; exact h))

theorem breakChain_service (f : Flight) (s : State) (h : s.cpx.list = none) : ServiceOnly s (breakChain f s) := by
  unfold breakChain
  split
  · exact .refl _
  · exact .trans (setRing_service s _ _) (foldl_service _ _ _ h fun t g ht =>
      .trans (dropFlight_service g t) (postCompletion_service _ _ _ _ ht))

theorem finish_service (f : Flight) (r : Reply) (s : State) (h : s.cpx.list = none) : ServiceOnly s (finish f r s) := by
  have h1 : ServiceOnly s (postCompletion f.job (lateReply f r) f.flags (dropFlight f s)) :=
    .trans (dropFlight_service f s) (postCompletion_service _ _ _ _ h)
  unfold finish
  dsimp only
  split
  · exact h1
  · exact .trans h1 (breakChain_service _ _ (by rw [h1.cpx]; exact h))

theorem postDue_service (s : State) (h : s.cpx.list = none) : ServiceOnly s (postDue s) :=
  .trans (withMbx_service s { s.mbx with due := [] }) (foldl_service _ _ _ h fun t _ _ => postNow_service _ _ _ t)

theorem finishHeld_service (p : Hold → Bool) (r : Flight → Reply) (s : State) (h : s.cpx.list = none) :
    ServiceOnly s (finishHeld p r s) :=
  foldl_service _ _ _ h fun t x ht => finish_service x (r x) t ht

theorem settle_service (s : State) (h : s.cpx.list = none) : ServiceOnly s (settle s) := by
  refine foldl_service _ _ _ h fun t f ht => ?_
  split
  · split
    · exact .refl _
    · exact finish_service _ _ _ ht
  · split
    · exact .refl _
    · exact finish_service _ _ _ ht
  · exact .refl _

theorem completeHeld_service (p : Hold → Bool) (r : Flight → Reply) (s : State) (h : s.cpx.list = none) :
    ServiceOnly s (completeHeld p r s) := by
  have h1 := finishHeld_service p r s h
  exact .trans h1 (settle_service _ (by rw [h1.cpx]; exact h))

end Sys2Proof.Machine
end

