-- ==== Sys2Proof/Laws/Jobs.lean ====
section
/-! SUPPORT. What taking up a job can do: the accepted job runs, the refused one leaves everything but the mailboxes. -/

namespace Sys2Proof.Machine

theorem chainStep_service (j : Job) (n : Nat) (b : Bool) (s : State) : ServiceOnly s (chainStep j n b s) := setRing_service _ _ _

theorem takenState_service (j : Job) (s : State) : ServiceOnly s (takenState j s) :=
  .trans (pcuCount_service _ _ _ _) (withMbx_service _ _)

theorem pcuCount_mbx (ev inst n : Nat) (s : State) : (pcuCount ev inst n s).mbx = s.mbx := by
  rw [pcuCount_eq]

/-- The parameter block of a job is found without touching the state, where the DMA finds its bytes. -/
theorem loadBlock_found (j : Job) (s : State)
    (h : (!j.dma || stagedBlocks s || decide (j.paramLen ≤ j.block.length)) = true) :
    loadBlock j s = ((loadBlock j s).1, s) ∧ (loadBlock j s).1.ring = j.ring ∧ (loadBlock j s).1.desc = j.desc := by
  simp only [Bool.or_eq_true, Bool.not_eq_true', decide_eq_true_eq] at h
  unfold loadBlock
  split
  · exact ⟨rfl, rfl, rfl⟩
  next hd =>
    split
    · exact ⟨rfl, rfl, rfl⟩
    next hs =>
      rw [if_pos]
      · exact ⟨rfl, rfl, rfl⟩
      · rcases h with (h | h) | h
        · simp [h] at hd
        · exact absurd h hs
        · exact h

theorem clocked_of_fwRuns (s : State) (h : s.fwRuns = true) : s.clocked = true := by
  unfold State.fwRuns at h
  unfold State.clocked
  split at h <;> simp_all

theorem clocked_of_takesJobs (s : State) (r : RingId) (h : takesJobs s r = true) : s.clocked = true := by
  unfold takesJobs at h
  simp only [Bool.and_eq_true] at h
  exact clocked_of_fwRuns s h.1.1.1.1

theorem takenState_mbx (j : Job) (s : State) :
    (takenState j s).mbx = { s.mbx with fetched := s.mbx.fetched + 1 } := by
  unfold takenState countFetch
  simp only [pcuCount_mbx]

theorem takenState_ring (j : Job) (s : State) (r : Nat) : (takenState j s).ring r = s.ring r := by
  unfold State.ring
  rw [takenState_mbx]

theorem takenState_fco (j : Job) (s : State) : (takenState j s).fco = s.fco := (takenState_service j s).fco

theorem tagInUse_taken (j : Job) (s : State) (k : Job) : tagInUse (takenState j s) k = tagInUse s k := by
  unfold tagInUse
  simp only [takenState_ring, takenState_mbx]

/-- The chain that an accepted job belongs to. -/
def takenChain (d : JobDef) (j : Job) (s : State) : Option Nat :=
  if (s.ring j.ring.val).inChain then some (s.ring j.ring.val).chainId
  else if (takenJob d j s).chain then some s.mbx.fetched else none

/-- The flight that an accepted job becomes. -/
def takenFlight (d : JobDef) (j : Job) (s : State) : Flight :=
  { job := takenJob d j s, code := BitVec.ofNat 16 (takenJob d j s).code, hold := .effect, order := s.mbx.fetched
    chain := takenChain d j s }

theorem ringBusy_taken (j k : Job) (m : Nat) (b : Bool) (s : State) (r : RingId) (n : Nat) :
    ringBusy (chainStep k m b (takenState j s)) r n = ringBusy s r n := by
  unfold ringBusy chainStep State.setRing
  rw [takenState_mbx]

/-- An accepted job runs at once, and the fences that this lets go complete. -/
theorem directJob_accepted (d : JobDef) (j : Job) (s : State) (h : accepted d j s = true) :
    directJob d j s = settle (runJob d (takenFlight d j s) (chainStep (takenJob d j s) s.mbx.fetched false (takenState j s))) := by
  unfold accepted at h
  simp only [Bool.and_eq_true] at h
  obtain ⟨⟨⟨⟨⟨⟨⟨⟨htk, hby⟩, _⟩, htag⟩, hchain⟩, hchk⟩, hfence⟩, hblock⟩, _⟩ := h
  obtain ⟨hload, hring, _⟩ := loadBlock_found (withCode d.code j) s hby
  have hj : (takenJob d j s).ring = j.ring := hring
  have hnone : firstFailure (takenState j s) (some d) (takenJob d j s) = none := by simpa using hchk
  have hb : ¬ ((jobSubsystem (takenJob d j s)).getD 0 ≠ 0 ∧
      vget (chainStep (takenJob d j s) s.mbx.fetched false (takenState j s)).fco.block ((jobSubsystem (takenJob d j s)).getD 0) .none
        = .asserted) := by
    rw [(chainStep_service _ _ _ _).fco, takenState_fco]
    simpa [or_iff_not_imp_left] using hblock
  have hstart : beginJob d true (takenJob d j s) s.mbx.fetched (takenChain d j s) (chainStep (takenJob d j s) s.mbx.fetched false (takenState j s)) =
      runJob d (takenFlight d j s) (chainStep (takenJob d j s) s.mbx.fetched false (takenState j s)) := by
    unfold beginJob
    rw [ringBusy_taken, hj, if_neg (by simpa [or_iff_not_imp_left] using hfence), if_neg hb]
    rfl
  have hcheck : checkJob (some d) true (takenJob d j s) s.mbx.fetched (takenState j s) =
      runJob d (takenFlight d j s) (chainStep (takenJob d j s) s.mbx.fetched false (takenState j s)) := by
    unfold checkJob
    rw [tagInUse_taken, if_neg (by simpa using htag), takenState_ring, hj, if_neg (by simpa [or_iff_not_imp_left] using hchain)]
    have hff : fetchFailure (takenState j s) (some d) (!true && behind (takenState j s) (takenJob d j s) s.mbx.fetched)
        (takenJob d j s) = none := by simp [fetchFailure, hnone]
    rw [hff]
    exact hstart
  unfold directJob takeUp
  rw [if_pos htk, hload]
  simp only [clocked_of_takesJobs s _ htk, Bool.not_true, Bool.false_eq_true, if_false]
  have : countFetch (takenJob d j s).ring s = takenState j s := by rw [hj]; rfl
  exact congrArg settle ((congrArg _ this).trans hcheck)

/-- The state that the effect of an accepted job starts from, beside the mailboxes, the interrupt controller and the
counters. -/
theorem effectState_start (d : JobDef) (j : Job) (s : State) :
    ServiceOnly (effectState d j s)
      (stopProof (proofBit (chainStep (takenJob d j s) s.mbx.fetched false (takenState j s)) (takenFlight d j s).job.code
        ((paramsOf d (takenFlight d j s).job).u 4 1)) (chainStep (takenJob d j s) s.mbx.fetched false (takenState j s))) := by
  have h : ServiceOnly s (chainStep (takenJob d j s) s.mbx.fetched false (takenState j s)) :=
    .trans (takenState_service j s) (chainStep_service _ _ _ _)
  generalize chainStep (takenJob d j s) s.mbx.fetched false (takenState j s) = t at h ⊢
  have hp : ∀ code i, proofBit t code i = proofBit s code i := by
    intro code i
    rw [h]
    rfl
  rw [hp]
  change ServiceOnly (stopProof (proofBit s (takenJob d j s).code ((jobParams d j s).u 4 1)) s)
    (stopProof (proofBit s (takenJob d j s).code ((jobParams d j s).u 4 1)) t)
  generalize proofBit s (takenJob d j s).code ((jobParams d j s).u 4 1) = b
  unfold stopProof
  rw [h.cpx]
  split
  · unfold ServiceOnly; rw [h]
  · exact h

/-- What an accepted job leads to, where its effect answers or says nothing. -/
theorem directJob_runs (d : JobDef) (j : Job) (s : State) (u : State)
    (h : accepted d j s = true)
    (hrun : ∀ e, ServiceOnly (effectState d j s) e →
      (d.run e (takenJob d j s) (jobParams d j s)).1.cpx.list = none ∧
      ServiceOnly u (d.run e (takenJob d j s) (jobParams d j s)).1 ∧
      ∀ w, (d.run e (takenJob d j s) (jobParams d j s)).2 ≠ .hold w) :
    ServiceOnly u (directJob d j s) := by
  rw [directJob_accepted d j s h]
  obtain ⟨hl, hs, hf⟩ := hrun _ (effectState_start d j s)
  refine hs.trans ?_
  generalize hr : d.run (stopProof (proofBit (chainStep (takenJob d j s) s.mbx.fetched false (takenState j s)) (takenFlight d j s).job.code
        ((paramsOf d (takenFlight d j s).job).u 4 1)) (chainStep (takenJob d j s) s.mbx.fetched false (takenState j s)))
        (takenJob d j s) (jobParams d j s) = x at hl hs hf ⊢
  have hrun' : ServiceOnly x.1 (runJob d (takenFlight d j s) (chainStep (takenJob d j s) s.mbx.fetched false (takenState j s))) := by
    unfold runJob
    change ServiceOnly x.1 (match d.run (stopProof (proofBit (chainStep (takenJob d j s) s.mbx.fetched false (takenState j s)) (takenFlight d j s).job.code
        ((paramsOf d (takenFlight d j s).job).u 4 1)) (chainStep (takenJob d j s) s.mbx.fetched false (takenState j s)))
        (takenJob d j s) (jobParams d j s) with
      | (s', .reply r) => _
      | (s', .hold h) => _
      | (s', .silent) => _)
    rw [hr]
    obtain ⟨t, f⟩ := x
    cases f with
    | reply r =>
      have hp := postCompletion_service (takenFlight d j s).job (lateReply (takenFlight d j s) r)
        (takenFlight d j s).flags t hl
      dsimp only
      split
      · exact hp
      · exact hp.trans (breakChain_service _ _ (by rw [hp.cpx]; exact hl))
    | hold w => exact absurd rfl (hf w)
    | silent => exact .refl _
  exact hrun'.trans (settle_service _ (by rw [hrun'.cpx]; exact hl))

/-- The configuration list does not run when a direct job is accepted. -/
theorem accepted_list (d : JobDef) (j : Job) (s : State) (h : accepted d j s = true) : s.cpx.list = none := by
  unfold accepted at h
  simp only [Bool.and_eq_true, Option.isNone_iff_eq_none] at h
  exact h.1.1.1.1.1.1.2

theorem effectState_cpx (d : JobDef) (j : Job) (s : State) :
    effectState d j s = { s with cpx := { s.cpx with proof := (effectState d j s).cpx.proof } } := by
  unfold effectState stopProof
  split <;> rfl

theorem effectState_list (d : JobDef) (j : Job) (s : State) (h : accepted d j s = true) (e : State)
    (he : ServiceOnly (effectState d j s) e) : e.cpx.list = none := by
  rw [he.cpx, effectState_cpx]
  exact accepted_list d j s h

theorem effectState_clocked (d : JobDef) (j : Job) (s : State) (h : accepted d j s = true) (e : State)
    (he : ServiceOnly (effectState d j s) e) : e.clocked = true := by
  rw [he.clocked, effectState_cpx]
  unfold accepted at h
  simp only [Bool.and_eq_true] at h
  exact clocked_of_takesJobs s _ h.1.1.1.1.1.1.1.1

theorem ServiceOnly.posting {s t : State} (h : ServiceOnly s t) : Machine.posting t = Machine.posting s := by
  unfold Machine.posting
  rw [h.cpx, h.tcr]

theorem effectState_posting (d : JobDef) (j : Job) (s : State) (h : accepted d j s = true) (e : State)
    (he : ServiceOnly (effectState d j s) e) : posting e = true := by
  rw [he.posting, effectState_cpx]
  unfold accepted at h
  simp only [Bool.and_eq_true] at h
  exact h.2

/-- An effect that says nothing of the mailboxes, the interrupt controller and the counters. -/
theorem serviceOnly_map (f : State → State)
    (hf : ∀ (s : State) m i q, f { s with mbx := m, intc := i, pcu := q } = { f s with mbx := m, intc := i, pcu := q })
    {s t : State} (h : ServiceOnly s t) : ServiceOnly (f s) (f t) := by
  have := hf s t.mbx t.intc t.pcu
  unfold ServiceOnly
  rw [show t = { s with mbx := t.mbx, intc := t.intc, pcu := t.pcu } from h, this]

/-! ### Flights -/

theorem raiseCompletion_mbx (n : Nat) (t : State) : (raiseCompletion n t).mbx = t.mbx := by
  unfold raiseCompletion
  split
  · rw [raiseIrq_eq]
  · rfl

/-- Beside the result buffer and the slot of the completion ring, a completion leaves memory. -/
theorem postNow_mbx (j : Job) (r : Reply) (f : DoneFlags) (s : State) (hn : (j.noCompletion && r.status == 0x00) = false) :
    (postNow j r f s).mbx =
      (putCompletion j r f (j.dma && !r.out.isEmpty) (if j.dma && !r.out.isEmpty then writeResult j r.out s else s)).mbx := by
  unfold postNow
  simp only [hn, Bool.false_eq_true, if_false]
  rw [raiseCompletion_mbx]
  split
  · rw [pcuCount_mbx, pcuCount_mbx]
  · rw [pcuCount_mbx]

theorem writeResult_flights (j : Job) (out : List Byte) (s : State) : (writeResult j out s).mbx.flights = s.mbx.flights := by
  unfold writeResult
  split <;> rfl

theorem postNow_flights (j : Job) (r : Reply) (f : DoneFlags) (s : State) :
    (postNow j r f s).mbx.flights = s.mbx.flights := by
  have h1 : (if (j.dma && !r.out.isEmpty) = true then writeResult j r.out s else s).mbx.flights = s.mbx.flights := by
    split
    · exact writeResult_flights _ _ _
    · rfl
  by_cases hn : (j.noCompletion && r.status == 0x00) = true
  · unfold postNow
    simp only [hn, if_true]
    exact h1
  · rw [postNow_mbx j r f s (by simpa using hn)]
    exact h1

/-- While firmware posts, a completion goes out at once. -/
theorem postCompletion_now (j : Job) (r : Reply) (f : DoneFlags) (s : State) (hc : s.clocked = true)
    (hl : s.cpx.list = none) (hp : posting s = true) : postCompletion j r f s = postNow j r f s := by
  unfold postCompletion
  rw [hl]
  simp [hc, hp]

theorem postCompletion_flights (j : Job) (r : Reply) (f : DoneFlags) (s : State) :
    (postCompletion j r f s).mbx.flights = s.mbx.flights := by
  unfold postCompletion
  split
  · rfl
  split
  · rfl
  · split
    · exact postNow_flights _ _ _ _
    · rfl

/-- A fence completes: no other flight goes. -/
theorem finish_flights (f g : Flight) (r : Reply) (s : State) (hs : succeeded r = true) (h : f.order ≠ g.order)
    (hg : g ∈ s.mbx.flights) : g ∈ (finish f r s).mbx.flights := by
  unfold finish
  dsimp only
  rw [if_pos hs, postCompletion_flights]
  unfold dropFlight
  simp only [List.mem_filter]
  exact ⟨hg, by simpa [bne_iff_ne] using fun e => h e.symm⟩

/-- The fences keep a flight that none of them shares its order with. -/
theorem settle_flights (g : Flight) (s : State) (hg : g ∈ s.mbx.flights)
    (h : ∀ f ∈ s.mbx.flights, f.hold = .ringFence ∨ f.hold = .worldFence → f.order ≠ g.order) :
    g ∈ (settle s).mbx.flights := by
  unfold settle
  generalize s.mbx.flights = l at h
  induction l generalizing s with
  | nil => exact hg
  | cons f l ih =>
    refine ih _ ?_ fun x hx => h x (List.mem_cons_of_mem _ hx)
    have hf := h f List.mem_cons_self
    dsimp only
    split
    next e =>
      split
      · exact hg
      · exact finish_flights _ _ _ _ rfl (hf (.inl e)) hg
    next e =>
      split
      · exact hg
      · exact finish_flights _ _ _ _ rfl (hf (.inr e)) hg
    · exact hg

/-- The flight of an accepted job whose effect waits, given the state that the effect has led to. -/
def heldFlight (d : JobDef) (j : Job) (s : State) (w : Hold) (t : State) : Flight :=
  { takenFlight d j s with
    hold := w, took := if w.acted then some (t.tcr.seq.imp, t.tcr.seq.second) else (takenFlight d j s).took }

/-- An accepted job whose effect waits stays in flight. -/
theorem directJob_waits (d : JobDef) (j : Job) (s : State) (u : State) (w : Hold) (hi : Inv s)
    (h : accepted d j s = true) (hw : w ≠ .ringFence ∧ w ≠ .worldFence)
    (hrun : ∀ e, ServiceOnly (effectState d j s) e →
      (d.run e (takenJob d j s) (jobParams d j s)).1.cpx.list = none ∧
      (d.run e (takenJob d j s) (jobParams d j s)).1.clocked = true ∧
      (d.run e (takenJob d j s) (jobParams d j s)).1.mbx = e.mbx ∧
      ServiceOnly u (d.run e (takenJob d j s) (jobParams d j s)).1 ∧
      (d.run e (takenJob d j s) (jobParams d j s)).2 = .hold w) :
    ServiceOnly u (directJob d j s) ∧
      ∃ f ∈ (directJob d j s).mbx.flights, f.job = takenJob d j s ∧ f.hold = w := by
  rw [directJob_accepted d j s h]
  have hstart := effectState_start d j s
  have hmbx : (stopProof (proofBit (chainStep (takenJob d j s) s.mbx.fetched false (takenState j s)) (takenFlight d j s).job.code
        ((paramsOf d (takenFlight d j s).job).u 4 1)) (chainStep (takenJob d j s) s.mbx.fetched false (takenState j s))).mbx.flights
      = s.mbx.flights := by
    have : ∀ b t, (stopProof b t).mbx = t.mbx := by
      intro b t
      unfold stopProof
      split <;> rfl
    rw [this]
    unfold chainStep State.setRing
    rw [takenState_mbx]
  obtain ⟨hl, hc, hm, hs, hf⟩ := hrun _ hstart
  generalize hr : d.run (stopProof (proofBit (chainStep (takenJob d j s) s.mbx.fetched false (takenState j s)) (takenFlight d j s).job.code
        ((paramsOf d (takenFlight d j s).job).u 4 1)) (chainStep (takenJob d j s) s.mbx.fetched false (takenState j s)))
        (takenJob d j s) (jobParams d j s) = x at hl hc hm hs hf
  have hrun' : runJob d (takenFlight d j s) (chainStep (takenJob d j s) s.mbx.fetched false (takenState j s)) =
      { x.1 with mbx := { x.1.mbx with flights := x.1.mbx.flights ++ [heldFlight d j s w x.1] } } := by
    unfold runJob
    change (match d.run (stopProof (proofBit (chainStep (takenJob d j s) s.mbx.fetched false (takenState j s)) (takenFlight d j s).job.code
        ((paramsOf d (takenFlight d j s).job).u 4 1)) (chainStep (takenJob d j s) s.mbx.fetched false (takenState j s)))
        (takenJob d j s) (jobParams d j s) with
      | (s', .reply r) => _
      | (s', .hold h) => _
      | (s', .silent) => _) = _
    rw [hr]
    obtain ⟨t, f⟩ := x
    dsimp only at hf hc
    subst hf
    dsimp only
    rw [if_neg (by simp [hc])]
    rfl
  rw [hrun']
  refine ⟨hs.trans (.trans (withMbx_service _ _) (settle_service _ hl)), heldFlight d j s w x.1, ?_, rfl, rfl⟩
  refine settle_flights _ _ (by simp) ?_
  intro f hf' hfe
  simp only [List.mem_append, List.mem_singleton] at hf'
  rcases hf' with hf' | hf'
  · rw [hm, hmbx] at hf'
    exact Nat.ne_of_lt (hi.order f hf')
  · subst hf'
    rcases hfe with e | e
    · exact absurd e hw.1
    · exact absurd e hw.2

/-! ### Answers -/

theorem postCompletion_mbx (j : Job) (r : Reply) (f : DoneFlags) (s : State) (hc : s.clocked = true)
    (hl : s.cpx.list = none) (hp : posting s = true) (hn : (j.noCompletion && r.status == 0x00) = false) :
    (postCompletion j r f s).mbx =
      (putCompletion j r f (j.dma && !r.out.isEmpty) (if j.dma && !r.out.isEmpty then writeResult j r.out s else s)).mbx := by
  rw [postCompletion_now j r f s hc hl hp, postNow_mbx j r f s hn]

theorem completionBytes_length (s : State) (j : Job) (r : Reply) (f : DoneFlags) (w : Bool) :
    (completionBytes s j r f w).length = 32 := by
  simp [completionBytes, leBytes]

/-- A run of bytes inside a longer one. -/
theorem Memory.readBytes_drop : ∀ (k : Nat) (m : List Host.Cell) (x n : Nat), k ≤ n →
    Memory.readBytes m (x + k) (n - k) = (Memory.readBytes m x n).drop k
  | 0, _, _, _, _ => rfl
  | k + 1, m, x, n + 1, h => by
    have := Memory.readBytes_drop k m (x + 1) n (by omega)
    simp only [Memory.readBytes, List.drop_succ_cons]
    rw [← this]
    congr 1 <;> omega

theorem Memory.readBytes_take : ∀ (k : Nat) (m : List Host.Cell) (x n : Nat), k ≤ n →
    Memory.readBytes m x k = (Memory.readBytes m x n).take k
  | 0, _, _, _, _ => rfl
  | k + 1, m, x, n + 1, h => by
    simp only [Memory.readBytes, List.take_succ_cons]
    rw [Memory.readBytes_take k m (x + 1) n (by omega)]

theorem Memory.readBytes_slice (m : List Host.Cell) (x n a k : Nat) (h : a + k ≤ n) :
    Memory.readBytes m (x + a) k = ((Memory.readBytes m x n).drop a).take k := by
  rw [Memory.readBytes_take k m (x + a) (n - a) (by omega), Memory.readBytes_drop a m x n (by omega)]

theorem leNat_leBytes : ∀ (n v : Nat), leNat (leBytes n v) = v % 256 ^ n
  | 0, v => by simp [leBytes, leNat, Nat.mod_one]
  | n + 1, v => by
    rw [leBytes, leNat, leNat_leBytes n, BitVec.toNat_ofNat, show 256 ^ (n + 1) = 256 * 256 ^ n by ring, Nat.mod_mul]

theorem word_leNat_leBytes (w : Word) : word (leNat (leBytes 4 w.toNat)) = w := by
  rw [leNat_leBytes, Nat.mod_eq_of_lt (lt_of_lt_of_le w.isLt (by norm_num))]
  simp [word]

theorem wf_writeResult (j : Job) (out : List Byte) (s : State) (h : Memory.wf s.mbx.mem = true) :
    Memory.wf (writeResult j out s).mbx.mem = true := by
  unfold writeResult
  split
  · exact Memory.wf_writeBytes _ _ _ h
  · exact h

theorem writeResult_rings (j : Job) (out : List Byte) (s : State) : (writeResult j out s).mbx.rings = s.mbx.rings := by
  unfold writeResult
  split <;> rfl

/-- A completion is read back from its slot. -/
theorem putCompletion_answer (j : Job) (r : Reply) (f : DoneFlags) (w : Bool) (s : State) (h : Memory.wf s.mbx.mem = true) :
    ((putCompletion j r f w s).ring j.ring.val).ctail = (s.ring j.ring.val).ctail + 1 ∧
      resultsAt (putCompletion j r f w s) j.ring (s.ring j.ring.val).ctail = [r.r0, r.r1, r.r2, r.r3] := by
  constructor
  · unfold putCompletion
    rw [State.ring_setRing _ _ _ j.ring.isLt]
    rfl
  · have hm : (putCompletion j r f w s).mbx.mem = Memory.writeBytes s.mbx.mem
        (ccBase j.ring + ((s.ring j.ring.val).ctail.toNat % 256) * 32) (completionBytes s j r f w) := rfl
    unfold resultsAt
    rw [hm]
    generalize ccBase j.ring + ((s.ring j.ring.val).ctail.toNat % 256) * 32 = x
    have hb := Memory.readBytes_writeBytes (completionBytes s j r f w) s.mbx.mem x h
    rw [completionBytes_length] at hb
    have hr : List.range 4 = [0, 1, 2, 3] := rfl
    have hs : ∀ a, a + 4 ≤ 32 → Memory.readBytes (Memory.writeBytes s.mbx.mem x (completionBytes s j r f w)) (x + a) 4 =
        ((completionBytes s j r f w).drop a).take 4 := by
      intro a ha
      rw [Memory.readBytes_slice _ x 32 a 4 ha, hb]
    simp only [hr, List.map_cons, List.map_nil, Nat.add_assoc]
    rw [hs (16 + 4 * 0) (by omega), hs (16 + 4 * 1) (by omega), hs (16 + 4 * 2) (by omega), hs (16 + 4 * 3) (by omega)]
    have h0 : ((completionBytes s j r f w).drop (16 + 4 * 0)).take 4 = leBytes 4 r.r0.toNat := rfl
    have h1 : ((completionBytes s j r f w).drop (16 + 4 * 1)).take 4 = leBytes 4 r.r1.toNat := rfl
    have h2 : ((completionBytes s j r f w).drop (16 + 4 * 2)).take 4 = leBytes 4 r.r2.toNat := rfl
    have h3 : ((completionBytes s j r f w).drop (16 + 4 * 3)).take 4 = leBytes 4 r.r3.toNat := rfl
    rw [h0, h1, h2, h3]
    simp only [word_leNat_leBytes]

theorem postCompletion_answer (j : Job) (r : Reply) (f : DoneFlags) (s : State) (hc : s.clocked = true)
    (hl : s.cpx.list = none) (hp : posting s = true) (hn : (j.noCompletion && r.status == 0x00) = false) (h : Memory.wf s.mbx.mem = true) :
    ((postCompletion j r f s).ring j.ring.val).ctail = (s.ring j.ring.val).ctail + 1 ∧
      resultsAt (postCompletion j r f s) j.ring (s.ring j.ring.val).ctail = [r.r0, r.r1, r.r2, r.r3] := by
  have hm := postCompletion_mbx j r f s hc hl hp hn
  unfold State.ring resultsAt
  rw [hm]
  generalize hs' : (if j.dma && !r.out.isEmpty then writeResult j r.out s else s) = s'
  have hw : Memory.wf s'.mbx.mem = true := by
    rw [← hs']
    split
    · exact wf_writeResult _ _ _ h
    · exact h
  have hrg : s.mbx.rings = s'.mbx.rings := by
    rw [← hs']
    split
    · exact (writeResult_rings _ _ _).symm
    · rfl
  have := putCompletion_answer j r f (j.dma && !r.out.isEmpty) s' hw
  unfold State.ring resultsAt at this
  rw [hrg]
  exact this

/-- Where no fence waits, none completes. -/
theorem settle_noFences (s : State) (h : noFences s = true) : settle s = s := by
  unfold noFences at h
  unfold settle
  rw [List.all_eq_true] at h
  revert h
  suffices hs : ∀ l : List Flight, (∀ x ∈ l, (x.hold != Hold.ringFence && x.hold != Hold.worldFence) = true) →
      ∀ g : State → Flight → State, (∀ t f, f.hold ≠ .ringFence → f.hold ≠ .worldFence → g t f = t) → l.foldl g s = s by
    intro h
    refine hs _ h _ fun t f h1 h2 => ?_
    split
    next e => exact absurd e h1
    next e => exact absurd e h2
    · rfl
  intro l h g hg
  induction l with
  | nil => rfl
  | cons f l ih =>
    have hf := h f List.mem_cons_self
    simp only [Bool.and_eq_true, bne_iff_ne, ne_eq] at hf
    rw [List.foldl_cons, hg s f hf.1 hf.2]
    exact ih fun x hx => h x (List.mem_cons_of_mem _ hx)

/-! ### The frame of a completion -/

/-- An effect leaves the mailboxes and the settings of interrupts and counters. -/
structure ServiceSame (e x : State) : Prop where
  mbx    : x.mbx = e.mbx
  straps : x.srt.straps = e.srt.straps
  intc   : x.intc.mask = e.intc.mask ∧ x.intc.pin = e.intc.pin ∧ x.intc.map = e.intc.map
  pcu    : x.pcu.latch = e.pcu.latch ∧ ∀ n : Fin 64, x.pcu.ctr[n].event = e.pcu.ctr[n].event ∧
    x.pcu.ctr[n].inst = e.pcu.ctr[n].inst ∧ x.pcu.ctr[n].userRead = e.pcu.ctr[n].userRead

theorem ServiceSame.refl (e : State) : ServiceSame e e := ⟨rfl, rfl, ⟨rfl, rfl, rfl⟩, rfl, fun _ => ⟨rfl, rfl, rfl⟩⟩

theorem ServiceSame.trans {e x y : State} (h : ServiceSame e x) (g : ServiceSame x y) : ServiceSame e y :=
  ⟨g.mbx.trans h.mbx, g.straps.trans h.straps,
    ⟨g.intc.1.trans h.intc.1, g.intc.2.1.trans h.intc.2.1, g.intc.2.2.trans h.intc.2.2⟩,
    g.pcu.1.trans h.pcu.1, fun n => ⟨(g.pcu.2 n).1.trans (h.pcu.2 n).1, (g.pcu.2 n).2.1.trans (h.pcu.2 n).2.1,
      (g.pcu.2 n).2.2.trans (h.pcu.2 n).2.2⟩⟩

theorem raiseIrq_same (n : Nat) (s : State) : ServiceSame s (raiseIrq n s) := by
  rw [raiseIrq_eq]
  exact ⟨rfl, rfl, raiseIrq_intc n s, rfl, fun _ => ⟨rfl, rfl, rfl⟩⟩

theorem pcuCount_same (ev inst n : Nat) (s : State) : ServiceSame s (pcuCount ev inst n s) := by
  have hc : ∀ (hit : Ctr → Bool) (v : Vector Ctr 64) (k : Fin 64),
      (v.map fun c => if hit c then ctrAdd c n else c)[k].event = v[k].event ∧
      (v.map fun c => if hit c then ctrAdd c n else c)[k].inst = v[k].inst ∧
      (v.map fun c => if hit c then ctrAdd c n else c)[k].userRead = v[k].userRead := by
    intro hit v k
    simp only [Fin.getElem_fin, Vector.getElem_map]
    split <;> exact ⟨rfl, rfl, rfl⟩
  have h1 : ∀ v : Vector Ctr 64, (∀ k : Fin 64, v[k].event = s.pcu.ctr[k].event ∧ v[k].inst = s.pcu.ctr[k].inst ∧
      v[k].userRead = s.pcu.ctr[k].userRead) → ServiceSame s { s with pcu := { s.pcu with ctr := v } } :=
    fun v hv => ⟨rfl, rfl, ⟨rfl, rfl, rfl⟩, rfl, hv⟩
  unfold pcuCount
  dsimp only
  split
  · exact (h1 _ (hc _ _)).trans (raiseIrq_same _ _)
  · exact h1 _ (hc _ _)

theorem raiseCompletion_same (r : Nat) (s : State) : ServiceSame s (raiseCompletion r s) := by
  unfold raiseCompletion
  split
  · exact raiseIrq_same _ _
  · exact .refl _

/-- Frames compose where the slot and the buffer are the same. -/
theorem ServiceFrame.trans_same {j : Job} {w : Bool} {s t u : State} (h : ServiceFrame j w s t) (g : ServiceSame t u) :
    ServiceFrame j w s u := by
  have hr : ∀ q, u.ring q = t.ring q := fun q => by unfold State.ring; rw [g.mbx]
  exact {
    bytes := fun a h1 h2 => by rw [g.mbx]; exact h.bytes a h1 h2
    others := fun q hq => by rw [hr]; exact h.others q hq
    own := by rw [hr]; exact h.own
    flights := by rw [g.mbx]; exact h.flights
    due := by rw [g.mbx]; exact h.due
    global := by rw [g.mbx]; exact h.global
    intc := ⟨g.intc.1.trans h.intc.1, g.intc.2.1.trans h.intc.2.1, g.intc.2.2.trans h.intc.2.2⟩
    pcu := ⟨g.pcu.1.trans h.pcu.1, fun n => ⟨(g.pcu.2 n).1.trans (h.pcu.2 n).1, (g.pcu.2 n).2.1.trans (h.pcu.2 n).2.1,
      (g.pcu.2 n).2.2.trans (h.pcu.2 n).2.2⟩⟩ }

theorem ServiceFrame.refl (j : Job) (w : Bool) (s : State) : ServiceFrame j w s s :=
  ⟨fun _ _ _ => rfl, fun _ _ => rfl, rfl, rfl, rfl, ⟨rfl, rfl, rfl⟩, ⟨rfl, rfl, rfl⟩, rfl, fun _ => ⟨rfl, rfl, rfl⟩⟩

/-- The frame of a completion. -/
theorem postNow_frame (j : Job) (r : Reply) (f : DoneFlags) (w : Bool) (s : State)
    (hw : r.out = [] ∨ (j.dma = true → w = true ∧ r.out.length ≤ j.resultLen)) : ServiceFrame j w s (postNow j r f s) := by
  unfold postNow
  extract_lets b s1 s2 s3
  have h1 : ServiceFrame j w s s1 := by
    unfold s1 b
    split
    next hb =>
      simp only [Bool.and_eq_true, Bool.not_eq_true', List.isEmpty_eq_false_iff] at hb
      obtain ⟨hw1, hw2⟩ := hw.resolve_left hb.2 hb.1
      unfold writeResult
      split
      next hspi =>
        refine { ServiceFrame.refl j w s with bytes := fun a _ h2 => ?_ }
        refine Memory.read_writeBytes_ne _ _ _ _ ?_
        simp only [hw1, inResult, hb.1, hspi, Bool.true_and, Bool.and_eq_false_imp, decide_eq_true_eq, decide_eq_false_iff_not] at h2
        by_contra hn
        exact h2 (by omega) (by omega)
      · exact { ServiceFrame.refl j w s with bytes := fun _ _ _ => rfl }
    · exact .refl _ _ _
  have hring1 : s1.mbx.rings = s.mbx.rings := by
    unfold s1
    split
    · exact writeResult_rings _ _ _
    · rfl
  split
  · exact h1
  · have hp : ServiceFrame j w s (putCompletion j r f b s1) := by
      have hslot : ccBase j.ring + ((s1.ring j.ring.val).ctail.toNat % 256) * 32 =
          ccBase j.ring + ((s.ring j.ring.val).ctail.toNat % 256) * 32 := by unfold State.ring; rw [hring1]
      exact {
        bytes := fun a ha hb => by
          have hm : (putCompletion j r f b s1).mbx.mem = Memory.writeBytes s1.mbx.mem
            (ccBase j.ring + ((s1.ring j.ring.val).ctail.toNat % 256) * 32) (completionBytes s1 j r f b) := rfl
          rw [hm, hslot, Memory.read_writeBytes_ne]
          · exact h1.bytes a ha hb
          · rw [completionBytes_length]
            unfold inSlot at ha
            simp only [Bool.and_eq_false_imp, decide_eq_true_eq, decide_eq_false_iff_not] at ha
            by_contra hn
            exact ha (by omega) (by omega)
        others := fun q hq => by
          unfold putCompletion
          rw [State.ring_setRing_ne _ _ _ _ (fun e => hq (Fin.ext e.symm))]
          exact h1.others q hq
        own := by
          unfold putCompletion
          simp only [State.ring_setRing _ _ _ j.ring.isLt]
          have := h1.own
          unfold State.ring at this ⊢
          rw [hring1]
        flights := h1.flights
        due := h1.due
        global := h1.global
        intc := h1.intc
        pcu := h1.pcu }
    have h2 : ServiceFrame j w s s2 := hp.trans_same (pcuCount_same _ _ _ _)
    have h3 : ServiceFrame j w s s3 := by
      unfold s3
      split
      · exact h2.trans_same (pcuCount_same _ _ _ _)
      · exact h2
    exact h3.trans_same (raiseCompletion_same _ _)

theorem postCompletion_frame (j : Job) (r : Reply) (f : DoneFlags) (w : Bool) (s : State) (hc : s.clocked = true)
    (hl : s.cpx.list = none) (hp : posting s = true)
    (hw : r.out = [] ∨ (j.dma = true → w = true ∧ r.out.length ≤ j.resultLen)) : ServiceFrame j w s (postCompletion j r f s) := by
  rw [postCompletion_now j r f s hc hl hp]
  exact postNow_frame j r f w s hw

theorem effectState_srt (d : JobDef) (j : Job) (s : State) : (effectState d j s).srt = s.srt := by
  rw [effectState_cpx]

/-- What the engine has done of an accepted job when its effect begins. -/
theorem start_frame (d : JobDef) (j : Job) (s : State) (h : accepted d j s = true) :
    ∃ e, runJob d (takenFlight d j s) (chainStep (takenJob d j s) s.mbx.fetched false (takenState j s)) =
        (match d.run e (takenJob d j s) (jobParams d j s) with
          | (s', .reply r) =>
            let s' := postCompletion (takenJob d j s) r (takenFlight d j s).flags s'
            if succeeded r then s' else breakChain (takenFlight d j s) s'
          | (s', .hold h) =>
            if !s'.clocked then s' else { s' with mbx := { s'.mbx with flights := s'.mbx.flights ++ [heldFlight d j s h s'] } }
          | (s', .silent) => s') ∧
      ServiceOnly (effectState d j s) e ∧ e.mbx.flights = s.mbx.flights ∧ e.mbx.mem = s.mbx.mem ∧
      (∀ q : RingId, (e.ring q.val).ctail = (s.ring q.val).ctail) ∧ (takenJob d j s).ring = j.ring ∧
      ∀ w, ServiceFrame (takenJob d j s) w s e := by
  have hj : (takenJob d j s).ring = j.ring := by
    unfold accepted at h
    simp only [Bool.and_eq_true] at h
    exact (loadBlock_found (withCode d.code j) s h.1.1.1.1.1.1.1.2).2.1
  have hp : ∀ b t, ServiceSame t (stopProof b t) := by
    intro b t
    unfold stopProof
    split
    · exact ⟨rfl, rfl, ⟨rfl, rfl, rfl⟩, rfl, fun _ => ⟨rfl, rfl, rfl⟩⟩
    · exact .refl _
  have ht : ∀ w, ServiceFrame (takenJob d j s) w s (takenState j s) := by
    intro w
    have hf : ServiceFrame (takenJob d j s) w s { s with mbx := { s.mbx with fetched := s.mbx.fetched + 1 } } :=
      { ServiceFrame.refl (takenJob d j s) w s with bytes := fun _ _ _ => rfl }
    have hs : ServiceSame { s with mbx := { s.mbx with fetched := s.mbx.fetched + 1 } } (takenState j s) := by
      have hc := pcuCount_same 0x010D j.ring.val 1 s
      exact ⟨takenState_mbx j s, hc.straps, hc.intc, hc.pcu⟩
    exact hf.trans_same hs
  have hcs : ∀ w, ServiceFrame (takenJob d j s) w s (chainStep (takenJob d j s) s.mbx.fetched false (takenState j s)) := by
    intro w
    have h1 := ht w
    unfold chainStep
    exact { h1 with
      others := fun q hq => by
        rw [State.ring_setRing_ne _ _ _ _ (fun e => hq (Fin.ext e.symm))]
        exact h1.others q hq
      own := by
        rw [State.ring_setRing _ _ _ (takenJob d j s).ring.isLt, takenState_ring] }
  have hmbx : ∀ b t, (stopProof b t).mbx = t.mbx := fun b t => (hp b t).mbx
  refine ⟨_, rfl, effectState_start d j s, ?_, ?_, ?_, hj, fun w => (hcs w).trans_same (hp _ _)⟩
  · rw [hmbx]; exact (hcs false).flights
  · rw [hmbx]
    unfold chainStep State.setRing
    rw [takenState_mbx]
  · intro q
    unfold State.ring
    rw [hmbx]
    change ((chainStep (takenJob d j s) s.mbx.fetched false (takenState j s)).ring q.val).ctail = (s.ring q.val).ctail
    by_cases hq : q = (takenJob d j s).ring
    · unfold chainStep
      rw [hq, State.ring_setRing _ _ _ (takenJob d j s).ring.isLt, takenState_ring]
    · rw [(hcs false).others q hq]

/-! ### Acts, Waits, Answers -/

/-- The byte of a completion that holds STATUS. -/
theorem putCompletion_status (j : Job) (r : Reply) (f : DoneFlags) (w : Bool) (s : State) (h : Memory.wf s.mbx.mem = true) :
    statusAt (putCompletion j r f w s) j.ring (s.ring j.ring.val).ctail = BitVec.ofNat 8 r.status := by
  have hm : (putCompletion j r f w s).mbx.mem = Memory.writeBytes s.mbx.mem
      (ccBase j.ring + ((s.ring j.ring.val).ctail.toNat % 256) * 32) (completionBytes s j r f w) := rfl
  unfold statusAt
  rw [hm]
  generalize ccBase j.ring + ((s.ring j.ring.val).ctail.toNat % 256) * 32 = x
  have hb := Memory.readBytes_writeBytes (completionBytes s j r f w) s.mbx.mem x h
  rw [completionBytes_length] at hb
  have h1 := Memory.readBytes_slice (Memory.writeBytes s.mbx.mem x (completionBytes s j r f w)) x 32 4 1 (by omega)
  rw [hb] at h1
  have h2 : ((completionBytes s j r f w).drop 4).take 1 = [BitVec.ofNat 8 r.status] := rfl
  rw [h2] at h1
  exact List.head_eq_of_cons_eq h1

theorem postCompletion_status (j : Job) (r : Reply) (f : DoneFlags) (s : State) (hc : s.clocked = true)
    (hl : s.cpx.list = none) (hp : posting s = true) (hn : (j.noCompletion && r.status == 0x00) = false) (h : Memory.wf s.mbx.mem = true) :
    statusAt (postCompletion j r f s) j.ring (s.ring j.ring.val).ctail = BitVec.ofNat 8 r.status := by
  have hm := postCompletion_mbx j r f s hc hl hp hn
  unfold State.ring statusAt
  rw [hm]
  generalize hs' : (if j.dma && !r.out.isEmpty then writeResult j r.out s else s) = s'
  have hw : Memory.wf s'.mbx.mem = true := by
    rw [← hs']
    split
    · exact wf_writeResult _ _ _ h
    · exact h
  have hrg : s.mbx.rings = s'.mbx.rings := by
    rw [← hs']
    split
    · exact (writeResult_rings _ _ _).symm
    · rfl
  have := putCompletion_status j r f (j.dma && !r.out.isEmpty) s' hw
  unfold State.ring statusAt at this
  rw [hrg]
  exact this

/-- What the effect of a job must show for its row to act as stated: no list runs, the state beside the services is `u`,
the services are left, and the job completes well. -/
structure RunsTo (u x : State) (e : State) : Prop where
  list  : x.cpx.list = none
  clock : x.clocked = true
  post  : posting x = true
  acts  : ServiceOnly u x
  same  : ServiceSame e x

/-- An accepted job that replies. -/
theorem directJob_reply (d : JobDef) (j : Job) (s u : State) (w : Bool) (h : accepted d j s = true)
    (hrun : ∀ e, ServiceOnly (effectState d j s) e → ∃ x r, d.run e (takenJob d j s) (jobParams d j s) = (x, .reply r) ∧
      RunsTo u x e ∧ (succeeded r = true) ∧ (r.out = [] ∨ ((takenJob d j s).dma = true → w = true ∧ r.out.length ≤ (takenJob d j s).resultLen))) :
    ServiceOnly u (directJob d j s) ∧ (noFences s = true → ServiceFrame (takenJob d j s) w s (directJob d j s)) := by
  rw [directJob_accepted d j s h]
  obtain ⟨e, he, hs, hfl, hmem, hct, hj, hfr⟩ := start_frame d j s h
  obtain ⟨x, r, hr, hx, hok, hout⟩ := hrun e hs
  rw [he, hr]
  dsimp only
  rw [if_pos hok]
  have hp := postCompletion_service (takenJob d j s) r (takenFlight d j s).flags x hx.list
  refine ⟨hx.acts.trans (hp.trans (settle_service _ (by rw [hp.cpx]; exact hx.list))), fun hn => ?_⟩
  have hfl' : noFences (postCompletion (takenJob d j s) r (takenFlight d j s).flags x) = true := by
    unfold noFences
    rw [postCompletion_flights, hx.same.mbx, hfl]
    exact hn
  rw [settle_noFences _ hfl']
  have h1 := (hfr w).trans_same hx.same
  have h2 := postCompletion_frame (takenJob d j s) r (takenFlight d j s).flags w x hx.clock hx.list hx.post hout
  have hrx : ∀ q, x.ring q = e.ring q := fun q => by unfold State.ring; rw [hx.same.mbx]
  have hstr : x.srt.straps = s.srt.straps := by
    rw [hx.same.straps, hs.srt, effectState_srt]
  exact {
    bytes := fun a ha hb => by
      rw [h2.bytes a, h1.bytes a ha hb]
      · unfold inSlot at ha ⊢
        rw [hrx, hj, hct]
        rw [hj] at ha
        exact ha
      · unfold inResult at hb ⊢
        rw [hstr]
        exact hb
    others := fun q hq => (h2.others q hq).trans (h1.others q hq)
    own := by
      have a1 := h1.own
      have a2 := h2.own
      rw [a2, a1]
    flights := h2.flights.trans h1.flights
    due := h2.due.trans h1.due
    global := ⟨h2.global.1.trans h1.global.1, h2.global.2.1.trans h1.global.2.1, h2.global.2.2.trans h1.global.2.2⟩
    intc := ⟨h2.intc.1.trans h1.intc.1, h2.intc.2.1.trans h1.intc.2.1, h2.intc.2.2.trans h1.intc.2.2⟩
    pcu := ⟨h2.pcu.1.trans h1.pcu.1, fun n => ⟨(h2.pcu.2 n).1.trans (h1.pcu.2 n).1,
      (h2.pcu.2 n).2.1.trans (h1.pcu.2 n).2.1, (h2.pcu.2 n).2.2.trans (h1.pcu.2 n).2.2⟩⟩ }

/-- Its completion. -/
theorem directJob_completion (d : JobDef) (j : Job) (s : State) (h : accepted d j s = true) (hi : Inv s)
    (hn : (takenJob d j s).noCompletion = false) (hf : noFences s = true) (P : State → Reply → Prop)
    (hrun : ∀ e, ServiceOnly (effectState d j s) e → ∃ x r, d.run e (takenJob d j s) (jobParams d j s) = (x, .reply r) ∧
      x.cpx.list = none ∧ ServiceSame e x ∧ x.clocked = true ∧ posting x = true ∧ succeeded r = true ∧ P x r) :
    ∃ x r, P x r ∧
      ((directJob d j s).ring j.ring.val).ctail = (s.ring j.ring.val).ctail + 1 ∧
      statusAt (directJob d j s) j.ring (s.ring j.ring.val).ctail = BitVec.ofNat 8 r.status ∧
      resultsAt (directJob d j s) j.ring (s.ring j.ring.val).ctail = [r.r0, r.r1, r.r2, r.r3] := by
  rw [directJob_accepted d j s h]
  obtain ⟨e, he, hs, hfl, hmem, hct, hj, _⟩ := start_frame d j s h
  obtain ⟨x, r, hr, hl, hsame, hc, hpost, hok, hP⟩ := hrun e hs
  refine ⟨x, r, hP, ?_⟩
  rw [he, hr]
  dsimp only
  rw [if_pos hok]
  have hfl' : noFences (postCompletion (takenJob d j s) r (takenFlight d j s).flags x) = true := by
    unfold noFences
    rw [postCompletion_flights, hsame.mbx, hfl]
    exact hf
  rw [settle_noFences _ hfl']
  have hwf : Memory.wf x.mbx.mem = true := by rw [hsame.mbx, hmem]; exact hi.mem
  have hctx : (x.ring j.ring.val).ctail = (s.ring j.ring.val).ctail := by
    rw [← hct]
    unfold State.ring
    rw [hsame.mbx]
  have h1 := postCompletion_answer (takenJob d j s) r (takenFlight d j s).flags x hc hl hpost (by simp [hn]) hwf
  have h2 := postCompletion_status (takenJob d j s) r (takenFlight d j s).flags x hc hl hpost (by simp [hn]) hwf
  rw [hj, hctx] at h1 h2
  exact ⟨h1.1, h2, h1.2⟩

/-- A row acts as its job's effect does. -/
theorem acts_of_run (c : Job → Instr) (d : JobDef) (sel : Job → Job) (h : Params → State → Prop) (u : Params → State → State)
    (hc : ∀ j s, exec (c j) s = .next (directJob d (sel j) s))
    (hring : ∀ j, (sel j).ring = j.ring)
    (hrun : ∀ j s, accepted d (sel j) s = true → h (jobParams d (sel j) s) s → ∀ e, ServiceOnly (effectState d (sel j) s) e →
      ∃ x r, d.run e (takenJob d (sel j) s) (jobParams d (sel j) s) = (x, .reply r) ∧
        RunsTo (u (jobParams d (sel j) s) (effectState d (sel j) s)) x e ∧ r.status ≤ 1 ∧ r.out = []) :
    Acts c d sel h u := by
  intro j s ha hh
  have hok : ∀ n, n ≤ 1 → ∀ r : Reply, r.status = n → succeeded r = true := by
    intro n hn r hr
    unfold succeeded
    rw [hr]
    interval_cases n <;> rfl
  obtain ⟨h1, h2⟩ := directJob_reply d (sel j) s (u (jobParams d (sel j) s) (effectState d (sel j) s)) false ha (by
    intro e he
    obtain ⟨x, r, hr, hx, hs, ho⟩ := hrun j s ha hh e he
    exact ⟨x, r, hr, hx, hok _ hs r rfl, .inl ho⟩)
  refine ⟨_, hc j s, h1, fun hn => ⟨h2 hn, fun hi hnc => ?_⟩⟩
  obtain ⟨x, r, hs, h3, h4, _⟩ := directJob_completion d (sel j) s ha hi hnc hn (fun _ r => r.status ≤ 1) (fun e he => by
    obtain ⟨x, r, hr, hx, hs, _⟩ := hrun j s ha hh e he
    exact ⟨x, r, hr, hx.list, hx.same, hx.clock, hx.post, hok _ hs _ rfl, hs⟩)
  rw [hring] at h3 h4
  refine ⟨h3, ?_⟩
  rw [h4, BitVec.toNat_ofNat]
  exact (Nat.mod_le _ _).trans hs

theorem answers_of_run (c : Job → Instr) (d : JobDef) (sel : Job → Job) (h : Params → State → Prop) (u : Params → State → State)
    (a : Job → Params → State → List Word)
    (hc : ∀ j s, exec (c j) s = .next (directJob d (sel j) s))
    (hring : ∀ j, (sel j).ring = j.ring)
    (hrun : ∀ j s, accepted d (sel j) s = true → h (jobParams d (sel j) s) s → ∀ e, ServiceOnly (effectState d (sel j) s) e →
      ∃ x r, d.run e (takenJob d (sel j) s) (jobParams d (sel j) s) = (x, .reply r) ∧
        RunsTo (u (jobParams d (sel j) s) (effectState d (sel j) s)) x e ∧ succeeded r = true ∧
        [r.r0, r.r1, r.r2, r.r3] = a (takenJob d (sel j) s) (jobParams d (sel j) s) s ∧
        (r.out = [] ∨ ((takenJob d (sel j) s).dma = true → r.out.length ≤ (takenJob d (sel j) s).resultLen))) : Answers c d sel h u a := by
  intro j s hi ha hh hnc hn
  obtain ⟨h1, h2⟩ := directJob_reply d (sel j) s (u (jobParams d (sel j) s) (effectState d (sel j) s)) true ha (by
    intro e he
    obtain ⟨x, r, hr, hx, hs, _, ho⟩ := hrun j s ha hh e he
    exact ⟨x, r, hr, hx, hs, ho.imp id fun ho hd => ⟨rfl, ho hd⟩⟩)
  obtain ⟨x, r, hv, h3, _, h4⟩ := directJob_completion d (sel j) s ha hi hnc hn
    (fun _ r => [r.r0, r.r1, r.r2, r.r3] = a (takenJob d (sel j) s) (jobParams d (sel j) s) s) (fun e he => by
    obtain ⟨x, r, hr, hx, hs, hv, _⟩ := hrun j s ha hh e he
    exact ⟨x, r, hr, hx.list, hx.same, hx.clock, hx.post, hs, hv⟩)
  rw [hring] at h3 h4
  exact ⟨_, hc j s, h1, h2 hn, h3, by rw [h4, hv]⟩

theorem waits_of_run (c : Job → Instr) (d : JobDef) (sel : Job → Job) (h : Params → State → Prop) (u : Params → State → State)
    (w : Params → State → Hold)
    (hc : ∀ j s, exec (c j) s = .next (directJob d (sel j) s))
    (hw : ∀ p s, w p s ≠ .ringFence ∧ w p s ≠ .worldFence)
    (hrun : ∀ j s, accepted d (sel j) s = true → h (jobParams d (sel j) s) s → ∀ e, ServiceOnly (effectState d (sel j) s) e →
      ∃ x, d.run e (takenJob d (sel j) s) (jobParams d (sel j) s) = (x, .hold (w (jobParams d (sel j) s) s)) ∧
        RunsTo (u (jobParams d (sel j) s) (effectState d (sel j) s)) x e) : Waits c d sel h u w := by
  intro j s hi ha hh
  obtain ⟨h1, h2⟩ := directJob_waits d (sel j) s (u (jobParams d (sel j) s) (effectState d (sel j) s)) _ hi ha (hw _ _) (by
    intro e he
    obtain ⟨x, hr, hx⟩ := hrun j s ha hh e he
    rw [hr]
    exact ⟨hx.list, hx.clock, hx.same.mbx, hx.acts, rfl⟩)
  refine ⟨_, hc j s, h1, h2, fun hn => ?_⟩
  rw [directJob_accepted d (sel j) s ha]
  obtain ⟨e, he, hs, hfl, hmem, hct, hj, _⟩ := start_frame d (sel j) s ha
  obtain ⟨x, hr, hx⟩ := hrun j s ha hh e hs
  rw [he, hr]
  dsimp only
  rw [hx.clock]
  simp only [Bool.not_true, Bool.false_eq_true, if_false]
  rw [settle_noFences]
  · refine ⟨?_, fun q => ?_⟩
    · change x.mbx.mem = _
      rw [hx.same.mbx, hmem]
    · rw [← hct q]
      unfold State.ring
      change (vget x.mbx.rings _ _).ctail = _
      rw [hx.same.mbx]
  · have := hw (jobParams d (sel j) s) s
    unfold noFences at hn ⊢
    rw [hx.same.mbx, hfl]
    simp only [List.all_append, hn, List.all_cons, List.all_nil, Bool.true_and, Bool.and_true, Bool.and_eq_true, bne_iff_ne]
    exact this

/-! ### Effects that leave the services alone -/

/-- An effect on the state that does not depend on the mailboxes, the interrupt controller and the counters, and leaves
them; the boot phase and the configuration list stay. -/
structure QuietEffect (f : State → State) : Prop where
  map   : ∀ (s : State) m i q, f { s with mbx := m, intc := i, pcu := q } = { f s with mbx := m, intc := i, pcu := q }
  list  : ∀ s, (f s).cpx.list = s.cpx.list
  phase : ∀ s, (f s).cpx.phase = s.cpx.phase
  post  : ∀ s, posting (f s) = posting s
  spi   : ∀ s, (f s).srt.straps = s.srt.straps

theorem QuietEffect.mbx {f : State → State} (h : QuietEffect f) (s : State) :
    (f s).mbx = s.mbx ∧ (f s).intc = s.intc ∧ (f s).pcu = s.pcu := by
  have h1 : f s = { f s with mbx := s.mbx, intc := s.intc, pcu := s.pcu } := h.map s s.mbx s.intc s.pcu
  exact ⟨by rw [h1], by rw [h1], by rw [h1]⟩

theorem QuietEffect.same {f : State → State} (h : QuietEffect f) (s : State) : ServiceSame s (f s) := by
  obtain ⟨h1, h2, h3⟩ := h.mbx s
  exact ⟨h1, h.spi s, by rw [h2]; exact ⟨rfl, rfl, rfl⟩, by rw [h3], fun _ => by rw [h3]; exact ⟨rfl, rfl, rfl⟩⟩

theorem QuietEffect.clocked {f : State → State} (h : QuietEffect f) (s : State) : (f s).clocked = s.clocked := by
  unfold State.clocked
  rw [h.phase]

theorem QuietEffect.runs {f : State → State} (h : QuietEffect f) (d : JobDef) (j : Job) (s : State)
    (ha : accepted d j s = true) (e : State) (he : ServiceOnly (effectState d j s) e) :
    RunsTo (f (effectState d j s)) (f e) e :=
  ⟨by rw [h.list]; exact effectState_list d j s ha e he, by rw [h.clocked]; exact effectState_clocked d j s ha e he,
    by rw [h.post]; exact effectState_posting d j s ha e he, serviceOnly_map f h.map he, h.same e⟩

theorem QuietEffect.id : QuietEffect fun s => s := ⟨fun _ _ _ _ => rfl, fun _ => rfl, fun _ => rfl, fun _ => rfl, fun _ => rfl⟩

theorem acts_of_quiet (c : Job → Instr) (d : JobDef) (sel : Job → Job) (h : Params → State → Prop) (u : Params → State → State)
    (hc : ∀ j s, exec (c j) s = .next (directJob d (sel j) s)) (hring : ∀ j, (sel j).ring = j.ring)
    (hq : ∀ p, QuietEffect (u p))
    (hrun : ∀ j s, accepted d (sel j) s = true → h (jobParams d (sel j) s) s → ∀ e, ServiceOnly (effectState d (sel j) s) e →
      ∃ r, d.run e (takenJob d (sel j) s) (jobParams d (sel j) s) = (u (jobParams d (sel j) s) e, .reply r) ∧
        r.status ≤ 1 ∧ r.out = []) : Acts c d sel h u := by
  refine acts_of_run c d sel h u hc hring fun j s ha hh e he => ?_
  obtain ⟨r, hr, hs, ho⟩ := hrun j s ha hh e he
  have hx := (hq (jobParams d (sel j) s)).runs d (sel j) s ha e he
  exact ⟨_, r, hr, hx, hs, ho⟩

theorem waits_of_quiet (c : Job → Instr) (d : JobDef) (sel : Job → Job) (h : Params → State → Prop) (u : Params → State → State)
    (w : Params → State → Hold) (hc : ∀ j s, exec (c j) s = .next (directJob d (sel j) s))
    (hw : ∀ p s, w p s ≠ .ringFence ∧ w p s ≠ .worldFence) (hq : ∀ p, QuietEffect (u p))
    (hrun : ∀ j s, accepted d (sel j) s = true → h (jobParams d (sel j) s) s → ∀ e, ServiceOnly (effectState d (sel j) s) e →
      d.run e (takenJob d (sel j) s) (jobParams d (sel j) s) =
        (u (jobParams d (sel j) s) e, .hold (w (jobParams d (sel j) s) s))) : Waits c d sel h u w := by
  refine waits_of_run c d sel h u w hc hw fun j s ha hh e he => ?_
  have hx := (hq (jobParams d (sel j) s)).runs d (sel j) s ha e he
  exact ⟨_, hrun j s ha hh e he, hx⟩

theorem answers_of_quiet (c : Job → Instr) (d : JobDef) (sel : Job → Job) (h : Params → State → Prop) (u : Params → State → State)
    (a : Job → Params → State → List Word)
    (hc : ∀ j s, exec (c j) s = .next (directJob d (sel j) s)) (hring : ∀ j, (sel j).ring = j.ring)
    (hq : ∀ p, QuietEffect (u p))
    (hrun : ∀ j s, accepted d (sel j) s = true → h (jobParams d (sel j) s) s → ∀ e, ServiceOnly (effectState d (sel j) s) e →
      ∃ r, d.run e (takenJob d (sel j) s) (jobParams d (sel j) s) = (u (jobParams d (sel j) s) e, .reply r) ∧ succeeded r = true ∧
        [r.r0, r.r1, r.r2, r.r3] = a (takenJob d (sel j) s) (jobParams d (sel j) s) s ∧
        (r.out = [] ∨ ((takenJob d (sel j) s).dma = true → r.out.length ≤ (takenJob d (sel j) s).resultLen))) : Answers c d sel h u a := by
  refine answers_of_run c d sel h u a hc hring fun j s ha hh e he => ?_
  obtain ⟨r, hr, hs, hv, ho⟩ := hrun j s ha hh e he
  have hx := (hq (jobParams d (sel j) s)).runs d (sel j) s ha e he
  exact ⟨_, r, hr, hx, hs, hv, ho⟩

/-- The state that an effect reads is the one before the job, but for a proof in progress and what a fetch counts. -/
theorem effect_read {α : Type} (g : State → α) (d : JobDef) (j : Job) (s e : State) (he : ServiceOnly (effectState d j s) e)
    (hg : ∀ (s : State) m i q v, g { s with mbx := m, intc := i, pcu := q, cpx := { s.cpx with proof := v } } = g s) :
    g e = g s := by
  unfold ServiceOnly at he
  rw [effectState_cpx] at he
  rw [show e = { s with mbx := e.mbx, intc := e.intc, pcu := e.pcu, cpx := { s.cpx with proof := (effectState d j s).cpx.proof } } from he]
  exact hg s _ _ _ _

end Sys2Proof.Machine
end

