-- ==== Sys2Proof/Laws/Selectors.lean ====
section
/-! SUPPORT. The selector byte that a row sets in its job's parameters. -/

namespace Sys2Proof.Machine

/-! ### Selector bytes -/

/-- A byte put in a number is read back, and the bytes below it stay. -/
theorem bitsOf_putByte (w k v : Nat) :
    bitsOf (w - bitsOf w k 8 * 2 ^ k + v % 256 * 2 ^ k) k 8 = v % 256 := by
  have hw : w = w / 2 ^ k / 256 * 256 * 2 ^ k + bitsOf w k 8 * 2 ^ k + w % 2 ^ k := by
    have h1 := Nat.div_add_mod w (2 ^ k)
    have h2 := Nat.div_add_mod (w / 2 ^ k) 256
    unfold bitsOf
    rw [show (2 : Nat) ^ 8 = 256 from rfl]
    calc w = 2 ^ k * (w / 2 ^ k) + w % 2 ^ k := h1.symm
      _ = 2 ^ k * (256 * (w / 2 ^ k / 256) + w / 2 ^ k % 256) + w % 2 ^ k := by rw [h2]
      _ = _ := by ring
  have hs : w - bitsOf w k 8 * 2 ^ k + v % 256 * 2 ^ k = (w / 2 ^ k / 256 * 256 + v % 256) * 2 ^ k + w % 2 ^ k := by
    generalize bitsOf w k 8 = b at hw ⊢
    generalize w / 2 ^ k / 256 * 256 = q at hw ⊢
    generalize hr : w % 2 ^ k = r at hw ⊢
    rw [hw, Nat.add_mul]
    rw [Nat.add_right_comm (q * 2 ^ k), Nat.add_sub_cancel]
    ring
  rw [hs]
  unfold bitsOf
  rw [Nat.add_comm, Nat.add_mul_div_right _ _ (Nat.two_pow_pos k), Nat.div_eq_of_lt (Nat.mod_lt _ (Nat.two_pow_pos k)), Nat.zero_add,
    show (2 : Nat) ^ 8 = 256 from rfl]
  generalize w / 2 ^ k / 256 = q
  omega

theorem bitsOf_mod (w k n m : Nat) (h : k + n ≤ m) : bitsOf (w % 2 ^ m) k n = bitsOf w k n := by
  unfold bitsOf
  apply Nat.eq_of_testBit_eq
  intro i
  simp only [Nat.testBit_mod_two_pow, Nat.testBit_div_two_pow]
  by_cases hi : i < n
  · simp [hi, show i + k < m by omega]
  · simp [hi]

theorem bitsOf_low (w c k n : Nat) (hc : c < 65536) (hk : 16 ≤ k) : bitsOf (w / 65536 * 65536 + c) k n = bitsOf w k n := by
  unfold bitsOf
  congr 1
  obtain ⟨m, rfl⟩ := Nat.exists_eq_add_of_le hk
  rw [Nat.pow_add, ← Nat.div_div_eq_div_mul, ← Nat.div_div_eq_div_mul, show (2 : Nat) ^ 16 = 65536 from rfl]
  congr 1
  omega

theorem loadBlock_desc (j : Job) (s : State) : (loadBlock j s).1.desc = j.desc := by
  unfold loadBlock
  split
  · rfl
  split
  · rfl
  split
  · rfl
  · rfl

/-- The selector byte of a row without a parameter block reads as the row sets it. -/
theorem selector_u (d : JobDef) (hd : d.dma = none) (j : Job) (hj : j.dma = false) (s : State) (off v : Nat) (h2 : 2 ≤ off)
    (h64 : off < 64) (hv : v < 256) : (jobParams d (withByte off v j) s).u off 1 = v := by
  unfold jobParams paramsOf takenJob Params.u
  rw [hd]
  simp only [jobInline, loadBlock_desc, withCode, withByte, hj, Bool.false_eq_true, if_false, BitVec.toNat_ofNat]
  rw [bitsOf_mod _ _ _ _ (by omega), bitsOf_low _ _ _ _ (Nat.mod_lt _ (by norm_num)) (by omega),
    bitsOf_mod _ _ _ _ (by omega), show 8 * 1 = 8 from rfl, bitsOf_putByte]
  exact Nat.mod_eq_of_lt hv

/-- A job without a DMA rule that is accepted carries no DMA_PARAM. -/
theorem accepted_inline (d : JobDef) (hd : d.dma = none) (j : Job) (s : State) (h : accepted d j s = true) :
    (takenJob d j s).dma = false := by
  unfold accepted at h
  simp only [Bool.and_eq_true, Option.isNone_iff_eq_none] at h
  have hf := h.1.1.1.2
  unfold firstFailure at hf
  revert hf
  split
  · simp
  · simp
  next row d' _ he =>
    cases he
    dsimp only
    split
    · simp
    split
    · simp
    split
    · simp
    split
    · simp
    split
    · simp
    next hp =>
      intro _
      unfold paramOffence at hp
      rw [hd] at hp
      cases hdma : (takenJob d j s).dma with
      | false => rfl
      | true =>
        rw [hdma] at hp
        simp [offence, lowest] at hp

theorem withCode_dma (c : Nat) (j : Job) : (withCode c j).dma = j.dma := by
  unfold Job.dma withCode
  rw [BitVec.toNat_ofNat, Nat.testBit_mod_two_pow, Nat.testBit_eq_decide_div_mod_eq, Nat.testBit_eq_decide_div_mod_eq]
  have := bitsOf_low j.desc.toNat (c % 65536) 30 1 (Nat.mod_lt _ (by norm_num)) (by omega)
  unfold bitsOf at this
  simp only [Nat.pow_one] at this
  rw [this]
  simp

/-- The selector byte of an accepted row without a DMA rule. -/
theorem selector_accepted (d : JobDef) (hd : d.dma = none) (j : Job) (s : State) (off v : Nat) (h2 : 2 ≤ off)
    (h64 : off < 64) (hv : v < 256) (h : accepted d (withByte off v j) s = true) :
    (jobParams d (withByte off v j) s).u off 1 = v := by
  refine selector_u d hd j ?_ s off v h2 h64 hv
  have hdma := accepted_inline d hd _ s h
  unfold takenJob Job.dma at hdma
  rw [loadBlock_desc] at hdma
  change (withCode d.code (withByte off v j)).dma = false at hdma
  rw [withCode_dma] at hdma
  by_contra hj
  simp only [Bool.not_eq_false] at hj
  unfold withByte at hdma
  rw [if_pos hj] at hdma
  exact absurd (show j.dma = false from hdma) (by simp [hj])

/-- What the checks of an accepted job have found. -/
theorem accepted_checks (d : JobDef) (j : Job) (s : State) (h : accepted d j s = true) :
    paramOffence (takenState j s) d (takenJob d j s) = none ∧ d.check (takenState j s) (takenJob d j s) (jobParams d j s) = none ∧
    d.absent (takenState j s) (jobParams d j s) = false := by
  unfold accepted at h
  simp only [Bool.and_eq_true, Option.isNone_iff_eq_none] at h
  have hf := h.1.1.1.2
  unfold firstFailure at hf
  revert hf
  split
  · simp
  · simp
  next row d' _ he =>
    cases he
    dsimp only
    split
    · simp
    split
    · simp
    split
    · simp
    split
    · simp
    next ha =>
    simp only [Bool.not_eq_true', Bool.or_eq_true, not_or, Bool.not_eq_true, Bool.not_eq_false] at ha
    split
    · simp
    next hp =>
      intro hc
      exact ⟨hp, hc, ha.2⟩

theorem lowest_none (l : List Nat) (h : lowest l = none) : l = [] := by
  cases l with
  | nil => rfl
  | cons a t => simp [lowest] at h

theorem offence_none (a b : List Nat) (h : offence a b = none) : a = [] ∧ b = [] := by
  unfold offence at h
  split at h
  · simp at h
  next h1 =>
    split at h
    · simp at h
    next h2 => exact ⟨lowest_none _ h1, lowest_none _ h2⟩

/-- The result buffer of an accepted job with DMA_PARAM holds what the job needs. -/
theorem accepted_result (d : JobDef) (j : Job) (s : State) (h : accepted d j s = true) (hd : (takenJob d j s).dma = true) :
    d.minResult (jobParams d j s) ≤ (takenJob d j s).resultLen := by
  have hp := (accepted_checks d j s h).1
  cases hr : d.dma with
  | none => rw [accepted_inline d hr j s h] at hd; simp at hd
  | some r =>
    unfold paramOffence at hp
    rw [hr, hd] at hp
    have := (offence_none _ _ hp).1
    unfold badPointers at this
    simp only [List.append_eq_nil_iff] at this
    have h4 := this.2.1.2
    by_contra hn
    rw [if_pos (Or.inl (by unfold jobParams at hn; omega))] at h4
    simp at h4

theorem badFields_nil (fs : List Field) (p : Params) (lo hi : Nat) (h : badFields fs p lo hi = []) (f : Field) (hf : f ∈ fs) :
    f.ok (p.u f.off f.len) = true := by
  unfold badFields at h
  rw [List.append_eq_nil_iff] at h
  have h1 := h.1
  rw [List.map_eq_nil_iff, List.filter_eq_nil_iff] at h1
  simpa using h1 f hf

/-- Every field of an accepted job lies in its range (R13, R14, R57). -/
theorem accepted_field (d : JobDef) (j : Job) (s : State) (h : accepted d j s = true) (hb : ∀ r, d.dma = some r → r.inBlock = true)
    (f : Field) (hf : f ∈ d.fields) : f.ok ((jobParams d j s).u f.off f.len) = true := by
  have hp := (accepted_checks d j s h).1
  unfold paramOffence at hp
  dsimp only at hp
  split at hp
  · simp [offence, lowest] at hp
  · have := (offence_none _ _ hp).1
    rw [List.append_eq_nil_iff, List.append_eq_nil_iff] at this
    exact badFields_nil _ _ _ _ this.1.2 f hf
  · have := (offence_none _ _ hp).1
    rw [List.append_eq_nil_iff] at this
    have h2 := this.2
    split at h2
    · simp at h2
    · rw [List.append_eq_nil_iff] at h2
      exact badFields_nil _ _ _ _ h2.1 f hf
  next hr _ =>
    have := (offence_none _ _ hp).2
    rw [if_pos (hb _ hr), List.append_eq_nil_iff] at this
    exact badFields_nil _ _ _ _ this.1 f hf

/-- An index field of an accepted job lies below its bound. -/
theorem accepted_range (d : JobDef) (j : Job) (s : State) (h : accepted d j s = true) (hb : ∀ r, d.dma = some r → r.inBlock = true)
    (off len lo hi : Nat) (hf : fRange off len lo hi ∈ d.fields) :
    lo ≤ (jobParams d j s).u off len ∧ (jobParams d j s).u off len ≤ hi := by
  have := accepted_field d j s h hb _ hf
  unfold fRange at this
  simpa using this

end Sys2Proof.Machine
end

