-- ==== Sys2Proof/WellFormed.lean ====
section
/-! DEFINITION. Which commands are well formed: the operands that something outside the engine can bring. -/

namespace Sys2Proof

/-- A host access (R47): 1, 2, 4 or 8 bytes, and data that fits. -/
def HostAccess.wf (a : HostAccess) : Bool :=
  [1, 2, 4, 8].contains a.size && (match a.data with
    | some v => decide (v.toNat < 2 ^ (8 * a.size))
    | none => true)

/-- A job (R53, R54): bytes come from the host bus with DMA_PARAM alone. -/
def Job.wf (j : Job) : Bool := j.desc.getLsbD 30 || j.block.isEmpty

/-- What a boundary finds on the host bus: no block is empty or runs past the address space. -/
def BoundaryIn.wf (b : BoundaryIn) : Bool :=
  b.dma.all fun m => !m.data.isEmpty && decide (m.addr.toNat + m.data.length ≤ 2 ^ 64)

/-- A satellite stands above or below the horizon, at an azimuth of a circle. -/
def SatObs.wf (s : SatObs) : Bool := decide (-90 ≤ s.elev) && decide (s.elev ≤ 90) && decide (s.azimuth < 360)

/-- A solution names no system twice. -/
def SolObs.wf (o : SolObs) : Bool := decide (o.offsets.map Prod.fst).Nodup

/-- The observations of an epoch (R157): no signal is listed twice. -/
def GnssObs.wf (o : GnssObs) : Bool :=
  o.dual.all SolObs.wf && o.single.all SolObs.wf && o.sats.all SatObs.wf && decide ((o.sats.map fun s => (s.system, s.sat, s.band)).Nodup)

/-- A Clause 37 exchange gives 10, 100 or 1,000 Mb/s. -/
def AutonegResult.wf : AutonegResult → Bool
  | .sgmii m => [10, 100, 1000].contains m
  | .backplane _ _ => true
  | .direct => true

/-- A frame that the MAC accepts carries 64 to 9,216 bytes and at most two tags. -/
def Frame.wf (f : Frame) : Bool := decide (64 ≤ f.bytes) && decide (f.bytes ≤ 9216) && decide (f.tags ≤ 2)

/-- A PTP message names nanoseconds of a second. -/
def PtpRx.wf (rx : PtpRx) : Bool := decide (rx.msg.time.ns.toNat < 10 ^ 9)

/-- An NTP message has at least its 48 bytes of header. -/
def NtpRx.wf (rx : NtpRx) : Bool := decide (48 ≤ rx.msg.bytes)

/-- A sampled-value frame (R347): a stream name of 1 to 34 bytes and 1 to 8 ASDUs. -/
def SvFrame.wf (f : SvFrame) : Bool :=
  !f.svid.isEmpty && decide (f.svid.length ≤ 34) && !f.smpCnts.isEmpty && decide (f.smpCnts.length ≤ 8)

/-- The command is well formed. -/
def Instr.wf : Instr → Bool
  | .registerWrite a => a.wf
  | .impressionBoundary b => b.wf
  | .secondBoundary b => b.wf
  | .ensembleCycle phases => decide (phases.length = 8)
  | .gnssSolution o => o.wf
  | .autonegComplete _ r => r.wf
  | .frameReceive _ _ f => f.wf
  | .ptpAnnounceReceive rx => rx.wf
  | .ptpSyncReceive rx => rx.wf
  | .ptpFollowUpReceive rx => rx.wf
  | .ptpDelayReqReceive rx => rx.wf
  | .ptpDelayRespReceive rx => rx.wf
  | .ptpPdelayReqReceive rx => rx.wf
  | .ptpPdelayRespReceive rx => rx.wf
  | .ptpSignalingReceive sg => sg.rx.wf
  | .ptpTcForward _ rx _ => rx.wf
  | .ntpRequestReceive rx => rx.wf
  | .ntsRequestReceive rx => rx.wf
  | .ntpResponseReceive _ rx => rx.wf
  | .hostUplinkFrameReceive h => decide (h.bytes ≤ 9216)
  | .svFrameReceive f => f.wf
  | .sampleFrame _ _ _ slots => decide (slots.length ≤ 32)
  | .devIdentify j | .devSetImposition j | .devFwRestart j | .devChipReset j | .devFenceRing j
  | .devFenceWorld j | .devProof j | .secPartitionSet j | .secPartitionLock j | .secRegionSet j | .secFwStage j
  | .secFwCommit j | .secTamperConfig j | .secTamperStatus j | .secTestUnlock j | .keyWrite j | .keyRetire j
  | .keyAttrRead j | .keyRoll j | .keyDerive j | .fltConfigSource j | .fltAck j | .fltReadCapture j
  | .fltInject j | .pcuSelectEvent j | .pcuSetAccess j | .pcuClear j | .tdConfig j | .tdSetTimeAbsolute j
  | .tdSetTimeRelative j | .tdSlew j | .tdSetUtcInfo j | .tdHandover j | .tdReadLedger j | .tdSetReturnPolicy j
  | .ensConfigMember j | .ensReadState j | .ensSetPolicy j | .refConfig j | .refSetThresholds j
  | .refReadStatus j | .refClearHistory j | .refSetPriority j | .refForceSelect j | .refForceRelease j
  | .dpllConfig j | .dpllSetModeAutomatic j | .dpllSetModeFreerun j | .dpllSetModeHoldover j | .dpllSteerPpt j
  | .dpllPhaseStep j | .holdConfig j | .holdReadArchive j | .oscSteerConfig j | .apllConfig j | .apllRetune j
  | .outConfig j | .outConfigStage j | .outEnable j | .outPhaseStep j | .outSetCeiling j | .ppsConfig j
  | .irigConfig j | .todConfig j | .evtConfig j | .evtConfigThreshold j | .evtDrain j | .laneConfig j
  | .laneEnable j | .laneDisable j | .laneReadStatus j | .lanePrbsConfig j | .lanePrbsLeave j | .lanePrbsRead j
  | .laneEqConfig j | .laneRecoveredClockSelect j | .tsPortConfig j | .tsReadLatency j | .tsSetAsymmetry j
  | .tsLaunchConfig j | .ptpInstanceConfig j | .ptpPortConfig j | .ptpPortConfigPortForm j
  | .ptpReadPortState j | .ptpUnicastPolicy j | .ptpPrpPair j | .ntpServerConfig j | .ntpServerRead j
  | .ntsConfigServer j | .ntsConfigClient j | .ntpClientConfig j | .ntpRatePolicy j | .ledgerQuery j
  | .ledgerEvict j | .ledgerExport j | .gnssConfig j | .gnssSurveyStart j | .gnssSurveyLoadPosition j
  | .gnssSurveyReleaseHold j | .gnssReadStatus j | .gnssNotchConfig j | .gnssAidingLoad j | .sampPortConfig j
  | .sampSlotMask j | .sampGroupConfigChannel j | .sampGroupConfigGroup j | .sampGroupConfigStatus j
  | .svMonitorConfig j | .svMonitorRead j | .calReadFactory j | .calWriteUser j | .calReadEffective j
  | .calCommitUser j | .supRead j | .supSetThresholds j => j.wf
  | .mbxCqTail .. | .mbxCcHead .. | .intcStatus .. | .intcMask .. | .intcMode .. | .tsnapLatch .. | .fcoAck ..
  | .pcuCntLoRead .. | .ccHoldoffExpiry .. | .impositionChange .. | .timeStepLand .. | .secondCrossing ..
  | .todMessageSend .. | .handoverRemainderZero .. | .slewEnd .. | .confirmationEnd ..
  | .supplyChargeRelease .. | .deweightEnd .. | .holdoverRecompute .. | .holdoverUpdate .. | .refEdge ..
  | .refLos .. | .qualificationEnd .. | .driftClear .. | .wtrExpiry .. | .driftTakeover .. | .switchFreeze ..
  | .switchCapture .. | .switchRelease .. | .dpllBandwidthHalving .. | .oscSteerUpdate .. | .gnssEpoch ..
  | .satelliteExclusionEnd .. | .integrityClear .. | .timeCheckAnchorMove .. | .gnssClockFault ..
  | .gclkReturn .. | .feStatusPoll .. | .surveyEnd .. | .notchAdapt .. | .jamThreshold .. | .apllLockLost ..
  | .apllLock .. | .outputRestart .. | .apllRetuneTimeout .. | .apllRampEnd .. | .outputPhaseSubstep ..
  | .outputAlignMeasure .. | .eventEdge .. | .eventQueueDrain .. | .losAssert .. | .losDeassert ..
  | .lolAssert .. | .lolDeassert .. | .alignmentGained .. | .alignmentLost .. | .hiBer .. | .fecLockChange ..
  | .laneQualified .. | .trainTimeout .. | .stepTimeout .. | .relockTimeout .. | .moduleReadDone ..
  | .latencyMeasurementEnd .. | .laneTxpllUnlock .. | .txpllRelock .. | .adaptationFreeze ..
  | .adaptationResume .. | .prbsCheckerSync .. | .prbsCheckerResync .. | .prbsErrorInject ..
  | .esmcPduReceive .. | .prpSupervisionReceive .. | .aueJobComplete .. | .launchCommit .. | .frameLaunch ..
  | .hostFrameTransmit .. | .ptpAnnounceSend .. | .ptpSyncSend .. | .ptpDelayReqSend ..
  | .announceReceiptTimeout .. | .unicastGrantRenew .. | .unicastGrantExpiry .. | .ledgerSweep ..
  | .prpSlaveTakeover .. | .prpSupervisionSend .. | .ntpClientPoll .. | .esmcInfoSend .. | .esmcEventSend ..
  | .esmcTimeout .. | .slotMaskTimeout .. | .sampleRateFault .. | .sampleRateFaultClear ..
  | .channelRatioLock .. | .channelReentry .. | .svMonitorSecond .. | .tamperEvent .. | .keyExpiry ..
  | .keyPrevZeroed .. | .trngHealthTestEnd .. | .clockMonitorFault .. | .clockReturn .. | .lockstepMismatch ..
  | .memoryEccError .. | .blockResetRelease .. | .resetShadowEnd .. | .interpCheck .. | .watchdog ..
  | .thermalHigh .. | .supplyDipStart .. | .supplyDipLong .. | .supplyDipEnd .. | .vbatWarning ..
  | .supplyReset .. | .por .. | .porEnd .. | .pinReset .. | .pinResetEnd .. | .chipReset .. | .chipResetEnd ..
  | .systemPllLock .. | .firmwareStart .. | .fwReady .. | .hostLoadBoot .. | .warmRestartEnd ..
  | .flashWriteDone .. | .flashWriteTimeout .. | .proofEnd .. | .phaseStepMovementEnd ..
  | .tamperConditionEnd .. | .thermalHighClear .. | .vbatReturn .. | .vbatLoss .. | .trngHealth ..
  | .lrefclkFault .. | .cdaonFault .. => true

end Sys2Proof
end

