-- ==== Sys2Proof/Tests/Slice0.lean ====
section
/-! SUPPORT. Tests of the model: the well-formedness check refuses what it must, and for each command a state and operands
that meet the hypotheses of the statements about it. -/

namespace Sys2Proof.Tests

open Sys2Proof.Machine

set_option Elab.async false

/-! ### States and jobs -/

/-- The engine after its boot: firmware runs and FW_READY has set. -/
def ready : State := { State.reset with cpx := { phase := .ready }, mbx := { fwReady := true } }

/-- The invariant as a check. -/
def invB (s : State) : Bool :=
  Memory.wf s.mbx.mem && !s.intc.mask.getLsbD 31 && (!s.srt.straps.spi || s.intc.pin) && partFixed s && regionsFixed s &&
  s.mbx.restarting == s.cpx.warm.isSome && (!s.mbx.fwReady || (s.cpx.phase == .ready && s.cpx.warm.isNone)) &&
  (s.mbx.flights.all fun f => decide (f.order < s.mbx.fetched)) && decide (s.sau.stream.map Prod.fst).Nodup

theorem inv_of_invB (s : State) (h : invB s = true) : Inv s := by
  unfold invB at h
  simp only [Bool.and_eq_true, Bool.or_eq_true, Bool.not_eq_true', beq_iff_eq, decide_eq_true_eq, List.all_eq_true,
    Option.isNone_iff_eq_none] at h
  obtain ⟨⟨⟨⟨⟨⟨⟨⟨mem, mask⟩, pin⟩, part⟩, region⟩, restarting⟩, rdy⟩, order⟩, streams⟩ := h
  exact ⟨mem, mask, fun e => by rcases pin with h | h <;> simp_all, part, region, restarting,
    fun e => by rcases rdy with h | h <;> simp_all, order, streams⟩

/-- A descriptor from its fields: offset, value. -/
def desc (l : List (Nat × Nat)) : Desc := BitVec.ofNat 512 (l.map fun x => x.2 * 2 ^ (8 * x.1)).sum

/-- A job of CQS with its parameters in the descriptor. -/
def job (l : List (Nat × Nat)) : Job := { ring := 4, desc := desc l, block := [] }

/-- A job of CQS with a parameter block of `n` bytes. -/
def blockJob (l p : List (Nat × Nat)) (n : Nat) : Job :=
  { ring := 4, desc := desc ((3, 0x40) :: (12, n) :: l), block := leBytes n (p.map fun x => x.2 * 2 ^ (8 * x.1)).sum }

/-- The hypotheses of a statement about a job: the invariant holds, the engine accepts the job, no fence waits, a completion
is asked for, and the statement's own condition holds. -/
def meets (d : JobDef) (sel : Job → Job) (j : Job) (s : State) (h : Params → State → Bool) : Bool :=
  invB s && accepted d (sel j) s && noFences s && !(takenJob d (sel j) s).noCompletion && h (jobParams d (sel j) s) s

theorem meets_sound (d : JobDef) (sel : Job → Job) (j : Job) (s : State) (h : Params → State → Bool)
    (m : meets d sel j s h = true) :
    Inv s ∧ accepted d (sel j) s = true ∧ noFences s = true ∧ (takenJob d (sel j) s).noCompletion = false ∧
      h (jobParams d (sel j) s) s = true := by
  simp only [meets, Bool.and_eq_true, Bool.not_eq_true'] at m
  exact ⟨inv_of_invB s m.1.1.1.1, m.1.1.1.2, m.1.1.2, m.1.2, m.2⟩

/-- No further condition. -/
def any (_ : Params) (_ : State) : Bool := true

/-! ### Jobs (R53, R57, R81) -/

/-- A key in use for every purpose. -/
def aKey : KeySlot := { st := .active, dest := 0x1F, len := 32, keyId := 7, key := List.replicate 32 1 }
/-- The engine with a key in slots 1 and 2 and a root secret. -/
def keyed : State := { ready with sec := { ready.sec with key := (ready.sec.key.set 1 aKey).set 2 aKey, root := some 5 } }
/-- The engine with the factory test mode unlocked and its strap. -/
def factory : State :=
  { ready with fco := { ready.fco with injectUnlocked := true }, srt := { ready.srt with straps := { boot := 3, test := true }, factoryPor := true } }
/-- DPLL 0 in a state, in its mode, with a selection. -/
def dpll0 (st : DpllState) : State := ready.setDpll 0 fun x => { x with st := st }
/-- DPLL 0 frozen in a switch to entry 3. -/
def frozen0 (s : State) : State := s.setDpll 0 fun x => { x with st := .switching, sw := some { target := 3, frozen := true } }
/-- A flight that holds for something. -/
def held (h : Hold) : Flight := { job := job [], code := 0, hold := h, order := 0 }
/-- The engine with one job in flight. -/
def waiting (h : Hold) (s : State) : State := { s with mbx := { s.mbx with flights := [held h], fetched := 1 } }

theorem test_devIdentify : meets devIdentifyDef same (job []) ready any = true := by decide +kernel
theorem test_devSetImposition : meets devSetImpositionDef same (job [(4, 3)]) ready any = true := by decide +kernel
theorem test_devFwRestart : meets devFwRestartDef same (job [(4, 1)]) ready any = true := by decide +kernel
theorem test_devProof : meets devProofDef same (job [(4, 0x3F), (8, 8000)]) ready (fun _ s => s.cpx.proof.isNone) = true := by
  decide +kernel
theorem test_devChipReset : meets devChipResetDef same (job [(4, 0x43484950)]) ready any = true := by decide +kernel
theorem test_devFenceRing : (let d := devFenceDef
    meets d (withByte 4 0) (job []) ready (fun _ s => !s.mbx.flights.any fun f => f.job.ring == 4) &&
    meets d (withByte 4 0) (job [(2, 1)]) (waiting .proof ready) (fun _ s => s.mbx.flights.any fun f => f.job.ring == 4)) = true := by
  decide +kernel
theorem test_devFenceWorld : (let d := devFenceDef
    meets d (withByte 4 1) (job []) ready (fun _ s => !s.mbx.flights.any fun f => f.job.secure) &&
    meets d (withByte 4 1) (job [(2, 1)]) (waiting .proof ready) (fun _ s => s.mbx.flights.any fun f => f.job.secure)) = true := by
  decide +kernel
theorem test_secPartitionSet : meets secPartitionSetDef same (job [(4, 0x3DFF0)]) ready any = true := by decide +kernel
theorem test_secPartitionLock : meets secPartitionLockDef same (job []) ready any = true := by decide +kernel
theorem test_secRegionSet : meets secRegionSetDef same (job [(4, 63), (5, 1), (6, 1)]) ready any = true := by decide +kernel
theorem test_secFwStage : meets secFwStageDef same (blockJob [] [] 64) ready any = true := by decide +kernel
theorem test_secFwCommit : (let s := setSlot 1 (fun x => { x with verified := true }) ready
    meets secFwCommitDef same (job []) s (fun p _ => !p.bit 4 0) && meets secFwCommitDef same (job [(4, 1)]) s (fun p _ => p.bit 4 0)) = true := by
  decide +kernel
theorem test_secTamperConfig : meets secTamperConfigDef same (job [(4, 1), (6, 1), (7, 1), (8, 1), (9, 1)]) ready
    (fun p s => BitVec.ofNat 4 (p.u 4 1) &&& ~~~(s.sec.tamper.pins ^^^ BitVec.ofNat 4 (p.u 5 1)) == 0) = true := by decide +kernel
theorem test_secTamperStatus : meets secTamperStatusDef same (job [(4, 1)]) ready any = true := by decide +kernel
theorem test_secTestUnlock : meets secTestUnlockDef same (job []) factory any = true := by decide +kernel
theorem test_keyWrite : meets keyWriteDef same (job [(4, 127), (5, 4), (7, 32)]) keyed any = true := by decide +kernel
theorem test_keyRoll : meets keyRollDef same (job [(4, 1)]) keyed any = true := by decide +kernel
theorem test_keyRetire : meets keyRetireDef same (job [(4, 1)]) keyed any = true := by decide +kernel
theorem test_keyAttrRead : meets keyAttrReadDef same (job [(4, 1)]) keyed any = true := by decide +kernel
theorem test_keyDerive :
    (meets keyDeriveDef same (job [(5, 4), (7, 32), (24, 1), (25, 0xFF)]) keyed (fun p _ => p.u 25 1 == 0xFF) &&
    meets keyDeriveDef same (job [(5, 4), (7, 32), (24, 1), (25, 2)]) keyed (fun p _ => p.u 25 1 != 0xFF)) = true := by decide +kernel
theorem test_fltConfigSource : meets fltConfigSourceDef same (job [(4, 0), (5, 255), (6, 2), (7, 2)]) ready any = true := by decide +kernel
theorem test_fltAck : meets fltAckDef same (job [(4, 0xFF)]) ready any = true := by decide +kernel
theorem test_fltReadCapture : meets fltReadCaptureDef same (job [(4, 7)]) ready any = true := by decide +kernel
theorem test_fltInject : meets fltInjectDef same (job [(4, 96), (8, 3)]) factory
    (fun p s => decide ((sourceCfg s (p.u 4 1)).level ≤ 1)) = true := by decide +kernel
theorem test_pcuSelectEvent : meets pcuSelectEventDef same (job [(4, 63), (5, 0xFF), (6, 0x0100)]) ready any = true := by decide +kernel
theorem test_pcuSetAccess : meets pcuSetAccessDef same (job [(8, 1)]) ready any = true := by decide +kernel
theorem test_pcuClear : meets pcuClearDef same (job [(8, 1)]) ready any = true := by decide +kernel

/-- TD_CONFIG of domain 1 without a DPLL and without a TIME_SOURCE. -/
def tdJob : Job := job [(4, 1), (5, 0xFF), (6, 0xFF), (7, 0xFF), (12, 1), (16, 1), (22, 1), (32, 1)]
theorem test_tdConfig : meets tdConfigDef same tdJob ready
    (fun p s => p.u 6 1 == 0xFF && (s.domain (p.u 4 1)).dpll == p.opt 5 8) = true := by decide +kernel
theorem test_tdSetTimeAbsolute : meets tdSetTimeDef (withByte 5 0) (job [(4, 1), (16, 2 ^ 40)]) ready any = true := by decide +kernel
theorem test_tdSetTimeRelative : meets tdSetTimeDef (withByte 5 1) (job [(4, 1), (8, 5)]) ready any = true := by decide +kernel
theorem test_tdSlew : meets tdSlewDef same (job [(4, 1), (8, 1), (16, 5)]) ready any = true := by decide +kernel
theorem test_tdSetUtcInfo : meets tdSetUtcInfoDef same (job [(4, 3), (5, 16)]) ready any = true := by decide +kernel
theorem test_tdHandover :
    (meets tdHandoverDef same (job [(4, 0), (8, 1)]) ready (fun p s => p.u 4 1 == s.tcr.active.val) &&
    meets tdHandoverDef same (job [(4, 1), (8, 1)]) (ready.setDom 1 fun x => { x with valid := true })
      (fun p s => p.u 4 1 != s.tcr.active.val)) = true := by decide +kernel
theorem test_tdReadLedger : meets tdReadLedgerDef same (job [(4, 4)]) ready any = true := by decide +kernel
theorem test_tdSetReturnPolicy : meets tdSetReturnPolicyDef same (job [(4, 3)]) ready any = true := by decide +kernel
theorem test_ensConfigMember : meets ensConfigMemberDef same (job [(5, 0xFF), (8, 1), (12, 1), (20, 1)]) ready any = true := by decide +kernel
theorem test_ensReadState : meets ensReadStateDef same (job []) ready any = true := by decide +kernel
theorem test_ensSetPolicy : meets ensSetPolicyDef same (job [(4, 30), (5, 2), (8, 1), (12, 1), (16, 100)]) ready any = true := by decide +kernel
theorem test_refConfig :
    (meets refConfigDef same (job [(4, 31), (7, 0xFF)]) ready (fun p _ => p.u 5 1 == 0) &&
    meets refConfigDef same (job [(4, 0), (5, 1), (7, 0xFF), (8, 10000000)]) ready any) = true := by decide +kernel
theorem test_refSetThresholds : meets refSetThresholdsDef same (job [(5, 1), (6, 1), (8, 1), (12, 1), (16, 1), (20, 1), (24, 10), (28, 1),
    (32, 1), (36, 8), (40, 1), (44, 1), (48, 1)]) ready any = true := by decide +kernel
theorem test_refClearHistory : meets refClearHistoryDef same (job [(4, 0xFF), (6, 0x7FFF)]) ready any = true := by decide +kernel
theorem test_refReadStatus :
    (meets refReadStatusDef same (job [(4, 31)]) ready (fun p _ => p.u 5 1 == 0) &&
    meets refReadStatusDef same (job [(4, 7), (5, 1)]) ready (fun p _ => p.u 5 1 == 1)) = true := by decide +kernel
/-- REF_SET_PRIORITY of DPLL 0 with one candidate. -/
def priJob : Job := job [(5, 1), (16, 3), (17, 2 ^ 56 - 1)]
theorem test_refSetPriority :
    (meets refSetPriorityDef same priJob ready (fun p s => !inSwitch (s.dpllOf (p.u 4 1))) &&
    meets refSetPriorityDef same priJob (frozen0 ready) (fun p s => inSwitch (s.dpllOf (p.u 4 1)))) = true := by decide +kernel
/-- Entry 3 can be selected, and DPLL 0 has a selection. -/
def pickable (st : DpllState) (sel : Option (Fin 32)) : State :=
  (ready.setRef 3 fun e => { e with enable := true, st := .qualified, los := false, arrived := true }).setDpll 0 fun x =>
    { x with st := st, selected := sel }
theorem test_refForceSelect :
    (meets refForceSelectDef same (job [(5, 3)]) (pickable .locked (some 3)) (fun p s => decide (inSwitch (s.dpllOf (p.u 4 1)) = false ∧
      p.u 5 1 < 32 ∧ (s.dpllOf (p.u 4 1)).selected = some (Fin.ofNat 32 (p.u 5 1)))) &&
    meets refForceSelectDef same (job [(5, 3)]) (pickable .freerun none) (fun p s => decide (inSwitch (s.dpllOf (p.u 4 1)) = false ∧
      p.u 5 1 < 32 ∧ (s.dpllOf (p.u 4 1)).selected ≠ some (Fin.ofNat 32 (p.u 5 1)))) &&
    meets refForceSelectDef same (job [(5, 3)]) (frozen0 (pickable .locked none)) (fun p s => inSwitch (s.dpllOf (p.u 4 1)))) = true := by
  decide +kernel
theorem test_refForceRelease :
    (meets refForceSelectDef (withByte 5 0xFF) (job []) ready (fun p s => !inSwitch (s.dpllOf (p.u 4 1))) &&
    meets refForceSelectDef (withByte 5 0xFF) (job []) (frozen0 ready) (fun p s => inSwitch (s.dpllOf (p.u 4 1)))) = true := by
  decide +kernel
theorem test_dpllPhaseStep :
    (meets dpllPhaseStepDef same (job [(8, 5)]) ready (fun p s => !inSwitch (s.dpllOf (p.u 4 1))) &&
    meets dpllPhaseStepDef same (job [(8, 5)]) (frozen0 ready) (fun p s => inSwitch (s.dpllOf (p.u 4 1)))) = true := by decide +kernel
theorem test_dpllConfig : meets dpllConfigDef same (job [(8, 1), (12, 50), (16, 1), (20, 1), (24, 1), (28, 1), (32, 1)]) ready any = true := by
  decide +kernel
theorem test_dpllSteerPpt : meets dpllSteerPptDef same (job [(4, 7), (8, 5)]) ready any = true := by decide +kernel
theorem test_dpllSetModeAutomatic :
    (meets dpllSetModeDef (withByte 5 0) (job []) ready (fun p s => !inSwitch (s.dpllOf (p.u 4 1))) &&
    meets dpllSetModeDef (withByte 5 0) (job []) (frozen0 ready) (fun p s => inSwitch (s.dpllOf (p.u 4 1)))) = true := by
  decide +kernel
theorem test_dpllSetModeFreerun :
    (meets dpllSetModeDef (withByte 5 1) (job []) (dpll0 .holdover)
      (fun p s => !inSwitch (s.dpllOf (p.u 4 1)) && (s.dpllOf (p.u 4 1)).st != .freerun) &&
    meets dpllSetModeDef (withByte 5 1) (job []) ready (fun p s => !inSwitch (s.dpllOf (p.u 4 1)) && (s.dpllOf (p.u 4 1)).st == .freerun) &&
    meets dpllSetModeDef (withByte 5 1) (job []) (frozen0 ready) (fun p s => inSwitch (s.dpllOf (p.u 4 1)))) = true := by
  decide +kernel
/-- A holdover value. -/
def aValue : HoldValue := { h := 0, sigma := {}, slope := 0, tw := 0 }
/-- DPLL 0 in a state with a holdover value. -/
def withHold (st : DpllState) : State := (dpll0 st).setHold 0 fun h => { h with value := some aValue }
theorem test_dpllSetModeHoldover :
    (meets dpllSetModeDef (withByte 5 2) (job []) (withHold .locked) (fun p s => !inSwitch (s.dpllOf (p.u 4 1)) &&
      (s.holdOf (p.u 4 1)).value == some aValue) &&
    meets dpllSetModeDef (withByte 5 2) (job []) (frozen0 (withHold .locked)) (fun p s => inSwitch (s.dpllOf (p.u 4 1)))) = true := by
  decide +kernel
theorem test_holdConfig : meets holdConfigDef same (job [(8, 1), (24, 1), (28, 1)]) ready any = true := by decide +kernel
theorem test_holdReadArchive : meets holdReadArchiveDef same (blockJob [(24, 12)] [(8, 1)] 16) ready any = true := by decide +kernel
theorem test_oscSteerConfig : meets oscSteerConfigDef same (job [(4, 0xFF), (6, 8), (12, 1), (16, 1), (20, 2048), (25, 0xFF)]) ready any = true := by
  decide +kernel
/-- 10 GHz in units of 2^-16 Hz. -/
def tenGHz : Nat := 655360000000000
theorem test_apllConfig : meets apllConfigDef same (job [(5, 0xFF), (6, 200), (8, tenGHz), (16, 10)]) ready any = true := by decide +kernel
theorem test_apllRetune :
    (meets apllRetuneDef same (job [(8, tenGHz), (16, 10)]) (ready.setApll 0 fun a => { a with loop := .locked })
      (fun p s => !takesLarge s p) &&
    meets apllRetuneDef same (job [(5, 1), (8, tenGHz), (16, 10)]) (ready.setApll 0 fun a => { a with loop := .locked })
      (fun p s => takesLarge s p)) = true := by decide +kernel
/-- OUT_CONFIG of output 0 as it stands after reset. -/
def outJob : Job := job [(8, 1000), (20, 400), (22, 1), (24, 100)]
theorem test_outConfig :
    (meets outConfigDef (withByte 5 0) outJob ready (fun p s => !(s.outOf (p.u 4 1)).held && (s.outOf (p.u 4 1)).st != .running &&
      !(s.outOf (p.u 4 1)).startDue) &&
    meets outConfigDef (withByte 5 0) outJob (ready.setOut 0 fun x => { x with st := .running })
      (fun p s => (s.outOf (p.u 4 1)).st == .running && !(s.outOf (p.u 4 1)).held) &&
    meets outConfigDef (withByte 5 0) outJob (ready.setOut 0 fun x => { x with st := .running, held := true })
      (fun p s => (s.outOf (p.u 4 1)).held) &&
    meets outConfigDef (withByte 5 0) outJob (ready.setOut 0 fun x => { x with startDue := true })
      (fun p s => !(s.outOf (p.u 4 1)).held && (s.outOf (p.u 4 1)).st != .running && (s.outOf (p.u 4 1)).startDue)) = true := by
  decide +kernel
theorem test_outConfigStage : meets outConfigDef (withByte 5 1) outJob ready any = true := by decide +kernel
theorem test_outEnable :
    (meets outEnableDef same (job [(4, 0x800001), (7, 2)]) (ready.setApll 0 fun a => { a with loop := .locked }) (fun p s => decide (p.u 7 1 = 2 ∧
      ∀ o : Fin 24, (p.u 4 3).testBit o.val → s.fso.out[o].st ≠ .running → holdsStart s s.fso.out[o].apll.val = false)) &&
    meets outEnableDef same (job [(4, 1), (7, 2)]) ready (fun p s => decide (p.u 7 1 = 2 ∧
      ∃ o : Fin 24, (p.u 4 3).testBit o.val ∧ s.fso.out[o].st ≠ .running ∧ holdsStart s s.fso.out[o].apll.val = true)) &&
    meets outEnableDef same (job [(4, 1), (7, 1)]) ready (fun p _ => p.u 7 1 != 2)) = true := by decide +kernel
theorem test_outPhaseStep :
    (meets outPhaseStepDef same (job [(5, 1), (8, 5), (12, 1)]) (ready.setOut 0 fun x => { x with st := .running })
      (fun p s => (s.outOf (p.u 4 1)).st == .running && !(s.outOf (p.u 4 1)).held) &&
    meets outPhaseStepDef same (job [(5, 1), (8, 5), (12, 1)]) ready (fun p s => (s.outOf (p.u 4 1)).st != .running)) = true := by
  decide +kernel
theorem test_outSetCeiling : meets outSetCeilingDef same (job [(8, 1700000000)]) ready any = true := by decide +kernel
theorem test_ppsConfig : meets ppsConfigDef same (job [(8, 1), (16, 100)]) ready any = true := by decide +kernel
theorem test_irigConfig : meets irigConfigDef same (job []) ready any = true := by decide +kernel
theorem test_todConfig : meets todConfigDef same (job [(8, 9600), (12, 1)]) ready any = true := by decide +kernel
theorem test_evtConfig : meets evtConfigDef same (job [(4, 15), (12, 1)]) ready (fun p _ => p.u 4 1 != 0xFF) = true := by decide +kernel
theorem test_evtConfigThreshold : meets evtConfigDef (withByte 4 0xFF) (job [(12, 1)]) ready any = true := by decide +kernel
theorem test_evtDrain : meets evtDrainDef same (blockJob [(24, 32)] [(0, 1)] 8) ready any = true := by decide +kernel

/-- Lane 0 in a state. -/
def lane0 (st : LaneState) : State := ready.setLane 0 fun x => { x with st := st }
theorem test_laneConfig : meets laneConfigDef same (job [(6, 1), (16, 10), (18, 10), (20, 1), (24, 1)]) ready any = true := by decide +kernel
theorem test_laneEnable : meets laneEnableDef same (job []) ready any = true := by decide +kernel
theorem test_laneDisable :
    (meets laneDisableDef same (job []) (lane0 .low) (fun p s => (s.laneOf (p.u 4 1)).st != .up) &&
    meets laneDisableDef same (job []) (lane0 .up) (fun p s => (s.laneOf (p.u 4 1)).st == .up)) = true := by decide +kernel
theorem test_lanePrbsConfig :
    (meets lanePrbsConfigDef same (job [(5, 1), (10, 1)]) ready (fun p s => p.u 5 1 != 0 && (s.laneOf (p.u 4 1)).st == .down) &&
    meets lanePrbsConfigDef same (job [(5, 1), (10, 1)]) (lane0 .prbs) (fun p s => p.u 5 1 != 0 && (s.laneOf (p.u 4 1)).st == .prbs)) = true := by
  decide +kernel
theorem test_lanePrbsLeave :
    (meets lanePrbsConfigDef (withByte 5 0) (job [(10, 1)]) ready (fun p s => (s.laneOf (p.u 4 1)).st != .prbs) &&
    meets lanePrbsConfigDef (withByte 5 0) (job [(10, 1)]) (lane0 .prbs) (fun p s => (s.laneOf (p.u 4 1)).st == .prbs)) = true := by decide +kernel
theorem test_laneEqConfig : meets laneEqConfigDef same (job [(7, 1), (8, 1000), (12, 50)]) ready
    (fun p s => (s.laneOf (p.u 4 1)).frozen || (s.laneOf (p.u 4 1)).st == .down) = true := by decide +kernel
theorem test_laneRecoveredClockSelect : meets laneRecoveredClockSelectDef same (job [(4, 3), (5, 23)]) ready
    (fun p s => !(s.refEntry (12 + p.u 4 1)).enable) = true := by decide +kernel
theorem test_laneReadStatus : meets laneReadStatusDef same (job []) ready
    (fun p s => (s.laneOf (p.u 4 1)).frozen || (s.laneOf (p.u 4 1)).st == .down) = true := by decide +kernel
theorem test_lanePrbsRead :
    (meets lanePrbsReadDef same (job []) (lane0 .prbs) (fun p s => (s.laneOf (p.u 4 1)).prbs.syncAt.isNone) &&
    meets lanePrbsReadDef same (job [(5, 1)]) ((lane0 .prbs).setLane 0 fun x => { x with prbs := { x.prbs with syncAt := some 0 } })
      (fun p s => (s.laneOf (p.u 4 1)).prbs.syncAt.isSome)) = true := by decide +kernel
theorem test_tsPortConfig :
    (meets tsPortConfigDef same (job [(5, 1)]) ready (fun p _ => p.u 5 1 == 1) &&
    meets tsPortConfigDef same (job []) ready (fun p _ => p.u 5 1 == 0)) = true := by decide +kernel
theorem test_tsReadLatency : meets tsReadLatencyDef same (job [(5, 1)]) ready any = true := by decide +kernel
theorem test_tsSetAsymmetry : meets tsSetAsymmetryDef same (job [(8, 5)]) ready
    (fun p s => (List.finRange 32).all fun r => !(s.rim.ref[r]).port.any fun x => x.val == p.u 4 1) = true := by decide +kernel
theorem test_tsLaunchConfig : meets tsLaunchConfigDef same (job [(4, 0xFF), (6, 16), (8, 20000), (16, 1000), (20, 64)]) ready any = true := by
  decide +kernel
theorem test_ptpInstanceConfig : meets ptpInstanceConfigDef same (job [(8, 1), (11, 18), (24, 127), (26, 140), (32, 2 ^ 32 - 1)]) ready
    (fun p s => decide ((s.instOf (p.u 4 1)).enable = false ∧ (p.u 5 1 = 0 ∨ ∀ q : Fin 24, (s.piOf q.val (p.u 4 1)).enable = false))) = true := by
  decide +kernel
/-- PTP_PORT_CONFIG of port-instance 0 of lane 0. -/
def piJob : Job := job [(8, 0xFFFF), (12, 1), (15, 3), (16, 128)]
theorem test_ptpPortConfig : meets ptpPortConfigDef same piJob ready (fun p s => decide (p.u 5 1 ≠ 0xFF ∧
    (s.instOf (p.u 5 1)).enable = false ∧ (s.instOf (p.u 5 1)).bmcaDue = false ∧
    ∀ q : Fin 24, (s.piOf q.val (p.u 5 1)).st = .disabled)) = true := by decide +kernel
theorem test_ptpPortConfigPortForm : meets ptpPortConfigDef (withByte 5 0xFF) (job [(18, 1)]) ready
    (fun p s => (List.range 8).all fun i => !piEnabled s (p.u 4 1) i) = true := by decide +kernel
theorem test_ptpReadPortState :
    (meets ptpReadPortStateDef same (job [(5, 0xFF)]) ready (fun p _ => p.u 5 1 == 0xFF) &&
    meets ptpReadPortStateDef same (job [(5, 7)]) ready (fun p _ => p.u 5 1 != 0xFF)) = true := by decide +kernel
theorem test_ptpUnicastPolicy : meets ptpUnicastPolicyDef same (job [(10, 60), (16, 60)]) ready any = true := by decide +kernel
theorem test_ptpPrpPair : meets ptpPrpPairDef same (job [(8, 100), (10, 100)]) ready
    (fun _ s => (List.range 8).all fun i => !(s.instOf i).enable) = true := by decide +kernel
theorem test_ntpServerConfig : meets ntpServerConfigDef same (job [(7, 1), (8, 1)]) ready (fun p _ => p.u 10 1 != 1) = true := by decide +kernel
theorem test_ntpServerRead : meets ntpServerConfigDef (withByte 10 1) (blockJob [(24, 64)] [] 64) ready (fun p _ => p.u 10 1 == 1) = true := by decide +kernel
theorem test_ntsConfigServer : meets ntsConfigDef (withByte 4 0) (job [(5, 1), (6, 1)]) keyed (fun p _ => p.u 4 1 == 0) = true := by decide +kernel
theorem test_ntsConfigClient : meets ntsConfigDef (withByte 4 1) (job [(6, 1), (7, 2)]) keyed (fun p _ => p.u 4 1 == 1) = true := by decide +kernel
theorem test_ntpClientConfig : meets ntpClientConfigDef same (job [(6, 18), (12, 0xFFFF), (14, 123)]) ready any = true := by decide +kernel
theorem test_ntpRatePolicy : meets ntpRatePolicyDef same (job [(4, 0xFF), (7, 1), (8, 1), (10, 1), (12, 1), (16, 60)]) ready any = true := by
  decide +kernel
theorem test_ledgerQuery : meets ledgerQueryDef same (job [(20, 0xFF)]) ready any = true := by decide +kernel
theorem test_ledgerEvict : meets ledgerEvictDef same (job [(4, 2)]) ready (fun _ s => s.tpe.ledger.isEmpty) = true := by decide +kernel
theorem test_ledgerExport : meets ledgerExportDef same (blockJob [(24, 24)] [(4, 1)] 12) ready any = true := by decide +kernel
/-- GNSS_CONFIG with a receiver enabled or not. -/
def gnssJob (on : Nat) : Job := job [(4, on), (5, 1), (6, 1), (7, 1), (11, 20), (12, 10), (16, 60), (20, 1), (22, 3), (24, 40), (25, 1), (26, 1),
  (31, 1)]
/-- The receiver in a state. -/
def gnssIn (st : GnssState) : State := { ready with gtr := { ready.gtr with st := st, cfg := { ready.gtr.cfg with enable := st != .idle } } }
theorem test_gnssConfig :
    (meets gnssConfigDef same (gnssJob 1) ready (fun p s => p.u 4 1 == 1 && !s.gtr.cfg.enable) &&
    meets gnssConfigDef same (gnssJob 0) (gnssIn .search) (fun p s => p.u 4 1 == 0 && s.gtr.cfg.enable)) = true := by decide +kernel
theorem test_gnssSurveyStart : meets gnssSurveyDef (withByte 4 0) (job [(8, 60), (12, 60), (16, 10)]) (gnssIn .search) any = true := by decide +kernel
theorem test_gnssSurveyLoadPosition : meets gnssSurveyDef (withByte 4 1) (job [(44, 1)]) (gnssIn .search) any = true := by decide +kernel
theorem test_gnssSurveyReleaseHold : meets gnssSurveyDef (withByte 4 2) (job []) (gnssIn .hold) any = true := by decide +kernel
theorem test_gnssReadStatus : meets gnssReadStatusDef same (job []) ready any = true := by decide +kernel
theorem test_gnssNotchConfig : meets gnssNotchConfigDef same (job [(16, 20), (18, 3)]) ready any = true := by decide +kernel
theorem test_gnssAidingLoad : meets gnssAidingLoadDef same (blockJob [] [(0, 1)] 4) ready any = true := by decide +kernel
/-- SAMP_PORT_CONFIG. -/
def dirJob (on : Nat) : Job := job [(6, on), (9, 1), (10, 16), (16, 0xFF), (20, 1000)]
theorem test_sampPortConfig :
    (meets sampPortConfigDef same (dirJob 1) ready (fun p _ => p.u 6 1 == 1) &&
    meets sampPortConfigDef same (dirJob 0) ready (fun p _ => p.u 6 1 == 0)) = true := by decide +kernel
theorem test_sampSlotMask : meets sampSlotMaskDef same (job [(4, 7), (5, 1), (8, 3)]) ready any = true := by decide +kernel
theorem test_sampGroupConfigChannel : meets sampGroupConfigDef (withByte 4 0) (job [(6, 1), (13, 0xFF), (16, 1000000)]) ready any = true := by
  decide +kernel
theorem test_sampGroupConfigGroup : meets sampGroupConfigDef (withByte 4 1) (job [(6, 1), (8, 1), (12, 20000)]) ready any = true := by decide +kernel
theorem test_sampGroupConfigStatus : meets sampGroupConfigDef (withByte 4 2) (job []) ready any = true := by decide +kernel
theorem test_svMonitorConfig : meets svMonitorConfigDef same (job [(4, 255), (6, 1), (8, 0x4000), (16, 1), (18, 1), (20, 1)]) ready any = true := by
  decide +kernel
theorem test_svMonitorRead : meets svMonitorReadDef same (job [(6, 1)]) (setStream 0 (fun r => { r with lastE := some 1, lastD := some 2 }) ready)
    (fun p s => (streamOf s (p.u 4 2)).lastE == some 1 && (streamOf s (p.u 4 2)).lastD == some 2) = true := by decide +kernel
theorem test_calReadFactory : meets calReadFactoryDef same (job [(4, 0x100)]) ready any = true := by decide +kernel
theorem test_calReadEffective : meets calReadEffectiveDef same (job [(4, 0x100)]) ready any = true := by decide +kernel
theorem test_calWriteUser : meets calWriteUserDef same (job [(4, 0x2100), (8, 5)]) ready
    (fun p _ => [0x21, 0x22, 0x23, 0x40, 0x41].contains (p.u 4 2 / 256)) = true := by decide +kernel
theorem test_calCommitUser :
    (meets calCommitUserDef same (job [(2, 1), (4, 1)]) keyed (fun _ s => s.mbx.flights.all fun f => f.hold != .flash) &&
    meets calCommitUserDef same (job [(2, 1), (4, 1)]) (waiting .flash keyed) (fun _ s => s.mbx.flights.any fun f => f.hold == .flash)) = true := by
  decide +kernel
theorem test_supRead :
    (meets supReadDef same (job [(4, 7), (5, 1)]) ready (fun p _ => p.u 4 1 < 8) &&
    meets supReadDef same (job [(4, 12), (5, 1)]) ready (fun p _ => 8 ≤ p.u 4 1 && p.u 4 1 < 13) &&
    meets supReadDef same (job [(4, 13)]) ready (fun p _ => p.u 4 1 == 13)) = true := by decide +kernel
theorem test_supSetThresholds :
    (meets supSetThresholdsDef same (job [(4, 6), (8, 40), (10, 70)]) ready (fun p s => decide (∃ r : Fin 8, p.u 4 1 = r.val ∧
      (s.srt.rail[r].below = true ∨
        (if r.val = 7 then p.u 8 2 else ceilDiv (railNominal r * (1000 - p.u 8 2)) 1000) ≤ s.srt.rail[r].now) ∧
      (r.val < 7 → ceilDiv (railNominal r * (1000 - p.u 10 2)) 1000 ≤ s.srt.rail[r].now))) &&
    meets supSetThresholdsDef same (job [(4, 8), (8, 135)]) ready (fun p s => decide (8 ≤ p.u 4 1 ∧
      (vget s.srt.sensor (p.u 4 1 - 8) {}).now ≤ p.i 8 2 * 64)) &&
    meets supSetThresholdsDef same (job [(4, 0), (8, 20), (10, 30)]) (ready.setRail 0 fun x => { x with now := 700 })
      (fun p s => decide (∃ r : Fin 8, p.u 4 1 = r.val ∧ r.val < 7 ∧
        s.srt.rail[r].now < ceilDiv (railNominal r * (1000 - p.u 10 2)) 1000))) = true := by decide +kernel

/-! ## Events and host accesses -/

namespace Events

/-! ### Events of time -/

/-- The engine with its impression sequencer running. -/
def ticking : State := { ready with tcr := { ready.tcr with seq := { ready.tcr.seq with running := true } } }
/-- No overrun and no DMA data. -/
def aBoundary : BoundaryIn := { overrun := 0, dma := [] }
/-- The engine 60 µs before a second, with a leap second due and time valid. -/
def lastImp : State := ticking.setDom 0 fun d =>
  { d with count := 5 * secU - 60000 * nsU, valid := true, leap := .insert, leapSecond := 0, utcOffset := 37 }
/-- A job that has posted nothing yet. -/
def held (h : Hold) (code : BitVec 16) (l : List (Nat × Nat)) : Flight :=
  { job := { ring := 4, desc := BitVec.ofNat 512 (l.map fun x => x.2 * 2 ^ (8 * x.1)).sum, block := [] }, code := code, hold := h, order := 0 }
/-- A state with one job in flight. -/
def waiting (h : Hold) (s : State) : State := { s with mbx := { s.mbx with flights := [held h 0 []], fetched := 1 } }
def waitingFor (h : Hold) (code : BitVec 16) (l : List (Nat × Nat)) (s : State) : State :=
  { s with mbx := { s.mbx with flights := [held h code l], fetched := 1 } }
def chipDue : State := waiting .imposition { ticking with cpx := { ticking.cpx with chipResetDue := true } }
def warmIsDue : State := waiting .imposition { ticking with cpx := { ticking.cpx with warmDue := some true } }
/-- An imposition change waits for its boundary. -/
def changing : State := waiting .imposition
  { lastImp with cpx := { lastImp.cpx with nextImposition := some .quarto }, peu := { lastImp.peu with fifo := [1] } }
/-- Domain 0 with a step that waits. -/
def stepping (p : PendingStep) (count : Nat) : State :=
  (ticking.setRef 18 fun e => { e with tod := some 100 }).setDom 0 fun d =>
    { d with pending := some p, count := count, timeSource := some 18 }
def remaining : State := { ticking with tcr := { ticking.tcr with remainder := 100 } }
def slewing : State := ticking.setDom 1 fun d => { d with slew := some { ppb := 100, remaining := -100 } }
def moving : State := ticking.setDpll 2 fun d => { d with moving := 1, stepMoving := true }
def following : State :=
  let s := ticking.setDpll 3 fun d => { d with st := .locked, selected := some 5 }
  let s := s.setDom 2 fun d => { d with dpll := some 3, ledger := { d.ledger with confirming := some 960000, cSupply := 7, cHold := 9 } }
  { s with rim := { s.rim with ref := (s.rim.ref.set 5 { s.rim.ref[5] with enable := true, timeKind := true, st := .qualified }) } }
def charged : State := following.setDom 2 fun d => { d with ledger := { d.ledger with confirming := none } }

/-- A domain that follows no DPLL moves by one increment in a cycle, while nothing slews. -/
theorem dom_plain (s : State) (d m : Nat) (h0 : (s.domain 0).slew = none) (h1 : (s.domain 1).slew = none)
    (h2 : (s.domain 2).slew = none) (h3 : (s.domain 3).slew = none) (hd : (s.domain d).dpll = none) :
    domMove s d m = ((m * nsU : Nat) : Int) := by
  have hs : ∀ e, e < 4 → slewPart s e m = 0 := by
    intro e he
    unfold slewPart
    obtain rfl | rfl | rfl | rfl : e = 0 ∨ e = 1 ∨ e = 2 ∨ e = 3 := by omega
    · rw [h0]
    · rw [h1]
    · rw [h2]
    · rw [h3]
  unfold domMove baseInc
  rw [hd]
  simp only [List.range, List.range.loop, List.map, List.sum_cons, List.sum_nil, hs 0 (by omega), hs 1 (by omega),
    hs 2 (by omega), hs 3 (by omega), ite_self]
  omega

theorem lands_at (m : Nat) :
    (4 * secU - 60000 * nsU) / 10 ^ 42 * 10 ^ 42 + 10 ^ 42 ≤ countAfter (stepping (.absolute 100 5) (4 * secU - 60000 * nsU)) 0 m ↔
      60000 ≤ m := by
  unfold countAfter
  rw [dom_plain _ 0 m rfl rfl rfl rfl rfl, show ((stepping (.absolute 100 5) (4 * secU - 60000 * nsU)).domain 0).count =
    4 * secU - 60000 * nsU from rfl]
  simp only [secU, nsU]
  omega
theorem remains_until (m : Nat) : remainderAfter remaining m = 0 ↔ 1 ≤ m := by
  unfold remainderAfter moveBy
  rw [dom_plain remaining _ m rfl rfl rfl rfl rfl, show remaining.tcr.remainder = 100 from rfl,
    show remaining.tcr.slewPpb = 100 from rfl, if_pos (by decide)]
  simp only [nsU]
  omega
theorem slews_until (m : Nat) : slewRemainder slewing 1 - slewPart slewing 1 m = 0 ↔ 1 ≤ m := by
  unfold slewRemainder slewPart moveBy
  rw [show (slewing.domain 1).slew = some { ppb := 100, remaining := -100 } from rfl, show baseInc slewing 1 = nsU from rfl]
  simp only [nsU]
  rw [if_neg (by decide)]
  omega
theorem moves_until (m : Nat) : (moving.dpllOf 2).moving - movePart moving 2 m = 0 ↔ 1 ≤ m := by
  unfold movePart moveBy
  rw [show (moving.dpllOf 2).moving = 1 from rfl, show (moving.dpllOf 2).phaseSlope = 100 from rfl, if_pos (by decide)]
  simp only [nsU]
  omega

def atTimeStepLand1 : State := stepping (.absolute 100 5) (3 * secU)

def atTimeStepLand2 : State := stepping (.relative 65536000 5) (3 * secU)

def atTimeStepLand3 : State := stepping (.return 5) (3 * secU)

def atTimeStepLand3b : State := stepping (.adopt 18) (3 * secU)

def atTimeStepLand4 : State := stepping (.absolute 100 5) (4 * secU - 60000 * nsU)

theorem test_impressionBoundary :
    (sequences ticking ∧ quiet ticking ∧ defaultSources ticking) ∧
    (sequences lastImp ∧ quiet lastImp ∧ defaultSources lastImp) ∧
    (sequences chipDue ∧ chipDue.cpx.chipResetDue = true) ∧
    (sequences warmIsDue ∧ warmIsDue.fwRuns = true ∧ warmIsDue.cpx.chipResetDue = false ∧
      warmIsDue.cpx.warmDue = some true ∧ defaultSources warmIsDue) := by
  refine ⟨?_, ?_, ?_, ?_⟩ <;> decide +kernel

theorem test_secondBoundary :
    sequences lastImp ∧ quiet lastImp ∧ defaultSources lastImp ∧ (nextBoundary lastImp).seq.imp = 0 := by decide +kernel

theorem test_impositionChange :
    sequences changing ∧ changing.fwRuns = true ∧ (settled changing fun h => h == Hold.imposition) ∧
      defaultSources changing ∧ changing.cpx.nextImposition = some Imposition.quarto ∧
      (nextBoundary changing).seq.imp = 0 := by decide +kernel

theorem test_timeStepLand :
    (atTimeStepLand1.clocked = true ∧ atTimeStepLand1.clockOk = true ∧
      atTimeStepLand1.tcr.dom[0].pending = some (PendingStep.absolute 100 5) ∧
      atTimeStepLand1.tcr.dom[0].count % 10 ^ 42 < 10 ^ 33 ∧ atTimeStepLand1.tcr.dom[0].ledger.modelLost = false ∧
      ∀ (r : Fin 32), PendingStep.absolute 100 5 = PendingStep.adopt r → atTimeStepLand1.tcr.dom[0].timeSource = some r ∧
      givesTod atTimeStepLand1 ↑r = true) ∧
    (atTimeStepLand2.clocked = true ∧ atTimeStepLand2.clockOk = true ∧
      atTimeStepLand2.tcr.dom[0].pending = some (PendingStep.relative 65536000 5) ∧
      atTimeStepLand2.tcr.dom[0].count % 10 ^ 42 < 10 ^ 33 ∧ atTimeStepLand2.tcr.dom[0].ledger.modelLost = false ∧
      ∀ (r : Fin 32), PendingStep.relative 65536000 5 = PendingStep.adopt r → atTimeStepLand2.tcr.dom[0].timeSource = some r ∧
      givesTod atTimeStepLand2 ↑r = true) ∧
    (atTimeStepLand3.clocked = true ∧ atTimeStepLand3.clockOk = true ∧
      atTimeStepLand3.tcr.dom[0].pending = some (PendingStep.return 5) ∧
      atTimeStepLand3.tcr.dom[0].count % 10 ^ 42 < 10 ^ 33 ∧ atTimeStepLand3.tcr.dom[0].ledger.modelLost = false ∧
      ∀ (r : Fin 32), PendingStep.return 5 = PendingStep.adopt r → atTimeStepLand3.tcr.dom[0].timeSource = some r ∧
      givesTod atTimeStepLand3 ↑r = true) ∧
    (atTimeStepLand3b.clocked = true ∧ atTimeStepLand3b.clockOk = true ∧
      atTimeStepLand3b.tcr.dom[0].pending = some (PendingStep.adopt 18) ∧
      atTimeStepLand3b.tcr.dom[0].count % 10 ^ 42 < 10 ^ 33 ∧
      atTimeStepLand3b.tcr.dom[0].ledger.modelLost = false ∧
      ∀ (r : Fin 32), PendingStep.adopt 18 = PendingStep.adopt r → atTimeStepLand3b.tcr.dom[0].timeSource = some r ∧
      givesTod atTimeStepLand3b ↑r = true) ∧
    (atTimeStepLand4.clocked = true ∧ atTimeStepLand4.clockOk = true ∧
      atTimeStepLand4.tcr.dom[0].pending = some (PendingStep.absolute 100 5) ∧
      (∀ (r : Fin 32), PendingStep.absolute 100 5 = PendingStep.adopt r → atTimeStepLand4.tcr.dom[0].timeSource = some r ∧
      givesTod atTimeStepLand4 ↑r = true) ∧ 10 ^ 33 ≤ atTimeStepLand4.tcr.dom[0].count % 10 ^ 42 ∧
      comesAt atTimeStepLand4 (fun m => (atTimeStepLand4.tcr.dom[0].count / 10 ^ 42 + 1) * 10 ^ 42 ≤ countAfter atTimeStepLand4 (↑0) m) 60000 ∧
      countAfter atTimeStepLand4 (↑0) 60000 % 10 ^ 42 < 2 * 10 ^ 33) := by
  refine ⟨?_, ?_, ?_, ?_, ?_, ?_, ?_, ?_, ?_, ⟨?_, ?_, fun m => ?_⟩, ?_⟩
  case refine_12 =>
    rw [← lands_at m]
    exact ⟨fun h => h, fun h => h⟩
  all_goals decide +kernel

theorem test_handoverRemainderZero :
    remaining.clocked = true ∧ comesAt remaining (fun m => remainderAfter remaining m = 0) 1 :=
  ⟨by decide +kernel, by decide +kernel, by decide +kernel, remains_until⟩

theorem test_slewEnd :
    slewing.clocked = true ∧ comesAt slewing (fun m => slewRemainder slewing ↑1 - slewPart slewing (↑1) m = 0) 1 :=
  ⟨by decide +kernel, by decide +kernel, by decide +kernel, slews_until⟩

theorem test_phaseStepMovementEnd :
    moving.clocked = true ∧ comesAt moving (fun m => (moving.dpllOf ↑2).moving - movePart moving (↑2) m = 0) 1 :=
  ⟨by decide +kernel, by decide +kernel, by decide +kernel, moves_until⟩

theorem test_confirmationEnd :
    following.fwRuns = true ∧ following.tcr.dom[2].ledger.confirming = some 960000 ∧
      8000 * following.tcr.dom[2].confirmS ≤ 960000 ∧ followedRef following ↑2 = some ↑5 := by decide +kernel

theorem test_supplyChargeRelease :
    charged.srt.dip = false ∧ charged.tcr.dom[2].dpll = some 3 ∧ charged.dsb.dpll[3].selected = some 5 ∧
      follows charged.dsb.dpll[3] = true ∧ isTimeRef charged ↑5 = true ∧
      charged.rim.ref[5].st = RefState.qualified ∧ charged.tcr.dom[2].ledger.holdover = false ∧
      charged.tcr.dom[2].ledger.confirming = none ∧
      ∀ (c : ℕ), charged.srt.dipEnded = some c → c + 16 * 10 ^ 9 ≤ charged.tcr.cycles := by decide +kernel

/-! ### Pulses and events -/

def onSecond : State :=
  let s := { ticking with tcr := { ticking.tcr with dom := ticking.tcr.dom.map fun (d : Domain) => { d with count := 7 * secU, valid := true } } }
  { s with peu := { s.peu with
    pps := s.peu.pps.map fun (x : Pps) => { x with st := .running, gate := 0 }
    irig := s.peu.irig.map fun (x : Irig) => { x with st := .running }
    tod := s.peu.tod.map fun (x : Tod) => { x with st := .running, gate := 0 } } }
def todDue : State :=
  { onSecond with tcr := { onSecond.tcr with cycles := 20000000 } }.setTod 0 fun x => { x with due := [(7, 0), (8, 5)] }
/-- Input 3 takes both edges and filters 50 ns; it has `n` records. -/
def edges (n : Nat) : State := { ready with peu := { ready.peu with evt := (ready.peu.evt.set 3 { ready.peu.evt[3] with
  enable := true, edge := 2, filterNs := 50, queue := List.replicate n 0 }) } }
def fifoFull : State := { edges 3 with peu := { (edges 3).peu with fifo := List.replicate (fifoCapacity ready - 1) 0 } }

/-! ### Ensemble and holdover -/

def cycleDue : State :=
  let s := waiting .cycle { ready with ehu := { ready.ehu with nextPolicy := some { outlierK := 40 }, due := true } }
  { s with ehu := { s.ehu with member := (s.ehu.member.set 2 { s.ehu.member[2] with next := some { enable := true, source := .ref 4 }, weight := 1 }) } }
def deweighted (r : Nat) : State := { ready with ehu := { ready.ehu with
  policy := { ready.ehu.policy with reinstateS := r }
  member := (ready.ehu.member.set 2 { ready.ehu.member[2] with cfg := { source := .ref 4 }, dew := .zero 600 }) } }
def inWarm : State := { ready with mbx := { ready.mbx with fwReady := false, restarting := true },
                                   cpx := { ready.cpx with warm := some { byJob := true, reload := false, since := 0 } } }
def aValue : HoldValue := { h := 5, sigma := {}, slope := 1, tw := 1600 }
def anEntry : ArchEntry := { freq := 4, temp := 1600, ref := none, usable := false, drifting := false, excursion := false,
                             steered := false, secondLo := 9, second := 9 }
def inHoldover : State :=
  let s := ready.setDpll 1 fun d => { d with st := .holdover }
  let s := s.setDom 3 fun d => { d with dpll := some 1 }
  { s with cpx := { s.cpx with impressions := 80000 }
           ehu := { s.ehu with holdDue := true, hold := (s.ehu.hold.set 1 { s.ehu.hold[1] with used := some aValue, closed := [anEntry] }) } }
def steering (serial : Bool) : State :=
  let s := ready.setDpll 1 fun d => { d with control := 20000000000 }
  let s := { s with cal := { s.cal with user := [{ item := 0x4100, value := 1000000, unc := 0 }] } }
  { s with ehu := { s.ehu with steer := { s.ehu.steer with dpll := some 1, serial := serial } } }

/-! ### References and DPLLs -/

/-- Reference `r` with an entry. -/
def refs (r : Fin 32) (f : RefEntry → RefEntry) (s : State) : State :=
  { s with rim := { s.rim with ref := (s.rim.ref.set r (f s.rim.ref[r])) } }
def edgeRef (st : RefState) : State := refs 3 (fun e => { e with enable := true, timeKind := true, st := st, nominalMhz := 1000 }) ready
def jumpRef : State := refs 3 (fun e => { e with lastStamp := some 1000, firstStamp := some 0, edges := 2, lag := some (0, 0) }) (edgeRef .qualified)
def qualifyingRef (st : RefState) : State :=
  refs 3 (fun e => { e with enable := true, st := st, clean := 10, los := false }) (ready.setDpll 2 fun x => { x with restored := [3, 4] })
/-- Entry 3 has had no edge for three periods of 1 s. -/
def silent : State :=
  let s := refs 3 (fun e => { e with nominalMhz := 1000, lastEdge := some 0 }) (qualifyingRef .qualified)
  { s with tcr := { s.tcr with cycles := 3 * 10 ^ 9 } }
def candidate : State :=
  { refs 3 (fun e => { e with enable := true, st := .qualified, los := false }) (ready.setDpll 2 fun x => { x with cands := [3] }) with
    cpx := { ready.cpx with impressions := 80000 } }
def drifting : State :=
  refs 4 (fun e => { e with enable := true, st := .drifting, los := false }) (candidate.setDpll 2 fun x => { x with cands := [4, 3], restored := [3], selected := some 4, st := .locked, takeoverFor := some 240000 })
def switching (frozen : Bool) (delta : Option Int) (st : DpllState) : State :=
  candidate.setDpll 2 fun x => { x with sw := some { target := 3, frozen := frozen, delta := delta }, st := st, selected := some 4 }
def aSwitch (frozen : Bool) (delta : Option Int) : Switch := { target := 3, frozen := frozen, delta := delta }
def unselectable : State := refs 3 (fun e => { e with st := .disqualified }) (switching false none .locked)
def capturing : State := refs 3 (fun e => { e with timeKind := true, lag := some (1000, 0), tod := some 4 }) ((switching true none .switching).setDom 1 fun d => { d with dpll := some 2, valid := true })
def ownDom (s : State) : State := s.setDom 0 fun d => { d with dpll := some 2, ledger := { d.ledger with holdover := true } }
def overran : State := { switching true (some 100) .switching with tcr := { ready.tcr with ended := 2 }, cpx := { ready.cpx with impressions := 1 } }
def acquiring (bw : Nat) : State := ready.setDpll 2 fun x => { x with st := .acquiring, curBw := bw, phaseErr := -50000, inLock := 80000 }

def atEventEdge1 : State := edges 0

def atEventEdge2 : State := edges 0

def atEventEdge3 : State := edges 63

def atEventEdge4 : State := edges 64

def atEventQueueDrain1 : State := edges 3

def atDeweightEnd1 : State := deweighted 0

def atDeweightEnd2 : State := deweighted 300

def atOscSteerUpdate1 : State := steering false

def atOscSteerUpdate2 : State := steering true

def atRefEdge1 : State := edgeRef .unqualified

def atRefLos1 : State := edgeRef .unqualified

def atQualificationEnd : State := qualifyingRef .qualifying

def atDriftClear : State := qualifyingRef .drifting

def atSwitchFreeze1 : State := switching false none .holdover

def atSwitchFreeze2 : State := switching true none .holdover

def atSwitchCapture2 : State := switching true none .switching

def atSwitchRelease2 : State := ownDom (switching true (some 100) .switching)

def atDpllBandwidthHalving1 : State := acquiring 2000

def atDpllBandwidthHalving2 : State := acquiring 8000

theorem test_secondCrossing :
    onSecond.clocked = true ∧ onSecond.clockOk = true ∧ onSecond.blockRuns 10 = true ∧
      viewCount onSecond ↑4 % 10 ^ 42 < 10 ^ 33 ∧ (onSecond.domain (viewDomain onSecond ↑4)).pending = none := by decide +kernel

theorem test_todMessageSend :
    todDue.blockRuns 10 = true ∧ todDue.clockOk = true ∧ todDue.peu.tod[0].st = GenState.running ∧
      todDue.peu.tod[0].due = [(7, 0), (8, 5)] ∧ todStart todDue.peu.tod[0] 0 ≤ todDue.tcr.cycles := by decide +kernel

theorem test_eventEdge :
    (atEventEdge1.blockRuns 10 = true ∧ atEventEdge1.peu.evt[3].enable = true ∧ 49 < atEventEdge1.peu.evt[3].filterNs) ∧
    (atEventEdge2.peu.evt[3].filterNs ≤ 50 ∧
      (49 < atEventEdge2.peu.evt[3].filterNs ∨ ¬(atEventEdge2.blockRuns 10 = true ∧
      atEventEdge2.peu.evt[3].enable = true ∧
      (atEventEdge2.peu.evt[3].edge = 2 ∨ (atEventEdge2.peu.evt[3].edge = 1 ↔ true = true))))) ∧
    (ready.peu.evt[3].filterNs ≤ 50 ∧ (90 < ready.peu.evt[3].filterNs ∨ ¬(ready.blockRuns 10 = true ∧
      ready.peu.evt[3].enable = true ∧ (ready.peu.evt[3].edge = 2 ∨ (ready.peu.evt[3].edge = 1 ↔ true = true))))) ∧
    ((atEventEdge3.blockRuns 10 = true ∧ atEventEdge3.peu.evt[3].enable = true ∧
      (atEventEdge3.peu.evt[3].edge = 2 ∨ (atEventEdge3.peu.evt[3].edge = 1 ↔ false = true))) ∧
      (atEventEdge3.peu.evt[3].filterNs ≤ 50 ∧ atEventEdge3.peu.evt[3].filterNs ≤ 90) ∧
      atEventEdge3.peu.evt[3].queue.length < 64) ∧
    ((atEventEdge4.blockRuns 10 = true ∧ atEventEdge4.peu.evt[3].enable = true ∧
      (atEventEdge4.peu.evt[3].edge = 2 ∨ (atEventEdge4.peu.evt[3].edge = 1 ↔ true = true))) ∧
      (atEventEdge4.peu.evt[3].filterNs ≤ 50 ∧ atEventEdge4.peu.evt[3].filterNs ≤ 90) ∧
      64 ≤ atEventEdge4.peu.evt[3].queue.length) := by
  refine ⟨?_, ?_, ?_, ?_, ?_⟩ <;> decide +kernel

theorem test_eventQueueDrain :
    (atEventQueueDrain1.blockRuns 10 = true) ∧
    (fifoFull.blockRuns 10 = true) := by
  refine ⟨?_, ?_⟩ <;> decide +kernel

theorem test_ensembleCycle :
    cycleDue.fwRuns = true ∧ cycleDue.blockRuns 7 = true ∧ cycleDue.clockOk = true ∧ cycleDue.ehu.due = true ∧
      defaultSources cycleDue := by decide +kernel

theorem test_deweightEnd :
    (atDeweightEnd1.fwRuns = true ∧ atDeweightEnd1.blockRuns 7 = true ∧
      atDeweightEnd1.ehu.member[2].dew = Deweight.zero 600 ∧ atDeweightEnd1.ehu.policy.deweightS ≤ 600) ∧
    (atDeweightEnd2.fwRuns = true ∧ atDeweightEnd2.blockRuns 7 = true ∧
      atDeweightEnd2.ehu.member[2].dew = Deweight.zero 600 ∧ atDeweightEnd2.ehu.policy.deweightS ≤ 600) := by
  refine ⟨?_, ?_⟩ <;> decide +kernel

theorem test_holdoverRecompute :
    (inWarm.cpx.warm.isSome = true ∨ inWarm.ehu.holdDue = false) ∧
    (inHoldover.blockRuns 7 = true ∧ inHoldover.fwRuns = true ∧ inHoldover.ehu.holdDue = true) := by
  refine ⟨?_, ?_⟩ <;> decide +kernel

theorem test_holdoverUpdate :
    inHoldover.fwRuns = true ∧ inHoldover.dsb.dpll[1].st = DpllState.holdover ∧ inHoldover.ehu.hold[1].used = some aValue := by decide +kernel

theorem test_oscSteerUpdate :
    (atOscSteerUpdate1.fwRuns = true ∧ atOscSteerUpdate1.ehu.steer.dpll = some 1 ∧ steerGain atOscSteerUpdate1 ≠ 0 ∧
      steerDue atOscSteerUpdate1 = true) ∧
    (atOscSteerUpdate2.fwRuns = true ∧ atOscSteerUpdate2.ehu.steer.dpll = some 1 ∧
      steerGain atOscSteerUpdate2 ≠ 0 ∧ steerDue atOscSteerUpdate2 = true) := by
  refine ⟨?_, ?_⟩ <;> decide +kernel

theorem test_refEdge :
    (atRefEdge1.blockRuns 5 = true ∧ (atRefEdge1.refEntry ↑3).enable = true ∧
      (↑3 < 12 ∨ squelched atRefEdge1 (↑3 - 12) = false)) ∧
    (jumpRef.blockRuns 5 = true ∧ (jumpRef.refEntry ↑3).enable = true ∧ (↑3 < 12 ∨ squelched jumpRef (↑3 - 12) = false)) := by
  refine ⟨?_, ?_⟩ <;> decide +kernel

theorem test_refLos :
    (atRefLos1.rim.ref[3].los = true) ∧
    (silent.blockRuns 5 = true ∧ silent.rim.ref[3].enable = true ∧ silent.rim.ref[3].los = false ∧ (12 ≤ ↑3 ∧
      ↑3 < 16 ∧ squelched silent (↑3 - 12) = true ∨ ∃ c, losCycle silent ↑3 = some c ∧ c ≤ silent.tcr.cycles)) := by
  refine ⟨?_, ?_⟩ <;> decide +kernel

theorem test_qualificationEnd :
    atQualificationEnd.rim.ref[3].st = RefState.qualifying ∧ hardNow atQualificationEnd.rim.ref[3] = false ∧
      softNow atQualificationEnd.rim.ref[3] = false ∧
      atQualificationEnd.rim.ref[3].qualS ≤ atQualificationEnd.rim.ref[3].clean := by decide +kernel

theorem test_driftClear :
    atDriftClear.rim.ref[3].st = RefState.drifting ∧ hardNow atDriftClear.rim.ref[3] = false ∧
      softNow atDriftClear.rim.ref[3] = false ∧ atDriftClear.rim.ref[3].driftClearS ≤ atDriftClear.rim.ref[3].clean := by decide +kernel

theorem test_wtrExpiry :
    candidate.dsb.dpll[2].cands.contains 3 = true ∧ selectable candidate ↑3 = true ∧ waited candidate (↑2) 3 = true ∧
      candidate.dsb.dpll[2].restored.contains 3 = false := by decide +kernel

theorem test_driftTakeover :
    drifting.dsb.dpll[2].selected = some 4 ∧ drifting.fwRuns = true ∧ drifting.dsb.dpll[2].mode = DpllMode.automatic ∧
      drifting.dsb.dpll[2].sw = none ∧ drifting.dsb.dpll[2].forced = none ∧
      drifting.rim.ref[4].st = RefState.drifting ∧ drifting.dsb.dpll[2].takeoverFor = some 240000 ∧
      8000 * drifting.dsb.dpll[2].driftHoldoffS ≤ 240000 ∧
      (bestCandidate drifting ↑2 fun q => q != 4 && (drifting.refEntry ↑q).st == RefState.qualified) = some 3 := by decide +kernel

theorem test_switchFreeze :
    (atSwitchFreeze1.dsb.dpll[2].sw = some (aSwitch false none) ∧ (aSwitch false none).frozen = false ∧
      (aSwitch false none).decidedAt < atSwitchFreeze1.cpx.impressions ∧
      selectable atSwitchFreeze1 ↑(aSwitch false none).target = true) ∧
    (atSwitchFreeze2.dsb.dpll[2].sw = some (aSwitch true none) ∧
      ((aSwitch true none).frozen = true ∨ atSwitchFreeze2.cpx.impressions ≤ (aSwitch true none).decidedAt)) ∧
    (unselectable.dsb.dpll[2].sw = some (aSwitch false none) ∧ (aSwitch false none).frozen = false ∧
      (aSwitch false none).decidedAt < unselectable.cpx.impressions ∧
      selectable unselectable ↑(aSwitch false none).target = false ∧ unselectable.fwRuns = true) := by
  refine ⟨?_, ?_, ?_⟩ <;> decide +kernel

theorem test_switchCapture :
    (capturing.dsb.dpll[2].sw = some (aSwitch true none) ∧ (aSwitch true none).frozen = true ∧
      (aSwitch true none).delta = none ∧ isTimeRef capturing ↑(aSwitch true none).target = true ∧
      (12 ≤ ↑(aSwitch true none).target ∨ (capturing.refEntry ↑(aSwitch true none).target).tod.isSome = true) ∧
      capturing.rim.ref[(aSwitch true none).target].lag = some (1000, 0) ∧
      ∀ (e : Fin 4), capturing.tcr.dom[e].dpll = some 2 ∧ capturing.tcr.dom[e].valid = true ↔ e = 1) ∧
    (atSwitchCapture2.dsb.dpll[2].sw = some (aSwitch true none) ∧ (aSwitch true none).frozen = true ∧
      (aSwitch true none).delta = none ∧
      (isTimeRef atSwitchCapture2 ↑(aSwitch true none).target = false ∨ atSwitchCapture2.rim.ref[(aSwitch true none).target].lag = none ∨ ∀ (e : Fin 4),
      atSwitchCapture2.tcr.dom[e].dpll = some 2 → atSwitchCapture2.tcr.dom[e].valid = false)) := by
  refine ⟨?_, ?_⟩ <;> decide +kernel

theorem test_switchRelease :
    ((overran.dsb.dpll[2].sw = some (aSwitch true (some 100)) ∧ (aSwitch true (some 100)).frozen = true ∧
      (aSwitch true (some 100)).delta = some 100 ∧ overran.fwRuns = true ∧ overran.blockRuns 8 = true) ∧
      ¬((aSwitch true (some 100)).frozenAt + if overran.tcr.ended.getLsbD 1 = true then 2 else 1) ≤ overran.cpx.impressions) ∧
    ((atSwitchRelease2.dsb.dpll[2].sw = some (aSwitch true (some 100)) ∧ (aSwitch true (some 100)).frozen = true ∧
      (aSwitch true (some 100)).delta = some 100 ∧ atSwitchRelease2.fwRuns = true ∧
      atSwitchRelease2.blockRuns 8 = true) ∧
      ((aSwitch true (some 100)).frozenAt + if atSwitchRelease2.tcr.ended.getLsbD 1 = true then 2 else 1) ≤ atSwitchRelease2.cpx.impressions ∧
      atSwitchRelease2.mbx.flights = [] ∧
      ∀ x ∈ (aSwitch true (some 100)).offsets, ∀ (d : Fin 4), ↑d = x.1 → atSwitchRelease2.tcr.dom[d].dpll = some 2) := by
  refine ⟨?_, ?_⟩ <;> decide +kernel

theorem test_dpllBandwidthHalving :
    (atDpllBandwidthHalving1.dsb.dpll[2].st = DpllState.acquiring ∧
      8000 * atDpllBandwidthHalving1.dsb.dpll[2].lockS ≤ atDpllBandwidthHalving1.dsb.dpll[2].inLock) ∧
    (atDpllBandwidthHalving2.dsb.dpll[2].st = DpllState.acquiring ∧
      8000 * atDpllBandwidthHalving2.dsb.dpll[2].lockS ≤ atDpllBandwidthHalving2.dsb.dpll[2].inLock) := by
  refine ⟨?_, ?_⟩ <;> decide +kernel

/-! ### GNSS -/

/-- The receiver in a state. -/
def receiver (f : Gtr → Gtr) (s : State) : State := { s with gtr := f { s.gtr with st := .search, cfg := { s.gtr.cfg with enable := true } } }
def gnss (st : GnssState) : State := receiver (fun g => { g with st := st, nextLimits := some { elevMask := 5 } }) onSecond
/-- A satellite above the masks. -/
def aSat (system : Fin 4) (sat : Fin 64) (band : Fin 2) : SatObs :=
  { system := system, sat := sat, band := band, tracking := true, cn0 := 4500, elev := 40, azimuth := 10, healthy := true
    ephemeris := true, iod := some 7, residual := 0, sigma := 10, crossMm := 0 }
def anObs (n : Nat) : GnssObs :=
  { sats := (List.finRange 4).flatMap fun k => if k.val < n then [aSat 0 (k.castLE (by omega)) 0, aSat 0 (k.castLE (by omega)) 1] else []
    dual := some { offsets := [(0, 19000000000002)], freqPpt := 3, postfitPs := 10 }
    single := some { offsets := [(0, 19000000000005)], freqPpt := 3, postfitPs := 10 }
    pos := some { x := 1, y := 2, z := 3 }, phasePs := 7, noise := Vector.replicate 2 100, utc := none }
def epochTaken (st : GnssState) : State :=
  refs 17 (fun e => { e with enable := true }) (receiver (fun g => { g with st := st, epoch := some (100, 5 * secU) }) ready)
def integrity : State := refs 16 (fun e => { e with enable := true, st := .disqualified, gnssFail := true, los := false })
  (receiver (fun g => { g with integrity := true, cleanFor := 60 }) ready)
def anchored (bad : Bool) : State :=
  let s := receiver (fun g => { g with anchor := some { cycle := 0, phasePs := 1, h := 0, sigma := {} }, windowFor := 3600, windowBad := bad, phase := some (9, 50) }) ready
  { s with ehu := { s.ehu with hold := (s.ehu.hold.set 0 { s.ehu.hold[0] with value := some aValue }) } }
def noClock : State := receiver (fun g => { g with clockFault := true, st := .solve, valid17 := true, feList := [(1, 2)] }) ready
def frontEnd : State := receiver (fun g => { g with cfg := { g.cfg with feReg := some 3, feMask := 6 } }) ready
def aSurvey (minS elapsed : Nat) : Survey :=
  { minS := minS, maxS := 7200, accMm := 100, elapsed := elapsed, count := 2, sum := { x := 10, y := 20, z := 31 }
    sumSq := { x := 52, y := 200, z := 481 } }
def surveyed (minS elapsed : Nat) : State := receiver (fun g => { g with st := .survey, survey := some (aSurvey minS elapsed) }) ready
def notched (holds : Option Int) : State := receiver (fun g => { g with notch := (g.notch.set 1 (g.notch[1].set 2 { mode := 2, freq := 100, holds := holds })) }) ready
def jammed (v : Byte) : State := receiver (fun g => { g with jam := g.jam.set 1 v, noise := g.noise.set 1 ([], [1000]) }) ready
/-- Two satellites excluded, and 60 s since. -/
def excluding : State :=
  receiver (fun g => { g with excluded := [(0, 5, 9), (0, 6, 10)] }) { ready with cpx := { ready.cpx with impressions := 480009 } }
def aTone : Interferer := { freq := 2000100, db := 20 }
def tones : List Interferer := [{ freq := 2000101, db := 90 }, aTone, { freq := 7, db := 9 }]

def atGnssEpoch1 : State := gnss .solve

def atGnssEpoch1b : State := gnss .idle

def atGnssEpoch2 : State := waitingFor .survey 0 [(8, 3600), (12, 7200), (16, 100)] (gnss .solve)

def atGnssSolution1 : State := epochTaken .search

def atGnssSolution2 : State := epochTaken .search

def atGnssSolution3 : State := epochTaken .hold

def atTimeCheckAnchorMove1 : State := anchored false

def atTimeCheckAnchorMove2 : State := anchored true

def atSurveyEnd1 : State := surveyed 3600 3600

def atSurveyEnd2 : State := surveyed 7201 7200

def atNotchAdapt1 : State := notched (some 7)

def atNotchAdapt2 : State := notched none

def atNotchAdapt3 : State := notched (some 2000100)

def atNotchAdapt4 : State := notched (some 7)

def atNotchAdapt5 : State := notched none

def atJamThreshold1 : State := jammed 40

def atJamThreshold2 : State := jammed 41

theorem test_gnssEpoch :
    (atGnssEpoch1.blockRuns 14 = true ∧ atGnssEpoch1.tcr.dom[atGnssEpoch1.gtr.cfg.domain].count % 10 ^ 42 < 10 ^ 33 ∧
      (∀ f ∈ atGnssEpoch1.mbx.flights, f.hold ≠ Hold.survey) ∧ noFences atGnssEpoch1 = true) ∧
    (atGnssEpoch1b.blockRuns 14 = true ∧
      atGnssEpoch1b.tcr.dom[atGnssEpoch1b.gtr.cfg.domain].count % 10 ^ 42 < 10 ^ 33 ∧
      (∀ f ∈ atGnssEpoch1b.mbx.flights, f.hold ≠ Hold.survey) ∧ noFences atGnssEpoch1b = true) ∧
    (atGnssEpoch2.blockRuns 14 = true ∧ atGnssEpoch2.fwRuns = true ∧
      atGnssEpoch2.tcr.dom[atGnssEpoch2.gtr.cfg.domain].count % 10 ^ 42 < 10 ^ 33 ∧
      atGnssEpoch2.mbx.flights = [held Hold.survey 0 [(8, 3600), (12, 7200), (16, 100)]] ∧
      (held Hold.survey 0 [(8, 3600), (12, 7200), (16, 100)]).hold = Hold.survey ∧
      (jobInline (held Hold.survey 0 [(8, 3600), (12, 7200), (16, 100)]).job).u 4 1 = 0 ∧
      atGnssEpoch2.gtr.st ≠ GnssState.idle ∧ atGnssEpoch2.gtr.st ≠ GnssState.hold) := by
  refine ⟨?_, ?_, ?_⟩ <;> decide +kernel

theorem test_gnssSolution :
    (atGnssSolution1.blockRuns 14 = true ∧ atGnssSolution1.cpx.warm = none ∧ atGnssSolution1.gtr.st ≠ GnssState.idle ∧
      atGnssSolution1.gtr.epoch = some (100, 5 * secU) ∧
      residualBad (hearBroadcasts (channelsOf atGnssSolution1.gtr (anObs 4).sats) atGnssSolution1.gtr) (channelsOf atGnssSolution1.gtr (anObs 4).sats) = []) ∧
    (atGnssSolution2.blockRuns 14 = true ∧ atGnssSolution2.cpx.warm = none ∧
      atGnssSolution2.gtr.st ≠ GnssState.idle ∧ atGnssSolution2.gtr.epoch = some (100, 5 * secU) ∧
      residualBad (hearBroadcasts (channelsOf atGnssSolution2.gtr (anObs 3).sats) atGnssSolution2.gtr) (channelsOf atGnssSolution2.gtr (anObs 3).sats) = []) ∧
    (atGnssSolution3.blockRuns 14 = true ∧ atGnssSolution3.cpx.warm = none ∧
      atGnssSolution3.gtr.st ≠ GnssState.idle ∧ atGnssSolution3.gtr.epoch = some (100, 5 * secU) ∧
      residualBad (hearBroadcasts (channelsOf atGnssSolution3.gtr (anObs 1).sats) atGnssSolution3.gtr) (channelsOf atGnssSolution3.gtr (anObs 1).sats) = []) := by
  refine ⟨?_, ?_, ?_⟩ <;> decide +kernel

theorem test_satelliteExclusionEnd :
    excluding.blockRuns 14 = true := by decide +kernel

theorem test_integrityClear :
    integrity.blockRuns 14 = true ∧ integrity.gtr.integrity = true ∧
      integrity.gtr.limits.clearS ≤ integrity.gtr.cleanFor ∧ integrity.rim.ref[16].outlierNow = false ∧
      integrity.rim.ref[17].outlierNow = false := by decide +kernel

theorem test_timeCheckAnchorMove :
    (atTimeCheckAnchorMove1.blockRuns 14 = true ∧ atTimeCheckAnchorMove1.gtr.anchor.isSome = true ∧
      atTimeCheckAnchorMove1.gtr.limits.windowS ≤ atTimeCheckAnchorMove1.gtr.windowFor ∧
      atTimeCheckAnchorMove1.gtr.windowBad = false ∧ atTimeCheckAnchorMove1.gtr.integrity = false ∧
      checkValue atTimeCheckAnchorMove1 = some aValue ∧ atTimeCheckAnchorMove1.gtr.phase = some (9, 50)) ∧
    (atTimeCheckAnchorMove2.blockRuns 14 = true ∧ atTimeCheckAnchorMove2.gtr.anchor.isSome = true ∧
      atTimeCheckAnchorMove2.gtr.limits.windowS ≤ atTimeCheckAnchorMove2.gtr.windowFor ∧
      (atTimeCheckAnchorMove2.gtr.windowBad = true ∨ atTimeCheckAnchorMove2.gtr.integrity = true)) := by
  refine ⟨?_, ?_⟩ <;> decide +kernel

theorem test_gnssClockFault :
    ((ready.blockRuns 14 = true ∧ ready.gtr.clockFault = false) ∧ rises ready 72 0 = true) ∧
    ((ready.blockRuns 14 = true ∧ ready.gtr.clockFault = false) ∧ ready.cpx.phase ≠ Phase.inReset ∧
      defaultSources ready ∧ ready.present 14 = true ∧ inShadow ready 14 = false) := by
  refine ⟨?_, ?_⟩ <;> decide +kernel

theorem test_gclkReturn :
    noClock.blockRuns 14 = true ∧ noClock.gtr.clockFault = true := by decide +kernel

theorem test_feStatusPoll :
    frontEnd.blockRuns 14 = true ∧ frontEnd.gtr.cfg.feReg = some 3 := by decide +kernel

theorem test_surveyEnd :
    (atSurveyEnd1.blockRuns 14 = true ∧ atSurveyEnd1.gtr.st = GnssState.survey ∧
      atSurveyEnd1.gtr.survey = some (aSurvey 3600 3600) ∧ 0 < (aSurvey 3600 3600).count ∧
      ((aSurvey 3600 3600).minS ≤ (aSurvey 3600 3600).elapsed ∧
      surveyMet (aSurvey 3600 3600) = true ∨ (aSurvey 3600 3600).maxS ≤ (aSurvey 3600 3600).elapsed)) ∧
    (atSurveyEnd2.blockRuns 14 = true ∧ atSurveyEnd2.gtr.st = GnssState.survey ∧
      atSurveyEnd2.gtr.survey = some (aSurvey 7201 7200) ∧ 0 < (aSurvey 7201 7200).count ∧
      ((aSurvey 7201 7200).minS ≤ (aSurvey 7201 7200).elapsed ∧
      surveyMet (aSurvey 7201 7200) = true ∨ (aSurvey 7201 7200).maxS ≤ (aSurvey 7201 7200).elapsed)) := by
  refine ⟨?_, ?_⟩ <;> decide +kernel

theorem test_notchAdapt :
    ((atNotchAdapt1.blockRuns 14 = true ∧ atNotchAdapt1.gtr.cfg.enable = true ∧
      atNotchAdapt1.gtr.notch[1][2].mode = 2) ∧ notchSees atNotchAdapt1 ↑1 ↑2 [] = [] ∧
      atNotchAdapt1.gtr.notch[1][2].holds.isSome = true) ∧
    ((atNotchAdapt2.blockRuns 14 = true ∧ atNotchAdapt2.gtr.cfg.enable = true ∧
      atNotchAdapt2.gtr.notch[1][2].mode = 2) ∧ notchSees atNotchAdapt2 ↑1 ↑2 [] = [] ∧
      atNotchAdapt2.gtr.notch[1][2].holds.isSome = false) ∧
    ((atNotchAdapt3.blockRuns 14 = true ∧ atNotchAdapt3.gtr.cfg.enable = true ∧
      atNotchAdapt3.gtr.notch[1][2].mode = 2) ∧ strongest (notchSees atNotchAdapt3 (↑1) (↑2) tones) = some aTone ∧
      (atNotchAdapt3.gtr.notch[1][2].holds = some aTone.freq ∨ ∃ m,
      atNotchAdapt3.gtr.notch[1][2].movedAt = some m ∧ atNotchAdapt3.cpx.impressions < m + 80)) ∧
    ((atNotchAdapt4.blockRuns 14 = true ∧ atNotchAdapt4.gtr.cfg.enable = true ∧
      atNotchAdapt4.gtr.notch[1][2].mode = 2) ∧ strongest (notchSees atNotchAdapt4 (↑1) (↑2) tones) = some aTone ∧
      ¬(atNotchAdapt4.gtr.notch[1][2].holds = some aTone.freq ∨ ∃ m,
      atNotchAdapt4.gtr.notch[1][2].movedAt = some m ∧ atNotchAdapt4.cpx.impressions < m + 80)) ∧
    ((atNotchAdapt5.blockRuns 14 = true ∧ atNotchAdapt5.gtr.cfg.enable = true ∧
      atNotchAdapt5.gtr.notch[1][2].mode = 2) ∧ strongest (notchSees atNotchAdapt5 (↑1) (↑2) tones) = some aTone ∧
      ¬(atNotchAdapt5.gtr.notch[1][2].holds = some aTone.freq ∨ ∃ m,
      atNotchAdapt5.gtr.notch[1][2].movedAt = some m ∧ atNotchAdapt5.cpx.impressions < m + 80)) := by
  refine ⟨?_, ?_, ?_, ?_, ?_⟩ <;> decide +kernel

theorem test_jamThreshold :
    (atJamThreshold1.blockRuns 14 = true ∧ atJamThreshold1.gtr.cfg.enable = true ∧
      (true = true ↔ ¬(atJamThreshold1.gtr.limits.jam < BitVec.toNat atJamThreshold1.gtr.jam[1] ↔ atJamThreshold1.gtr.limits.jam < BitVec.toNat (jamIndicator atJamThreshold1.gtr (↑1) 141)))) ∧
    (atJamThreshold2.blockRuns 14 = true ∧ atJamThreshold2.gtr.cfg.enable = true ∧
      (false = true ↔ ¬(atJamThreshold2.gtr.limits.jam < BitVec.toNat atJamThreshold2.gtr.jam[1] ↔ atJamThreshold2.gtr.limits.jam < BitVec.toNat (jamIndicator atJamThreshold2.gtr (↑1) 145)))) := by
  refine ⟨?_, ?_⟩ <;> decide +kernel

/-! ### Synthesis -/

/-- APLL 1 with outputs 3 and 4 on it, as given. -/
def synth (f : Apll → Apll) (g : Output → Output) : State :=
  let s := ready.setApll 1 fun a => f { a with loop := .locked }
  let s := s.setOut 3 fun x => g { x with apll := 1, st := .running }
  s.setOut 4 fun x => { x with apll := 1, st := .low, held := true, startDue := true, left := 5 }
def aRetune : LargeRetune := { vco := 650000000000000, ramp := 10, commit := 0 }
/-- A state 10 s later on the CD-TIME scale. -/
def later (s : State) : State := { s with tcr := { s.tcr with cycles := s.tcr.cycles + 10 ^ 10 } }
def rampTarget : Nat := 655360000000001

def atApllLockLost1 : State := synth id id

def atApllLockLost2 : State := synth (fun a => { a with large := some aRetune }) id

def atApllLock1 : State := synth (fun a => { a with loop := .relockNominal, vco := 7 }) id

def atApllLock2 : State := synth (fun a => { a with loop := .relockAnchor, vco := 7, large := some aRetune }) id

def atOutputRestart1 : State := waiting (.outputs 0x10 0) (synth (fun a => { a with large := some aRetune }) (fun x => { x with held := true }))

def atOutputRestart2 : State := later (synth (fun a => { a with afterLoss := true, restartDue := true, turns := 5 }) (fun x => { x with held := true, left := 3 }))

def atApllRetuneTimeout : State := waiting (.retune 1) (later (synth (fun a => { a with large := some aRetune }) (fun x => { x with oldDivider := some 9 })))

def atApllRampEnd1 : State := waiting (.retune 1) (synth (fun a => { a with rampTo := some rampTarget, yRest := 10 ^ 9 }) id)

def atApllRampEnd2 : State := synth (fun a => { a with yRest := 5 }) id

def atOutputPhaseSubstep1 : State := synth id (fun x => { x with left := -250 })

def atOutputPhaseSubstep1b : State := synth id (fun x => { x with left := 100 })

def atOutputPhaseSubstep2 : State := synth id (fun x => { x with delayLeft := -101 })

def atOutputPhaseSubstep3 : State := later (synth id (fun x => { x with aligning := -101 }))

def atOutputPhaseSubstep4 : State := synth (fun a => { a with large := some aRetune }) (fun x => { x with aligning := -101 })

def atOutputAlignMeasure1 : State := synth id (fun x => { x with align := true })

def atOutputAlignMeasure2 : State := synth id (fun x => { x with align := true, aligning := 8 })

theorem test_apllLockLost :
    (((atApllLockLost1.blockRuns 9 = true ∧ atApllLockLost1.fso.apll[1].loop = ApllLoop.locked) ∧
      inRetune atApllLockLost1.fso.apll[1] = false) ∧ rises atApllLockLost1 (80 + ↑1) 0 = true) ∧
    ((atApllLockLost2.blockRuns 9 = true ∧ atApllLockLost2.fso.apll[1].loop = ApllLoop.locked) ∧
      inRetune atApllLockLost2.fso.apll[1] = true) := by
  refine ⟨?_, ?_⟩ <;> decide +kernel

theorem test_apllLock :
    (atApllLock1.blockRuns 9 = true ∧ atApllLock1.clockOk = true ∧ atApllLock1.fso.apll[1].loop ≠ ApllLoop.locked) ∧
    (atApllLock2.blockRuns 9 = true ∧ atApllLock2.clockOk = true ∧ atApllLock2.fso.apll[1].loop ≠ ApllLoop.locked) := by
  refine ⟨?_, ?_⟩ <;> decide +kernel

theorem test_outputRestart :
    (atOutputRestart1.blockRuns 9 = true ∧ atOutputRestart1.clockOk = true ∧
      atOutputRestart1.fso.apll[1].loop = ApllLoop.locked ∧ atOutputRestart1.cpx.list = none ∧
      (atOutputRestart1.fso.apll[1].afterLoss = true → atOutputRestart1.fso.apll[1].lockedAt + 1000000 ≤ atOutputRestart1.tcr.cycles)) ∧
    (atOutputRestart2.blockRuns 9 = true ∧ atOutputRestart2.clockOk = true ∧
      atOutputRestart2.fso.apll[1].loop = ApllLoop.locked ∧ atOutputRestart2.cpx.list = none ∧
      (atOutputRestart2.fso.apll[1].afterLoss = true → atOutputRestart2.fso.apll[1].lockedAt + 1000000 ≤ atOutputRestart2.tcr.cycles)) := by
  refine ⟨?_, ?_⟩ <;> decide +kernel

theorem test_apllRetuneTimeout :
    atApllRetuneTimeout.cpx.list = none ∧ atApllRetuneTimeout.fso.apll[1].large = some aRetune ∧
      aRetune.relock = none ∧ aRetune.commit + 10 ^ 7 ≤ atApllRetuneTimeout.tcr.cycles := by decide +kernel

theorem test_apllRampEnd :
    (atApllRampEnd1.cpx.list = none ∧ atApllRampEnd1.blockRuns 9 = true ∧
      atApllRampEnd1.fso.apll[1].rampTo = some rampTarget ∧
      ((rampTarget : Int) - atApllRampEnd1.fso.apll[1].vco).natAbs ≤ rampStep atApllRampEnd1.fso.apll[1] 125000) ∧
    (atApllRampEnd2.blockRuns 9 = true ∧ atApllRampEnd2.fso.apll[1].rampTo = none) := by
  refine ⟨?_, ?_⟩ <;> decide +kernel

theorem test_outputPhaseSubstep :
    ((atOutputPhaseSubstep1.blockRuns 9 = true ∧ atOutputPhaseSubstep1.fso.out[3].st = OutState.running ∧
      atOutputPhaseSubstep1.fso.out[3].held = false) ∧ atOutputPhaseSubstep1.fso.out[3].left ≠ 0 ∧
      paceOk atOutputPhaseSubstep1 atOutputPhaseSubstep1.fso.out[3] = true) ∧
    ((atOutputPhaseSubstep1b.blockRuns 9 = true ∧ atOutputPhaseSubstep1b.fso.out[3].st = OutState.running ∧
      atOutputPhaseSubstep1b.fso.out[3].held = false) ∧ atOutputPhaseSubstep1b.fso.out[3].left ≠ 0 ∧
      paceOk atOutputPhaseSubstep1b atOutputPhaseSubstep1b.fso.out[3] = true) ∧
    ((atOutputPhaseSubstep2.blockRuns 9 = true ∧ atOutputPhaseSubstep2.fso.out[3].st = OutState.running ∧
      atOutputPhaseSubstep2.fso.out[3].held = false) ∧ atOutputPhaseSubstep2.fso.out[3].left = 0 ∧
      atOutputPhaseSubstep2.fso.out[3].delayLeft ≠ 0) ∧
    ((atOutputPhaseSubstep3.blockRuns 9 = true ∧ atOutputPhaseSubstep3.fso.out[3].st = OutState.running ∧
      atOutputPhaseSubstep3.fso.out[3].held = false) ∧ atOutputPhaseSubstep3.fso.out[3].left = 0 ∧
      atOutputPhaseSubstep3.fso.out[3].delayLeft = 0 ∧ atOutputPhaseSubstep3.fso.out[3].aligning ≠ 0 ∧
      inRetune atOutputPhaseSubstep3.fso.apll[atOutputPhaseSubstep3.fso.out[3].apll] = false ∧
      alignRoom atOutputPhaseSubstep3 atOutputPhaseSubstep3.fso.out[3] ≠ 0) ∧
    (atOutputPhaseSubstep4.fso.out[3].left = 0 ∧ atOutputPhaseSubstep4.fso.out[3].delayLeft = 0 ∧
      (atOutputPhaseSubstep4.fso.out[3].aligning = 0 ∨ inRetune atOutputPhaseSubstep4.fso.apll[atOutputPhaseSubstep4.fso.out[3].apll] = true)) := by
  refine ⟨?_, ?_, ?_, ?_, ?_⟩ <;> decide +kernel

theorem test_outputAlignMeasure :
    (atOutputAlignMeasure1.blockRuns 9 = true ∧ atOutputAlignMeasure1.clockOk = true ∧
      atOutputAlignMeasure1.fso.out[3].align = true ∧ atOutputAlignMeasure1.fso.out[3].st = OutState.running ∧
      atOutputAlignMeasure1.fso.out[3].held = false ∧
      inRetune atOutputAlignMeasure1.fso.apll[atOutputAlignMeasure1.fso.out[3].apll] = false) ∧
    (atOutputAlignMeasure2.blockRuns 9 = true ∧ atOutputAlignMeasure2.clockOk = true ∧
      atOutputAlignMeasure2.fso.out[3].align = true ∧ atOutputAlignMeasure2.fso.out[3].st = OutState.running ∧
      atOutputAlignMeasure2.fso.out[3].held = false ∧
      inRetune atOutputAlignMeasure2.fso.apll[atOutputAlignMeasure2.fso.out[3].apll] = false) := by
  refine ⟨?_, ?_⟩ <;> decide +kernel

/-! ### Lanes -/

/-- A lane that passes frames in 10GBASE-R, with no error standing. -/
def upLane (x : Lane) : Lane := { x with st := .up, mode := 2, los := false, lol := false, aligned := true, latValid := true }
/-- Lane 5 in some state. -/
def laneWith (f : Lane → Lane) : State := ready.setLane 5 fun x => f (upLane x)
/-- The same, with the lane on a recovered-clock slot and a PTP instance on its port. -/
def busyLane (s : State) : State :=
  let s := { s with nlu := { s.nlu with slot := s.nlu.slot.set 1 (some 5) } }
  let s := refs 13 (fun e => { e with enable := true, los := false, st := .qualified }) s
  (s.setInst 2 fun x => { x with enable := true }).setPi 5 2 fun x => { x with enable := true, st := .slave }
def lanes (f : Lane → Lane) : State := busyLane (laneWith f)
def restarting (s : State) : State :=
  { s with mbx := { s.mbx with fwReady := false, restarting := true }, cpx := { s.cpx with warm := some { byJob := true, reload := false, since := 0 } } }

def atLosAssert1 : State := lanes id

def atLosAssert2 : State := restarting (lanes id)

def atLosAssert3 : State := lanes fun x => { x with st := .learn }

def atLosDeassert : State := lanes fun x => { x with los := true }

def atLolAssert : State := lanes id

def atLolDeassert : State := lanes fun x => { x with lol := true }

def atAlignmentGained : State := lanes fun x => { x with aligned := false }

def atAlignmentLost : State := lanes id

def atHiBer : State := lanes id

def atFecLockChange : State := lanes fun x => { x with fec := 1 }

def atLaneTxpllUnlock : State := lanes id

def atTxpllRelock1 : State := lanes fun x => { x with txLocked := false }

def atTxpllRelock2 : State := lanes fun x => { x with txLocked := false, st := .down }

def atAdaptationFreeze1 : State := lanes id

def atAdaptationFreeze2 : State := lanes id

def atAdaptationResume1 : State := lanes fun x => { x with frozen := true }

def atAdaptationResume2 : State := later (lanes fun x => { x with frozen := true })

def atLatencyMeasurementEnd : State := refs 20 (fun e => { e with port := some 5, fallbackPs := 9 }) (lanes fun x => { x with latValid := false })

def atLaneQualified1 : State := later (lanes fun x => { x with st := .step, qualErrors := 3 })

def atLaneQualified2 : State := later (lanes fun x => { x with st := .recover, qualErrors := 3 })

def atLaneQualified3 : State := later (lanes fun x => { x with st := .step, fallingBack := true })

def atLaneQualified4 : State := later (lanes fun x => { x with st := .step })

def atLaneQualified5 : State := later (lanes fun x => { x with st := .low, modBus := some 1 })

def atLaneQualified6 : State := later (lanes fun x => { x with st := .low, mode := 3 })

def atLaneQualified7 : State := later (lanes fun x => { x with st := .low, mode := 0, medium := 2 })

def atTrainTimeout1 : State := later (lanes fun x => { x with st := .low })

def atTrainTimeout2 : State := later (lanes fun x => { x with st := .low, mode := 3 })

def atTrainTimeout3 : State := later (lanes fun x => { x with st := .low, medium := 1 })

def atStepTimeout1 : State := later (lanes fun x => { x with st := .step })

def atStepTimeout2 : State := later (lanes fun x => { x with st := .step, mode := 3, qualified := some 2 })

def atStepTimeout3 : State := later (lanes fun x => { x with st := .step, mode := 3 })

def atStepTimeout4 : State := later (lanes fun x => { x with st := .step, fallingBack := true })

def atRelockTimeout : State := later (lanes fun x => { x with st := .recover, qualified := some 2 })

def atModuleReadDone1 : State := lanes fun x => { x with st := .learn, mode := 0 }

def atModuleReadDone2 : State := lanes fun x => { x with st := .learn, mode := 0 }

def atModuleReadDone3 : State := lanes fun x => { x with st := .learn }

def atModuleReadDone4 : State := lanes fun x => { x with st := .learn }

def atAutonegComplete1 : State := lanes fun x => { x with st := .low, medium := 1 }

def atAutonegComplete2 : State := lanes fun x => { x with st := .learn, medium := 2 }

def atAutonegComplete2b : State := lanes fun x => { x with st := .learn, medium := 2 }

def atAutonegComplete3 : State := lanes fun x => { x with st := .learn, medium := 2 }

def atPrbsCheckerSync : State := lanes fun x => { x with st := .prbs, prbs := { x.prbs with mode := 2 } }

def atPrbsCheckerResync : State := lanes fun x => { x with st := .prbs, prbs := { x.prbs with mode := 3, syncAt := some 0 } }

def atPrbsErrorInject1 : State := lanes fun x => { x with st := .prbs, prbs := { x.prbs with mode := 3, inject := 1 } }

def atPrbsErrorInject2 : State := lanes fun x => { x with st := .prbs, prbs := { x.prbs with mode := 1, inject := 2, burst := 7, interval := 3, injected := 7 } }

theorem test_losAssert :
    ((atLosAssert1.blockRuns 11 = true ∧ atLosAssert1.lanePresent ↑5 = true ∧ defaultSources atLosAssert1) ∧
      atLosAssert1.nlu.lane[5].los = false) ∧
    ((atLosAssert2.blockRuns 11 = true ∧ atLosAssert2.lanePresent ↑5 = true ∧ defaultSources atLosAssert2) ∧
      atLosAssert2.nlu.lane[5].los = false) ∧
    ((atLosAssert3.blockRuns 11 = true ∧ atLosAssert3.lanePresent ↑5 = true ∧ defaultSources atLosAssert3) ∧
      atLosAssert3.nlu.lane[5].los = false) := by
  refine ⟨?_, ?_, ?_⟩ <;> decide +kernel

theorem test_losDeassert :
    (atLosDeassert.blockRuns 11 = true ∧ atLosDeassert.lanePresent ↑5 = true ∧ defaultSources atLosDeassert) ∧
      atLosDeassert.nlu.lane[5].los = true := by decide +kernel

theorem test_lolAssert :
    (atLolAssert.blockRuns 11 = true ∧ atLolAssert.lanePresent ↑5 = true ∧ defaultSources atLolAssert) ∧
      atLolAssert.nlu.lane[5].lol = false := by decide +kernel

theorem test_lolDeassert :
    (atLolDeassert.blockRuns 11 = true ∧ atLolDeassert.lanePresent ↑5 = true ∧ defaultSources atLolDeassert) ∧
      atLolDeassert.nlu.lane[5].lol = true := by decide +kernel

theorem test_alignmentGained :
    atAlignmentGained.blockRuns 11 = true ∧ atAlignmentGained.lanePresent ↑5 = true ∧ defaultSources atAlignmentGained := by decide +kernel

theorem test_alignmentLost :
    atAlignmentLost.blockRuns 11 = true ∧ atAlignmentLost.lanePresent ↑5 = true ∧ defaultSources atAlignmentLost := by decide +kernel

theorem test_hiBer :
    (atHiBer.blockRuns 11 = true ∧ atHiBer.lanePresent ↑5 = true ∧ defaultSources atHiBer) ∧ 2 ≤ ↑atHiBer.nlu.lane[5].mode := by decide +kernel

theorem test_fecLockChange :
    (atFecLockChange.blockRuns 11 = true ∧ atFecLockChange.lanePresent ↑5 = true ∧ defaultSources atFecLockChange) ∧
      atFecLockChange.nlu.lane[5].fec ≠ 0 := by decide +kernel

theorem test_laneTxpllUnlock :
    (atLaneTxpllUnlock.blockRuns 11 = true ∧ atLaneTxpllUnlock.lanePresent ↑5 = true ∧
      defaultSources atLaneTxpllUnlock) ∧ atLaneTxpllUnlock.nlu.lane[5].txLocked = true := by decide +kernel

theorem test_txpllRelock :
    ((atTxpllRelock1.blockRuns 11 = true ∧ atTxpllRelock1.lanePresent ↑5 = true ∧ defaultSources atTxpllRelock1) ∧
      atTxpllRelock1.nlu.lane[5].txLocked = false) ∧
    ((atTxpllRelock2.blockRuns 11 = true ∧ atTxpllRelock2.lanePresent ↑5 = true ∧ defaultSources atTxpllRelock2) ∧
      atTxpllRelock2.nlu.lane[5].txLocked = false) := by
  refine ⟨?_, ?_⟩ <;> decide +kernel

theorem test_adaptationFreeze :
    (atAdaptationFreeze1.nlu.lane[5].densityMin ≤ 16) ∧
    ((atAdaptationFreeze2.blockRuns 11 = true ∧ atAdaptationFreeze2.lanePresent ↑5 = true ∧
      defaultSources atAdaptationFreeze2) ∧ 15 < atAdaptationFreeze2.nlu.lane[5].densityMin) := by
  refine ⟨?_, ?_⟩ <;> decide +kernel

theorem test_adaptationResume :
    (atAdaptationResume1.nlu.lane[5].los = true ∨ 15 < atAdaptationResume1.nlu.lane[5].densityMin) ∧
    ((atAdaptationResume2.blockRuns 11 = true ∧ atAdaptationResume2.lanePresent ↑5 = true ∧
      defaultSources atAdaptationResume2) ∧ atAdaptationResume2.nlu.lane[5].los = false ∧
      atAdaptationResume2.nlu.lane[5].frozen = true ∧ atAdaptationResume2.nlu.lane[5].densityMin ≤ 16) := by
  refine ⟨?_, ?_⟩ <;> decide +kernel

theorem test_latencyMeasurementEnd :
    (atLatencyMeasurementEnd.blockRuns 11 = true ∧ atLatencyMeasurementEnd.lanePresent ↑5 = true ∧
      defaultSources atLatencyMeasurementEnd) ∧ atLatencyMeasurementEnd.nlu.lane[5].latValid = false := by decide +kernel

theorem test_laneQualified :
    ((atLaneQualified1.blockRuns 11 = true ∧ atLaneQualified1.lanePresent ↑5 = true ∧ atLaneQualified1.fwRuns = true ∧
      defaultSources atLaneQualified1) ∧ atLaneQualified1.nlu.lane[5].los = false ∧
      atLaneQualified1.nlu.lane[5].lol = false ∧ atLaneQualified1.nlu.lane[5].aligned = true ∧
      (atLaneQualified1.nlu.lane[5].fec = 0 ∨ atLaneQualified1.nlu.lane[5].fecLock = true) ∧
      atLaneQualified1.nlu.lane[5].winAt + atLaneQualified1.nlu.lane[5].qualMs * 10 ^ 6 ≤ atLaneQualified1.tcr.cycles ∧
      (atLaneQualified1.nlu.lane[5].st = LaneState.low ∧
      atLaneQualified1.nlu.lane[5].medium ≠ 1 ∨ atLaneQualified1.nlu.lane[5].st = LaneState.step ∨ atLaneQualified1.nlu.lane[5].st = LaneState.recover)) ∧
    ((atLaneQualified2.blockRuns 11 = true ∧ atLaneQualified2.lanePresent ↑5 = true ∧
      atLaneQualified2.fwRuns = true ∧ defaultSources atLaneQualified2) ∧
      atLaneQualified2.nlu.lane[5].los = false ∧ atLaneQualified2.nlu.lane[5].lol = false ∧
      atLaneQualified2.nlu.lane[5].aligned = true ∧
      (atLaneQualified2.nlu.lane[5].fec = 0 ∨ atLaneQualified2.nlu.lane[5].fecLock = true) ∧
      atLaneQualified2.nlu.lane[5].winAt + atLaneQualified2.nlu.lane[5].qualMs * 10 ^ 6 ≤ atLaneQualified2.tcr.cycles ∧
      (atLaneQualified2.nlu.lane[5].st = LaneState.low ∧
      atLaneQualified2.nlu.lane[5].medium ≠ 1 ∨ atLaneQualified2.nlu.lane[5].st = LaneState.step ∨ atLaneQualified2.nlu.lane[5].st = LaneState.recover)) ∧
    ((atLaneQualified3.blockRuns 11 = true ∧ atLaneQualified3.lanePresent ↑5 = true ∧
      atLaneQualified3.fwRuns = true ∧ defaultSources atLaneQualified3) ∧
      atLaneQualified3.nlu.lane[5].los = false ∧ atLaneQualified3.nlu.lane[5].lol = false ∧
      atLaneQualified3.nlu.lane[5].aligned = true ∧
      (atLaneQualified3.nlu.lane[5].fec = 0 ∨ atLaneQualified3.nlu.lane[5].fecLock = true) ∧
      atLaneQualified3.nlu.lane[5].winAt + atLaneQualified3.nlu.lane[5].qualMs * 10 ^ 6 ≤ atLaneQualified3.tcr.cycles ∧
      (atLaneQualified3.nlu.lane[5].st = LaneState.low ∧
      atLaneQualified3.nlu.lane[5].medium ≠ 1 ∨ atLaneQualified3.nlu.lane[5].st = LaneState.step ∨ atLaneQualified3.nlu.lane[5].st = LaneState.recover)) ∧
    ((atLaneQualified4.blockRuns 11 = true ∧ atLaneQualified4.lanePresent ↑5 = true ∧
      atLaneQualified4.fwRuns = true ∧ defaultSources atLaneQualified4) ∧
      atLaneQualified4.nlu.lane[5].los = false ∧ atLaneQualified4.nlu.lane[5].lol = false ∧
      atLaneQualified4.nlu.lane[5].aligned = true ∧
      (atLaneQualified4.nlu.lane[5].fec = 0 ∨ atLaneQualified4.nlu.lane[5].fecLock = true) ∧
      atLaneQualified4.nlu.lane[5].winAt + atLaneQualified4.nlu.lane[5].qualMs * 10 ^ 6 ≤ atLaneQualified4.tcr.cycles ∧
      (atLaneQualified4.nlu.lane[5].st = LaneState.low ∧
      atLaneQualified4.nlu.lane[5].medium ≠ 1 ∨ atLaneQualified4.nlu.lane[5].st = LaneState.step ∨ atLaneQualified4.nlu.lane[5].st = LaneState.recover)) ∧
    ((atLaneQualified5.blockRuns 11 = true ∧ atLaneQualified5.lanePresent ↑5 = true ∧
      atLaneQualified5.fwRuns = true ∧ defaultSources atLaneQualified5) ∧
      atLaneQualified5.nlu.lane[5].los = false ∧ atLaneQualified5.nlu.lane[5].lol = false ∧
      atLaneQualified5.nlu.lane[5].aligned = true ∧
      (atLaneQualified5.nlu.lane[5].fec = 0 ∨ atLaneQualified5.nlu.lane[5].fecLock = true) ∧
      atLaneQualified5.nlu.lane[5].winAt + atLaneQualified5.nlu.lane[5].qualMs * 10 ^ 6 ≤ atLaneQualified5.tcr.cycles ∧
      (atLaneQualified5.nlu.lane[5].st = LaneState.low ∧
      atLaneQualified5.nlu.lane[5].medium ≠ 1 ∨ atLaneQualified5.nlu.lane[5].st = LaneState.step ∨ atLaneQualified5.nlu.lane[5].st = LaneState.recover)) ∧
    ((atLaneQualified6.blockRuns 11 = true ∧ atLaneQualified6.lanePresent ↑5 = true ∧
      atLaneQualified6.fwRuns = true ∧ defaultSources atLaneQualified6) ∧
      atLaneQualified6.nlu.lane[5].los = false ∧ atLaneQualified6.nlu.lane[5].lol = false ∧
      atLaneQualified6.nlu.lane[5].aligned = true ∧
      (atLaneQualified6.nlu.lane[5].fec = 0 ∨ atLaneQualified6.nlu.lane[5].fecLock = true) ∧
      atLaneQualified6.nlu.lane[5].winAt + atLaneQualified6.nlu.lane[5].qualMs * 10 ^ 6 ≤ atLaneQualified6.tcr.cycles ∧
      (atLaneQualified6.nlu.lane[5].st = LaneState.low ∧
      atLaneQualified6.nlu.lane[5].medium ≠ 1 ∨ atLaneQualified6.nlu.lane[5].st = LaneState.step ∨ atLaneQualified6.nlu.lane[5].st = LaneState.recover)) ∧
    ((atLaneQualified7.blockRuns 11 = true ∧ atLaneQualified7.lanePresent ↑5 = true ∧
      atLaneQualified7.fwRuns = true ∧ defaultSources atLaneQualified7) ∧
      atLaneQualified7.nlu.lane[5].los = false ∧ atLaneQualified7.nlu.lane[5].lol = false ∧
      atLaneQualified7.nlu.lane[5].aligned = true ∧
      (atLaneQualified7.nlu.lane[5].fec = 0 ∨ atLaneQualified7.nlu.lane[5].fecLock = true) ∧
      atLaneQualified7.nlu.lane[5].winAt + atLaneQualified7.nlu.lane[5].qualMs * 10 ^ 6 ≤ atLaneQualified7.tcr.cycles ∧
      (atLaneQualified7.nlu.lane[5].st = LaneState.low ∧
      atLaneQualified7.nlu.lane[5].medium ≠ 1 ∨ atLaneQualified7.nlu.lane[5].st = LaneState.step ∨ atLaneQualified7.nlu.lane[5].st = LaneState.recover)) := by
  refine ⟨?_, ?_, ?_, ?_, ?_, ?_, ?_⟩ <;> decide +kernel

theorem test_trainTimeout :
    ((atTrainTimeout1.blockRuns 11 = true ∧ atTrainTimeout1.lanePresent ↑5 = true ∧ atTrainTimeout1.fwRuns = true ∧
      defaultSources atTrainTimeout1) ∧ atTrainTimeout1.nlu.lane[5].st = LaneState.low ∧
      atTrainTimeout1.nlu.lane[5].stageAt + atTrainTimeout1.nlu.lane[5].trainMs * 10 ^ 6 ≤ atTrainTimeout1.tcr.cycles) ∧
    ((atTrainTimeout2.blockRuns 11 = true ∧ atTrainTimeout2.lanePresent ↑5 = true ∧ atTrainTimeout2.fwRuns = true ∧
      defaultSources atTrainTimeout2) ∧ atTrainTimeout2.nlu.lane[5].st = LaneState.low ∧
      atTrainTimeout2.nlu.lane[5].stageAt + atTrainTimeout2.nlu.lane[5].trainMs * 10 ^ 6 ≤ atTrainTimeout2.tcr.cycles) ∧
    ((atTrainTimeout3.blockRuns 11 = true ∧ atTrainTimeout3.lanePresent ↑5 = true ∧ atTrainTimeout3.fwRuns = true ∧
      defaultSources atTrainTimeout3) ∧ atTrainTimeout3.nlu.lane[5].st = LaneState.low ∧
      atTrainTimeout3.nlu.lane[5].stageAt + atTrainTimeout3.nlu.lane[5].trainMs * 10 ^ 6 ≤ atTrainTimeout3.tcr.cycles) := by
  refine ⟨?_, ?_, ?_⟩ <;> decide +kernel

theorem test_stepTimeout :
    ((atStepTimeout1.blockRuns 11 = true ∧ atStepTimeout1.lanePresent ↑5 = true ∧ atStepTimeout1.fwRuns = true ∧
      defaultSources atStepTimeout1) ∧ atStepTimeout1.nlu.lane[5].st = LaneState.step ∧
      atStepTimeout1.nlu.lane[5].stageAt + atStepTimeout1.nlu.lane[5].stepMs * 10 ^ 6 ≤ atStepTimeout1.tcr.cycles) ∧
    ((atStepTimeout2.blockRuns 11 = true ∧ atStepTimeout2.lanePresent ↑5 = true ∧ atStepTimeout2.fwRuns = true ∧
      defaultSources atStepTimeout2) ∧ atStepTimeout2.nlu.lane[5].st = LaneState.step ∧
      atStepTimeout2.nlu.lane[5].stageAt + atStepTimeout2.nlu.lane[5].stepMs * 10 ^ 6 ≤ atStepTimeout2.tcr.cycles) ∧
    ((atStepTimeout3.blockRuns 11 = true ∧ atStepTimeout3.lanePresent ↑5 = true ∧ atStepTimeout3.fwRuns = true ∧
      defaultSources atStepTimeout3) ∧ atStepTimeout3.nlu.lane[5].st = LaneState.step ∧
      atStepTimeout3.nlu.lane[5].stageAt + atStepTimeout3.nlu.lane[5].stepMs * 10 ^ 6 ≤ atStepTimeout3.tcr.cycles) ∧
    ((atStepTimeout4.blockRuns 11 = true ∧ atStepTimeout4.lanePresent ↑5 = true ∧ atStepTimeout4.fwRuns = true ∧
      defaultSources atStepTimeout4) ∧ atStepTimeout4.nlu.lane[5].st = LaneState.step ∧
      atStepTimeout4.nlu.lane[5].stageAt + atStepTimeout4.nlu.lane[5].stepMs * 10 ^ 6 ≤ atStepTimeout4.tcr.cycles) := by
  refine ⟨?_, ?_, ?_, ?_⟩ <;> decide +kernel

theorem test_relockTimeout :
    (atRelockTimeout.blockRuns 11 = true ∧ atRelockTimeout.lanePresent ↑5 = true ∧ atRelockTimeout.fwRuns = true ∧
      defaultSources atRelockTimeout) ∧ atRelockTimeout.nlu.lane[5].st = LaneState.recover ∧
      atRelockTimeout.nlu.lane[5].stageAt + atRelockTimeout.nlu.lane[5].relockMs * 10 ^ 6 ≤ atRelockTimeout.tcr.cycles := by decide +kernel

theorem test_moduleReadDone :
    ((atModuleReadDone1.blockRuns 11 = true ∧ atModuleReadDone1.lanePresent ↑5 = true ∧
      atModuleReadDone1.fwRuns = true ∧ defaultSources atModuleReadDone1) ∧
      atModuleReadDone1.nlu.lane[5].st = LaneState.learn ∧ atModuleReadDone1.nlu.lane[5].medium = 0 ∧
      (3 = 3 ∨ 3 = 12 ∨ 3 = 13 ∨ 3 = 17)) ∧
    ((atModuleReadDone2.blockRuns 11 = true ∧ atModuleReadDone2.lanePresent ↑5 = true ∧
      atModuleReadDone2.fwRuns = true ∧ defaultSources atModuleReadDone2) ∧
      atModuleReadDone2.nlu.lane[5].st = LaneState.learn ∧ atModuleReadDone2.nlu.lane[5].medium = 0 ∧
      (17 = 3 ∨ 17 = 12 ∨ 17 = 13 ∨ 17 = 17)) ∧
    ((atModuleReadDone3.blockRuns 11 = true ∧ atModuleReadDone3.lanePresent ↑5 = true ∧
      atModuleReadDone3.fwRuns = true ∧ defaultSources atModuleReadDone3) ∧
      atModuleReadDone3.nlu.lane[5].st = LaneState.learn ∧ atModuleReadDone3.nlu.lane[5].medium = 0 ∧
      (ModuleRead.failed = ModuleRead.failed ∨ ∃ ident a b, ModuleRead.failed = ModuleRead.ok ident a b ∧
      ident ≠ 3 ∧ ident ≠ 12 ∧ ident ≠ 13 ∧ ident ≠ 17)) ∧
    ((atModuleReadDone4.blockRuns 11 = true ∧ atModuleReadDone4.lanePresent ↑5 = true ∧
      atModuleReadDone4.fwRuns = true ∧ defaultSources atModuleReadDone4) ∧
      atModuleReadDone4.nlu.lane[5].st = LaneState.learn ∧ atModuleReadDone4.nlu.lane[5].medium = 0 ∧
      (ModuleRead.ok 4 0 0 = ModuleRead.failed ∨ ∃ ident a b, ModuleRead.ok 4 0 0 = ModuleRead.ok ident a b ∧
      ident ≠ 3 ∧ ident ≠ 12 ∧ ident ≠ 13 ∧ ident ≠ 17)) := by
  exact ⟨by decide +kernel, by decide +kernel, ⟨by decide +kernel, by decide +kernel, by decide +kernel, .inl rfl⟩,
    by decide +kernel, by decide +kernel, by decide +kernel, .inr ⟨_, _, _, rfl, by decide, by decide, by decide, by decide⟩⟩

theorem test_autonegComplete :
    ((atAutonegComplete1.blockRuns 11 = true ∧ atAutonegComplete1.lanePresent ↑5 = true ∧
      atAutonegComplete1.fwRuns = true ∧ defaultSources atAutonegComplete1) ∧
      atAutonegComplete1.nlu.lane[5].st = LaneState.low ∧ atAutonegComplete1.nlu.lane[5].medium = 1 ∧
      atAutonegComplete1.nlu.lane[5].rateMask.getLsbD ↑2 = true ∧
      atAutonegComplete1.nlu.lane[5].failed.getLsbD ↑2 = false) ∧
    ((atAutonegComplete2.blockRuns 11 = true ∧ atAutonegComplete2.lanePresent ↑5 = true ∧
      atAutonegComplete2.fwRuns = true ∧ defaultSources atAutonegComplete2) ∧
      atAutonegComplete2.nlu.lane[5].st = LaneState.learn ∧ atAutonegComplete2.nlu.lane[5].medium = 2 ∧
      (AutonegResult.direct = AutonegResult.direct ∨ AutonegResult.direct = AutonegResult.sgmii 1000)) ∧
    ((atAutonegComplete2b.blockRuns 11 = true ∧ atAutonegComplete2b.lanePresent ↑5 = true ∧
      atAutonegComplete2b.fwRuns = true ∧ defaultSources atAutonegComplete2b) ∧
      atAutonegComplete2b.nlu.lane[5].st = LaneState.learn ∧ atAutonegComplete2b.nlu.lane[5].medium = 2 ∧
      (AutonegResult.sgmii 1000 = AutonegResult.direct ∨ AutonegResult.sgmii 1000 = AutonegResult.sgmii 1000)) ∧
    ((atAutonegComplete3.blockRuns 11 = true ∧ atAutonegComplete3.lanePresent ↑5 = true ∧
      atAutonegComplete3.fwRuns = true ∧ defaultSources atAutonegComplete3) ∧
      atAutonegComplete3.nlu.lane[5].st = LaneState.learn ∧ atAutonegComplete3.nlu.lane[5].medium = 2) := by
  refine ⟨?_, ?_, ?_, ?_⟩ <;> decide +kernel

theorem test_prbsCheckerSync :
    (atPrbsCheckerSync.blockRuns 11 = true ∧ atPrbsCheckerSync.lanePresent ↑5 = true ∧
      atPrbsCheckerSync.nlu.lane[5].st = LaneState.prbs ∧ 2 ≤ ↑atPrbsCheckerSync.nlu.lane[5].prbs.mode) ∧
      atPrbsCheckerSync.nlu.lane[5].prbs.syncAt = none := by decide +kernel

theorem test_prbsCheckerResync :
    (atPrbsCheckerResync.blockRuns 11 = true ∧ atPrbsCheckerResync.lanePresent ↑5 = true ∧
      atPrbsCheckerResync.nlu.lane[5].st = LaneState.prbs ∧ 2 ≤ ↑atPrbsCheckerResync.nlu.lane[5].prbs.mode) ∧
      atPrbsCheckerResync.nlu.lane[5].prbs.syncAt.isSome = true ∧ 512 ≤ 512 := by decide +kernel

theorem test_prbsErrorInject :
    (atPrbsErrorInject1.blockRuns 11 = true ∧ atPrbsErrorInject1.lanePresent ↑5 = true ∧
      atPrbsErrorInject1.nlu.lane[5].st = LaneState.prbs ∧
      (atPrbsErrorInject1.nlu.lane[5].prbs.mode = 1 ∨ atPrbsErrorInject1.nlu.lane[5].prbs.mode = 3) ∧
      atPrbsErrorInject1.nlu.lane[5].prbs.inject ≠ 0 ∧
      (atPrbsErrorInject1.nlu.lane[5].prbs.interval ≠ 0 ∨ atPrbsErrorInject1.nlu.lane[5].prbs.injected = 0)) ∧
    (atPrbsErrorInject2.blockRuns 11 = true ∧ atPrbsErrorInject2.lanePresent ↑5 = true ∧
      atPrbsErrorInject2.nlu.lane[5].st = LaneState.prbs ∧
      (atPrbsErrorInject2.nlu.lane[5].prbs.mode = 1 ∨ atPrbsErrorInject2.nlu.lane[5].prbs.mode = 3) ∧
      atPrbsErrorInject2.nlu.lane[5].prbs.inject ≠ 0 ∧
      (atPrbsErrorInject2.nlu.lane[5].prbs.interval ≠ 0 ∨ atPrbsErrorInject2.nlu.lane[5].prbs.injected = 0)) := by
  refine ⟨?_, ?_⟩ <;> decide +kernel

/-! ### Frames and the galley -/

/-- Port 5 with its lane up. -/
def port5 (f : TpePort → TpePort) : State := (lanes id).setPort 5 fun x => f { x with mac := 0x20000000005, nextHop := 0x20000000099 }
/-- The same, and port 6 as the host uplink. -/
def uplinked (f : TpePort → TpePort) : State :=
  ((port5 fun x => f { x with hostPath := 2 }).setPort 6 fun x => { x with hostPath := 1 }).setLane 6 upLane
def aFrame (b : FrameBody) : Frame := { dst := 0x011B19000000, src := 7, tags := 0, vlan := 0, body := b, bytes := 64, rctSeq := none }
def ntpBody : FrameBody := .udp false (BitVec.ofNat 128 (0xFFFF * 2 ^ 32 + 0xC0A80101)) 5 4000 123 true false
def ntpPort (f : TpePort → TpePort) : State :=
  let s := port5 fun x => f { x with ipv4 := 0xC0A80101 }
  { s with tpe := { s.tpe with server := { s.tpe.server with enable := true, portMask := 0x20, gate := 0 } } }
def hostTag (version type port : Byte) : HostTagged := { uplink := 6, version := version, type := type, port := port, flags := 1, handle := 77, bytes := 1522 }
def hostFrame1 (report : Bool) : HostFrame := { handle := 77, report := report, bytes := 100 }
def hostFrame2 : HostFrame := { handle := 78, report := false, bytes := 60 }
def hostQueued (report : Bool) : State := uplinked fun x => { x with hostQueue := [hostFrame1 report, hostFrame2] }
def prpPort : State := let s := port5 id
  { s with tpe := { s.tpe with prp := (s.tpe.prp.set 2 { s.tpe.prp[2] with enable := true, rctSeq := 0xFFFF }) } }
def aMsg : PtpMsg := { domain := 0, seq := 9, twoStep := true, correction := 0, srcPort := 0x1234567800010002, reqPort := 0, time := { sec := 1, ns := 2 }
                       announce := none, inaccuracy := none, l1Sync := none, assurance := none, auth := none }
def ntpMsg : NtpMsg := { leap := 0, version := 4, mode := 3, stratum := 1, poll := 4, rootDelay := 0, rootDisp := 0, precision := 0xE0, refId := 0
                         refTime := 0, orig := 0, recv := 0, xmit := 99, nts := none, bytes := 48 }
def galleyFrame (kind : FrameKind) (auth : FrameAuth) (complete committed : Bool) : GalleyFrame :=
  { id := 3, port := 5, view := 4, kind := kind, auth := auth, launch := 10 ^ 40, fallback := false, bytes := 100, tx := if complete then none else some 8
    complete := complete, committed := committed }
def galley (f : GalleyFrame) (s : State) : State :=
  let s := s.setDom 0 fun x => { x with count := 10 ^ 40 }
  { s with tpe := { s.tpe with galley := [f, { f with id := 4, follows := some 3, tx := none }] }, aue := { slots := [{ tx := 8, nts := false, borrowed := false }] }
           sec := { s.sec with trngReady := true } }
def ptpKind : FrameKind := .ptp 2 .sync aMsg
/-- Port 5 in a pair, with the uplink on port 6. -/
def pairUplink : State := { uplinked id with tpe := { (uplinked id).tpe with prp := prpPort.tpe.prp } }
/-- The lead time of port `p` covers its transmit delay, whatever the factory calibration is. -/
def sure (p : LaneId) (s : State) : State := s.setPort p.val fun x => { x with leadNs := (txDelay s p.val).toNat }
theorem leads_delay (p : LaneId) (s : State) : txDelay (sure p s) p.val ≤ (sure p s).tpe.port[p].leadNs * 1000 := by
  have h : txDelay (sure p s) p.val = txDelay s p.val := rfl
  have g : (sure p s).tpe.port[p].leadNs = (txDelay s p.val).toNat := by
    simp [sure, State.setPort, vmod, p.isLt]
  rw [h, g]
  omega
/-- A frame whose predicted delay is the port's transmit delay. -/
def predicting (f : GalleyFrame) : GalleyFrame := { f with predicted := txDelay (port5 id) 5 }
theorem predicted_off (f : GalleyFrame) (s : State) (n : Int) (h : txDelay s 5 = txDelay (port5 id) 5) :
    n + txDelay s 5 - (predicting f).predicted = n := by
  rw [h]
  show n + txDelay (port5 id) 5 - txDelay (port5 id) 5 = n
  omega

def atFrameReceive1 : State := port5 fun x => { x with hostPath := 1 }

def atFrameReceive2 : State := port5 fun x => { x with hostPath := 1 }

def atFrameReceive3 : State := port5 id

def atFrameReceive4 : State := port5 fun x => { x with ptpLimit := 1, ptpSeen := 1000 }

def atFrameReceive5 : State := ntpPort fun x => { x with ntpLimit := 1, ntpSeen := 999 }

def atFrameReceive6 : State := ntpPort fun x => { x with ntpLimit := 1, ntpSeen := 1000 }

def atFrameReceive3b : State := port5 fun x => { x with queue := 512 }

def atFrameReceive5b : State := ntpPort fun x => { x with queue := 512 }

def atFrameReceive7 : State := uplinked id

def atFrameReceive8 : State := uplinked fun x => { x with enable := false }

def atFrameReceive9 : State := { uplinked id with tpe := { (uplinked id).tpe with hostFill := 1048576 } }

def atFrameReceive10 : State := port5 id

def atHostUplinkFrameReceive1 : State := uplinked id

def atHostUplinkFrameReceive2 : State := uplinked id

def atHostUplinkFrameReceive3 : State := uplinked id

def atHostFrameTransmit1 : State := hostQueued true

def atHostFrameTransmit2 : State := hostQueued false

def atAueJobComplete1 : State := galley (galleyFrame ptpKind .none false false) (port5 id)

def atAueJobComplete2 : State := galley (galleyFrame ptpKind .none false false) (port5 id)

def atLaunchCommit1 : State := galley (predicting (galleyFrame ptpKind .none true false)) (port5 id)

def atLaunchCommit1b : State := galley (predicting (galleyFrame (.ntpRequest 1 ntpMsg) .none true false)) (port5 id)

def atLaunchCommit2 : State := galley (galleyFrame ptpKind .none false false) (port5 fun x => { x with enable := false })

def atLaunchCommit3 : State := galley (galleyFrame ptpKind .none false false) (port5 fun x => { x with maxRebuilds := 0 })

def atLaunchCommit4 : State := galley (predicting (galleyFrame ptpKind .none true false)) (port5 fun x => { x with maxRebuilds := 0 })

def atFrameLaunch1 : State := galley (galleyFrame (.ntpRequest 1 ntpMsg) .none true true) (port5 id)

def atFrameLaunch2 : State := (galley (galleyFrame (.ptp 2 .delayReq aMsg) .none true true) (port5 id)).setPi 5 2 fun x => { x with delay := some { seq := 9 } }

theorem test_frameReceive :
    ((atFrameReceive1.lanePresent ↑5 = true ∧ atFrameReceive1.blockRuns 12 = true ∧
      laneUp atFrameReceive1.nlu.lane[5] = true) ∧ atFrameReceive1.tpe.port[5].hostPath = 1 ∧
      (aFrame FrameBody.hostTagged).body = FrameBody.hostTagged) ∧
    ((atFrameReceive2.lanePresent ↑5 = true ∧ atFrameReceive2.blockRuns 12 = true ∧
      laneUp atFrameReceive2.nlu.lane[5] = true) ∧ atFrameReceive2.tpe.port[5].hostPath = 1 ∧
      (aFrame FrameBody.other).body ≠ FrameBody.hostTagged) ∧
    (((atFrameReceive3.lanePresent ↑5 = true ∧ atFrameReceive3.blockRuns 12 = true ∧
      laneUp atFrameReceive3.nlu.lane[5] = true) ∧ atFrameReceive3.tpe.port[5].hostPath ≠ 1 ∧
      atFrameReceive3.tpe.port[5].enable = true) ∧
      classify atFrameReceive3 (↑5) (aFrame FrameBody.ptpL2) = FrameClass.ptp (↑2) true ∧
      atFrameReceive3.tpe.port[5].ptpSeen < atFrameReceive3.tpe.port[5].ptpLimit * 1000) ∧
    (((atFrameReceive4.lanePresent ↑5 = true ∧ atFrameReceive4.blockRuns 12 = true ∧
      laneUp atFrameReceive4.nlu.lane[5] = true) ∧ atFrameReceive4.tpe.port[5].hostPath ≠ 1 ∧
      atFrameReceive4.tpe.port[5].enable = true) ∧
      classify atFrameReceive4 (↑5) (aFrame FrameBody.ptpL2) = FrameClass.ptp (↑2) true ∧
      atFrameReceive4.tpe.port[5].ptpLimit * 1000 ≤ atFrameReceive4.tpe.port[5].ptpSeen) ∧
    (((atFrameReceive5.lanePresent ↑5 = true ∧ atFrameReceive5.blockRuns 12 = true ∧
      laneUp atFrameReceive5.nlu.lane[5] = true) ∧ atFrameReceive5.tpe.port[5].hostPath ≠ 1 ∧
      atFrameReceive5.tpe.port[5].enable = true) ∧
      classify atFrameReceive5 (↑5) (aFrame ntpBody) = FrameClass.ntpServer true ∧
      prpCopy atFrameReceive5 (↑5) (aFrame ntpBody) = false ∧
      atFrameReceive5.tpe.port[5].ntpSeen < atFrameReceive5.tpe.port[5].ntpLimit * 1000) ∧
    (((atFrameReceive6.lanePresent ↑5 = true ∧ atFrameReceive6.blockRuns 12 = true ∧
      laneUp atFrameReceive6.nlu.lane[5] = true) ∧ atFrameReceive6.tpe.port[5].hostPath ≠ 1 ∧
      atFrameReceive6.tpe.port[5].enable = true) ∧
      classify atFrameReceive6 (↑5) (aFrame ntpBody) = FrameClass.ntpServer true ∧
      prpCopy atFrameReceive6 (↑5) (aFrame ntpBody) = false ∧
      atFrameReceive6.tpe.port[5].ntpLimit * 1000 ≤ atFrameReceive6.tpe.port[5].ntpSeen) ∧
    (((atFrameReceive3b.lanePresent ↑5 = true ∧ atFrameReceive3b.blockRuns 12 = true ∧
      laneUp atFrameReceive3b.nlu.lane[5] = true) ∧ atFrameReceive3b.tpe.port[5].hostPath ≠ 1 ∧
      atFrameReceive3b.tpe.port[5].enable = true) ∧
      classify atFrameReceive3b (↑5) (aFrame FrameBody.ptpL2) = FrameClass.ptp (↑2) true ∧
      atFrameReceive3b.tpe.port[5].ptpSeen < atFrameReceive3b.tpe.port[5].ptpLimit * 1000) ∧
    (((atFrameReceive5b.lanePresent ↑5 = true ∧ atFrameReceive5b.blockRuns 12 = true ∧
      laneUp atFrameReceive5b.nlu.lane[5] = true) ∧ atFrameReceive5b.tpe.port[5].hostPath ≠ 1 ∧
      atFrameReceive5b.tpe.port[5].enable = true) ∧
      classify atFrameReceive5b (↑5) (aFrame ntpBody) = FrameClass.ntpServer true ∧
      prpCopy atFrameReceive5b (↑5) (aFrame ntpBody) = false ∧
      atFrameReceive5b.tpe.port[5].ntpSeen < atFrameReceive5b.tpe.port[5].ntpLimit * 1000) ∧
    (((atFrameReceive7.lanePresent ↑5 = true ∧ atFrameReceive7.blockRuns 12 = true ∧
      laneUp atFrameReceive7.nlu.lane[5] = true) ∧ atFrameReceive7.tpe.port[5].hostPath = 2 ∧
      (atFrameReceive7.tpe.port[5].enable = true → classify atFrameReceive7 (↑5) (aFrame FrameBody.other) = FrameClass.rest) ∧
      prpCopy atFrameReceive7 (↑5) (aFrame FrameBody.other) = false ∧ uplink atFrameReceive7 = some 6) ∧
      atFrameReceive7.tpe.port[5].enable = true ∧
      (drainHost atFrameReceive7).tpe.hostFill + max 64 (42 + ((aFrame FrameBody.other).bytes - 4)) ≤ 1048576) ∧
    (((atFrameReceive8.lanePresent ↑5 = true ∧ atFrameReceive8.blockRuns 12 = true ∧
      laneUp atFrameReceive8.nlu.lane[5] = true) ∧ atFrameReceive8.tpe.port[5].hostPath = 2 ∧
      (atFrameReceive8.tpe.port[5].enable = true → classify atFrameReceive8 (↑5) (aFrame FrameBody.other) = FrameClass.rest) ∧
      prpCopy atFrameReceive8 (↑5) (aFrame FrameBody.other) = false ∧ uplink atFrameReceive8 = some 6) ∧
      atFrameReceive8.tpe.port[5].enable = false ∧
      (drainHost atFrameReceive8).tpe.hostFill + max 64 (42 + ((aFrame FrameBody.other).bytes - 4)) ≤ 1048576) ∧
    (((atFrameReceive9.lanePresent ↑5 = true ∧ atFrameReceive9.blockRuns 12 = true ∧
      laneUp atFrameReceive9.nlu.lane[5] = true) ∧ atFrameReceive9.tpe.port[5].hostPath = 2 ∧
      (atFrameReceive9.tpe.port[5].enable = true → classify atFrameReceive9 (↑5) (aFrame FrameBody.other) = FrameClass.rest) ∧
      prpCopy atFrameReceive9 (↑5) (aFrame FrameBody.other) = false ∧ uplink atFrameReceive9 = some 6) ∧
      atFrameReceive9.tpe.port[5].enable = true ∧
      1048576 < (drainHost atFrameReceive9).tpe.hostFill + max 64 (42 + ((aFrame FrameBody.other).bytes - 4))) ∧
    (((atFrameReceive10.lanePresent ↑5 = true ∧ atFrameReceive10.blockRuns 12 = true ∧
      laneUp atFrameReceive10.nlu.lane[5] = true) ∧ atFrameReceive10.tpe.port[5].hostPath ≠ 1 ∧
      atFrameReceive10.tpe.port[5].enable = true) ∧
      classify atFrameReceive10 (↑5) (aFrame FrameBody.other) = FrameClass.rest ∧
      atFrameReceive10.tpe.port[5].hostPath = 0) := by
  refine ⟨?_, ?_, ?_, ?_, ?_, ?_, ?_, ?_, ?_, ?_, ?_, ?_⟩ <;> decide +kernel

theorem test_hostUplinkFrameReceive :
    (atHostUplinkFrameReceive1.blockRuns 12 = true ∧
      laneUp atHostUplinkFrameReceive1.nlu.lane[(hostTag 1 1 5).uplink] = true ∧
      atHostUplinkFrameReceive1.tpe.port[(hostTag 1 1 5).uplink].hostPath = 1 ∧ (hostTag 1 1 5).version = 1 ∧
      (hostTag 1 1 5).type = 1 ∧ BitVec.toNat (hostTag 1 1 5).port = ↑5 ∧
      atHostUplinkFrameReceive1.lanePresent ↑5 = true ∧ atHostUplinkFrameReceive1.tpe.port[5].hostPath = 2 ∧
      (hostTag 1 1 5).bytes ≤ atHostUplinkFrameReceive1.tpe.port[5].hostMax ∧
      (atHostUplinkFrameReceive1.pairOf (↑5 / 2)).enable = false) ∧
    (pairUplink.blockRuns 12 = true ∧ laneUp pairUplink.nlu.lane[(hostTag 1 1 5).uplink] = true ∧
      pairUplink.tpe.port[(hostTag 1 1 5).uplink].hostPath = 1 ∧ (hostTag 1 1 5).version = 1 ∧
      (hostTag 1 1 5).type = 1 ∧ BitVec.toNat (hostTag 1 1 5).port = ↑5 ∧ pairUplink.lanePresent ↑5 = true ∧
      pairUplink.tpe.port[5].hostPath = 2 ∧ (hostTag 1 1 5).bytes ≤ pairUplink.tpe.port[5].hostMax ∧
      pairUplink.tpe.prp[2].enable = true) ∧
    (atHostUplinkFrameReceive2.blockRuns 12 = true ∧
      laneUp atHostUplinkFrameReceive2.nlu.lane[(hostTag 1 1 24).uplink] = true ∧
      atHostUplinkFrameReceive2.tpe.port[(hostTag 1 1 24).uplink].hostPath = 1 ∧
      ((hostTag 1 1 24).version ≠ 1 ∨ (hostTag 1 1 24).type ≠ 1 ∨ 24 ≤ BitVec.toNat (hostTag 1 1 24).port)) ∧
    (atHostUplinkFrameReceive3.blockRuns 12 = true ∧
      laneUp atHostUplinkFrameReceive3.nlu.lane[(hostTag 2 1 5).uplink] = true ∧
      atHostUplinkFrameReceive3.tpe.port[(hostTag 2 1 5).uplink].hostPath = 1 ∧
      ((hostTag 2 1 5).version ≠ 1 ∨ (hostTag 2 1 5).type ≠ 1 ∨ 24 ≤ BitVec.toNat (hostTag 2 1 5).port)) := by
  refine ⟨?_, ?_, ?_, ?_⟩ <;> decide +kernel

theorem test_hostFrameTransmit :
    (atHostFrameTransmit1.tpe.port[5].hostQueue = [hostFrame1 true, hostFrame2] ∧
      laneUp atHostFrameTransmit1.nlu.lane[5] = true ∧ atHostFrameTransmit1.blockRuns 12 = true ∧
      atHostFrameTransmit1.tpe.port[5].hostEnd ≤ atHostFrameTransmit1.tcr.cycles ∧
      hostFits atHostFrameTransmit1 (↑5) (hostFrame1 true).bytes = true) ∧
    (atHostFrameTransmit2.tpe.port[5].hostQueue = [hostFrame1 false, hostFrame2] ∧
      laneUp atHostFrameTransmit2.nlu.lane[5] = true ∧ atHostFrameTransmit2.blockRuns 12 = true ∧
      atHostFrameTransmit2.tpe.port[5].hostEnd ≤ atHostFrameTransmit2.tcr.cycles ∧
      hostFits atHostFrameTransmit2 (↑5) (hostFrame1 false).bytes = true) := by
  refine ⟨?_, ?_⟩ <;> decide +kernel

theorem test_prpSupervisionReceive :
    prpPort.blockRuns 12 = true ∧ laneUp prpPort.nlu.lane[5] = true ∧ (prpPort.pairOf (↑5 / 2)).enable = true := by decide +kernel

theorem test_prpSupervisionSend :
    prpPort.fwRuns = true ∧ prpPort.blockRuns 12 = true ∧ prpPort.tpe.prp[2].enable = true ∧
      ∀ (c : ℕ), prpPort.tpe.prp[2].supAt = some c → c + prpPort.tpe.prp[2].lifeCheckMs * 10 ^ 6 ≤ prpPort.tcr.cycles := by decide +kernel

theorem test_aueJobComplete :
    (atAueJobComplete1.blockRuns 13 = true ∧ (∀ w ∈ atAueJobComplete1.aue.work, w.tx ≠ 8) ∧
      List.find? (fun g => g.tx == some 8) atAueJobComplete1.tpe.galley = some (galleyFrame ptpKind FrameAuth.none false false) ∧
      ((∃ k, (galleyFrame ptpKind FrameAuth.none false false).auth = FrameAuth.nts k) → atAueJobComplete1.sec.trngReady = true)) ∧
    (atAueJobComplete2.blockRuns 13 = true ∧ (∀ w ∈ atAueJobComplete2.aue.work, w.tx ≠ 9) ∧
      ∀ g ∈ atAueJobComplete2.tpe.galley, g.tx ≠ some 9) :=
  ⟨⟨by decide +kernel, by decide +kernel, by decide +kernel, fun _ => by decide +kernel⟩, by decide +kernel⟩

theorem test_launchCommit :
    ((atLaunchCommit1.blockRuns 12 = true ∧
      frameOf atLaunchCommit1 3 = some (predicting (galleyFrame ptpKind FrameAuth.none true false)) ∧
      (predicting (galleyFrame ptpKind FrameAuth.none true false)).committed = false ∧
      (predicting (galleyFrame ptpKind FrameAuth.none true false)).launch ≤ viewCount atLaunchCommit1 ↑(predicting (galleyFrame ptpKind FrameAuth.none true false)).view + 1500 * 10 ^ 33) ∧
      (laneUp atLaunchCommit1.nlu.lane[(predicting (galleyFrame ptpKind FrameAuth.none true false)).port] = true ∧
      atLaunchCommit1.tpe.port[(predicting (galleyFrame ptpKind FrameAuth.none true false)).port].enable = true) ∧
      (predicting (galleyFrame ptpKind FrameAuth.none true false)).complete = true ∧
      (1000 + txDelay atLaunchCommit1 ↑(predicting (galleyFrame ptpKind FrameAuth.none true false)).port - (predicting (galleyFrame ptpKind FrameAuth.none true false)).predicted).natAbs ≤ 1000) ∧
    ((atLaunchCommit1b.blockRuns 12 = true ∧
      frameOf atLaunchCommit1b 3 = some (predicting (galleyFrame (FrameKind.ntpRequest 1 ntpMsg) FrameAuth.none true false)) ∧
      (predicting (galleyFrame (FrameKind.ntpRequest 1 ntpMsg) FrameAuth.none true false)).committed = false ∧
      (predicting (galleyFrame (FrameKind.ntpRequest 1 ntpMsg) FrameAuth.none true false)).launch ≤ viewCount atLaunchCommit1b ↑(predicting (galleyFrame (FrameKind.ntpRequest 1 ntpMsg) FrameAuth.none true false)).view + 1500 * 10 ^ 33) ∧
      (laneUp atLaunchCommit1b.nlu.lane[(predicting (galleyFrame (FrameKind.ntpRequest 1 ntpMsg) FrameAuth.none true false)).port] = true ∧
      atLaunchCommit1b.tpe.port[(predicting (galleyFrame (FrameKind.ntpRequest 1 ntpMsg) FrameAuth.none true false)).port].enable = true) ∧
      (predicting (galleyFrame (FrameKind.ntpRequest 1 ntpMsg) FrameAuth.none true false)).complete = true ∧
      (-100 + txDelay atLaunchCommit1b ↑(predicting (galleyFrame (FrameKind.ntpRequest 1 ntpMsg) FrameAuth.none true false)).port - (predicting (galleyFrame (FrameKind.ntpRequest 1 ntpMsg) FrameAuth.none true false)).predicted).natAbs ≤ 1000) ∧
    ((atLaunchCommit2.blockRuns 12 = true ∧
      frameOf atLaunchCommit2 3 = some (galleyFrame ptpKind FrameAuth.none false false) ∧
      (galleyFrame ptpKind FrameAuth.none false false).committed = false ∧
      (galleyFrame ptpKind FrameAuth.none false false).launch ≤ viewCount atLaunchCommit2 ↑(galleyFrame ptpKind FrameAuth.none false false).view + 1500 * 10 ^ 33) ∧
      ¬(laneUp atLaunchCommit2.nlu.lane[(galleyFrame ptpKind FrameAuth.none false false).port] = true ∧
      atLaunchCommit2.tpe.port[(galleyFrame ptpKind FrameAuth.none false false).port].enable = true)) ∧
    ((atLaunchCommit3.blockRuns 12 = true ∧
      frameOf atLaunchCommit3 3 = some (galleyFrame ptpKind FrameAuth.none false false) ∧
      (galleyFrame ptpKind FrameAuth.none false false).committed = false ∧
      (galleyFrame ptpKind FrameAuth.none false false).launch ≤ viewCount atLaunchCommit3 ↑(galleyFrame ptpKind FrameAuth.none false false).view + 1500 * 10 ^ 33) ∧
      (laneUp atLaunchCommit3.nlu.lane[(galleyFrame ptpKind FrameAuth.none false false).port] = true ∧
      atLaunchCommit3.tpe.port[(galleyFrame ptpKind FrameAuth.none false false).port].enable = true) ∧
      ((galleyFrame ptpKind FrameAuth.none false false).complete = false ∨ 1000 < (0 + txDelay atLaunchCommit3 ↑(galleyFrame ptpKind FrameAuth.none false false).port - (galleyFrame ptpKind FrameAuth.none false false).predicted).natAbs) ∧
      atLaunchCommit3.tpe.port[(galleyFrame ptpKind FrameAuth.none false false).port].maxRebuilds ≤ (galleyFrame ptpKind FrameAuth.none false false).rebuilds) ∧
    ((atLaunchCommit4.blockRuns 12 = true ∧
      frameOf atLaunchCommit4 3 = some (predicting (galleyFrame ptpKind FrameAuth.none true false)) ∧
      (predicting (galleyFrame ptpKind FrameAuth.none true false)).committed = false ∧
      (predicting (galleyFrame ptpKind FrameAuth.none true false)).launch ≤ viewCount atLaunchCommit4 ↑(predicting (galleyFrame ptpKind FrameAuth.none true false)).view + 1500 * 10 ^ 33) ∧
      (laneUp atLaunchCommit4.nlu.lane[(predicting (galleyFrame ptpKind FrameAuth.none true false)).port] = true ∧
      atLaunchCommit4.tpe.port[(predicting (galleyFrame ptpKind FrameAuth.none true false)).port].enable = true) ∧
      ((predicting (galleyFrame ptpKind FrameAuth.none true false)).complete = false ∨ 1000 < (1001 + txDelay atLaunchCommit4 ↑(predicting (galleyFrame ptpKind FrameAuth.none true false)).port - (predicting (galleyFrame ptpKind FrameAuth.none true false)).predicted).natAbs) ∧
      atLaunchCommit4.tpe.port[(predicting (galleyFrame ptpKind FrameAuth.none true false)).port].maxRebuilds ≤ (predicting (galleyFrame ptpKind FrameAuth.none true false)).rebuilds) := by
  and_intros <;>
    first
    | decide +kernel
    | rfl
    | exact le_of_eq_of_le (congrArg Int.natAbs (predicted_off _ _ _ rfl)) (by decide)
    | exact .inr (lt_of_lt_of_eq (by decide) (congrArg Int.natAbs (predicted_off _ _ 1001 rfl)).symm)

theorem test_frameLaunch :
    (frameOf atFrameLaunch1 3 = some (galleyFrame (FrameKind.ntpRequest 1 ntpMsg) FrameAuth.none true true) ∧
      (galleyFrame (FrameKind.ntpRequest 1 ntpMsg) FrameAuth.none true true).committed = true ∧
      (galleyFrame (FrameKind.ntpRequest 1 ntpMsg) FrameAuth.none true true).launch ≤ viewCount atFrameLaunch1 ↑(galleyFrame (FrameKind.ntpRequest 1 ntpMsg) FrameAuth.none true true).view ∧
      defaultSources atFrameLaunch1) ∧
    (frameOf atFrameLaunch2 3 = some (galleyFrame (FrameKind.ptp 2 PtpType.delayReq aMsg) FrameAuth.none true true) ∧
      (galleyFrame (FrameKind.ptp 2 PtpType.delayReq aMsg) FrameAuth.none true true).committed = true ∧
      (galleyFrame (FrameKind.ptp 2 PtpType.delayReq aMsg) FrameAuth.none true true).launch ≤ viewCount atFrameLaunch2 ↑(galleyFrame (FrameKind.ptp 2 PtpType.delayReq aMsg) FrameAuth.none true true).view ∧
      defaultSources atFrameLaunch2) := by
  refine ⟨?_, ?_⟩ <;> decide +kernel

/-! ### PTP -/

/-- Instance 2 on port 5. -/
def ptp (f : PtpInst → PtpInst) (g : PortInst → PortInst) : State :=
  let s := ((port5 id).setInst 2 f).setPi 5 2 g
  { s with tpe := { s.tpe with serving := some (5, 640000) } }
/-- No frame of port 5 is served yet, and it has one in its queue, as port 3 has. -/
def unserved : State :=
  let s := ptp id id
  { s with tpe := { s.tpe with serving := none } }.setPort 5 (fun x => { x with queue := 1 }) |>.setPort 3 fun x => { x with queue := 2 }
def rx (f : PtpMsg → PtpMsg) : PtpRx := { port := 5, inst := 2, mark := 640000, mac := 0x20000000077, addr := 0, msg := f aMsg }
/-- An instance with AUTH 2 that verifies with slot 9. -/
def verifying (s : State) : State :=
  (ptp (fun x => { x with auth := 2, verifySlot := x.verifySlot.set 0 (some 9), verifyId := x.verifyId.set 0 7 }) id) |> fun t =>
    { t with sec := { s.sec with key := (s.sec.key.set 9 { st := .active, dest := 0x1F, len := 32, keyId := 7, key := List.replicate 32 1 }) } }
def anAuth : AuthTlv := { spp := 0, keyId := 7, icv := 0, covered := [1] }
def signedRx : PtpRx := rx fun m => { m with auth := some anAuth }
def announced : AnnounceBody :=
  { gmIdentity := 0x1234567800010000, priority1 := 128, priority2 := 128, clockClass := 6, accuracy := 0x21, variance := 0x4E5D, steps := 0, timeSource := 0x20
    utc := { offset := 37, leap := 0, leapSecond := 0 }, timeTraceable := true, freqTraceable := true }
def announceMsg : PtpMsg := { aMsg with announce := some announced }
def aForeign : Foreign := { body := announced, srcPort := 0x1234567800010002, assurance := none }
def parent (x : PortInst) : PortInst := { x with st := .uncalibrated, foreign := some aForeign }
def aHalf : SyncRec := { seq := 9, t1 := 5, t2 := 7, fallback := false }
def aDelay (h : Option Int) : DelayRec := { seq := 9, t3 := some 11, half := h }
def ownPort (m : PtpMsg) : PtpMsg := { m with reqPort := portIdentity (port5 id) 5 2 }
def oneStepRx : PtpRx := rx fun m => { m with twoStep := false, correction := 3 }
def announceRx : PtpRx := rx fun m => { m with announce := some announced }
def oneStepResp : PtpRx := rx fun m => { ownPort m with twoStep := false }
def egress (f : PtpInst → PtpInst) : State :=
  (((ptp (fun x => { f x with role := 2 }) id).setPi 7 2 fun x => { x with enable := true }).setPort 7 fun x => { x with mac := 7 }).setLane 7 upLane
def signal (a : GrantAction) : Signaling := { rx := rx id, msgType := 0x0, action := a }
def aGrant : HeldGrant := { expiry := 9, duration := 300, log := 0 }
def aRecord : LedgerRec := { addr := 0x20000000077, port := 5, type := 3, inst := 2, transport := 0, last := 0, tokens := 0xFFFF, interval := 0, flags := 0 }
def ledger (s : State) : State := { s with tpe := { s.tpe with ledger := [(0, aRecord), (1, { aRecord with type := 1 })] } }
def onPair (a b : PtpState) : State :=
  let s := (prpPort.setPi 4 2 fun x => { x with enable := true, st := a }).setPi 5 2 fun x => { x with st := b }
  s.setLane 4 upLane
/-! ### Transactions on received messages -/

def aWork (pass : Bool) (again : Option Bool) (m : RxMessage) : RxWork :=
  { tx := 8, pass := pass, again := again, key := 9, ingress := 10 ^ 40, fallback := false, msg := m }
def working (w : RxWork) (s : State) : State :=
  { verifying s with aue := { slots := [{ tx := 8, nts := false, borrowed := false }, { tx := 7, nts := true, borrowed := false }], work := [w] } }
def someNts : NtsFields :=
  { wellFormed := true, uid := List.replicate 32 3, cookies := [List.replicate 100 1], placeholders := [], nonce := [1], cipher := [2], covered := [4] }
def someNtpRx : NtpRx := { port := 5, mark := 640000, mac := 7, addr := 9, ipv6 := false, msg := { ntpMsg with nts := some someNts } }
def syncWork (pass : Bool) (again : Option Bool) : RxWork := aWork pass again (.ptp (rx id) (.message .sync 0))
def requestWork (opened : Bool) : RxWork := aWork (!opened) none (.request someNtpRx someNts (some ([5], [6])) opened)

def atPtpRefused1 : State := ptp (fun x => { x with auth := 2 }) parent

def atPtpRefused2 : State := ptp (fun x => { x with auth := 2 }) parent

def atPtpRefused3 : State := ptp (fun x => { x with auth := 2 }) parent

def atPtpRefused4 : State := ptp (fun x => { x with auth := 2 }) parent

def atPtpRefused5 : State := ptp (fun x => { x with auth := 2 }) parent

def atPtpSyncReceive5 : State := verifying ready

def atPtpSyncReceive1 : State := ptp id parent

def atPtpSyncReceive2 : State := refs 20 (fun e => { e with enable := true }) (ptp (fun x => { x with ref := some 20 }) fun x => { parent x with pathDelay := some 100 }) |>.setLane 5 fun x => { x with latValid := true }

def atPtpSyncReceive3 : State := (ptp id fun x => { parent x with pathDelay := some 100 }).setLane 5 fun x => { x with latValid := false }

def atPtpFollowUpReceive1 : State := ptp id parent

def atPtpFollowUpReceive2 : State := ptp id fun x => { parent x with half := some aHalf }

def atPtpAnnounceReceive1 : State := ptp id id

def atPtpAnnounceReceive2 : State := restarting (ptp id parent)

def atPtpDelayReqReceive : State := sure 5 (ptp id fun x => { x with st := .master })

def atPtpDelayRespReceive : State := ptp id fun x => { parent x with delay := some (aDelay none), last := some aHalf }

def atPtpPdelayReqReceive : State := sure 5 (ptp (fun x => { x with profile := 1 }) parent)

def atPtpPdelayRespReceive1 : State := ptp (fun x => { x with profile := 1 }) fun x => { parent x with delay := some (aDelay none) }

def atPtpPdelayRespReceive2 : State := ptp (fun x => { x with profile := 1 }) fun x => { parent x with delay := some (aDelay none) }

def atPtpPdelayRespReceive3 : State := ptp (fun x => { x with profile := 1 }) fun x => { parent x with delay := some (aDelay (some 4)) }

def atPtpTcForward1 : State := sure 7 (egress id)

def atPtpTcForward2 : State := sure 7 (egress fun x => { x with twoStep := false })

def atPtpSignalingReceive1 : State := restarting (ptp id id)

def atPtpSignalingReceive2 : State := ptp (fun x => { x with grantor := true }) id

def atPtpSignalingReceive3 : State := ledger (ptp (fun x => { x with grantor := true }) id)

def atPtpSignalingReceive4 : State := ptp id fun x => { x with unicastMaster := 0x20000000077 }

def atPtpSignalingReceive5 : State := ptp id fun x => { x with unicastMaster := 0x20000000077, grants := x.grants.set 1 (some aGrant) }

def atPtpAnnounceSend1 : State := sure 5 (ptp id fun x => { x with st := .master })

def atPtpAnnounceSend2 : State := sure 5 (restarting (ptp id fun x => { x with st := .master, template := some announceMsg }))

def atPtpSyncSend1 : State := sure 5 (ptp id fun x => { x with st := .master })

def atPtpSyncSend2 : State := sure 5 (ptp (fun x => { x with twoStep := false }) fun x => { x with st := .master })

def atPtpDelayReqSend : State := sure 5 (ptp id parent)

def atAnnounceReceiptTimeout : State := later (ptp id parent)

def atUnicastGrantRenew : State := ptp id fun x => { parent x with unicastMaster := 0x20000000077 }

def atUnicastGrantExpiry : State := ledger (ptp id id)

def atLedgerSweep : State := ledger (ptp id id)

def atPrpSlaveTakeover1 : State := later (onPair .passiveSlave .slave)

def atPrpSlaveTakeover1b : State := onPair .passiveSlave .listening

def atPrpSlaveTakeover2 : State := later (onPair .uncalibrated .passiveSlave)

def atAueWork1 : State := working (syncWork true none) ready

def atAueWork2 : State := working (syncWork false (some true)) ready

def atAueWork3 : State := (working (syncWork true none) ready).setPi 5 2 parent

def atAueWork4 : State := working (requestWork false) ready

def atAueWork5 : State := working (requestWork true) ready

def atAueWork6 : State := working (aWork false none (.response 3 someNtpRx 11 [1])) ready

theorem test_ptpRefused :
    (ptpHears atPtpRefused1 (rx id) = true ∧ served atPtpRefused1 (rx id).port (rx id).mark ∧
      atPtpRefused1.tpe.inst[(rx id).inst].role ≠ 2 ∧ atPtpRefused1.tpe.inst[(rx id).inst].auth = 2) ∧
    (ptpHears atPtpRefused2 (rx id) = true ∧ served atPtpRefused2 (rx id).port (rx id).mark ∧
      atPtpRefused2.tpe.inst[(rx id).inst].role ≠ 2 ∧ atPtpRefused2.tpe.inst[(rx id).inst].auth = 2) ∧
    (ptpHears atPtpRefused3 (rx id) = true ∧ served atPtpRefused3 (rx id).port (rx id).mark ∧
      atPtpRefused3.tpe.inst[(rx id).inst].role ≠ 2 ∧ atPtpRefused3.tpe.inst[(rx id).inst].auth = 2) ∧
    (ptpHears atPtpRefused4 (rx id) = true ∧ served atPtpRefused4 (rx id).port (rx id).mark ∧
      atPtpRefused4.tpe.inst[(rx id).inst].role ≠ 2 ∧ atPtpRefused4.tpe.inst[(rx id).inst].auth = 2) ∧
    (ptpHears atPtpRefused5 (rx id) = true ∧ served atPtpRefused5 (rx id).port (rx id).mark ∧
      atPtpRefused5.tpe.inst[(rx id).inst].role ≠ 2 ∧ atPtpRefused5.tpe.inst[(rx id).inst].auth = 2) := by
  refine ⟨?_, ?_, ?_, ?_, ?_⟩ <;> decide +kernel

theorem test_ptpSyncReceive :
    (ptpHears unserved (rx id) = true ∧ ¬served unserved (rx id).port (rx id).mark ∧
      unserved.tpe.port[(rx id).port].queue ≠ 0) ∧
    (ptpHears atPtpSyncReceive5 signedRx = true ∧ served atPtpSyncReceive5 signedRx.port signedRx.mark ∧
      atPtpSyncReceive5.tpe.inst[signedRx.inst].role ≠ 2 ∧ atPtpSyncReceive5.tpe.inst[signedRx.inst].auth = 2 ∧
      anAuth.spp = atPtpSyncReceive5.tpe.inst[signedRx.inst].spp ∧
      verifySlotFor atPtpSyncReceive5 atPtpSyncReceive5.tpe.inst[signedRx.inst] anAuth.keyId = some 9) ∧
    (hearsPlain atPtpSyncReceive1 (rx id) ∧
      fromParent atPtpSyncReceive1.tpe.pi[(rx id).port][(rx id).inst] (rx id).msg = true ∧
      (rx id).msg.twoStep = true ∧ atPtpSyncReceive1.tpe.pi[(rx id).port][(rx id).inst].early = none) ∧
    (hearsPlain atPtpSyncReceive2 oneStepRx ∧
      fromParent atPtpSyncReceive2.tpe.pi[oneStepRx.port][oneStepRx.inst] oneStepRx.msg = true ∧
      oneStepRx.msg.twoStep = false ∧
      followsMaster atPtpSyncReceive2.tpe.pi[oneStepRx.port][oneStepRx.inst].st = true ∧
      atPtpSyncReceive2.tpe.pi[oneStepRx.port][oneStepRx.inst].st ≠ PtpState.passiveSlave ∧
      atPtpSyncReceive2.tpe.pi[oneStepRx.port][oneStepRx.inst].pathDelay = some 100 ∧
      atPtpSyncReceive2.tpe.pi[oneStepRx.port][oneStepRx.inst].foreign = some aForeign ∧
      rxFallback atPtpSyncReceive2 (↑oneStepRx.port) oneStepRx.mark = false ∧
      atPtpSyncReceive2.tpe.pi[oneStepRx.port][oneStepRx.inst].pathFallback = false ∧
      atPtpSyncReceive2.tpe.inst[oneStepRx.inst].ref = some 20) ∧
    (hearsPlain atPtpSyncReceive3 oneStepRx ∧
      fromParent atPtpSyncReceive3.tpe.pi[oneStepRx.port][oneStepRx.inst] oneStepRx.msg = true ∧
      oneStepRx.msg.twoStep = false ∧
      atPtpSyncReceive3.tpe.pi[oneStepRx.port][oneStepRx.inst].pathDelay.isSome = true ∧
      rxFallback atPtpSyncReceive3 (↑oneStepRx.port) oneStepRx.mark = true ∧
      atPtpSyncReceive3.tpe.port[oneStepRx.port].refUseFallback = false) := by
  refine ⟨?_, ?_, ?_, ?_, ?_⟩ <;> decide +kernel

theorem test_ptpFollowUpReceive :
    (hearsPlain atPtpFollowUpReceive1 (rx id) ∧
      fromParent atPtpFollowUpReceive1.tpe.pi[(rx id).port][(rx id).inst] (rx id).msg = true ∧
      atPtpFollowUpReceive1.tpe.pi[(rx id).port][(rx id).inst].half = none) ∧
    (hearsPlain atPtpFollowUpReceive2 (rx id) ∧
      atPtpFollowUpReceive2.tpe.pi[(rx id).port][(rx id).inst].half = some aHalf ∧ aHalf.seq = (rx id).msg.seq ∧
      fromParent atPtpFollowUpReceive2.tpe.pi[(rx id).port][(rx id).inst] (rx id).msg = true) := by
  refine ⟨?_, ?_⟩ <;> decide +kernel

theorem test_ptpAnnounceReceive :
    (hearsPlain atPtpAnnounceReceive1 announceRx ∧ announceRx.msg.announce = some announced ∧
      announceRx.msg.srcPort.toNat / 65536 ≠ (clockIdentity atPtpAnnounceReceive1 ↑announceRx.inst).toNat ∧
      (atPtpAnnounceReceive1.tpe.pi[announceRx.port][announceRx.inst].foreign = none ∨ ∃ g,
      atPtpAnnounceReceive1.tpe.pi[announceRx.port][announceRx.inst].foreign = some g ∧
      g.srcPort = announceRx.msg.srcPort)) ∧
    (hearsPlain atPtpAnnounceReceive2 announceRx ∧ announceRx.msg.announce = some announced ∧
      announceRx.msg.srcPort.toNat / 65536 ≠ (clockIdentity atPtpAnnounceReceive2 ↑announceRx.inst).toNat ∧
      (atPtpAnnounceReceive2.tpe.pi[announceRx.port][announceRx.inst].foreign = none ∨ ∃ g,
      atPtpAnnounceReceive2.tpe.pi[announceRx.port][announceRx.inst].foreign = some g ∧
      g.srcPort = announceRx.msg.srcPort)) := by
  refine ⟨?_, ?_⟩ <;> decide +kernel

theorem test_ptpDelayReqReceive :
    hearsPlain atPtpDelayReqReceive (rx id) ∧ (instProfile atPtpDelayReqReceive ↑(rx id).inst).peer = false ∧
      (instProfile atPtpDelayReqReceive ↑(rx id).inst).required = false ∧
      actsMaster atPtpDelayReqReceive ↑(rx id).port ↑(rx id).inst = true ∧ atPtpDelayReqReceive.tpe.ledger = [] ∧
      sendsPlain atPtpDelayReqReceive (rx id).port (rx id).inst := by
  and_intros <;>
    first
    | decide +kernel
    | exact leads_delay _ _

theorem test_ptpDelayRespReceive :
    hearsPlain atPtpDelayRespReceive (rx ownPort) ∧
      atPtpDelayRespReceive.tpe.pi[(rx ownPort).port][(rx ownPort).inst].delay = some (aDelay none) ∧
      atPtpDelayRespReceive.tpe.pi[(rx ownPort).port][(rx ownPort).inst].last = some aHalf ∧
      (aDelay none).t3 = some 11 ∧ (instProfile atPtpDelayRespReceive ↑(rx ownPort).inst).peer = false ∧
      (aDelay none).seq = (rx ownPort).msg.seq ∧
      (rx ownPort).msg.reqPort = portIdentity atPtpDelayRespReceive ↑(rx ownPort).port ↑(rx ownPort).inst ∧
      fromParent atPtpDelayRespReceive.tpe.pi[(rx ownPort).port][(rx ownPort).inst] (rx ownPort).msg = true := by decide +kernel

theorem test_ptpPdelayReqReceive :
    hearsPlain atPtpPdelayReqReceive (rx id) ∧ (instProfile atPtpPdelayReqReceive ↑(rx id).inst).peer = true ∧
      atPtpPdelayReqReceive.tpe.pi[(rx id).port][(rx id).inst].st ≠ PtpState.calibrating ∧
      sendsPlain atPtpPdelayReqReceive (rx id).port (rx id).inst := by
  and_intros <;>
    first
    | decide +kernel
    | exact leads_delay _ _

theorem test_ptpPdelayRespReceive :
    ((hearsPlain atPtpPdelayRespReceive1 oneStepResp ∧
      (instProfile atPtpPdelayRespReceive1 ↑oneStepResp.inst).peer = true ∧
      atPtpPdelayRespReceive1.tpe.pi[oneStepResp.port][oneStepResp.inst].delay = some (aDelay none) ∧
      (aDelay none).t3 = some 11 ∧ (aDelay none).seq = oneStepResp.msg.seq ∧
      oneStepResp.msg.reqPort = portIdentity atPtpPdelayRespReceive1 ↑oneStepResp.port ↑oneStepResp.inst) ∧
      (aDelay none).half = none ∧ oneStepResp.msg.twoStep = false) ∧
    ((hearsPlain atPtpPdelayRespReceive2 (rx ownPort) ∧
      (instProfile atPtpPdelayRespReceive2 ↑(rx ownPort).inst).peer = true ∧
      atPtpPdelayRespReceive2.tpe.pi[(rx ownPort).port][(rx ownPort).inst].delay = some (aDelay none) ∧
      (aDelay none).t3 = some 11 ∧ (aDelay none).seq = (rx ownPort).msg.seq ∧
      (rx ownPort).msg.reqPort = portIdentity atPtpPdelayRespReceive2 ↑(rx ownPort).port ↑(rx ownPort).inst) ∧
      (aDelay none).half = none ∧ (rx ownPort).msg.twoStep = true) ∧
    ((hearsPlain atPtpPdelayRespReceive3 (rx ownPort) ∧
      (instProfile atPtpPdelayRespReceive3 ↑(rx ownPort).inst).peer = true ∧
      atPtpPdelayRespReceive3.tpe.pi[(rx ownPort).port][(rx ownPort).inst].delay = some (aDelay (some 4)) ∧
      (aDelay (some 4)).t3 = some 11 ∧ (aDelay (some 4)).seq = (rx ownPort).msg.seq ∧
      (rx ownPort).msg.reqPort = portIdentity atPtpPdelayRespReceive3 ↑(rx ownPort).port ↑(rx ownPort).inst) ∧
      (aDelay (some 4)).half = some 4) := by
  refine ⟨?_, ?_, ?_⟩ <;> decide +kernel

theorem test_ptpTcForward :
    ((ptpHears atPtpTcForward1 (rx id) = true ∧ served atPtpTcForward1 (rx id).port (rx id).mark ∧
      atPtpTcForward1.tpe.inst[(rx id).inst].role = 2 ∧ 7 ≠ (rx id).port ∧
      piEnabled atPtpTcForward1 ↑7 ↑(rx id).inst = true ∧ canReserve atPtpTcForward1 7) ∧
      atPtpTcForward1.tpe.inst[(rx id).inst].twoStep = true) ∧
    ((ptpHears atPtpTcForward2 (rx id) = true ∧ served atPtpTcForward2 (rx id).port (rx id).mark ∧
      atPtpTcForward2.tpe.inst[(rx id).inst].role = 2 ∧ 7 ≠ (rx id).port ∧
      piEnabled atPtpTcForward2 ↑7 ↑(rx id).inst = true ∧ canReserve atPtpTcForward2 7) ∧
      atPtpTcForward2.tpe.inst[(rx id).inst].twoStep = false ∧ (rx id).msg.auth = none ∧
      (instProfile atPtpTcForward2 ↑(rx id).inst).peer = false) := by
  and_intros <;>
    first
    | decide +kernel
    | exact leads_delay _ _

theorem test_ptpSignalingReceive :
    (hearsPlain atPtpSignalingReceive1 (signal GrantAction.cancel).rx ∧ atPtpSignalingReceive1.fwRuns = false) ∧
    (hearsPlain atPtpSignalingReceive2 (signal (GrantAction.request (-7) 500)).rx ∧
      atPtpSignalingReceive2.fwRuns = true ∧
      atPtpSignalingReceive2.tpe.inst[(signal (GrantAction.request (-7) 500)).rx.inst].grantor = true ∧
      negotiates atPtpSignalingReceive2 ↑(signal (GrantAction.request (-7) 500)).rx.inst = true ∧
      (∀ e ∈ atPtpSignalingReceive2.tpe.ledger,
      (e.2.type == 3 && e.2.port == (signal (GrantAction.request (-7) 500)).rx.port && e.2.inst == (signal (GrantAction.request (-7) 500)).rx.inst && e.2.addr == clientAddr atPtpSignalingReceive2.tpe.pi[(signal (GrantAction.request (-7) 500)).rx.port][(signal (GrantAction.request (-7) 500)).rx.inst].transport (signal (GrantAction.request (-7) 500)).rx.mac (signal (GrantAction.request (-7) 500)).rx.addr && e.2.flags.toNat == (signal (GrantAction.request (-7) 500)).msgType.toNat) = false) ∧
      grantCount atPtpSignalingReceive2 none < grantCap atPtpSignalingReceive2.cpx.imposition ∧
      grantCount atPtpSignalingReceive2 (some ↑(signal (GrantAction.request (-7) 500)).rx.inst) < min (grantCap atPtpSignalingReceive2.cpx.imposition) (atPtpSignalingReceive2.tpe.inst[(signal (GrantAction.request (-7) 500)).rx.inst].maxGrants.getD (grantCap atPtpSignalingReceive2.cpx.imposition)) ∧
      freeIndex atPtpSignalingReceive2 = some 0 ∧
      fastest atPtpSignalingReceive2.tpe.inst[(signal (GrantAction.request (-7) 500)).rx.inst] (signal (GrantAction.request (-7) 500)).msgType = some (-7) ∧
      -7 ≤ -7 ∧ (atPtpSignalingReceive2.tpe.pi[(signal (GrantAction.request (-7) 500)).rx.port][(signal (GrantAction.request (-7) 500)).rx.inst].transport = 0 ∨ atPtpSignalingReceive2.tpe.port[(signal (GrantAction.request (-7) 500)).rx.port].nextHop ≠ 0)) ∧
    (hearsPlain atPtpSignalingReceive3 (signal GrantAction.cancel).rx ∧ atPtpSignalingReceive3.fwRuns = true) ∧
    (hearsPlain atPtpSignalingReceive4 (signal (GrantAction.granted 0 300)).rx ∧
      atPtpSignalingReceive4.fwRuns = true ∧
      negotiates atPtpSignalingReceive4 ↑(signal (GrantAction.granted 0 300)).rx.inst = true ∧
      atPtpSignalingReceive4.tpe.pi[(signal (GrantAction.granted 0 300)).rx.port][(signal (GrantAction.granted 0 300)).rx.inst].unicastMaster ≠ 0 ∧
      clientAddr atPtpSignalingReceive4.tpe.pi[(signal (GrantAction.granted 0 300)).rx.port][(signal (GrantAction.granted 0 300)).rx.inst].transport (signal (GrantAction.granted 0 300)).rx.mac (signal (GrantAction.granted 0 300)).rx.addr = atPtpSignalingReceive4.tpe.pi[(signal (GrantAction.granted 0 300)).rx.port][(signal (GrantAction.granted 0 300)).rx.inst].unicastMaster) ∧
    (hearsPlain atPtpSignalingReceive5 (signal (GrantAction.granted 0 0)).rx ∧
      atPtpSignalingReceive5.fwRuns = true ∧
      negotiates atPtpSignalingReceive5 ↑(signal (GrantAction.granted 0 0)).rx.inst = true ∧
      atPtpSignalingReceive5.tpe.pi[(signal (GrantAction.granted 0 0)).rx.port][(signal (GrantAction.granted 0 0)).rx.inst].unicastMaster ≠ 0 ∧
      clientAddr atPtpSignalingReceive5.tpe.pi[(signal (GrantAction.granted 0 0)).rx.port][(signal (GrantAction.granted 0 0)).rx.inst].transport (signal (GrantAction.granted 0 0)).rx.mac (signal (GrantAction.granted 0 0)).rx.addr = atPtpSignalingReceive5.tpe.pi[(signal (GrantAction.granted 0 0)).rx.port][(signal (GrantAction.granted 0 0)).rx.inst].unicastMaster) := by
  refine ⟨?_, ?_, ?_, ?_, ?_⟩ <;> decide +kernel

theorem test_ptpAnnounceSend :
    ((piEnabled atPtpAnnounceSend1 ↑5 ↑2 = true ∧ actsMaster atPtpAnnounceSend1 ↑5 ↑2 = true ∧
      atPtpAnnounceSend1.tpe.ledger = [] ∧ (instProfile atPtpAnnounceSend1 ↑2).required = false ∧
      sendsPlain atPtpAnnounceSend1 5 2) ∧
      (∀ (c : ℕ), atPtpAnnounceSend1.tpe.pi[5][2].sentAt[0] = some c → c + logCycles (ownLog atPtpAnnounceSend1 (↑5) (↑2) 0) ≤ atPtpAnnounceSend1.tcr.cycles) ∧
      atPtpAnnounceSend1.fwRuns = true) ∧
    ((piEnabled atPtpAnnounceSend2 ↑5 ↑2 = true ∧ actsMaster atPtpAnnounceSend2 ↑5 ↑2 = true ∧
      atPtpAnnounceSend2.tpe.ledger = [] ∧ (instProfile atPtpAnnounceSend2 ↑2).required = false ∧
      sendsPlain atPtpAnnounceSend2 5 2) ∧
      (∀ (c : ℕ), atPtpAnnounceSend2.tpe.pi[5][2].sentAt[0] = some c → c + logCycles (ownLog atPtpAnnounceSend2 (↑5) (↑2) 0) ≤ atPtpAnnounceSend2.tcr.cycles) ∧
      atPtpAnnounceSend2.fwRuns = false ∧ atPtpAnnounceSend2.tpe.pi[5][2].st = PtpState.master ∧
      atPtpAnnounceSend2.tpe.pi[5][2].template = some announceMsg ∧ announceMsg.announce = some announced) := by
  and_intros <;>
    first
    | decide +kernel
    | exact leads_delay _ _

theorem test_ptpSyncSend :
    ((piEnabled atPtpSyncSend1 ↑5 ↑2 = true ∧ actsMaster atPtpSyncSend1 ↑5 ↑2 = true ∧ atPtpSyncSend1.tpe.ledger = [] ∧
      (instProfile atPtpSyncSend1 ↑2).required = false ∧ sendsPlain atPtpSyncSend1 5 2) ∧
      ∀ (c : ℕ), atPtpSyncSend1.tpe.pi[5][2].sentAt[1] = some c → c + logCycles (ownLog atPtpSyncSend1 (↑5) (↑2) 1) ≤ atPtpSyncSend1.tcr.cycles) ∧
    ((piEnabled atPtpSyncSend2 ↑5 ↑2 = true ∧ actsMaster atPtpSyncSend2 ↑5 ↑2 = true ∧
      atPtpSyncSend2.tpe.ledger = [] ∧ (instProfile atPtpSyncSend2 ↑2).required = false ∧
      sendsPlain atPtpSyncSend2 5 2) ∧
      ∀ (c : ℕ), atPtpSyncSend2.tpe.pi[5][2].sentAt[1] = some c → c + logCycles (ownLog atPtpSyncSend2 (↑5) (↑2) 1) ≤ atPtpSyncSend2.tcr.cycles) := by
  and_intros <;>
    first
    | decide +kernel
    | exact leads_delay _ _

theorem test_ptpDelayReqSend :
    piEnabled atPtpDelayReqSend ↑5 ↑2 = true ∧ followsMaster atPtpDelayReqSend.tpe.pi[5][2].st = true ∧
      atPtpDelayReqSend.tpe.inst[2].role ≠ 2 ∧ (instProfile atPtpDelayReqSend ↑2).peer = false ∧
      sendsPlain atPtpDelayReqSend 5 2 ∧
      ∀ (c : ℕ), atPtpDelayReqSend.tpe.pi[5][2].sentAt[2] = some c → c + logCycles (heardLog atPtpDelayReqSend (↑5) (↑2) 2) ≤ atPtpDelayReqSend.tcr.cycles := by
  and_intros <;>
    first
    | decide +kernel
    | exact leads_delay _ _

theorem test_announceReceiptTimeout :
    piEnabled atAnnounceReceiptTimeout ↑5 ↑2 = true ∧ atAnnounceReceiptTimeout.blockRuns 12 = true ∧
      atAnnounceReceiptTimeout.tpe.pi[5][2].annAt + announceWait atAnnounceReceiptTimeout ↑5 ↑2 ≤ atAnnounceReceiptTimeout.tcr.cycles := by decide +kernel

theorem test_unicastGrantRenew :
    atUnicastGrantRenew.fwRuns = true ∧ piEnabled atUnicastGrantRenew ↑5 ↑2 = true ∧
      negotiates atUnicastGrantRenew ↑2 = true ∧ atUnicastGrantRenew.tpe.pi[5][2].unicastMaster ≠ 0 ∧
      mayOriginate atUnicastGrantRenew ↑5 = true := by decide +kernel

theorem test_unicastGrantExpiry :
    atUnicastGrantExpiry.fwRuns = true := by decide +kernel

theorem test_ledgerSweep :
    atLedgerSweep.fwRuns = true ∧ atLedgerSweep.blockRuns 12 = true := by decide +kernel

theorem test_prpSlaveTakeover :
    (atPrpSlaveTakeover1.tpe.prp[2].enable = true ∧ atPrpSlaveTakeover1.blockRuns 12 = true ∧
      atPrpSlaveTakeover1.tpe.pi[4][2].st = PtpState.passiveSlave ∧
      (laneUp atPrpSlaveTakeover1.nlu.lane[5] = false ∨ atPrpSlaveTakeover1.tpe.pi[5][2].st ≠ PtpState.slave ∧
      atPrpSlaveTakeover1.tpe.pi[5][2].st ≠ PtpState.uncalibrated ∨ atPrpSlaveTakeover1.tpe.pi[5][2].measuredAt + announceWait atPrpSlaveTakeover1 ↑5 ↑2 ≤ atPrpSlaveTakeover1.tcr.cycles)) ∧
    (atPrpSlaveTakeover1b.tpe.prp[2].enable = true ∧ atPrpSlaveTakeover1b.blockRuns 12 = true ∧
      atPrpSlaveTakeover1b.tpe.pi[4][2].st = PtpState.passiveSlave ∧
      (laneUp atPrpSlaveTakeover1b.nlu.lane[5] = false ∨ atPrpSlaveTakeover1b.tpe.pi[5][2].st ≠ PtpState.slave ∧
      atPrpSlaveTakeover1b.tpe.pi[5][2].st ≠ PtpState.uncalibrated ∨ atPrpSlaveTakeover1b.tpe.pi[5][2].measuredAt + announceWait atPrpSlaveTakeover1b ↑5 ↑2 ≤ atPrpSlaveTakeover1b.tcr.cycles)) ∧
    (atPrpSlaveTakeover2.tpe.prp[2].enable = true ∧ atPrpSlaveTakeover2.blockRuns 12 = true ∧
      atPrpSlaveTakeover2.tpe.pi[4][2].st ≠ PtpState.passiveSlave ∧
      atPrpSlaveTakeover2.tpe.pi[5][2].st = PtpState.passiveSlave ∧
      (laneUp atPrpSlaveTakeover2.nlu.lane[4] = false ∨ atPrpSlaveTakeover2.tpe.pi[4][2].st ≠ PtpState.slave ∧
      atPrpSlaveTakeover2.tpe.pi[4][2].st ≠ PtpState.uncalibrated ∨ atPrpSlaveTakeover2.tpe.pi[4][2].measuredAt + announceWait atPrpSlaveTakeover2 ↑4 ↑2 ≤ atPrpSlaveTakeover2.tcr.cycles)) := by
  refine ⟨?_, ?_, ?_⟩ <;> decide +kernel

theorem test_aueWork :
    (atAueWork1.blockRuns 13 = true ∧ List.find? (fun x => x.tx == 8) atAueWork1.aue.work = some (syncWork true none)) ∧
    (atAueWork2.blockRuns 13 = true ∧
      List.find? (fun x => x.tx == 8) atAueWork2.aue.work = some (syncWork false (some true))) ∧
    ((atAueWork3.blockRuns 13 = true ∧
      List.find? (fun x => x.tx == 8) atAueWork3.aue.work = some (syncWork true none)) ∧
      atAueWork3.blockRuns 12 = true ∧ piEnabled atAueWork3 ↑(rx id).port ↑(rx id).inst = true ∧
      atAueWork3.tpe.pi[(rx id).port][(rx id).inst].st ≠ PtpState.initializing ∧
      atAueWork3.tpe.inst[(rx id).inst].role ≠ 2 ∧
      fromParent atAueWork3.tpe.pi[(rx id).port][(rx id).inst] (rx id).msg = true ∧
      atAueWork3.tpe.pi[(rx id).port][(rx id).inst].early = none) ∧
    (atAueWork4.blockRuns 13 = true ∧ List.find? (fun x => x.tx == 8) atAueWork4.aue.work = some (requestWork false)) ∧
    (atAueWork5.blockRuns 13 = true ∧ List.find? (fun x => x.tx == 8) atAueWork5.aue.work = some (requestWork true)) ∧
    (atAueWork6.blockRuns 13 = true ∧
      List.find? (fun x => x.tx == 8) atAueWork6.aue.work = some (aWork false none (RxMessage.response 3 someNtpRx 11 [1]))) := by
  refine ⟨?_, ?_, ?_, ?_, ?_, ?_⟩ <;> decide +kernel

/-! ### NTP, ESMC and samples -/

/-- The NTP server on port 5, answering plain requests with the gate open. -/
def server (f : Tpe → Tpe) : State := let s := ntpPort fun x => { x with monitor := false }
  { s with tpe := f { s.tpe with server := { s.tpe.server with versions := 2 }, serving := some (5, 640000) } }
def ntsFields (ok : Bool) : NtsFields :=
  { wellFormed := ok, uid := List.replicate 32 1, cookies := [List.replicate 104 2], placeholders := [], nonce := List.replicate 16 3, cipher := List.replicate 16 4, covered := [] }
def ntpRx (f : NtpMsg → NtpMsg) : NtpRx := { port := 5, mark := 640000, mac := 0x20000000077, addr := 0xFFFFC0A80109, ipv6 := false, msg := f ntpMsg }
def ntsRx (ok : Bool) : NtpRx := ntpRx fun m => { m with nts := some (ntsFields ok), bytes := 200 }
def client (f : NtpClient → NtpClient) (s : State) : State :=
  { s with tpe := { s.tpe with serving := some (5, 640000) } }.setClient 1 fun x => f { x with enable := true, port := 5, server := 0xFFFFC0A80109, t1 := some 11, t1Ntp := some 99, udpPort := 4000 }
def answer (f : NtpMsg → NtpMsg) : NtpRx := ntpRx fun m => f { m with mode := 4, orig := 99, xmit := 5, recv := 4 }
def kiss (code : BitVec 32) : NtpRx := answer fun m => { m with stratum := 0, refId := code }
def ntsAnswer : NtpRx := answer fun m => { m with nts := some (ntsFields true) }
def ntsNak : NtpRx := answer fun m => { m with stratum := 0, refId := 0x4E54534E, nts := some (ntsFields true) }
/-- A transaction on an NTS request, with the COOKIE key's result. -/
def requested (pass : Bool) (keys : Option (List Byte × List Byte)) (opened : Bool) : RxWork :=
  aWork pass none (.request (ntsRx true) (ntsFields true) keys opened)
def requesting (w : RxWork) : State :=
  { server id with aue := { slots := [{ tx := 8, nts := true, borrowed := false }], work := [w] } }
/-- Client 1 with the S2C key in slot 9. -/
def ntsClient : State :=
  let s := client (fun x => { x with nts := true, uid := some (List.replicate 32 1), s2c := some 9, jar := [[1]] }) (port5 id)
  { s with sec := (verifying ready).sec }
def esmc (f : TpePort → TpePort) : State := port5 fun x => f { x with esmcMode := 3 }

/-- Direction 0 or 1 of sample port 2. -/
def sampling (dir : Nat) (f : SampDir → SampDir) : State :=
  ready.setDir 2 dir fun x => f { x with cfg := { x.cfg with enable := true, stampSlot := if dir = 1 then some 2 else none } }
/-- Direction 0 is a master whose next frame sync has come. -/
def mastering : State := (sampling 0 fun x => { x with cfg := { x.cfg with master := true } }).setDom 0 fun x => { x with count := secU }
def channel (f : SampChan → SampChan) (s : State) : State :=
  { s with sau := { s.sau with chan := (s.sau.chan.set 4 (f { s.sau.chan[4] with cfg := { s.sau.chan[4].cfg with enable := true, srcPort := 2, dstPort := 3, group := some 1 } }))
                               group := (s.sau.group.set 1 { enable := true }) } }
/-- Both directions of channel 4 have had frame syncs. -/
def synced (s : State) : State :=
  (s.setDir 2 0 fun x => { x with first := some 0 }).setDir 3 1 fun x => { x with first := some 0, last := some (128 * 10 ^ 9) }
def underRun (clean : Nat) (stepped : Option Nat) (s : State) : State :=
  channel (fun x => { x with under := true, ratio := some (2 ^ 32), clean := clean, stepped := stepped }) (synced s)
def mates (clean : Nat) : State := let s := underRun 16 (some 0) ready
  { s with sau := { s.sau with chan := (s.sau.chan.set 5 { s.sau.chan[4] with clean := clean }) } }
def maskWaits : State := waitingFor (.slotMask 2 0 1) 0x7002 [] (sampling 0 fun x => { x with shadow := some (1, 0) })
def maskOld : State := { maskWaits with cpx := { maskWaits.cpx with impressions := 8001 } }
def maskFlight : Flight := held (.slotMask 2 0 1) 0x7002 []
def aStream (last : Nat) : SvRec := { enable := true, port := 5, appid := 0x4000, svid := [1], lastCnt := some last, lastMark := some 0 }
def streams (last : Nat) : State := let s := lanes id
  { s with sau := { s.sau with stream := [(3, aStream last), (4, { aStream last with appid := 0x4001, missing := 3 })] } }
def nextSecond (s : State) : State := { s with tcr := { s.tcr with seq := { s.tcr.seq with second := 1 } } }
def svFrame (c : Nat) : SvFrame := { port := 5, mark := 640000, appid := 0x4000, svid := [1], smpCnts := [c], smpSynch := 1 }
def otherFrame : SvFrame := { svFrame 6 with appid := 0x4002 }
def unsynchronised (m : NtpMsg) : NtpMsg := { m with stratum := 16 }
def prcPdu : EsmcPdu := { event := false, code := 2 }

def atNtpRequestReceive1 : State := sure 5 (server id)

def atNtpRequestReceive2 : State := server fun t => { t with server := { t.server with gate := 1 } }

def atNtpRequestReceive3 : State := server fun t => { t with nts := { t.nts with require := true } }

def atNtsRequestReceive1 : State := server id

def atNtsRequestReceive2 : State := (server id).setBlock 13 .asserted

def atNtsRequestReceive3 : State := server id

def atAueRequest1 : State := sure 5 (requesting (requested true none false))

def atAueRequest2 : State := sure 5 (requesting (requested true (some ([5], [6])) true))

def atNtpResponseReceive1 : State := client (fun x => { x with t1Ntp := some 98 }) (port5 id)

def atNtpResponseReceive2 : State := client id (port5 id)

def atNtpResponseReceive3 : State := client id (port5 id)

def atNtpResponseReceive4 : State := refs 20 (fun e => { e with enable := true }) (client (fun x => { x with ref := some 20 }) (port5 id))

def atNtpResponseReceive5 : State := client id (port5 id)

def atNtpClientPoll1 : State := sure 5 (client id (port5 id))

def atNtpClientPoll2 : State := client (fun x => { x with stopped := true }) (port5 id)

def atNtpClientPoll3 : State := client (fun x => { x with nts := true, jar := [] }) (port5 id)

def atEsmcPduReceive1 : State := esmc fun x => { x with ssm := 2 }

def atEsmcPduReceive2 : State := esmc fun x => { x with ssm := 2 }

def atEsmcPduReceive3 : State := esmc fun x => { x with ssm := 2, esmcTimeout := true }

def atEsmcInfoSend : State := esmc id

def atEsmcEventSend1 : State := esmc id

def atEsmcEventSend2 : State := esmc fun x => { x with ssmSent := some 0xB }

def atEsmcTimeout : State := later (esmc id)

def atSampleFrame1 : State := channel (fun x => { x with ratio := some (2 ^ 32), clean := 3 }) (sampling 0 id)

def atSampleFrame2 : State := sampling 1 fun x => { x with active := 0xFFFFFFFE }

def atSlotMaskTimeout1 : State := sampling 0 id

def atSampleRateFault : State := later (channel (fun x => { x with ratio := some 1, clean := 9 }) (sampling 0 id))

def atSampleRateFaultClear1 : State := sampling 0 fun x => { x with rateFault := true, good := 16 }

def atSampleRateFaultClear2 : State := sampling 0 fun x => { x with rateFault := true, good := 15 }

def atChannelRatioLock : State := later (channel id (synced ready))

def atChannelReentry1 : State := underRun 16 none ready

def atChannelReentry2 : State := mates 16

def atChannelReentry3 : State := mates 15

def atChannelReentry4 : State := underRun 15 none ready

def atSvMonitorSecond1 : State := streams 5

def atSvMonitorSecond2 : State := nextSecond (streams 5)

def atSvFrameReceive1 : State := streams 5

def atSvFrameReceive2 : State := streams 5

def atSvFrameReceive3 : State := streams 4799

def atSvFrameReceive4 : State := streams 5

theorem test_ntpRequestReceive :
    ((ntpRx id).msg.nts = none ∧ ((served atNtpRequestReceive1 (ntpRx id).port (ntpRx id).mark ∧
      serves atNtpRequestReceive1 ↑(ntpRx id).port = true ∧ (ntpRx id).msg.mode = 3 ∧ ((ntpRx id).msg.version = 3 ∧
      atNtpRequestReceive1.tpe.server.versions.getLsbD 0 = true ∨ (ntpRx id).msg.version = 4 ∧
      atNtpRequestReceive1.tpe.server.versions.getLsbD 1 = true)) ∧
      gateOpen atNtpRequestReceive1 (↑atNtpRequestReceive1.tpe.server.view) atNtpRequestReceive1.tpe.server.gate = true ∧
      atNtpRequestReceive1.nlu.lane[(ntpRx id).port].latValid = true ∧
      atNtpRequestReceive1.tpe.port[(ntpRx id).port].monitor = false) ∧
      atNtpRequestReceive1.tpe.nts.require = false ∧ canReserve atNtpRequestReceive1 (ntpRx id).port ∧
      mayOriginate atNtpRequestReceive1 ↑(ntpRx id).port = true) ∧
    ((ntpRx id).msg.nts = none ∧ (served atNtpRequestReceive2 (ntpRx id).port (ntpRx id).mark ∧
      serves atNtpRequestReceive2 ↑(ntpRx id).port = true ∧ (ntpRx id).msg.mode = 3 ∧ ((ntpRx id).msg.version = 3 ∧
      atNtpRequestReceive2.tpe.server.versions.getLsbD 0 = true ∨ (ntpRx id).msg.version = 4 ∧
      atNtpRequestReceive2.tpe.server.versions.getLsbD 1 = true)) ∧ atNtpRequestReceive2.tpe.nts.require = false ∧
      gateOpen atNtpRequestReceive2 (↑atNtpRequestReceive2.tpe.server.view) atNtpRequestReceive2.tpe.server.gate = false) ∧
    ((ntpRx id).msg.nts = none ∧ (served atNtpRequestReceive3 (ntpRx id).port (ntpRx id).mark ∧
      serves atNtpRequestReceive3 ↑(ntpRx id).port = true ∧ (ntpRx id).msg.mode = 3 ∧ ((ntpRx id).msg.version = 3 ∧
      atNtpRequestReceive3.tpe.server.versions.getLsbD 0 = true ∨ (ntpRx id).msg.version = 4 ∧
      atNtpRequestReceive3.tpe.server.versions.getLsbD 1 = true)) ∧ atNtpRequestReceive3.tpe.nts.require = true) := by
  and_intros <;>
    first
    | decide +kernel
    | exact leads_delay _ _

theorem test_ntsRequestReceive :
    ((served atNtsRequestReceive1 (ntsRx false).port (ntsRx false).mark ∧
      serves atNtsRequestReceive1 ↑(ntsRx false).port = true ∧ (ntsRx false).msg.mode = 3 ∧
      ((ntsRx false).msg.version = 3 ∧
      atNtsRequestReceive1.tpe.server.versions.getLsbD 0 = true ∨ (ntsRx false).msg.version = 4 ∧
      atNtsRequestReceive1.tpe.server.versions.getLsbD 1 = true)) ∧ (ntsFields false).wellFormed = false) ∧
    (((served atNtsRequestReceive2 (ntsRx true).port (ntsRx true).mark ∧
      serves atNtsRequestReceive2 ↑(ntsRx true).port = true ∧ (ntsRx true).msg.mode = 3 ∧
      ((ntsRx true).msg.version = 3 ∧
      atNtsRequestReceive2.tpe.server.versions.getLsbD 0 = true ∨ (ntsRx true).msg.version = 4 ∧
      atNtsRequestReceive2.tpe.server.versions.getLsbD 1 = true)) ∧
      gateOpen atNtsRequestReceive2 (↑atNtsRequestReceive2.tpe.server.view) atNtsRequestReceive2.tpe.server.gate = true ∧
      atNtsRequestReceive2.nlu.lane[(ntsRx true).port].latValid = true ∧
      atNtsRequestReceive2.tpe.port[(ntsRx true).port].monitor = false) ∧ (ntsFields true).wellFormed = true ∧
      atNtsRequestReceive2.blockRuns 13 = false) ∧
    (((served atNtsRequestReceive3 (ntsRx true).port (ntsRx true).mark ∧
      serves atNtsRequestReceive3 ↑(ntsRx true).port = true ∧ (ntsRx true).msg.mode = 3 ∧
      ((ntsRx true).msg.version = 3 ∧
      atNtsRequestReceive3.tpe.server.versions.getLsbD 0 = true ∨ (ntsRx true).msg.version = 4 ∧
      atNtsRequestReceive3.tpe.server.versions.getLsbD 1 = true)) ∧
      gateOpen atNtsRequestReceive3 (↑atNtsRequestReceive3.tpe.server.view) atNtsRequestReceive3.tpe.server.gate = true ∧
      atNtsRequestReceive3.nlu.lane[(ntsRx true).port].latValid = true ∧
      atNtsRequestReceive3.tpe.port[(ntsRx true).port].monitor = false) ∧ (ntsFields true).wellFormed = true ∧
      atNtsRequestReceive3.blockRuns 13 = true ∧ atNtsRequestReceive3.aue.slots.length < 1024) := by
  refine ⟨?_, ?_, ?_⟩ <;> decide +kernel

theorem test_aueRequest :
    ((atAueRequest1.blockRuns 13 = true ∧
      List.find? (fun x => x.tx == 8) atAueRequest1.aue.work = some (requested true none false) ∧
      canReserve atAueRequest1 (ntsRx true).port ∧ mayOriginate atAueRequest1 ↑(ntsRx true).port = true ∧
      atAueRequest1.aue.slots.length < 1024) ∧ atAueRequest1.tpe.nts.nak = true) ∧
    (atAueRequest2.blockRuns 13 = true ∧
      List.find? (fun x => x.tx == 8) atAueRequest2.aue.work = some (requested true (some ([5], [6])) true) ∧
      canReserve atAueRequest2 (ntsRx true).port ∧ mayOriginate atAueRequest2 ↑(ntsRx true).port = true ∧
      atAueRequest2.aue.slots.length < 1024) := by
  and_intros <;>
    first
    | decide +kernel
    | exact leads_delay _ _

theorem test_ntpResponseReceive :
    ((served atNtpResponseReceive1 (answer id).port (answer id).mark ∧
      atNtpResponseReceive1.tpe.client[1].enable = true ∧ atNtpResponseReceive1.tpe.client[1].stopped = false ∧
      atNtpResponseReceive1.blockRuns 12 = true ∧ laneUp atNtpResponseReceive1.nlu.lane[(answer id).port] = true ∧
      atNtpResponseReceive1.tpe.port[(answer id).port].enable = true) ∧
      (atNtpResponseReceive1.tpe.client[1].t1 = none ∨ atNtpResponseReceive1.tpe.client[1].t1Ntp ≠ some (answer id).msg.orig)) ∧
    (((served atNtpResponseReceive2 (kiss 1380013125).port (kiss 1380013125).mark ∧
      atNtpResponseReceive2.tpe.client[1].enable = true ∧ atNtpResponseReceive2.tpe.client[1].stopped = false ∧
      atNtpResponseReceive2.blockRuns 12 = true ∧
      laneUp atNtpResponseReceive2.nlu.lane[(kiss 1380013125).port] = true ∧
      atNtpResponseReceive2.tpe.port[(kiss 1380013125).port].enable = true) ∧
      atNtpResponseReceive2.tpe.client[1].t1 = some 11 ∧
      atNtpResponseReceive2.tpe.client[1].t1Ntp = some (kiss 1380013125).msg.orig ∧
      atNtpResponseReceive2.tpe.client[1].nts = false) ∧ (kiss 1380013125).msg.stratum = 0) ∧
    (((served atNtpResponseReceive3 (kiss 1145392729).port (kiss 1145392729).mark ∧
      atNtpResponseReceive3.tpe.client[1].enable = true ∧ atNtpResponseReceive3.tpe.client[1].stopped = false ∧
      atNtpResponseReceive3.blockRuns 12 = true ∧
      laneUp atNtpResponseReceive3.nlu.lane[(kiss 1145392729).port] = true ∧
      atNtpResponseReceive3.tpe.port[(kiss 1145392729).port].enable = true) ∧
      atNtpResponseReceive3.tpe.client[1].t1 = some 11 ∧
      atNtpResponseReceive3.tpe.client[1].t1Ntp = some (kiss 1145392729).msg.orig ∧
      atNtpResponseReceive3.tpe.client[1].nts = false) ∧ (kiss 1145392729).msg.stratum = 0) ∧
    (((served atNtpResponseReceive4 (answer id).port (answer id).mark ∧
      atNtpResponseReceive4.tpe.client[1].enable = true ∧ atNtpResponseReceive4.tpe.client[1].stopped = false ∧
      atNtpResponseReceive4.blockRuns 12 = true ∧ laneUp atNtpResponseReceive4.nlu.lane[(answer id).port] = true ∧
      atNtpResponseReceive4.tpe.port[(answer id).port].enable = true) ∧
      atNtpResponseReceive4.tpe.client[1].t1 = some 11 ∧
      atNtpResponseReceive4.tpe.client[1].t1Ntp = some (answer id).msg.orig ∧
      atNtpResponseReceive4.tpe.client[1].nts = false) ∧ (answer id).msg.stratum ≠ 0 ∧
      (answer id).msg.stratum ≠ 16 ∧ (answer id).msg.leap ≠ 3 ∧
      atNtpResponseReceive4.tpe.client[1].t1Fallback = false ∧
      rxFallback atNtpResponseReceive4 (↑(answer id).port) (answer id).mark = false ∧
      atNtpResponseReceive4.tpe.client[1].ref = some 20) ∧
    (((served atNtpResponseReceive5 (answer unsynchronised).port (answer unsynchronised).mark ∧
      atNtpResponseReceive5.tpe.client[1].enable = true ∧ atNtpResponseReceive5.tpe.client[1].stopped = false ∧
      atNtpResponseReceive5.blockRuns 12 = true ∧
      laneUp atNtpResponseReceive5.nlu.lane[(answer unsynchronised).port] = true ∧
      atNtpResponseReceive5.tpe.port[(answer unsynchronised).port].enable = true) ∧
      atNtpResponseReceive5.tpe.client[1].t1 = some 11 ∧
      atNtpResponseReceive5.tpe.client[1].t1Ntp = some (answer unsynchronised).msg.orig ∧
      atNtpResponseReceive5.tpe.client[1].nts = false) ∧ (answer unsynchronised).msg.stratum ≠ 0 ∧
      ((answer unsynchronised).msg.stratum = 16 ∨ (answer unsynchronised).msg.leap = 3 ∨ (atNtpResponseReceive5.tpe.client[1].t1Fallback || rxFallback atNtpResponseReceive5 (↑(answer unsynchronised).port) (answer unsynchronised).mark) = true ∧
      atNtpResponseReceive5.tpe.port[(answer unsynchronised).port].refUseFallback = false)) ∧
    ((served ntsClient ntsAnswer.port ntsAnswer.mark ∧ ntsClient.tpe.client[1].enable = true ∧
      ntsClient.tpe.client[1].stopped = false ∧ ntsClient.blockRuns 12 = true ∧
      laneUp ntsClient.nlu.lane[ntsAnswer.port] = true ∧ ntsClient.tpe.port[ntsAnswer.port].enable = true) ∧
      ntsClient.tpe.client[1].t1 = some 11 ∧ ntsClient.tpe.client[1].t1Ntp = some ntsAnswer.msg.orig ∧
      ntsClient.tpe.client[1].nts = true ∧ ntsClient.tpe.client[1].uid = some (ntsFields true).uid ∧
      ntsClient.tpe.client[1].s2c = some 9 ∧ keyUsable ntsClient (↑9) 1 = true ∧ ntsClient.blockRuns 13 = true ∧
      ntsClient.aue.slots.length < 1024) ∧
    ((served ntsClient ntsNak.port ntsNak.mark ∧ ntsClient.tpe.client[1].enable = true ∧
      ntsClient.tpe.client[1].stopped = false ∧ ntsClient.blockRuns 12 = true ∧
      laneUp ntsClient.nlu.lane[ntsNak.port] = true ∧ ntsClient.tpe.port[ntsNak.port].enable = true) ∧
      ntsClient.tpe.client[1].t1 = some 11 ∧ ntsClient.tpe.client[1].t1Ntp = some ntsNak.msg.orig ∧
      ntsClient.tpe.client[1].nts = true ∧ ntsClient.tpe.client[1].uid = some (ntsFields true).uid ∧
      ntsClient.tpe.client[1].s2c = some 9) := by
  refine ⟨?_, ?_, ?_, ?_, ?_, ?_, ?_⟩ <;> decide +kernel

theorem test_ntpClientPoll :
    ((∀ (n : ℕ), atNtpClientPoll1.tpe.client[1].polledAt = some n → n + logCycles atNtpClientPoll1.tpe.client[1].poll ≤ atNtpClientPoll1.tcr.cycles) ∧
      atNtpClientPoll1.tpe.client[1].enable = true ∧ atNtpClientPoll1.tpe.client[1].stopped = false ∧
      atNtpClientPoll1.tpe.client[1].nts = false ∧ atNtpClientPoll1.tpe.client[1].port = 5 ∧
      (atNtpClientPoll1.pairOf (↑5 / 2)).enable = false ∧ canReserve atNtpClientPoll1 5 ∧
      mayOriginate atNtpClientPoll1 ↑5 = true) ∧
    ((∀ (n : ℕ), atNtpClientPoll2.tpe.client[1].polledAt = some n → n + logCycles atNtpClientPoll2.tpe.client[1].poll ≤ atNtpClientPoll2.tcr.cycles) ∧
      (atNtpClientPoll2.tpe.client[1].enable = false ∨ atNtpClientPoll2.tpe.client[1].stopped = true)) ∧
    ((∀ (n : ℕ), atNtpClientPoll3.tpe.client[1].polledAt = some n → n + logCycles atNtpClientPoll3.tpe.client[1].poll ≤ atNtpClientPoll3.tcr.cycles) ∧
      atNtpClientPoll3.tpe.client[1].enable = true ∧ atNtpClientPoll3.tpe.client[1].stopped = false ∧
      mayOriginate atNtpClientPoll3 (clientPort atNtpClientPoll3 atNtpClientPoll3.tpe.client[1]) = true ∧
      atNtpClientPoll3.tpe.client[1].nts = true ∧ atNtpClientPoll3.tpe.client[1].jar = []) := by
  and_intros <;>
    first
    | decide +kernel
    | exact leads_delay _ _

theorem test_esmcPduReceive :
    (esmcOn atEsmcPduReceive1 (↑5) 0 = true ∧
      (atEsmcPduReceive1.tpe.port[5].ssm ≠ prcPdu.code ∨ atEsmcPduReceive1.tpe.port[5].essm ≠ (some 32).getD 255 ∨ atEsmcPduReceive1.tpe.port[5].esmcTimeout = true ∧
      prcPdu.event = false)) ∧
    (esmcOn atEsmcPduReceive2 (↑5) 0 = true ∧
      ¬(atEsmcPduReceive2.tpe.port[5].ssm ≠ prcPdu.code ∨ atEsmcPduReceive2.tpe.port[5].essm ≠ none.getD 255 ∨ atEsmcPduReceive2.tpe.port[5].esmcTimeout = true ∧
      prcPdu.event = false)) ∧
    (esmcOn atEsmcPduReceive3 (↑5) 0 = true ∧
      (atEsmcPduReceive3.tpe.port[5].ssm ≠ prcPdu.code ∨ atEsmcPduReceive3.tpe.port[5].essm ≠ none.getD 255 ∨ atEsmcPduReceive3.tpe.port[5].esmcTimeout = true ∧
      prcPdu.event = false)) := by
  refine ⟨?_, ?_, ?_⟩ <;> decide +kernel

theorem test_esmcInfoSend :
    (esmcOn atEsmcInfoSend (↑5) 1 = true ∧ atEsmcInfoSend.fwRuns = true ∧ portMac atEsmcInfoSend ↑5 ≠ 0) ∧
      ∀ (n : ℕ), atEsmcInfoSend.tpe.port[5].esmcSentAt = some n → n + 10 ^ 9 ≤ atEsmcInfoSend.tcr.cycles := by decide +kernel

theorem test_esmcEventSend :
    ((esmcOn atEsmcEventSend1 (↑5) 1 = true ∧ atEsmcEventSend1.fwRuns = true ∧ portMac atEsmcEventSend1 ↑5 ≠ 0) ∧
      atEsmcEventSend1.tpe.port[5].ssmSent ≠ some (esmcCode atEsmcEventSend1 ↑5)) ∧
    (atEsmcEventSend2.tpe.port[5].ssmSent = some (esmcCode atEsmcEventSend2 ↑5)) := by
  refine ⟨?_, ?_⟩ <;> decide +kernel

theorem test_esmcTimeout :
    atEsmcTimeout.blockRuns 12 = true ∧ atEsmcTimeout.tpe.port[5].esmcMode.getLsbD 0 = true ∧
      atEsmcTimeout.tpe.port[5].esmcHeardAt + 5 * 10 ^ 9 ≤ atEsmcTimeout.tcr.cycles ∧
      (atEsmcTimeout.tpe.port[5].ssm ≠ 15 ∨ atEsmcTimeout.tpe.port[5].esmcTimeout = false) := by decide +kernel

theorem test_sampleFrame :
    ((sauRuns atSampleFrame1 = true ∧ (atSampleFrame1.dirOf ↑2 ↑0).cfg.enable = true ∧
      (atSampleFrame1.dirOf ↑2 ↑0).cfg.master = false) ∧ 0 = 0 ∧ (atSampleFrame1.dirOf ↑2 ↑0).shadow = none) ∧
    ((sauRuns atSampleFrame2 = true ∧ (atSampleFrame2.dirOf ↑2 ↑1).cfg.enable = true ∧
      (atSampleFrame2.dirOf ↑2 ↑1).cfg.master = false) ∧ 1 = 1 ∧ (atSampleFrame2.dirOf ↑2 ↑1).shadow = none) ∧
    ((sauRuns maskWaits = true ∧ (maskWaits.dirOf ↑2 ↑0).cfg.enable = true ∧
      (maskWaits.dirOf ↑2 ↑0).cfg.master = false) ∧ (maskWaits.dirOf ↑2 ↑0).shadow = some (1, 0) ∧
      0 + twoBits (maskWaits.dirOf ↑2 ↑0).cfg + 1 ≤ 20834 ∧ maskWaits.cpx.list = none) ∧
    ((sauRuns maskWaits = true ∧ (maskWaits.dirOf ↑2 ↑0).cfg.enable = true ∧
      (maskWaits.dirOf ↑2 ↑0).cfg.master = false) ∧ (maskWaits.dirOf ↑2 ↑0).shadow = some (1, 0) ∧
      20833 < 0 + twoBits (maskWaits.dirOf ↑2 ↑0).cfg + 1) ∧
    (sauRuns mastering = true ∧ (mastering.dirOf ↑2 ↑0).cfg.enable = true ∧
      (mastering.dirOf ↑2 ↑0).cfg.master = true ∧ (mastering.dirOf ↑2 ↑0).shadow = none ∧
      ceilDiv (nextGrid mastering (mastering.dirOf ↑2 ↑0) * secU) (mastering.dirOf ↑2 ↑0).cfg.frameHz ≤ viewCount mastering ↑(mastering.dirOf ↑2 ↑0).cfg.view) := by
  refine ⟨?_, ?_, ?_, ?_, ?_⟩ <;> decide +kernel

theorem test_slotMaskTimeout :
    (maskJobs atSlotMaskTimeout1 ↑2 ↑0 = []) ∧
    (maskOld.fwRuns = true ∧ maskJobs maskOld ↑2 ↑0 = [maskFlight] ∧ 1 + 8000 ≤ maskOld.cpx.impressions ∧
      maskOld.cpx.list = none ∧ posting maskOld = true) := by
  refine ⟨?_, ?_⟩ <;> decide +kernel

theorem test_sampleRateFault :
    (sauRuns atSampleRateFault = true ∧ (atSampleRateFault.dirOf ↑2 ↑0).cfg.enable = true ∧
      (atSampleRateFault.dirOf ↑2 ↑0).cfg.master = false) ∧ (atSampleRateFault.dirOf ↑2 ↑0).rateFault = false ∧
      rateFaultAt (atSampleRateFault.dirOf ↑2 ↑0) ≤ atSampleRateFault.tcr.cycles := by decide +kernel

theorem test_sampleRateFaultClear :
    (sauRuns atSampleRateFaultClear1 = true ∧ (atSampleRateFaultClear1.dirOf ↑2 ↑0).rateFault = true ∧
      16 ≤ (atSampleRateFaultClear1.dirOf ↑2 ↑0).good) ∧
    ((atSampleRateFaultClear2.dirOf ↑2 ↑0).good < 16) := by
  refine ⟨?_, ?_⟩ <;> decide +kernel

theorem test_channelRatioLock :
    sauRuns atChannelRatioLock = true ∧ atChannelRatioLock.sau.chan[4].cfg.enable = true ∧ 2 ^ 28 ≤ 2 ^ 36 ∧
      2 ^ 36 ≤ 2 ^ 36 ∧ ∃ n, lockableAt atChannelRatioLock atChannelRatioLock.sau.chan[4] = some n ∧
      n ≤ atChannelRatioLock.tcr.cycles := by decide +kernel

theorem test_channelReentry :
    ((sauRuns atChannelReentry1 = true ∧ mayReenter atChannelReentry1 ↑4 = true) ∧
      (atChannelReentry1.sau.chan[4].stepped = none ∨ groupOf atChannelReentry1 atChannelReentry1.sau.chan[4].cfg = none)) ∧
    ((sauRuns atChannelReentry2 = true ∧ mayReenter atChannelReentry2 ↑4 = true) ∧
      atChannelReentry2.sau.chan[4].stepped.isSome = true ∧
      (groupOf atChannelReentry2 atChannelReentry2.sau.chan[4].cfg).isSome = true ∧
      ∀ (i : Fin 32), atChannelReentry2.sau.chan[i].cfg.enable = true ∧
      atChannelReentry2.sau.chan[i].cfg.group = atChannelReentry2.sau.chan[4].cfg.group ∧
      atChannelReentry2.sau.chan[i].stepped.isSome = true → mayReenter atChannelReentry2 ↑i = true) ∧
    (atChannelReentry3.sau.chan[4].stepped.isSome = true ∧
      (groupOf atChannelReentry3 atChannelReentry3.sau.chan[4].cfg).isSome = true ∧
      ∃ i : Fin 32, (atChannelReentry3.sau.chan[i].cfg.enable = true ∧
      atChannelReentry3.sau.chan[i].cfg.group = atChannelReentry3.sau.chan[4].cfg.group ∧
      atChannelReentry3.sau.chan[i].stepped.isSome = true) ∧ mayReenter atChannelReentry3 ↑i = false) ∧
    (mayReenter atChannelReentry4 ↑4 = false) := by
  refine ⟨?_, ?_, ?_, ?_⟩ <;> decide +kernel

theorem test_svMonitorSecond :
    (atSvMonitorSecond1.tcr.seq.second = atSvMonitorSecond1.sau.svSecond) ∧
    (sauRuns atSvMonitorSecond2 = true ∧ Machine.Inv atSvMonitorSecond2 ∧
      atSvMonitorSecond2.tcr.seq.second ≠ atSvMonitorSecond2.sau.svSecond) := by
  and_intros <;>
    first
    | decide +kernel
    | exact inv_of_invB _ (by decide +kernel)

theorem test_svFrameReceive :
    ((sauRuns atSvFrameReceive1 = true ∧ atSvFrameReceive1.lanePresent ↑otherFrame.port = true ∧
      atSvFrameReceive1.blockRuns 12 = true ∧ laneUp atSvFrameReceive1.nlu.lane[otherFrame.port] = true) ∧
      List.find? (fun x => streamLive atSvFrameReceive1 x.1 && x.2.port == otherFrame.port && x.2.appid == otherFrame.appid && x.2.svid == otherFrame.svid) atSvFrameReceive1.sau.stream = none) ∧
    ((sauRuns atSvFrameReceive2 = true ∧ atSvFrameReceive2.lanePresent ↑(svFrame 5).port = true ∧
      atSvFrameReceive2.blockRuns 12 = true ∧ laneUp atSvFrameReceive2.nlu.lane[(svFrame 5).port] = true) ∧
      List.find? (fun x => streamLive atSvFrameReceive2 x.1 && x.2.port == (svFrame 5).port && x.2.appid == (svFrame 5).appid && x.2.svid == (svFrame 5).svid) atSvFrameReceive2.sau.stream = some (3, aStream 5) ∧
      streamOf atSvFrameReceive2 3 = aStream 5 ∧ (svFrame 5).smpCnts = [5] ∧ (aStream 5).lastCnt = some 5 ∧
      1 < (aStream 5).rate ∧ 5 < (aStream 5).rate ∧ 5 < (aStream 5).rate) ∧
    ((sauRuns atSvFrameReceive3 = true ∧ atSvFrameReceive3.lanePresent ↑(svFrame 0).port = true ∧
      atSvFrameReceive3.blockRuns 12 = true ∧ laneUp atSvFrameReceive3.nlu.lane[(svFrame 0).port] = true) ∧
      List.find? (fun x => streamLive atSvFrameReceive3 x.1 && x.2.port == (svFrame 0).port && x.2.appid == (svFrame 0).appid && x.2.svid == (svFrame 0).svid) atSvFrameReceive3.sau.stream = some (3, aStream 4799) ∧
      streamOf atSvFrameReceive3 3 = aStream 4799 ∧ (svFrame 0).smpCnts = [0] ∧
      (aStream 4799).lastCnt = some 4799 ∧ 1 < (aStream 4799).rate ∧ 0 < (aStream 4799).rate ∧
      4799 < (aStream 4799).rate) ∧
    ((sauRuns atSvFrameReceive4 = true ∧ atSvFrameReceive4.lanePresent ↑(svFrame 7).port = true ∧
      atSvFrameReceive4.blockRuns 12 = true ∧ laneUp atSvFrameReceive4.nlu.lane[(svFrame 7).port] = true) ∧
      List.find? (fun x => streamLive atSvFrameReceive4 x.1 && x.2.port == (svFrame 7).port && x.2.appid == (svFrame 7).appid && x.2.svid == (svFrame 7).svid) atSvFrameReceive4.sau.stream = some (3, aStream 5) ∧
      streamOf atSvFrameReceive4 3 = aStream 5 ∧ (svFrame 7).smpCnts = [7] ∧ (aStream 5).lastCnt = some 5 ∧
      1 < (aStream 5).rate ∧ 7 < (aStream 5).rate ∧ 5 < (aStream 5).rate) := by
  refine ⟨?_, ?_, ?_, ?_⟩ <;> decide +kernel

/-! ### Security and faults -/

def aKey : KeySlot := { st := .active, dest := 0x1F, len := 32, keyId := 7, expiry := 100, prevUntil := 50, key := List.replicate 32 1, prev := some [2] }
def keyed (d : Nat) : State :=
  let s := { ready with sec := { ready.sec with key := (ready.sec.key.set 9 aKey), root := some 5, tamper := { enable := 0xF, level := 0x2 } } }
  s.setDom 0 fun x => { x with count := d * secU, valid := true }
def badClock (b : BitVec 3) : State := { synth id id with tcr := { ready.tcr with clockBad := b }, fco := { ready.fco with trapsDue := 2 } }
def struck : State := { waiting .proof ready with fco := { ready.fco with cls := (ready.fco.cls.set 7 { n := 1 }) } }
/-- A chip with the given resets asserted. -/
def resetOn (held : BitVec 3) : State := { State.reset with cpx := { phase := .inReset }, srt := { State.reset.srt with held := held } }
/-- Nothing has started yet. -/
def unready : State := State.reset

def atTamperEvent2 : State := keyed 3

def atTamperEvent2b : State := resetOn 4

def atTamperEvent3 : State := keyed 3

def atKeyExpiry1 : State := keyed 100

def atKeyExpiry2 : State := keyed 99

def atKeyPrevZeroed1 : State := keyed 50

def atKeyPrevZeroed2 : State := keyed 49

def atTrngHealthTestEnd : State := later ready

def atClockMonitorFault1 : State := badClock 0

def atClockMonitorFault2 : State := badClock 2

def atClockReturn1 : State := badClock 3

def atClockReturn2 : State := badClock 2

def atLockstepMismatch1 : State := waiting .proof ready

def atLockstepMismatch3 : State := resetOn 4

def atWatchdog2 : State := waiting .proof ready

def atResetShadowEnd1 : State := ready.setBlock 12 .shadow

def atResetShadowEnd2 : State := ready.setBlock 12 .asserted

def atBlockResetRelease1 : State := (receiver (fun g => { g with feList := [(1, 2)] }) ready).setBlock 14 .asserted

def atBlockResetRelease2 : State := ready.setBlock 12 .shadow

theorem test_tamperEvent :
    (¬(ready.srt.vbat = true ∧ (↑1 < 4 → ready.sec.tamper.enable.getLsbD ↑1 = true))) ∧
    (atTamperEvent2.srt.vbat = true ∧ (↑1 < 4 → atTamperEvent2.sec.tamper.enable.getLsbD ↑1 = true)) ∧
    (atTamperEvent2b.srt.vbat = true ∧ (↑6 < 4 → atTamperEvent2b.sec.tamper.enable.getLsbD ↑6 = true)) ∧
    ((atTamperEvent3.srt.vbat = true ∧ (↑5 < 4 → atTamperEvent3.sec.tamper.enable.getLsbD ↑5 = true)) ∧
      atTamperEvent3.clocked = true ∧ defaultSources atTamperEvent3) := by
  refine ⟨?_, ?_, ?_, ?_⟩ <;> decide +kernel

theorem test_tamperConditionEnd :
    True := by decide +kernel

theorem test_keyExpiry :
    (atKeyExpiry1.sec.key[9].st = KeyState.active ∧ atKeyExpiry1.sec.key[9].expiry ≠ 0 ∧
      atKeyExpiry1.sec.key[9].expiry ≤ keyTime atKeyExpiry1) ∧
    (atKeyExpiry2.sec.key[9].st ≠ KeyState.active ∨ atKeyExpiry2.sec.key[9].expiry = 0 ∨ keyTime atKeyExpiry2 < atKeyExpiry2.sec.key[9].expiry) := by
  refine ⟨?_, ?_⟩ <;> decide +kernel

theorem test_keyPrevZeroed :
    (atKeyPrevZeroed1.sec.key[9].prevUntil ≤ keyTime atKeyPrevZeroed1) ∧
    (keyTime atKeyPrevZeroed2 < atKeyPrevZeroed2.sec.key[9].prevUntil) := by
  refine ⟨?_, ?_⟩ <;> decide +kernel

theorem test_trngHealthTestEnd :
    atTrngHealthTestEnd.blockRuns 2 = true ∧ atTrngHealthTestEnd.sec.trngFrom + 10 ^ 6 ≤ atTrngHealthTestEnd.tcr.cycles := by decide +kernel

theorem test_trngHealth :
    (ready.clocked = true ∧ rises ready 193 0 = true) ∧
    (ready.clocked = true ∧ ready.cpx.phase ≠ Phase.inReset ∧ defaultSources ready ∧ ready.present 2 = true ∧
      inShadow ready 2 = false) := by
  refine ⟨?_, ?_⟩ <;> decide +kernel

theorem test_clockMonitorFault :
    (atClockMonitorFault1.cpx.phase ≠ Phase.inReset ∧ atClockMonitorFault1.tcr.clockBad.getLsbD ↑1 = false ∧
      defaultSources atClockMonitorFault1) ∧
    (atClockMonitorFault2.tcr.clockBad.getLsbD ↑1 = true) := by
  refine ⟨?_, ?_⟩ <;> decide +kernel

theorem test_clockReturn :
    (atClockReturn1.tcr.clockBad &&& ~~~BitVec.ofNat 3 (2 ^ ↑1) ≠ 0) ∧
    (atClockReturn2.tcr.clockBad &&& ~~~BitVec.ofNat 3 (2 ^ ↑1) = 0) := by
  refine ⟨?_, ?_⟩ <;> decide +kernel

theorem test_lockstepMismatch :
    (atLockstepMismatch1.fwRuns = true ∧ defaultSources atLockstepMismatch1 ∧ atLockstepMismatch1.fco.cls[7].n = 0 ∧
      atLockstepMismatch1.fco.block[0] ≠ BlockReset.asserted) ∧
    (struck.fwRuns = true ∧ defaultSources struck ∧ 1 ≤ struck.fco.cls[7].n) ∧
    (atLockstepMismatch3.cpx.phase = Phase.inReset) := by
  refine ⟨?_, ?_, ?_⟩ <;> decide +kernel

theorem test_memoryEccError :
    (True ∧ rises ready (↑1) (BitVec.toNat (64 : BitVec 64)) = true) ∧
    (True ∧ rises ready (↑21) (BitVec.toNat (64 : BitVec 64)) = true) ∧
    ((0 = 0 ∨ 0 = 20) ∧ defaultSources ready ∧ ready.cpx.phase ≠ Phase.inReset ∧
      ∃ b, faultOwner ready ↑0 { addr := BitVec.toNat (64 : BitVec 64) } = some b ∧ inShadow ready b = false) ∧
    ((20 = 0 ∨ 20 = 20) ∧ defaultSources ready ∧ ready.cpx.phase ≠ Phase.inReset ∧
      ∃ b, faultOwner ready ↑20 { addr := BitVec.toNat (5 : BitVec 64) } = some b ∧ inShadow ready b = false) ∧
    (defaultSources ready ∧ ready.cpx.phase ≠ Phase.inReset ∧ ready.present ↑12 = true ∧ inShadow ready ↑12 = false) ∧
    (22 ≤ ↑22 ∨ ready.cpx.phase = Phase.inReset) := by
  refine ⟨?_, ?_, ?_, ?_, ?_, ?_⟩ <;> decide +kernel

theorem test_watchdog :
    (watchdogOut unready = false) ∧
    (watchdogOut atWatchdog2 = true ∧ defaultSources atWatchdog2) := by
  refine ⟨?_, ?_⟩ <;> decide +kernel

theorem test_interpCheck :
    (True ∧ rises ready 101 0 = true) ∧
    (True ∧ ready.cpx.phase ≠ Phase.inReset ∧ defaultSources ready ∧ ready.present 6 = true ∧ inShadow ready 6 = false) := by
  refine ⟨?_, ?_⟩ <;> decide +kernel

theorem test_cdaonFault :
    (True ∧ rises ready 67 0 = true) ∧
    (True ∧ ready.cpx.phase ≠ Phase.inReset ∧ defaultSources ready ∧ ready.present 4 = true ∧ inShadow ready 4 = false) := by
  refine ⟨?_, ?_⟩ <;> decide +kernel

theorem test_lrefclkFault :
    (True ∧ rises ready 68 ↑2 = true) ∧
    (True ∧ ready.cpx.phase ≠ Phase.inReset ∧ defaultSources ready ∧ ready.present 11 = true ∧
      inShadow ready 11 = false) := by
  refine ⟨?_, ?_⟩ <;> decide +kernel

theorem test_resetShadowEnd :
    (atResetShadowEnd1.fco.block[12] = BlockReset.shadow ∧
      atResetShadowEnd1.fco.shadowTo[12] ≤ atResetShadowEnd1.tcr.cycles) ∧
    (atResetShadowEnd2.fco.block[12] ≠ BlockReset.shadow) := by
  refine ⟨?_, ?_⟩ <;> decide +kernel

theorem test_blockResetRelease :
    (atBlockResetRelease1.fco.block[14] = BlockReset.asserted ∧ ↑14 ≠ 0 ∧ noFences atBlockResetRelease1 = true ∧
      ∀ f ∈ atBlockResetRelease1.mbx.flights, f.hold ≠ Hold.block 14) ∧
    (atBlockResetRelease2.fco.block[12] ≠ BlockReset.asserted ∨ ↑12 = 0) := by
  refine ⟨?_, ?_⟩ <;> decide +kernel

/-! ### Supplies, resets and the boot -/

def sensor (hot : Bool) : State := { ready with srt := { ready.srt with sensor := (ready.srt.sensor.set 2 { ready.srt.sensor[2] with hot := hot, now := 8700, crossings := 3 }) } }
def rail (below dip : Bool) : State :=
  { keyed 3 with srt := { ready.srt with dip := dip, rail := (ready.srt.rail.set 0 { ready.srt.rail[0] with below := below, dips := 65535, now := 700 }) } }
def vbatLow (below : Bool) : State := { ready with srt := { ready.srt with rail := (ready.srt.rail.set 7 { ready.srt.rail[7] with below := below }) } }
def noBattery : State := { keyed 3 with srt := { ready.srt with vbat := false, coarse := 7, coarseValid := true } }
/-- The ROM runs, with the given straps and no image in the flash. -/
def rom (boot : BitVec 2) (spi test : Bool) : State :=
  { State.reset with cpx := { phase := .rom }, srt := { straps := { boot := boot, spi := spi, test := test } }, sec := { slot := Vector.replicate 2 {}, config := [] } }
def starting (root : Option (BitVec 256)) (standing : BitVec 7) : State :=
  { State.reset with sec := { root := root, tamper := { standing := standing } }, srt := { coarse := 77, coarseValid := true } }
/-- A host-loaded boot whose one job waits on ring 0. -/
def hostLoad : State :=
  let s := { rom 2 false false with mbx := { mem := [(cqBase 0 + 3, 0x40)] } }
  s.setRing 0 fun g => { g with tail := 1, enable := true }
def firmware : State := { ready with cpx := { phase := .firmware }, mbx := {}, sec := { ready.sec with slot := ready.sec.slot.set 0 { trial := true } } }
def inList : State := waiting .proof { firmware with cpx := { firmware.cpx with list := some { body := [], count := 1 } } }
def aWarm (reload : Bool) : Warm := { byJob := true, reload := reload, since := 0 }
def warming (image : List Byte) (reload : Bool) : State :=
  let s := restarting ready
  let s := { s with cpx := { s.cpx with image := image, bootHash := some (Config.sha384 image), warm := some { byJob := true, reload := reload, since := 0 } }
                    sec := { s.sec with slot := Vector.replicate 2 {} } }
  (s.setBlock 0 .asserted).setRing 4 fun g => { g with frozen := true }
def aCopy : CalCopy := { seq := 1, keyId := 2, items := [], tag := 3 }
def flashing (code : BitVec 16) (l : List (Nat × Nat)) : State :=
  waitingFor .flash code l { ready with cal := { ready.cal with writing := some (1, aCopy) }, sec := { ready.sec with slot := Vector.replicate 2 {} } }
def aProof : Proof := { units := 0x3F, maxImp := 8000, since := 0, skipped := 1 }
def proving : State := waiting .proof { ready with cpx := { ready.cpx with proof := some aProof } }
/-- A dip on rail 0 that began long ago. -/
def lateDip : State := later (rail true true)
def stuckWarm : Warm := { aWarm true with stuck := true }
def warmStuck : State := let s := warming [1] true
  { s with cpx := { s.cpx with warm := some stuckWarm } }
def lateFlash (s : State) : State := { s with cpx := { s.cpx with impressions := s.cpx.impressions + 16000 } }

def atThermalHigh1 : State := sensor false

def atThermalHigh2 : State := sensor false

def atThermalHighClear1 : State := sensor false

def atThermalHighClear2 : State := sensor true

def atSupplyDipStart1 : State := rail false false

def atSupplyDipStart2 : State := rail false false

def atSupplyDipStart3 : State := rail false true

def atSupplyDipLong2 : State := rail false true

def atSupplyDipLong3 : State := rail true false

def atVbatWarning1 : State := vbatLow false

def atVbatWarning2 : State := vbatLow false

def atSupplyReset : State := keyed 3

def atPor : State := keyed 3

def atPinReset : State := keyed 3

def atChipReset1 : State := resetOn 4

def atChipReset2 : State := keyed 3

def atPorEnd1 : State := resetOn 1

def atPinResetEnd : State := resetOn 2

def atChipResetEnd : State := resetOn 4

def atSystemPllLock1 : State := starting (some 5) 0

def atSystemPllLock1b : State := starting none 1

def atSystemPllLock1c : State := starting none 0

def atFirmwareStart1 : State := rom 3 false false

def atFirmwareStart1b : State := rom 2 true false

def atFirmwareStart1c : State := rom 1 true false

def atFirmwareStart1d : State := rom 3 true true

def atFirmwareStart2 : State := rom 2 false false

def atFirmwareStart3 : State := rom 3 false true

def atHostLoadBoot2 : State := rom 2 false false

def atWarmRestartEnd1 : State := warming [1] false

def atWarmRestartEnd2 : State := warming [1] true

def atFlashWriteDone1 : State := flashing 0x5004 []

def atFlashWriteDone2 : State := flashing 0x0104 []

def atFlashWriteDone3 : State := flashing 0x0104 [(36, 1)]

def atFlashWriteTimeout1 : State := flashing 0x5004 []

def atFlashWriteTimeout2 : State := lateFlash (flashing 0x5004 [])

def atFlashWriteTimeout3 : State := flashing 0x0104 []

def atKeysWarm : State := warming [1] false

theorem test_thermalHigh :
    (atThermalHigh1.srt.sensor[2].hot = true ∨ 8640 ≤ atThermalHigh1.srt.sensor[2].high1 * 64) ∧
    ((atThermalHigh2.srt.sensor[2].hot = false ∧ atThermalHigh2.srt.sensor[2].high1 * 64 < 8641) ∧
      rises atThermalHigh2 (176 + ↑2) 0 = true) := by
  refine ⟨?_, ?_⟩ <;> decide +kernel

theorem test_thermalHighClear :
    (atThermalHighClear1.srt.sensor[2].hot = false) ∧
    (atThermalHighClear2.srt.sensor[2].hot = true) := by
  refine ⟨?_, ?_⟩ <;> decide +kernel

theorem test_supplyDipStart :
    (¬(atSupplyDipStart1.srt.rail[Fin.castSucc 0].below = false ∧
      720 * 1000 < railNominal (Fin.castSucc 0) * (1000 - atSupplyDipStart1.srt.rail[Fin.castSucc 0].warn))) ∧
    ((atSupplyDipStart2.srt.rail[Fin.castSucc 0].below = false ∧
      719 * 1000 < railNominal (Fin.castSucc 0) * (1000 - atSupplyDipStart2.srt.rail[Fin.castSucc 0].warn)) ∧
      rises atSupplyDipStart2 (160 + ↑0) 0 = true) ∧
    ((atSupplyDipStart3.srt.rail[Fin.castSucc 0].below = false ∧
      719 * 1000 < railNominal (Fin.castSucc 0) * (1000 - atSupplyDipStart3.srt.rail[Fin.castSucc 0].warn)) ∧
      rises atSupplyDipStart3 (160 + ↑0) 0 = true) := by
  refine ⟨?_, ?_, ?_⟩ <;> decide +kernel

theorem test_supplyDipLong :
    ((lateDip.srt.dip = true ∧ lateDip.srt.rail[Fin.castSucc 0].below = true ∧
      lateDip.srt.rail[Fin.castSucc 0].long = false ∧
      lateDip.srt.rail[Fin.castSucc 0].belowAt ≤ lateDip.srt.dipAt + 10 ^ 6 ∧
      lateDip.srt.dipAt + 10 ^ 6 ≤ lateDip.tcr.cycles) ∧ rises lateDip (168 + ↑0) 0 = true) ∧
    (atSupplyDipLong2.srt.dip = false ∨ atSupplyDipLong2.srt.rail[Fin.castSucc 0].below = false ∨ atSupplyDipLong2.srt.rail[Fin.castSucc 0].long = true) ∧
    (atSupplyDipLong3.srt.dip = false ∨ atSupplyDipLong3.srt.rail[Fin.castSucc 0].below = false ∨ atSupplyDipLong3.srt.rail[Fin.castSucc 0].long = true) := by
  refine ⟨?_, ?_, ?_⟩ <;> decide +kernel

theorem test_supplyDipEnd :
    (ready.srt.dip = false) ∧
    (lateDip.srt.dip = true ∧ lateDip.srt.dipAt + 10000 ≤ lateDip.tcr.cycles ∧
      ∀ (r : Fin 7), lateDip.srt.rail[r.castSucc].belowAt + 10000 ≤ lateDip.tcr.cycles) := by
  refine ⟨?_, ?_⟩ <;> decide +kernel

theorem test_vbatWarning :
    (atVbatWarning1.srt.rail[7].below = true ∨ atVbatWarning1.srt.rail[7].warn ≤ 2100) ∧
    ((atVbatWarning2.srt.rail[7].below = false ∧ 2099 < atVbatWarning2.srt.rail[7].warn) ∧
      rises atVbatWarning2 167 0 = true) := by
  refine ⟨?_, ?_⟩ <;> decide +kernel

theorem test_vbatLoss :
    True := by decide +kernel

theorem test_vbatReturn :
    noBattery.srt.vbat = false := by decide +kernel

theorem test_supplyReset :
    1 = 2 → atSupplyReset.srt.held.getLsbD 0 = false := by decide +kernel

theorem test_por :
    0 = 2 → atPor.srt.held.getLsbD 0 = false := by decide +kernel

theorem test_pinReset :
    2 = 2 → atPinReset.srt.held.getLsbD 0 = false := by decide +kernel

theorem test_chipReset :
    (atChipReset1.cpx.phase = Phase.inReset) ∧
    (atChipReset2.cpx.phase ≠ Phase.inReset) ∧
    (chipDue.cpx.phase ≠ Phase.inReset) := by
  refine ⟨?_, ?_, ?_⟩ <;> decide +kernel

theorem test_porEnd :
    (atPorEnd1.srt.held.getLsbD ↑0 = true) ∧
    (ready.srt.held.getLsbD ↑0 = false) := by
  refine ⟨?_, ?_⟩ <;> decide +kernel

theorem test_pinResetEnd :
    (atPinResetEnd.srt.held.getLsbD ↑1 = true) ∧
    (ready.srt.held.getLsbD ↑1 = false) := by
  refine ⟨?_, ?_⟩ <;> decide +kernel

theorem test_chipResetEnd :
    (atChipResetEnd.srt.held.getLsbD ↑2 = true) ∧
    (ready.srt.held.getLsbD ↑2 = false) := by
  refine ⟨?_, ?_⟩ <;> decide +kernel

theorem test_systemPllLock :
    (atSystemPllLock1.cpx.phase = Phase.starting ∧ atSystemPllLock1.clockOk = true) ∧
    (atSystemPllLock1b.cpx.phase = Phase.starting ∧ atSystemPllLock1b.clockOk = true) ∧
    (atSystemPllLock1c.cpx.phase = Phase.starting ∧ atSystemPllLock1c.clockOk = true) ∧
    (ready.cpx.phase ≠ Phase.starting ∨ ready.clockOk = false) := by
  refine ⟨?_, ?_, ?_, ?_⟩ <;> decide +kernel

theorem test_firmwareStart :
    ((atFirmwareStart1.cpx.phase = Phase.rom ∧ (atFirmwareStart1.srt.straps.boot = 3 ∧
      atFirmwareStart1.srt.straps.test = false ∨ atFirmwareStart1.srt.straps.boot = 2 ∧
      atFirmwareStart1.srt.straps.spi = true ∨ atFirmwareStart1.srt.straps.boot.toNat ≤ 1 ∧
      bootChoice atFirmwareStart1 = none ∨ atFirmwareStart1.srt.straps.boot = 3 ∧
      atFirmwareStart1.srt.straps.test = true ∧ bootChoice atFirmwareStart1 = none)) ∧
      rises atFirmwareStart1 225 0 = true) ∧
    ((atFirmwareStart1b.cpx.phase = Phase.rom ∧ (atFirmwareStart1b.srt.straps.boot = 3 ∧
      atFirmwareStart1b.srt.straps.test = false ∨ atFirmwareStart1b.srt.straps.boot = 2 ∧
      atFirmwareStart1b.srt.straps.spi = true ∨ atFirmwareStart1b.srt.straps.boot.toNat ≤ 1 ∧
      bootChoice atFirmwareStart1b = none ∨ atFirmwareStart1b.srt.straps.boot = 3 ∧
      atFirmwareStart1b.srt.straps.test = true ∧ bootChoice atFirmwareStart1b = none)) ∧
      rises atFirmwareStart1b 225 0 = true) ∧
    ((atFirmwareStart1c.cpx.phase = Phase.rom ∧ (atFirmwareStart1c.srt.straps.boot = 3 ∧
      atFirmwareStart1c.srt.straps.test = false ∨ atFirmwareStart1c.srt.straps.boot = 2 ∧
      atFirmwareStart1c.srt.straps.spi = true ∨ atFirmwareStart1c.srt.straps.boot.toNat ≤ 1 ∧
      bootChoice atFirmwareStart1c = none ∨ atFirmwareStart1c.srt.straps.boot = 3 ∧
      atFirmwareStart1c.srt.straps.test = true ∧ bootChoice atFirmwareStart1c = none)) ∧
      rises atFirmwareStart1c 225 0 = true) ∧
    ((atFirmwareStart1d.cpx.phase = Phase.rom ∧ (atFirmwareStart1d.srt.straps.boot = 3 ∧
      atFirmwareStart1d.srt.straps.test = false ∨ atFirmwareStart1d.srt.straps.boot = 2 ∧
      atFirmwareStart1d.srt.straps.spi = true ∨ atFirmwareStart1d.srt.straps.boot.toNat ≤ 1 ∧
      bootChoice atFirmwareStart1d = none ∨ atFirmwareStart1d.srt.straps.boot = 3 ∧
      atFirmwareStart1d.srt.straps.test = true ∧ bootChoice atFirmwareStart1d = none)) ∧
      rises atFirmwareStart1d 225 0 = true) ∧
    (atFirmwareStart2.cpx.phase ≠ Phase.rom ∨ atFirmwareStart2.srt.straps.boot = 2 ∧
      atFirmwareStart2.srt.straps.spi = false) ∧
    (atFirmwareStart3.cpx.phase = Phase.rom ∧ atFirmwareStart3.srt.straps.boot ≠ 2 ∧
      (atFirmwareStart3.srt.straps.boot = 3 → atFirmwareStart3.srt.straps.test = true) ∧
      atFirmwareStart3.sec.config.length < 256 ∧ defaultSources atFirmwareStart3 ∧ inShadow atFirmwareStart3 0 = false) := by
  refine ⟨?_, ?_, ?_, ?_, ?_, ?_⟩ <;> decide +kernel

theorem test_hostLoadBoot :
    (Machine.Inv hostLoad ∧ hostLoad.cpx.phase = Phase.rom ∧ hostLoad.srt.straps.boot = 2 ∧
      hostLoad.srt.straps.spi = false ∧ (hostLoad.ring 0).head ≠ (hostLoad.ring 0).tail ∧
      (headJob [] hostLoad 0).code = 0 ∧ (headJob [] hostLoad 0).dma = true ∧
      (headJob [] hostLoad 0).noCompletion = false ∧ hostLoad.cpx.list = none ∧ posting hostLoad = true ∧
      defaultSources hostLoad ∧ listFormOk (List.take (hdr (List.take (headJob [] hostLoad 0).resultLen []) 4 4) (List.drop 256 (List.take (headJob [] hostLoad 0).resultLen []))) = false) ∧
    (atHostLoadBoot2.cpx.phase ≠ Phase.rom ∨ atHostLoadBoot2.srt.straps.boot ≠ 2 ∨ (atHostLoadBoot2.ring 0).head = (atHostLoadBoot2.ring 0).tail) := by
  refine ⟨⟨inv_of_invB _ ?_, ?_⟩, ?_⟩ <;> decide +kernel

theorem test_fwReady :
    (firmware.cpx.phase = Phase.firmware ∧ firmware.cpx.warm = none ∧ firmware.cpx.list = none) ∧
    (firmware.cpx.phase = Phase.firmware ∧ firmware.cpx.warm = none ∧ firmware.cpx.list = none ∧
      firmware.cal.user = [] ∧ ∀ (k : Fin 128), firmware.sec.key[k].st = KeyState.empty) ∧
    (inList.cpx.phase ≠ Phase.firmware ∨ inList.cpx.warm.isSome = true ∨ inList.cpx.list.isSome = true ∧
      inList.mbx.flights ≠ []) := by
  refine ⟨?_, ?_, ?_⟩ <;> decide +kernel

theorem test_warmRestartEnd :
    (atWarmRestartEnd1.cpx.warm = some (aWarm false) ∧ (aWarm false).reload = false ∧
      atWarmRestartEnd1.cpx.bootHash = some (Config.sha384 atWarmRestartEnd1.cpx.image) ∧
      defaultSources atWarmRestartEnd1) ∧
    (atWarmRestartEnd2.cpx.warm = some (aWarm true) ∧ restartImage (aWarm true) atWarmRestartEnd2 = none ∧
      (aWarm true).stuck = false ∧ atWarmRestartEnd2.cpx.phase ≠ Phase.inReset ∧
      atWarmRestartEnd2.fco.block[0] = BlockReset.asserted) ∧
    (warmStuck.cpx.warm = some stuckWarm ∧ restartImage stuckWarm warmStuck = none ∧ stuckWarm.stuck = true) ∧
    (ready.cpx.warm = none) := by
  exact ⟨⟨rfl, rfl, rfl, rfl⟩, by decide +kernel, by decide +kernel⟩

theorem test_flashWriteDone :
    ((atFlashWriteDone1.fwRuns = true ∧ atFlashWriteDone1.cpx.list = none ∧
      flashJobs atFlashWriteDone1 = [held Hold.flash 20484 []]) ∧ (held Hold.flash 20484 []).code = 20484 ∧
      atFlashWriteDone1.cal.writing = some (1, aCopy)) ∧
    ((atFlashWriteDone2.fwRuns = true ∧ atFlashWriteDone2.cpx.list = none ∧
      flashJobs atFlashWriteDone2 = [held Hold.flash 260 []]) ∧ (held Hold.flash 260 []).code ≠ 20484 ∧
      (jobInline (held Hold.flash 260 []).job).bit 36 0 = false) ∧
    ((atFlashWriteDone3.fwRuns = true ∧ atFlashWriteDone3.cpx.list = none ∧
      flashJobs atFlashWriteDone3 = [held Hold.flash 260 [(36, 1)]]) ∧
      (held Hold.flash 260 [(36, 1)]).code ≠ 20484 ∧
      (jobInline (held Hold.flash 260 [(36, 1)]).job).bit 36 0 = true ∧ defaultSources atFlashWriteDone3) ∧
    (flashJobs ready = []) := by
  refine ⟨?_, ?_, ?_, ?_⟩ <;> decide +kernel

theorem test_flashWriteTimeout :
    ((atFlashWriteTimeout1.fwRuns = true ∧ atFlashWriteTimeout1.cpx.list = none ∧
      flashJobs atFlashWriteTimeout1 = [held Hold.flash 20484 []]) ∧ (held Hold.flash 20484 []).code = 20484 ∧
      atFlashWriteTimeout1.cpx.impressions < atFlashWriteTimeout1.cal.writingAt + 16000) ∧
    ((atFlashWriteTimeout2.fwRuns = true ∧ atFlashWriteTimeout2.cpx.list = none ∧
      flashJobs atFlashWriteTimeout2 = [held Hold.flash 20484 []]) ∧ (held Hold.flash 20484 []).chain = none ∧
      ((held Hold.flash 20484 []).code = 20484 → atFlashWriteTimeout2.cal.writingAt + 16000 ≤ atFlashWriteTimeout2.cpx.impressions)) ∧
    ((atFlashWriteTimeout3.fwRuns = true ∧ atFlashWriteTimeout3.cpx.list = none ∧
      flashJobs atFlashWriteTimeout3 = [held Hold.flash 260 []]) ∧ (held Hold.flash 260 []).chain = none ∧
      ((held Hold.flash 260 []).code = 20484 → atFlashWriteTimeout3.cal.writingAt + 16000 ≤ atFlashWriteTimeout3.cpx.impressions)) ∧
    (flashJobs ready = []) := by
  refine ⟨?_, ?_, ?_, ?_⟩ <;> decide +kernel

theorem test_proofEnd :
    (proving.cpx.list = none ∧ proving.fwRuns = true ∧ proving.cpx.proof = some aProof ∧
      1 &&& (aProof.units &&& ~~~aProof.skipped) = 0) ∧
    (proving.fwRuns = true ∧ proving.cpx.proof = some aProof ∧ 2 &&& (aProof.units &&& ~~~aProof.skipped) ≠ 0 ∧
      defaultSources proving ∧ inShadow proving 0 = false ∧ proving.cpx.list = none) ∧
    (proving.fwRuns = true ∧ proving.cpx.proof = some aProof ∧ 1 &&& (aProof.units &&& ~~~aProof.skipped) = 0 ∧
      Machine.Inv proving ∧ proving.cpx.list = none ∧ proving.mbx.flights = [held Hold.proof 0 []] ∧
      (held Hold.proof 0 []).hold = Hold.proof ∧ (held Hold.proof 0 []).job.noCompletion = false ∧
      posting proving = true) := by
  and_intros <;>
    first
    | decide +kernel
    | exact inv_of_invB _ (by decide +kernel)

theorem test_keysAcrossWarm :
    defaultSources atKeysWarm := by decide +kernel

/-! ### Host accesses and the engine as a whole -/

/-- The engine with Window S, ring `r` at the given indexes. -/
def ring (r : Nat) (head tail chead ctail : BitVec 16) : State :=
  let s := { ready with srt := { ready.srt with straps := { boot := 0, swin := true } } }
  s.setRing r fun g => { g with head := head, tail := tail, chead := chead, ctail := ctail }
def pendingIrq : State := { ring 4 0 0 0 1 with intc := { ready.intc with status := 0x110, mask := 0x7FFFFFFF } }
def pinIrq : State := { ready with intc := { ready.intc with status := 0x110, mask := 0, pin := true } }
def faulted : State := { ring 0 0 0 0 0 with fco := { ready.fco with cls := ready.fco.cls.map fun x => { x with n := 2, recorded := 2, pending := true } } }
def count : State := { ring 0 0 0 0 0 with pcu := { ready.pcu with ctr := (ready.pcu.ctr.set 63 { event := 1, inst := 0xFF, count := 0x123456789ABC, userRead := false }) } }
def access (win : Window) (off : BitVec 24) (size : Nat) (data : Option (BitVec 64)) : HostAccess := { win := win, off := off, size := size, data := data }
def secureTcr : State := { ready with sec := { ready.sec with part := 0x2044, denials := 0xFFFF } }
def memory : State := { ready with mbx := { ready.mbx with mem := [(280 * 1024 + 1, 7)] } }
def spiMode : State := { memory with srt := { ready.srt with straps := { spi := true, swin := true } } }
def spiNoS : State := { memory with srt := { ready.srt with straps := { spi := true } } }
def wires (w : List Byte) : HostAccess := { win := .n, off := 0, size := 4, data := none, wire := w }

theorem test_mbxCqTail :
    ((ring 0 0 3 0 0).clocked = true ∧ (↑0 = 4 → (ring 0 0 3 0 0).srt.straps.swin = true)) ∧
    ((ring 4 65534 65535 0 0).clocked = true ∧ (↑4 = 4 → (ring 4 65534 65535 0 0).srt.straps.swin = true)) := by
  refine ⟨?_, ?_⟩ <;> decide +kernel

theorem test_mbxCcHead :
    (ring 4 0 0 65534 5).clocked = true ∧ (↑4 = 4 → (ring 4 0 0 65534 5).srt.straps.swin = true) := by decide +kernel

theorem test_intcStatus :
    (pinIrq.clocked = true ∧ ∀ (r : RingId), ccTrigger (pinIrq.ring ↑r) = false) ∧
    (pendingIrq.clocked = true ∧ ccTrigger (pendingIrq.ring ↑4) = true ∧ (↑4 = 4 → pendingIrq.srt.straps.swin = true)) := by
  refine ⟨?_, ?_⟩ <;> decide +kernel

theorem test_intcMask :
    (pendingIrq.clocked = true) ∧
    (pinIrq.clocked = true) := by
  refine ⟨?_, ?_⟩ <;> decide +kernel

theorem test_intcMode :
    (pinIrq.clocked = true) ∧
    (pendingIrq.clocked = true) := by
  refine ⟨?_, ?_⟩ <;> decide +kernel

theorem test_ccHoldoffExpiry :
    ccTrigger (pendingIrq.ring ↑4) = true ∧ (↑4 = 4 → pendingIrq.srt.straps.swin = true) := by decide +kernel

theorem test_tsnapLatch :
    onSecond.clocked = true ∧ onSecond.sec.part.getLsbD 6 = false := by decide +kernel

theorem test_fcoAck :
    (faulted.clocked = true ∧ (Window.n = Window.s → faulted.srt.straps.swin = true)) ∧
    (faulted.clocked = true ∧ (Window.s = Window.s → faulted.srt.straps.swin = true)) := by
  refine ⟨?_, ?_⟩ <;> decide +kernel

theorem test_pcuCntLoRead :
    (count.clocked = true ∧ (Window.n = Window.s → count.srt.straps.swin = true) ∧
      (Window.n = Window.n → count.sec.part.getLsbD 16 = false)) ∧
    (count.clocked = true ∧ (Window.s = Window.s → count.srt.straps.swin = true) ∧
      (Window.s = Window.n → count.sec.part.getLsbD 16 = false)) := by
  refine ⟨?_, ?_⟩ <;> decide +kernel

theorem test_registerWrite :
    (Machine.Inv memory ∧ memory.clocked = true ∧ (access Window.n 65536 4 (some 287454020)).wire = [] ∧
      windowPresent memory (access Window.n 65536 4 (some 287454020)).win = true ∧
      placeOf memory (access Window.n 65536 4 (some 287454020)) = Place.memory (280 * 1024) ∧
      ((access Window.n 65536 4 (some 287454020)).size = 4 ∨ (access Window.n 65536 4 (some 287454020)).size = 8) ∧
      (access Window.n 65536 4 (some 287454020)).off.toNat % (access Window.n 65536 4 (some 287454020)).size = 0 ∧
      (access Window.n 65536 4 (some 287454020)).data = some 287454020) ∧
    (Machine.Inv memory ∧ memory.clocked = true ∧ (access Window.n 163832 8 (some 0)).wire = [] ∧
      windowPresent memory (access Window.n 163832 8 (some 0)).win = true ∧
      placeOf memory (access Window.n 163832 8 (some 0)) = Place.memory (376 * 1024 - 8) ∧
      ((access Window.n 163832 8 (some 0)).size = 4 ∨ (access Window.n 163832 8 (some 0)).size = 8) ∧
      (access Window.n 163832 8 (some 0)).off.toNat % (access Window.n 163832 8 (some 0)).size = 0 ∧
      (access Window.n 163832 8 (some 0)).data = some 0) ∧
    (memory.clocked = true ∧ (access Window.n 65536 8 none).wire = [] ∧
      windowPresent memory (access Window.n 65536 8 none).win = true ∧
      placeOf memory (access Window.n 65536 8 none) = Place.memory (280 * 1024) ∧
      ((access Window.n 65536 8 none).size = 4 ∨ (access Window.n 65536 8 none).size = 8) ∧
      (access Window.n 65536 8 none).off.toNat % (access Window.n 65536 8 none).size = 0 ∧
      (access Window.n 65536 8 none).data = none) ∧
    (memory.clocked = true ∧ (access Window.n 196608 4 none).wire = [] ∧
      windowPresent memory (access Window.n 196608 4 none).win = true ∧
      placeOf memory (access Window.n 196608 4 none) = Place.reserved ∧ (access Window.n 196608 4 none).size = 4 ∧
      (access Window.n 196608 4 none).off.toNat % 4 = 0) ∧
    (memory.clocked = true ∧ (access Window.n 196608 4 (some 3)).wire = [] ∧
      windowPresent memory (access Window.n 196608 4 (some 3)).win = true ∧
      placeOf memory (access Window.n 196608 4 (some 3)) = Place.reserved ∧
      (access Window.n 196608 4 (some 3)).size = 4 ∧ (access Window.n 196608 4 (some 3)).off.toNat % 4 = 0) ∧
    ((memory.clocked = true ∧ (access Window.n 65538 4 (some 3)).wire = [] ∧
      windowPresent memory (access Window.n 65538 4 (some 3)).win = true ∧
      aligned (placeOf memory (access Window.n 65538 4 (some 3))) (access Window.n 65538 4 (some 3)) = false) ∧
      rises memory 33 (access Window.n 65538 4 (some 3)).off.toNat = true) ∧
    ((secureTcr.clocked = true ∧ (access Window.n 8192 4 none).wire = [] ∧
      windowPresent secureTcr (access Window.n 8192 4 none).win = true ∧
      aligned (placeOf secureTcr (access Window.n 8192 4 none)) (access Window.n 8192 4 none) = true ∧
      crossesWorlds secureTcr (placeOf secureTcr (access Window.n 8192 4 none)) (access Window.n 8192 4 none).win = true) ∧
      rises secureTcr 32 (access Window.n 8192 4 none).off.toNat = true) ∧
    ((secureTcr.clocked = true ∧ (access Window.n 8192 4 (some 1)).wire = [] ∧
      windowPresent secureTcr (access Window.n 8192 4 (some 1)).win = true ∧
      aligned (placeOf secureTcr (access Window.n 8192 4 (some 1))) (access Window.n 8192 4 (some 1)) = true ∧
      crossesWorlds secureTcr (placeOf secureTcr (access Window.n 8192 4 (some 1))) (access Window.n 8192 4 (some 1)).win = true) ∧
      rises secureTcr 32 (access Window.n 8192 4 (some 1)).off.toNat = true) ∧
    (spiMode.clocked = true ∧ spiMode.srt.straps.spi = true ∧
      (Window.n = Window.s → spiMode.srt.straps.swin = true) ∧
      (wires (2 :: (beBytes 3 65536 ++ leBytes 4 287454020))).wire = (if Window.n = Window.n then 2 else 18) :: (beBytes 3 (BitVec.toNat (65536 : BitVec 64)) ++ leBytes 4 (BitVec.toNat (287454020 : BitVec 64)))) ∧
    (spiMode.clocked = true ∧ spiMode.srt.straps.spi = true ∧
      (Window.s = Window.s → spiMode.srt.straps.swin = true) ∧
      (wires (18 :: (beBytes 3 65536 ++ leBytes 4 287454020))).wire = (if Window.s = Window.n then 2 else 18) :: (beBytes 3 (BitVec.toNat (65536 : BitVec 64)) ++ leBytes 4 (BitVec.toNat (287454020 : BitVec 64)))) ∧
    (spiMode.clocked = true ∧ spiMode.srt.straps.spi = true ∧
      (Window.n = Window.s → spiMode.srt.straps.swin = true) ∧
      (wires (3 :: (beBytes 3 65536 ++ List.replicate 8 0))).wire = (if Window.n = Window.n then 3 else 19) :: (beBytes 3 (BitVec.toNat (65536 : BitVec 64)) ++ List.replicate 8 0)) ∧
    (spiMode.clocked = true ∧ spiMode.srt.straps.spi = true ∧
      (Window.s = Window.s → spiMode.srt.straps.swin = true) ∧
      (wires (19 :: (beBytes 3 8192 ++ List.replicate 8 0))).wire = (if Window.s = Window.n then 3 else 19) :: (beBytes 3 (BitVec.toNat (8192 : BitVec 64)) ++ List.replicate 8 0)) ∧
    (spiMode.clocked = true ∧ spiMode.srt.straps.spi = true ∧ (wires [85, 1, 2]).wire = [85, 1, 2] ∧ 85 ≠ 2 ∧
      85 ≠ 3 ∧ (85 = 18 ∨ 85 = 19 → spiMode.srt.straps.swin = false)) ∧
    (spiNoS.clocked = true ∧ spiNoS.srt.straps.spi = true ∧ (wires [19, 1, 2]).wire = [19, 1, 2] ∧ 19 ≠ 2 ∧
      19 ≠ 3 ∧ (19 = 18 ∨ 19 = 19 → spiNoS.srt.straps.swin = false)) := by
  refine ⟨⟨inv_of_invB _ ?_, ?_⟩, ⟨inv_of_invB _ ?_, ?_⟩, ?_, ?_, ?_, ?_, ?_⟩ <;> decide +kernel

end Events
/-! ## The engine as a whole -/

/-- A refused job: DEV_SET_IMPOSITION of imposition 4. -/
theorem test_firstFailure :
    takesJobs ready 4 = true ∧ ready.cpx.list = none ∧ noFences ready = true ∧ (withCode devSetImpositionDef.code (job [(4, 4)])).dma = false ∧
      (ready.ring 4).inChain = false ∧ (takenJob devSetImpositionDef (job [(4, 4)]) ready).noCompletion = false ∧
      (paramOffence (takenState (job [(4, 4)]) ready) devSetImpositionDef (takenJob devSetImpositionDef (job [(4, 4)]) ready)).isSome = true := by
  decide +kernel
theorem test_ready_inv : Inv ready := inv_of_invB _ (by decide +kernel)
theorem test_reset_inv : Inv State.reset := inv_of_invB _ (by decide +kernel)
theorem test_everyStep : Inv State.reset ∧ ∃ t, step State.reset = .next t :=
  ⟨test_reset_inv, _, rfl⟩
theorem test_step_command : ({ ready with pending := [.fwReady, .por] } : State).pending = .fwReady :: [.por] := rfl
theorem test_step_idle : State.reset.pending = [] := rfl
theorem test_recorded_rises : rises ready 33 5 = true := by decide +kernel

/-! ## Results (one step each; what the rules name says) -/

/-- The state after a command. -/
def after (i : Instr) (s : State) : State :=
  match exec i s with
  | .next t => t
  | .fault _ => s
  | .refused _ => s
/-- STATUS of the first completion of a ring. -/
def firstStatus (r : RingId) (s : State) : Nat := (statusAt s r 0).toNat

/-- R60: more than 256 ahead of HEAD is refused. -/
theorem test_tail_refused : ((after (.mbxCqTail 0 257) ready).ring 0).tail = 0 ∧ ((after (.mbxCqTail 0 257) ready).ring 0).doorbellError = true := by
  decide +kernel
/-- R75: bit 31 of INTC_MASK stays 0. -/
theorem test_mask_bit31 : (after (.intcMask 0xFFFFFFFF) ready).intc.mask = 0x7FFFFFFF := by decide +kernel
/-- R41, R57: imposition 4 is out of range, REJ_PARAM. -/
theorem test_reject_param : firstStatus 4 (after (.devSetImposition (job [(4, 4)])) ready) = 0x11 := by decide +kernel
/-- R57: a key job of a non-secure ring, REJ_WORLD. -/
theorem test_reject_world : firstStatus 1 (after (.keyRoll { job [(4, 1)] with ring := 1 }) ready) = 0x10 := by decide +kernel
/-- R98: an inserted leap second raises the UTC offset by one where the second begins. -/
theorem test_leap : (after (.secondBoundary Events.aBoundary) Events.lastImp).tcr.dom[0].utcOffset = 38 := by decide +kernel
/-- R231, R235: loss of signal moves a lane in UP to RECOVER with reason 3. -/
theorem test_los : (after (.losAssert 5) (Events.lanes id)).nlu.lane[5].st = .recover ∧
    (after (.losAssert 5) (Events.lanes id)).nlu.lane[5].reason = 3 := by decide +kernel
/-- R302: without an ESMC PDU for five seconds the code is 0xF. -/
theorem test_esmc_timeout : (after (.esmcTimeout 5) (Events.later (Events.esmc id))).tpe.port[5].ssm = 0xF := by decide +kernel
/-- R323, R325: a tamper event zeroes the keys and the root secret. -/
theorem test_tamper : (after (.tamperEvent 5) (Events.keyed 3)).sec.key[9] = {} ∧ (after (.tamperEvent 5) (Events.keyed 3)).sec.root = none := by
  decide +kernel
/-- R397: a supply reset records its rail. -/
theorem test_supply_cause : (after (.supplyReset 3) ready).srt.cause.kind = 1 ∧ (after (.supplyReset 3) ready).srt.cause.detail = 3 := by
  decide +kernel
/-- R134: the bandwidth halves down to its setting, where the DPLL locks. -/
theorem test_halving : (after (.dpllBandwidthHalving 2) (Events.acquiring 2000)).dsb.dpll[2].st = .locked := by decide +kernel

/-! ## Well-formedness: each check refuses an ill-formed term -/

theorem test_wf_size : (Instr.registerWrite { win := .n, off := 0, size := 3, data := none }).wf = false := by decide
theorem test_wf_data : (Instr.registerWrite { win := .n, off := 0, size := 4, data := some 0x100000000 }).wf = false := by decide
theorem test_wf_job : (Instr.devIdentify { ring := 4, desc := 0, block := [1] }).wf = false := by decide +kernel
theorem test_wf_block : (Instr.impressionBoundary { overrun := 0, dma := [{ addr := 0, data := [] }] }).wf = false := by decide
theorem test_wf_space :
    (Instr.secondBoundary { overrun := 0, dma := [{ addr := 0xFFFFFFFFFFFFFFFF, data := [1, 2] }] }).wf = false := by decide
theorem test_wf_phases : (Instr.ensembleCycle [0]).wf = false := by decide
theorem test_wf_elevation : SatObs.wf { Events.aSat 0 1 0 with elev := 91 } = false := by decide
theorem test_wf_azimuth : SatObs.wf { Events.aSat 0 1 0 with azimuth := 360 } = false := by decide
theorem test_wf_systems : SolObs.wf { offsets := [(0, 1), (0, 2)], freqPpt := 0, postfitPs := 1 } = false := by decide
theorem test_wf_twice : (Instr.gnssSolution { Events.anObs 0 with sats := [Events.aSat 0 1 0, Events.aSat 0 1 0] }).wf = false := by decide
theorem test_wf_sgmii : (Instr.autonegComplete 0 (.sgmii 50)).wf = false := by decide
theorem test_wf_short : (Instr.frameReceive 0 0 { Events.aFrame .other with bytes := 63 }).wf = false := by decide
theorem test_wf_long : (Instr.frameReceive 0 0 { Events.aFrame .other with bytes := 9217 }).wf = false := by decide
theorem test_wf_tags : (Instr.frameReceive 0 0 { Events.aFrame .other with tags := 3 }).wf = false := by decide
theorem test_wf_ns : (Instr.ptpSyncReceive (Events.rx fun m => { m with time := { sec := 0, ns := 1000000000 } })).wf = false := by decide
theorem test_wf_ntp : (Instr.ntpRequestReceive (Events.ntpRx fun m => { m with bytes := 47 })).wf = false := by decide
theorem test_wf_uplink : (Instr.hostUplinkFrameReceive { Events.hostTag 1 1 5 with bytes := 9217 }).wf = false := by decide
theorem test_wf_svid : (Instr.svFrameReceive { Events.svFrame 0 with svid := [] }).wf = false := by decide
theorem test_wf_svid_long : (Instr.svFrameReceive { Events.svFrame 0 with svid := List.replicate 35 1 }).wf = false := by decide
theorem test_wf_asdu : (Instr.svFrameReceive { Events.svFrame 0 with smpCnts := [] }).wf = false := by decide
theorem test_wf_asdus : (Instr.svFrameReceive { Events.svFrame 0 with smpCnts := List.replicate 9 1 }).wf = false := by decide
theorem test_wf_slots : (Instr.sampleFrame 0 0 0 (List.replicate 33 0)).wf = false := by decide
theorem test_wf_good : (Instr.registerWrite { win := .n, off := 0, size := 4, data := some 0xFFFFFFFF }).wf = true ∧
    (Instr.gnssSolution (Events.anObs 4)).wf = true := by decide
end Sys2Proof.Tests
end

/-! ## Host registers (O33, O34, O35) -/

namespace Sys2Proof.Machine

/-! ### A host access of one word reaches its place -/

/-- A word at a multiple of 4 is aligned wherever it goes (R47). -/
theorem aligned_word (p : Place) (a : HostAccess) (hs : a.size = 4) (ho : a.off.toNat % 4 = 0) : aligned p a = true := by
  cases p <;> simp [aligned, hs, ho]

theorem windowPresent_of_swin (s : State) (w : Window) (h : w = .s → s.srt.straps.swin = true) : windowPresent s w = true := by
  cases w with
  | n => cases hspi : s.srt.straps.spi <;> simp [windowPresent, barOf, hspi]
  | s => cases hspi : s.srt.straps.spi <;> simp [windowPresent, barOf, hspi, h rfl]

theorem hostWrite_reaches (w : Window) (off : Nat) (v : Word) (s : State) (p : Place) (hc : s.clocked = true)
    (hw : w = .s → s.srt.straps.swin = true) (ho : (BitVec.ofNat 24 off).toNat % 4 = 0)
    (hp : placeOf s { win := w, off := BitVec.ofNat 24 off, size := 4, data := some (v.setWidth 64) } = p)
    (hx : crossesWorlds s p w = false) : hostWrite w off v s = writePlace w p 4 (v.setWidth 64) s := by
  have hal := aligned_word p { win := w, off := BitVec.ofNat 24 off, size := 4, data := some (v.setWidth 64) } rfl ho
  simp [hostWrite, hostAccess, hostReady, hc, windowPresent_of_swin s w hw, hp, hal, hx]

theorem hostRead_reaches (w : Window) (off : Nat) (s : State) (p : Place) (hc : s.clocked = true)
    (hw : w = .s → s.srt.straps.swin = true) (ho : (BitVec.ofNat 24 off).toNat % 4 = 0)
    (hp : placeOf s { win := w, off := BitVec.ofNat 24 off, size := 4, data := none } = p) (hx : crossesWorlds s p w = false) :
    hostAccess { win := w, off := BitVec.ofNat 24 off, size := 4, data := none } s =
      { (readPlace w p 4 s).2 with mbx := { (readPlace w p 4 s).2.mbx with readData := (readPlace w p 4 s).1 } } := by
  have hal := aligned_word p { win := w, off := BitVec.ofNat 24 off, size := 4, data := none } rfl ho
  simp [hostAccess, hostReady, hc, windowPresent_of_swin s w hw, hp, hal, hx]

/-- A register takes the word that the access carries in its 64 bits. -/
theorem word_setWidth (v : Word) : (v.setWidth 64).setWidth 32 = v := by
  rw [BitVec.setWidth_setWidth_of_le v (by decide), BitVec.setWidth_eq]

theorem placeOf_ringReg (r : RingId) (o size : Nat) (d : Option (BitVec 64)) (s : State) (ho : o < 0x20) :
    placeOf s { win := ringWindow r, off := BitVec.ofNat 24 (ringOff r + o), size := size, data := d } = .ringReg r o := by
  by_cases h : r.val = 4
  · have hr : r = 4 := Fin.ext h
    simp only [placeOf, ringWindow, ringOff, h, if_true, BitVec.toNat_ofNat]
    rw [Nat.mod_eq_of_lt (by omega), Nat.zero_add, placeS, if_pos ho, hr]
  · have hlt : r.val < 4 := by omega
    simp only [placeOf, ringWindow, ringOff, h, if_false, BitVec.toNat_ofNat]
    rw [Nat.mod_eq_of_lt (by omega), placeN, if_pos (by omega), show (0x20 * r.val + o) / 0x20 = r.val by omega,
      show (0x20 * r.val + o) % 0x20 = o by omega]
    exact congrArg (Place.ringReg · o) (Fin.ext (Nat.mod_eq_of_lt r.isLt))

theorem placeOf_n (o size : Nat) (d : Option (BitVec 64)) (s : State) (ho : o < 2 ^ 24) :
    placeOf s { win := .n, off := BitVec.ofNat 24 o, size := size, data := d } = placeN s o :=
  congrArg (placeN s) (Nat.mod_eq_of_lt ho)

theorem placeOf_s (o size : Nat) (d : Option (BitVec 64)) (s : State) (ho : o < 2 ^ 24) :
    placeOf s { win := .s, off := BitVec.ofNat 24 o, size := size, data := d } = placeS s o :=
  congrArg (placeS s) (Nat.mod_eq_of_lt ho)

/-- A write of a ring's register (R51). -/
theorem hostWrite_ring (r : RingId) (o : Nat) (v : Word) (s : State) (hc : s.clocked = true)
    (hs : r.val = 4 → s.srt.straps.swin = true) (ho : o < 0x20) (h4 : o % 4 = 0) :
    hostWrite (ringWindow r) (ringOff r + o) v s = writeRing r o v s := by
  have hw : ringWindow r = .s → s.srt.straps.swin = true := fun h => hs (by
    by_contra hr
    simp [ringWindow, hr] at h)
  have hoff : (BitVec.ofNat 24 (ringOff r + o)).toNat % 4 = 0 := by
    have hr : r.val < 5 := r.isLt
    rw [BitVec.toNat_ofNat]
    unfold ringOff
    split <;> omega
  rw [hostWrite_reaches _ _ v s _ hc hw hoff (placeOf_ringReg r o 4 _ s ho) (by simp [crossesWorlds]), writePlace, word_setWidth]

/-! ### Interrupt sources -/

/-- Raising a source sets its own status bit alone (R73); source 4 needs Window S. -/
theorem raiseIrq_raised (n : Nat) (s : State) (h : n = 4 → s.srt.straps.swin = true) :
    Raised (BitVec.ofNat 32 (2 ^ n)) s (raiseIrq n s) := by
  have hst : (raiseIrq n s).intc.status = s.intc.status ||| BitVec.ofNat 32 (2 ^ n) := by
    by_cases h4 : n = 4
    · simp [raiseIrq, h h4]
    · exact raiseIrq_status n s h4
  refine ⟨?_, raiseIrq_intc n s, ?_⟩
  · rw [hst]
    apply BitVec.eq_of_getLsbD_eq
    intro i hi
    simp only [BitVec.getLsbD_or, BitVec.getLsbD_and]
    cases s.intc.status.getLsbD i <;> cases (BitVec.ofNat 32 (2 ^ n)).getLsbD i <;> simp
  · rw [raiseIrq_eq]
    exact ⟨rfl, fun _ => ⟨rfl, rfl, rfl⟩⟩

/-- A refused index write sets DOORBELL_ERROR and raises source 5 (R60, R74). -/
theorem doorbellError_raised (r : RingId) (s : State) :
    doorbellError r s = { s.setRing r.val (fun g => { g with doorbellError := true }) with intc := (doorbellError r s).intc } ∧
      Raised 0x20 s (doorbellError r s) := by
  have h := raiseIrq_raised 5 (s.setRing r.val fun g => { g with doorbellError := true }) (fun h => absurd h (by decide))
  exact ⟨raiseIrq_eq _ _, h.status, h.intc, h.pcu⟩

/-! ### Ring indices (O33) -/

/-- The index that a register of 16 bits takes from a word. -/
theorem ofNat_eq_setWidth (v : Word) : BitVec.ofNat 16 v.toNat = v.setWidth 16 :=
  BitVec.eq_of_toNat_eq (by simp)

/-- Settles O33: each index write reaches its register, and the two sides of the comparison of R60 are the branches of the
register's write. -/
theorem refusedIndexWritesKeepTheIndex : Obligations.RefusedIndexWritesKeepTheIndex := by
  refine ⟨fun r v s hc hs => ?_, fun r v s hc hs => ?_⟩
  · have hw : exec (.mbxCqTail r v) s = .next (writeTail r v s) :=
      congrArg _ (hostWrite_ring r 0 v s hc hs (by decide) rfl)
    rw [hw]
    unfold writeTail
    rw [ofNat_eq_setWidth]
    dsimp only
    split
    · rfl
    · exact ⟨_, rfl, doorbellError_raised r s⟩
  · have hw : exec (.mbxCcHead r v) s = .next (writeChead r v s) :=
      congrArg _ (hostWrite_ring r 0x0C v s hc hs (by decide) rfl)
    rw [hw]
    unfold writeChead
    rw [ofNat_eq_setWidth]
    dsimp only
    split
    · rfl
    · exact ⟨_, rfl, doorbellError_raised r s⟩

/-! ### The interrupt controller (O34) -/

/-- The last round of a fold. -/
theorem forAll_succ (n : Nat) (s : State) (f : Nat → State → State) : forAll (n + 1) s f = f n (forAll n s f) := by
  simp [forAll, List.range_succ]

/-- A property that one round of a fold brings about, where every round keeps it and what it needs. -/
theorem forAll_reaches (P Q : State → Prop) (f : Nat → State → State) (n i : Nat) (s : State) (hi : i < n)
    (hP : ∀ k t, P t → P (f k t)) (hQ : ∀ k t, Q t → Q (f k t)) (hr : ∀ t, P t → Q (f i t)) (h : P s) : Q (forAll n s f) := by
  induction n with
  | zero => omega
  | succ n ih =>
    rw [forAll_succ]
    by_cases hin : i = n
    · subst hin
      exact hr _ (forAll_keeps P i f s hP h)
    · exact hQ n _ (ih (by omega))

/-- The messages for the sources that a predicate names, in rising order. -/
theorem sends_finRange (p : Nat → Bool) (v : Vector (BitVec 5) 32) :
    ((List.range 32).filter p).map (fun n => vget v n 0) = ((List.finRange 32).filter fun n => p n.val).map fun n => v[n] := by
  rw [← List.map_coe_finRange_eq_range, List.filter_map, List.map_map]
  exact List.map_congr_left fun n _ => by simp [vget]

/-- A write of an interrupt register (R75). -/
theorem hostWrite_intc (o : Nat) (v : Word) (s : State) (hc : s.clocked = true) (ho : o < 0x1000) (h4 : o % 4 = 0) :
    hostWrite .n (0x1000 + o) v s = writePlace .n (.intc o) 4 (v.setWidth 64) s := by
  have hoff : (BitVec.ofNat 24 (0x1000 + o)).toNat = 0x1000 + o := Nat.mod_eq_of_lt (by omega)
  refine hostWrite_reaches .n _ v s _ hc (fun h => nomatch h) (by omega) ?_ rfl
  simp only [placeOf, placeN, hoff]
  rw [if_neg (by omega), if_neg (by omega), if_pos (by omega), Nat.add_sub_cancel_left]

/-- INTC_STATUS where no completion trigger holds. -/
theorem writeIntcStatus_quiet (v : Word) (s : State) (h : ∀ r : RingId, ccTrigger (s.ring r.val) = false) :
    writeIntcStatus v s = { s with intc := { s.intc with status := s.intc.status &&& ~~~v } } := by
  unfold writeIntcStatus
  refine forAll_keeps (fun t => t = { s with intc := { s.intc with status := s.intc.status &&& ~~~v } }) _ _ _ ?_ rfl
  rintro n t rfl
  have hn : irqCondition { s with intc := { s.intc with status := s.intc.status &&& ~~~v } } n = false := by
    unfold irqCondition
    split
    next h5 => exact h ⟨n, h5⟩
    · rfl
  simp [hn]

/-- What writing INTC_STATUS leaves: the rest of the engine, and the bits of the sources that are no completion ring's. -/
structure StatusCleared (v : Word) (s t : State) : Prop where
  frame : { t with intc := s.intc } = s
  bits  : ∀ n : Fin 32, 5 ≤ n.val → t.intc.status.getLsbD n.val = (s.intc.status &&& ~~~v).getLsbD n.val

theorem StatusCleared.ring {v : Word} {s t : State} (h : StatusCleared v s t) (r : Nat) : t.ring r = s.ring r := by
  have hr := congrArg (State.ring · r) h.frame
  exact hr

theorem StatusCleared.straps {v : Word} {s t : State} (h : StatusCleared v s t) : t.srt.straps = s.srt.straps := by
  have hr := congrArg (fun x => x.srt.straps) h.frame
  exact hr

/-- The status bit of a source. -/
theorem statusBit (n k : Nat) (hk : k < 32) : (BitVec.ofNat 32 (2 ^ n)).getLsbD k = decide (n = k) := by
  rw [BitVec.getLsbD_ofNat, Nat.testBit_two_pow]
  simp [hk]

theorem StatusCleared.raiseIrq {v : Word} {s t : State} (h : StatusCleared v s t) (n : Nat) (hn : n < 5) :
    StatusCleared v s (raiseIrq n t) := by
  refine ⟨by rw [raiseIrq_eq]; exact h.frame, fun k hk => ?_⟩
  rw [← h.bits k hk]
  unfold Machine.raiseIrq
  split
  · rfl
  · have hne : n ≠ k.val := by omega
    rw [BitVec.getLsbD_or, statusBit n k.val k.isLt]
    simp only [hne, decide_false, Bool.or_false]

theorem raiseIrq_keepsBit (n k : Nat) (s : State) (h : s.intc.status.getLsbD k = true) :
    (raiseIrq n s).intc.status.getLsbD k = true := by
  unfold raiseIrq
  split
  · exact h
  · rw [BitVec.getLsbD_or, h, Bool.true_or]

theorem raiseIrq_setsBit (n : Nat) (s : State) (hn : n < 32) (h : n = 4 → s.srt.straps.swin = true) :
    (raiseIrq n s).intc.status.getLsbD n = true := by
  rw [(raiseIrq_raised n s h).status, BitVec.getLsbD_or, BitVec.getLsbD_or, statusBit n n hn]
  simp only [decide_true, Bool.or_true, Bool.true_or]

/-- INTC_STATUS where the trigger of a ring holds: its source sets again. -/
theorem writeIntcStatus_trigger (v : Word) (s : State) (r : RingId) (ht : ccTrigger (s.ring r.val) = true)
    (hs : r.val = 4 → s.srt.straps.swin = true) :
    StatusCleared v s (writeIntcStatus v s) ∧ (writeIntcStatus v s).intc.status.getLsbD r.val = true := by
  have h0 : StatusCleared v s { s with intc := { s.intc with status := s.intc.status &&& ~~~v } } := ⟨rfl, fun _ _ => rfl⟩
  have hP : ∀ k t, StatusCleared v s t → StatusCleared v s (if irqCondition t k then raiseIrq k t else t) := by
    intro k t h
    split
    next hk =>
      refine h.raiseIrq k ?_
      unfold irqCondition at hk
      split at hk
      · assumption
      · simp at hk
    · exact h
  have hw : writeIntcStatus v s = forAll 32 { s with intc := { s.intc with status := s.intc.status &&& ~~~v } }
      fun n t => if irqCondition t n then raiseIrq n t else t := rfl
  rw [hw]
  refine ⟨forAll_keeps (StatusCleared v s) 32 _ _ hP h0,
    forAll_reaches (StatusCleared v s) (fun t => t.intc.status.getLsbD r.val = true) _ 32 r.val _ (by omega) hP ?_ ?_ h0⟩
  · intro k t h
    split
    · exact raiseIrq_keepsBit k r.val t h
    · exact h
  · intro t h
    have hc : irqCondition t r.val = true := by
      unfold irqCondition
      rw [if_pos r.isLt, h.ring]
      exact ht
    rw [if_pos hc]
    exact raiseIrq_setsBit r.val t (by omega) fun e => by rw [h.straps]; exact hs e

theorem exec_intcStatus (v : Word) (s : State) (hc : s.clocked = true) :
    exec (.intcStatus v) s = .next (writeIntcStatus v s) := by
  have h := hostWrite_intc 0 v s hc (by decide) rfl
  rw [writePlace, word_setWidth] at h
  exact congrArg Host.Outcome.next h

theorem exec_intcMask (v : Word) (s : State) (hc : s.clocked = true) :
    exec (.intcMask v) s = .next (writeIntcMask v s) := by
  have h := hostWrite_intc 4 v s hc (by decide) rfl
  rw [writePlace, word_setWidth] at h
  exact congrArg Host.Outcome.next h

theorem exec_intcMode (v : Word) (s : State) (hc : s.clocked = true) :
    exec (.intcMode v) s = .next (writeIntcMode v s) := by
  have h := hostWrite_intc 0x0C v s hc (by decide) rfl
  rw [writePlace, word_setWidth] at h
  exact congrArg Host.Outcome.next h

theorem exec_ccHoldoffExpiry (r : RingId) (s : State) : exec (.ccHoldoffExpiry r) s = .next (raiseCompletion r.val s) := rfl

/-- A source becomes pending by a new mask: its status is 1, and the old mask held it back. -/
theorem unmasked_iff (status old new : Bool) : (!(status && !old) && (status && !new)) = (status && old && !new) := by
  cases status <;> cases old <;> rfl

theorem writeIntcMask_eq (v : Word) (s : State) :
    writeIntcMask v s = { s with intc := { s.intc with
      mask := v &&& 0x7FFFFFFF
      sent := if s.intc.pin then s.intc.sent else s.intc.sent ++
        ((List.finRange 32).filter fun n => s.intc.status.getLsbD n.val && s.intc.mask.getLsbD n.val &&
          !(v &&& 0x7FFFFFFF).getLsbD n.val).map fun n => s.intc.map[n] } } := by
  unfold writeIntcMask
  dsimp only
  cases s.intc.pin with
  | true => rfl
  | false =>
    simp only [Bool.false_eq_true, if_false, sendFor, sends_finRange, irqPending, unmasked_iff]

theorem writeIntcMode_eq (v : Word) (s : State) :
    writeIntcMode v s = if s.srt.straps.spi then s else { s with intc := { s.intc with
      pin := v.getLsbD 0
      sent := if s.intc.pin = true ∧ v.getLsbD 0 = false then s.intc.sent ++
          ((List.finRange 32).filter fun n => s.intc.status.getLsbD n.val && !s.intc.mask.getLsbD n.val).map fun n => s.intc.map[n]
        else s.intc.sent } } := by
  unfold writeIntcMode
  dsimp only
  split
  · rfl
  · cases s.intc.pin <;> cases v.getLsbD 0 <;> simp only [sendFor, sends_finRange, irqPending] <;> rfl

/-- Settles O34: each write reaches its register; the messages of INTC_MASK and INTC_MODE are those of `sendFor`, and the
sources that set again after INTC_STATUS are the completion triggers that still hold. -/
theorem interruptRegistersAct : Obligations.InterruptRegistersAct := by
  refine ⟨fun v s hc ht => ?_, fun v s r hc ht hs => ?_, fun v s hc => ?_, fun v s hc => ?_, fun r s h => ?_⟩
  · rw [exec_intcStatus v s hc, writeIntcStatus_quiet v s ht]
  · obtain ⟨hcl, hset⟩ := writeIntcStatus_trigger v s r ht hs
    exact ⟨_, exec_intcStatus v s hc, hset, hcl.frame, hcl.bits⟩
  · rw [exec_intcMask v s hc, writeIntcMask_eq]
  · rw [exec_intcMode v s hc, writeIntcMode_eq]
  · obtain ⟨ht, hs⟩ := h
    rw [exec_ccHoldoffExpiry, raiseCompletion, if_pos ht]
    exact ⟨_, rfl, by rw [raiseIrq_eq]; rfl, raiseIrq_raised r.val s hs⟩

/-! ### Snapshot, acknowledgement, counters (O35) -/

theorem exec_tsnapLatch (v : Word) (s : State) (hc : s.clocked = true) (hp : s.sec.part.getLsbD 6 = false) :
    exec (.tsnapLatch v) s = .next (latchSnapshot s) := by
  have hplace := (placeOf_n 0x2000 4 (some (v.setWidth 64)) s (by decide)).trans (show placeN s 0x2000 = .tsnap 0 by simp [placeN])
  exact congrArg Host.Outcome.next
    (hostWrite_reaches .n 0x2000 v s _ hc (fun h => nomatch h) (by decide) hplace hp)

theorem exec_fcoAck (w : Window) (v : Word) (s : State) (hc : s.clocked = true) (hw : w = .s → s.srt.straps.swin = true) :
    exec (.fcoAck w v) s = .next (writeFcoAck w v s) := by
  have hx : crossesWorlds s (.fco 4) w = false := by simp [crossesWorlds]
  have hput : writePlace w (.fco 4) 4 (v.setWidth 64) s = writeFcoAck w v s := by
    rw [writePlace, word_setWidth]
    rfl
  cases w with
  | n =>
    have hplace := (placeOf_n 0x3004 4 (some (v.setWidth 64)) s (by decide)).trans (show placeN s 0x3004 = .fco 4 by simp [placeN])
    exact congrArg Host.Outcome.next ((hostWrite_reaches .n 0x3004 v s _ hc hw (by decide) hplace hx).trans hput)
  | s =>
    have hplace := (placeOf_s 0x1004 4 (some (v.setWidth 64)) s (by decide)).trans (show placeS s 0x1004 = .fco 4 by simp [placeS])
    exact congrArg Host.Outcome.next ((hostWrite_reaches .s 0x1004 v s _ hc hw (by decide) hplace hx).trans hput)

/-- The fault classes after those below `n` that a mask names are acknowledged. -/
def acked (m n : Nat) (cls : Vector FaultClass 8) : Vector FaultClass 8 :=
  Vector.ofFn fun c => if c.val < n ∧ m.testBit c.val = true then {} else cls[c]

theorem acked_zero (m : Nat) (cls : Vector FaultClass 8) : acked m 0 cls = cls := by
  ext c hc
  simp [acked]

/-- One more class is looked at. -/
theorem acked_succ (m n : Nat) (cls : Vector FaultClass 8) (hn : n < 8) :
    acked m (n + 1) cls = if m.testBit n then vmod (acked m n cls) n fun _ => {} else acked m n cls := by
  ext c hc : 1
  by_cases hcn : c = n
  · subst hcn
    cases hm : m.testBit c <;> simp [acked, vmod, hn, hm]
  · have hle : c ≤ n ↔ c < n := by omega
    have hne : n ≠ c := fun e => hcn e.symm
    cases m.testBit n <;> simp [acked, vmod, hn, hle, hne]

theorem acked_all (m : Nat) (cls : Vector FaultClass 8) (p : Fin 8 → Prop) [DecidablePred p]
    (h : ∀ c : Fin 8, m.testBit c.val = true ↔ p c) : acked m 8 cls = Vector.ofFn fun c => if p c then {} else cls[c] := by
  unfold acked
  congr 1
  funext c
  simp only [c.isLt, true_and, h c]

theorem forAll_ackClass (m n : Nat) (s : State) (hn : n ≤ 8) :
    forAll n s (fun c t => if m.testBit c then ackClass c t else t) =
      { s with fco := { s.fco with cls := acked m n s.fco.cls } } := by
  induction n with
  | zero =>
    rw [acked_zero]
    rfl
  | succ n ih =>
    rw [forAll_succ, ih (by omega), acked_succ m n _ (by omega)]
    split <;> rfl

/-- Acknowledging a mask clears the classes that it names and no other (R357). -/
theorem ackMask_eq (m : Nat) (s : State) : ackMask m s = { s with fco := { s.fco with cls := acked m 8 s.fco.cls } } :=
  forAll_ackClass m 8 s le_rfl

theorem testBit_lowByte (v : Word) (c : Nat) (hc : c < 8) : (v.toNat % 256).testBit c = v.getLsbD c := by
  rw [show 256 = 2 ^ 8 from rfl, Nat.testBit_mod_two_pow]
  simp [hc, BitVec.getLsbD]

/-- Window N acknowledges every class but 1 and 6 (R359). -/
theorem testBit_windowN (c : Nat) (hc : c < 8) : (0xBD : Nat).testBit c = (decide (c ≠ 1) && decide (c ≠ 6)) := by
  interval_cases c <;> rfl

/-- FCO_ACK clears the classes of its mask that its window may acknowledge (R357, R359). -/
theorem writeFcoAck_eq (w : Window) (v : Word) (s : State) :
    writeFcoAck w v s = { s with fco := { s.fco with cls := (Vector.ofFn fun (c : Fin 8) =>
      if v.getLsbD c.val = true ∧ (w = .n → c.val ≠ 1 ∧ c.val ≠ 6) then {} else s.fco.cls[c]) } } := by
  cases w with
  | n =>
    rw [writeFcoAck, ackMask_eq, acked_all _ _ (fun c => v.getLsbD c.val = true ∧ (Window.n = .n → c.val ≠ 1 ∧ c.val ≠ 6))]
    intro c
    simp [Nat.testBit_and, testBit_lowByte v c.val c.isLt, testBit_windowN c.val c.isLt]
  | s =>
    rw [writeFcoAck, ackMask_eq, acked_all _ _ (fun c => v.getLsbD c.val = true ∧ (Window.s = .n → c.val ≠ 1 ∧ c.val ≠ 6))]
    intro c
    simp [testBit_lowByte v c.val c.isLt]

/-- Window S reads every counter, Window N those that PCU_SET_ACCESS leaves it (R369). -/
theorem ctrReadable_iff (s : State) (w : Window) (n : Fin 64) :
    ctrReadable s w n.val = true ↔ w = .s ∨ s.pcu.ctr[n].userRead = true := by
  simp [ctrReadable, vget]

/-- The counters lie at 0x4000 of either window (R368). -/
theorem placeOf_pcu (w : Window) (o size : Nat) (d : Option (BitVec 64)) (s : State) (ho : o < 0x1000) :
    placeOf s { win := w, off := BitVec.ofNat 24 (0x4000 + o), size := size, data := d } = .pcu o := by
  cases w with
  | n =>
    rw [placeOf_n _ _ _ _ (by omega), placeN]
    rw [if_neg (by omega), if_neg (by omega), if_neg (by omega), if_neg (by omega), if_neg (by omega), if_pos (by omega),
      Nat.add_sub_cancel_left]
  | s =>
    rw [placeOf_s _ _ _ _ (by omega), placeS]
    rw [if_neg (by omega), if_neg (by omega), if_neg (by omega), if_neg (by omega), if_neg (by omega), if_pos (by omega),
      Nat.add_sub_cancel_left]

theorem readPlace_ctrLo (w : Window) (n : Fin 64) (s : State) :
    readPlace w (.pcu (8 * n.val)) 4 s = ((readCtrLo w n s).1.setWidth 64, (readCtrLo w n s).2) := by
  have hidx : Fin.ofNat 64 (8 * n.val / 8) = n := Fin.ext (by simp)
  simp only [readPlace, readPcu]
  rw [if_pos (by omega), if_pos (by omega), hidx]

theorem exec_pcuCntLoRead (w : Window) (n : Fin 64) (s : State) (hc : s.clocked = true)
    (hw : w = .s → s.srt.straps.swin = true) (hp : w = .n → s.sec.part.getLsbD 16 = false) :
    exec (.pcuCntLoRead w n) s = .next { (readCtrLo w n s).2 with
      mbx := { (readCtrLo w n s).2.mbx with readData := (readCtrLo w n s).1.setWidth 64 } } := by
  have hx : crossesWorlds s (.pcu (8 * n.val)) w = false := by
    cases w with
    | n => exact hp rfl
    | s => rfl
  have hoff : (BitVec.ofNat 24 (0x4000 + 8 * n.val)).toNat % 4 = 0 := by
    rw [BitVec.toNat_ofNat]
    omega
  have h := hostRead_reaches w _ s _ hc hw hoff (placeOf_pcu w (8 * n.val) 4 none s (by omega)) hx
  rw [readPlace_ctrLo] at h
  exact congrArg Host.Outcome.next h

/-- Settles O35: each access reaches its register; an acknowledgement clears the classes whose bits the window leaves. -/
theorem latchAndAcknowledgeRegistersAct : Obligations.LatchAndAcknowledgeRegistersAct := by
  refine ⟨fun v s hc hp => ?_, fun w v s hc hw => ?_, fun w n s hc hw hp => ?_⟩
  · refine ⟨_, exec_tsnapLatch v s hc hp, rfl, rfl, fun d => ?_⟩
    simp [latchSnapshot]
  · rw [exec_fcoAck w v s hc hw, writeFcoAck_eq]
  · rw [exec_pcuCntLoRead w n s hc hw hp, readCtrLo]
    by_cases h : w = .s ∨ s.pcu.ctr[n].userRead = true
    · rw [if_pos h, if_pos ((ctrReadable_iff s w n).2 h)]
      cases w <;> rfl
    · rw [if_neg h, if_neg (mt (ctrReadable_iff s w n).1 h)]
      rfl

end Sys2Proof.Machine

/-! ## Device jobs (O1, O2, O3) -/

namespace Sys2Proof.Machine

/-! ### DEV_IDENTIFY and the jobs that wait (O1) -/

/-- An effect on the boot and imposition record alone, which keeps the boot phase, the WARM restart and the configuration
list, leaves the services. -/
theorem quietEffect_cpx (f : Cpx → State → Cpx) (hf : ∀ c (s : State) m i q, f c { s with mbx := m, intc := i, pcu := q } = f c s)
    (hlist : ∀ c s, (f c s).list = c.list) (hphase : ∀ c s, (f c s).phase = c.phase) (hwarm : ∀ c s, (f c s).warm = c.warm) :
    QuietEffect fun s => { s with cpx := f s.cpx s } where
  map s m i q := by rw [hf]
  list s := hlist s.cpx s
  phase s := hphase s.cpx s
  post s := by
    unfold posting
    rw [hwarm]
  spi _ := rfl

/-- BUILD of COL_FWREV lies above the 16 bits that DEV_IDENTIFY answers (R77, R78). -/
theorem fwRev_low (s : State) : (fwRev s).toNat % 2 ^ 16 = if s.col.fwRevValid then 0x0302 else 0 := by
  unfold fwRev
  split
  · rw [word, BitVec.toNat_ofNat]
    omega
  · rfl

theorem devIdentify_answers : Answers .devIdentify devIdentifyDef same always unchanged (fun _ _ s =>
    [word (deviceCode s.col.part + 0x10000), word (0x4200 + (if s.col.fwRevValid then 0x0302 else 0) * 2 ^ 16),
     word (fuseUnits s.col.part), word (fuseLanes s.col.part)]) := by
  refine answers_of_quiet _ _ _ _ _ _ (fun _ _ => rfl) (fun _ => rfl) (fun _ => .id) fun j s ha _ e he => ?_
  have hcol : e.col = s.col := effect_read State.col devIdentifyDef j s e he fun _ _ _ _ _ => rfl
  refine ⟨_, rfl, rfl, ?_, .inl rfl⟩
  simp only [fwRev_low, hcol]
  rfl

theorem devSetImposition_waits : Waits .devSetImposition devSetImpositionDef same always
    (fun p s => { s with cpx := { s.cpx with nextImposition := some (impositionOf (p.u 4 1)) } }) (fun _ _ => .imposition) :=
  waits_of_quiet _ _ _ _ _ _ (fun _ _ => rfl) (fun _ _ => by decide)
    (fun p => quietEffect_cpx (fun c _ => { c with nextImposition := some (impositionOf (p.u 4 1)) }) (fun _ _ _ _ _ => rfl)
      (fun _ _ => rfl) (fun _ _ => rfl) fun _ _ => rfl)
    fun _ _ _ _ _ _ => rfl

theorem devFwRestart_waits : Waits .devFwRestart devFwRestartDef same always
    (fun p s => { s with cpx := { s.cpx with warmDue := some (p.u 4 1 == 1) } }) (fun _ _ => .fwRestart) :=
  waits_of_quiet _ _ _ _ _ _ (fun _ _ => rfl) (fun _ _ => by decide)
    (fun p => quietEffect_cpx (fun c _ => { c with warmDue := some (p.u 4 1 == 1) }) (fun _ _ _ _ _ => rfl)
      (fun _ _ => rfl) (fun _ _ => rfl) fun _ _ => rfl)
    fun _ _ _ _ _ _ => rfl

/-- The proof that DEV_PROOF starts (R367). -/
def startedProof (p : Params) (s : State) : Proof where
  units := BitVec.ofNat 6 (p.u 4 4)
  maxImp := p.u 8 2
  since := s.cpx.impressions
  skipped := BitVec.ofNat 6 (p.u 4 4) &&& ~~~BitVec.ofNat 6 (idleUnits s)

theorem devProof_waits : Waits .devProof devProofDef same (fun _ s => s.cpx.proof = none)
    (fun p s => { s with cpx := { s.cpx with proof := some (startedProof p s) } }) (fun _ _ => .proof) :=
  waits_of_quiet _ _ _ _ _ _ (fun _ _ => rfl) (fun _ _ => by decide)
    (fun p => quietEffect_cpx (fun c s => { c with proof := some (startedProof p s) }) (fun _ _ _ _ _ => rfl)
      (fun _ _ => rfl) (fun _ _ => rfl) fun _ _ => rfl)
    fun _ _ _ _ _ _ => rfl

/-- Settles O1: DEV_IDENTIFY leaves the state and answers what it reads there; the other three change the record of CPX
alone, and hold. -/
theorem deviceJobsAct : Obligations.DeviceJobsAct :=
  ⟨devIdentify_answers, devSetImposition_waits, devFwRestart_waits, devProof_waits⟩

/-! ### DEV_CHIP_RESET (O2) -/

theorem devChipReset_waits : Waits .devChipReset devChipResetDef same always
    (fun _ s => { s with cpx := { s.cpx with chipResetDue := true } }) (fun _ _ => .chipReset) :=
  waits_of_quiet _ _ _ _ _ _ (fun _ _ => rfl) (fun _ _ => by decide)
    (fun _ => quietEffect_cpx (fun c _ => { c with chipResetDue := true }) (fun _ _ _ _ _ => rfl)
      (fun _ _ => rfl) (fun _ _ => rfl) fun _ _ => rfl)
    fun _ _ _ _ _ _ => rfl

/-- The state in which an accepted job begins to act: it is fetched, its chain is followed, and a proof of the unit that
it configures has stopped. -/
def startState (d : JobDef) (j : Job) (s : State) : State :=
  let c := chainStep (takenJob d j s) s.mbx.fetched false (takenState j s)
  stopProof (proofBit c (takenJob d j s).code ((jobParams d j s).u 4 1)) c

theorem startState_service (d : JobDef) (j : Job) (s : State) : ServiceOnly (effectState d j s) (startState d j s) :=
  effectState_start d j s

theorem stopProof_mbx (b : Option Nat) (s : State) : (stopProof b s).mbx = s.mbx := by
  unfold stopProof
  split <;> rfl

theorem startState_mbx (d : JobDef) (j : Job) (s : State) : (startState d j s).mbx = { s.mbx with
    fetched := s.mbx.fetched + 1, rings := (chainStep (takenJob d j s) s.mbx.fetched false s).mbx.rings } := by
  unfold startState
  rw [stopProof_mbx]
  simp only [chainStep, State.setRing, takenState_mbx]

theorem startState_flights (d : JobDef) (j : Job) (s : State) : (startState d j s).mbx.flights = s.mbx.flights := by
  rw [startState_mbx]

theorem startState_due (d : JobDef) (j : Job) (s : State) : (startState d j s).mbx.due = s.mbx.due := by
  rw [startState_mbx]

theorem startState_mem (d : JobDef) (j : Job) (s : State) : (startState d j s).mbx.mem = s.mbx.mem := by
  rw [startState_mbx]

/-- Following the chain leaves the completions of every ring. -/
theorem chainStep_completions (j : Job) (n : Nat) (b : Bool) (s : State) (q : Nat) :
    ((chainStep j n b s).ring q).ctail = (s.ring q).ctail ∧ ((chainStep j n b s).ring q).unconsumed = (s.ring q).unconsumed := by
  unfold chainStep
  by_cases h : j.ring.val = q
  · rw [← h, State.ring_setRing _ _ _ j.ring.isLt]
    exact ⟨rfl, rfl⟩
  · rw [State.ring_setRing_ne _ _ _ _ h]
    exact ⟨rfl, rfl⟩

theorem startState_completions (d : JobDef) (j : Job) (s : State) (q : Nat) :
    ((startState d j s).ring q).ctail = (s.ring q).ctail ∧ ((startState d j s).ring q).unconsumed = (s.ring q).unconsumed := by
  have h : (startState d j s).ring q = (chainStep (takenJob d j s) s.mbx.fetched false s).ring q := by
    unfold State.ring
    rw [startState_mbx]
  rw [h]
  exact chainStep_completions _ _ _ _ _

/-- A state with one more job in flight. -/
def withFlight (f : Flight) (s : State) : State := { s with mbx := { s.mbx with flights := s.mbx.flights ++ [f] } }

/-- An accepted job that holds is in flight, and the fences that this lets go complete. -/
theorem directJob_held (d : JobDef) (j : Job) (s x : State) (w : Hold) (ha : accepted d j s = true) (hc : x.clocked = true)
    (hrun : d.run (startState d j s) (takenJob d j s) (jobParams d j s) = (x, .hold w)) :
    directJob d j s = settle (withFlight (heldFlight d j s w x) x) := by
  have hrun' : runJob d (takenFlight d j s) (chainStep (takenJob d j s) s.mbx.fetched false (takenState j s)) =
      withFlight (heldFlight d j s w x) x := by
    unfold runJob
    change (match d.run (startState d j s) (takenJob d j s) (jobParams d j s) with
      | (s', .reply r) => _
      | (s', .hold h) => _
      | (s', .silent) => _) = _
    rw [hrun]
    dsimp only
    rw [hc]
    rfl
  rw [directJob_accepted d j s ha, hrun']

theorem startState_clocked (d : JobDef) (j : Job) (s : State) (ha : accepted d j s = true) : (startState d j s).clocked = true :=
  effectState_clocked d j s ha _ (startState_service d j s)

theorem noFences_withFlight (f : Flight) (s : State) :
    noFences (withFlight f s) = (noFences s && (f.hold != .ringFence && f.hold != .worldFence)) := by
  simp [noFences, withFlight, List.all_append]

theorem startState_noFences (d : JobDef) (j : Job) (s : State) : noFences (startState d j s) = noFences s := by
  unfold noFences
  rw [startState_flights]

/-- A job that holds for something else than a fence just joins the jobs in flight. -/
theorem directJob_joins (d : JobDef) (j : Job) (s x : State) (w : Hold) (ha : accepted d j s = true) (hc : x.clocked = true)
    (hrun : d.run (startState d j s) (takenJob d j s) (jobParams d j s) = (x, .hold w))
    (hw : w ≠ .ringFence ∧ w ≠ .worldFence) (hx : x.mbx = (startState d j s).mbx) (hn : noFences s = true) :
    directJob d j s = withFlight (heldFlight d j s w x) x := by
  have hnx : noFences x = true := by
    rw [← hn, ← startState_noFences d j s]
    unfold noFences
    rw [hx]
  rw [directJob_held d j s x w ha hc hrun, settle_noFences]
  rw [noFences_withFlight, hnx]
  simpa [heldFlight] using hw

/-- The effect of DEV_CHIP_RESET (R398). -/
def askChipReset (s : State) : State := { s with cpx := { s.cpx with chipResetDue := true } }

/-- Settles O2: the job holds until its reset; beside its own flight, the fetch and the chain, the mailboxes stay. -/
theorem chipResetPostsNoCompletion : Obligations.ChipResetPostsNoCompletion := by
  refine ⟨devChipReset_waits, fun j s ha _ => ⟨_, rfl, fun hn => ?_⟩⟩
  have ht := directJob_joins devChipResetDef j s (askChipReset (startState devChipResetDef j s)) .chipReset ha
    (startState_clocked devChipResetDef j s ha) rfl (by decide) rfl hn
  have hfl := startState_flights devChipResetDef j s
  rw [ht]
  refine ⟨startState_mem devChipResetDef j s, ?_, fun f hf => List.mem_append_left _ (hfl ▸ hf), startState_due devChipResetDef j s,
    fun q => startState_completions devChipResetDef j s q.val⟩
  exact List.length_append.trans (congrArg (·.length + 1) hfl)

/-! ### DEV_FENCE (O3) -/

theorem takenJob_ring (d : JobDef) (j : Job) (s : State) (h : accepted d j s = true) : (takenJob d j s).ring = j.ring := by
  obtain ⟨_, _, _, _, _, _, hring, _⟩ := start_frame d j s h
  exact hring

theorem withByte_ring (off v : Nat) (j : Job) : (withByte off v j).ring = j.ring := by
  unfold withByte
  split <;> rfl

/-- A job that is taken up carries the code of its row. -/
theorem takenJob_code (d : JobDef) (j : Job) (s : State) : (takenJob d j s).code = d.code % 65536 := by
  unfold takenJob Job.code
  rw [loadBlock_desc, withCode, BitVec.toNat_ofNat, bitsOf_mod _ _ _ _ (by decide)]
  simp [bitsOf]

/-- A fence configures no unit that a proof could test (R367). -/
theorem effectState_fence (j : Job) (s : State) : effectState devFenceDef j s = s := by
  have hbit : proofBit s (takenJob devFenceDef j s).code ((jobParams devFenceDef j s).u 4 1) = none := by
    rw [takenJob_code]
    rfl
  unfold effectState
  rw [hbit]
  rfl

/-- A fold whose rounds over the list all leave the state. -/
theorem foldl_same {α : Type} (l : List α) (f : State → α → State) (s : State) (h : ∀ x ∈ l, f s x = s) : l.foldl f s = s := by
  induction l with
  | nil => rfl
  | cons x l ih =>
    rw [List.foldl_cons, h x List.mem_cons_self]
    exact ih fun y hy => h y (List.mem_cons_of_mem _ hy)

/-- An earlier job of a world has not completed (R66, R80). -/
def worldBusy (s : State) (secure : Bool) (order : Nat) : Bool :=
  s.mbx.flights.any (fun g => g.job.secure == secure && decide (g.order < order)) ||
    s.mbx.due.any fun d => d.job.secure == secure && decide (d.flags.order < order)

/-- What settling does with one job in flight: a fence that nothing holds back completes (R80). -/
def settleOne (t : State) (f : Flight) : State :=
  match f.hold with
  | .ringFence => if ringBusy t f.job.ring f.order then t else finish f {} t
  | .worldFence => if worldBusy t f.job.secure f.order then t else finish f {} t
  | _ => t

theorem settle_eq_foldl (s : State) : settle s = s.mbx.flights.foldl settleOne s := rfl

theorem settleOne_other (t : State) (f : Flight) (h1 : f.hold ≠ .ringFence) (h2 : f.hold ≠ .worldFence) : settleOne t f = t := by
  unfold settleOne
  split
  next e => exact absurd e h1
  next e => exact absurd e h2
  · rfl

/-- Where no other fence waits, settling looks at the last flight alone. -/
theorem settle_withFlight (f : Flight) (s : State) (hn : noFences s = true) :
    settle (withFlight f s) = settleOne (withFlight f s) f := by
  rw [settle_eq_foldl]
  change (s.mbx.flights ++ [f]).foldl settleOne _ = _
  rw [List.foldl_append, foldl_same s.mbx.flights, List.foldl_cons, List.foldl_nil]
  intro g hg
  have hg' := List.all_eq_true.mp hn g hg
  simp only [Bool.and_eq_true, bne_iff_ne, ne_eq] at hg'
  exact settleOne_other _ g hg'.1 hg'.2

/-- The flight of a fence is none of those before it. -/
theorem ringBusy_withFlight (f : Flight) (s : State) (r : RingId) : ringBusy (withFlight f s) r f.order = ringBusy s r f.order := by
  simp [ringBusy, withFlight]

theorem worldBusy_withFlight (f : Flight) (s : State) (b : Bool) : worldBusy (withFlight f s) b f.order = worldBusy s b f.order := by
  simp [worldBusy, withFlight]

theorem dropFlight_withFlight (f : Flight) (s : State) (h : ∀ g ∈ s.mbx.flights, g.order < f.order) : dropFlight f (withFlight f s) = s := by
  have hfl : (s.mbx.flights ++ [f]).filter (fun g => g.order != f.order) = s.mbx.flights := by
    rw [List.filter_append, List.filter_eq_self.mpr]
    · simp
    · intro g hg
      simpa using Nat.ne_of_lt (h g hg)
  unfold dropFlight withFlight
  dsimp only
  rw [hfl]

/-- A fence that nothing holds back completes DONE, and the jobs in flight are as before. -/
theorem finish_withFlight (f : Flight) (s : State) (h : ∀ g ∈ s.mbx.flights, g.order < f.order) (hl : f.late = false) :
    finish f {} (withFlight f s) = postCompletion f.job {} f.flags s := by
  have hr : lateReply f {} = {} := by simp [lateReply, hl]
  unfold finish
  rw [dropFlight_withFlight f s h, hr]
  rfl

/-- What DEV_FENCE leads to, given whether an earlier job holds it back. -/
structure Fenced (j' : Job) (s : State) (r : RingId) (w : Hold) (busy : Bool) (t : State) : Prop where
  frame : ServiceOnly s t
  waits : busy = true → (∃ f ∈ t.mbx.flights, f.job = j' ∧ f.hold = w) ∧ t.mbx.mem = s.mbx.mem
  ends  : busy = false → t.mbx.flights = s.mbx.flights ∧ (t.ring r.val).ctail = (s.ring r.val).ctail + 1 ∧
    statusAt t r (s.ring r.val).ctail = 0

/-- A fence that takes one scope, `w`, waits while that is busy and completes otherwise. -/
theorem devFence_fenced (j : Job) (s : State) (w : Hold) (busy : Bool) (hi : Inv s) (ha : accepted devFenceDef j s = true)
    (hn : noFences s = true) (hnc : (takenJob devFenceDef j s).noCompletion = false)
    (hrun : devFenceDef.run (startState devFenceDef j s) (takenJob devFenceDef j s) (jobParams devFenceDef j s) =
      (startState devFenceDef j s, .hold w))
    (hsettle : ∀ f : Flight, f.hold = w → f.job = takenJob devFenceDef j s → f.order = s.mbx.fetched →
      settleOne (withFlight f (startState devFenceDef j s)) f =
        if busy then withFlight f (startState devFenceDef j s) else finish f {} (withFlight f (startState devFenceDef j s))) :
    Fenced (takenJob devFenceDef j s) s j.ring w busy (directJob devFenceDef j s) := by
  have hfl := startState_flights devFenceDef j s
  have hmem := startState_mem devFenceDef j s
  have hring := takenJob_ring devFenceDef j s ha
  have hservice : ServiceOnly s (startState devFenceDef j s) := by
    have h := startState_service devFenceDef j s
    rwa [effectState_fence] at h
  have hlist : (startState devFenceDef j s).cpx.list = none := by rw [hservice.cpx]; exact accepted_list _ j s ha
  have hclk := startState_clocked devFenceDef j s ha
  have hpost := effectState_posting devFenceDef j s ha _ (startState_service devFenceDef j s)
  rw [directJob_held devFenceDef j s _ w ha hclk hrun, settle_withFlight _ _ (by rw [startState_noFences]; exact hn),
    hsettle _ rfl rfl rfl]
  cases busy with
  | true =>
    rw [if_pos rfl]
    exact ⟨hservice.trans (withMbx_service _ _), fun _ => ⟨⟨_, List.mem_append_right _ List.mem_cons_self, rfl, rfl⟩, hmem⟩, fun h => nomatch h⟩
  | false =>
    rw [if_neg (by decide), finish_withFlight _ _ (by rw [hfl]; exact hi.order) rfl]
    have hct := (startState_completions devFenceDef j s j.ring.val).1
    have hwf : Memory.wf (startState devFenceDef j s).mbx.mem = true := by rw [hmem]; exact hi.mem
    refine ⟨hservice.trans (postCompletion_service _ _ _ _ hlist), fun h => (nomatch h), fun _ => ⟨?_, ?_, ?_⟩⟩
    · rw [postCompletion_flights, hfl]
    · have h := (postCompletion_answer (takenJob devFenceDef j s) {} (heldFlight devFenceDef j s w (startState devFenceDef j s)).flags
        _ hclk hlist hpost (by simp [hnc]) hwf).1
      rw [hring, hct] at h
      exact h
    · have h := postCompletion_status (takenJob devFenceDef j s) {} (heldFlight devFenceDef j s w (startState devFenceDef j s)).flags
        _ hclk hlist hpost (by simp [hnc]) hwf
      rw [hring, hct] at h
      exact h

theorem ServiceOnly.restore {s t : State} (h : ServiceOnly s t) : { t with mbx := s.mbx, intc := s.intc, pcu := s.pcu } = s := by
  rw [h]

theorem startState_ringBusy (d : JobDef) (j : Job) (s : State) (r : RingId) (n : Nat) :
    ringBusy (startState d j s) r n = ringBusy s r n := by
  unfold ringBusy
  rw [startState_flights, startState_due]

theorem startState_worldBusy (d : JobDef) (j : Job) (s : State) (b : Bool) (n : Nat) :
    worldBusy (startState d j s) b n = worldBusy s b n := by
  unfold worldBusy
  rw [startState_flights, startState_due]

theorem devFence_run (e : State) (j : Job) (p : Params) :
    devFenceDef.run e j p = (e, .hold (if p.u 4 1 = 0 then .ringFence else .worldFence)) := rfl

/-- A fence with SCOPE 0 looks at its ring (R66). -/
theorem devFence_ring (j : Job) (s : State) (hi : Inv s) (ha : accepted devFenceDef j s = true) (hn : noFences s = true)
    (hnc : (takenJob devFenceDef j s).noCompletion = false) (hu : (jobParams devFenceDef j s).u 4 1 = 0) :
    Fenced (takenJob devFenceDef j s) s j.ring .ringFence (ringBusy s j.ring s.mbx.fetched) (directJob devFenceDef j s) := by
  refine devFence_fenced j s .ringFence _ hi ha hn hnc ?_ fun f hw hj ho => ?_
  · rw [devFence_run, hu]
    rfl
  · unfold settleOne
    rw [hw]
    dsimp only
    rw [ringBusy_withFlight, startState_ringBusy, hj, ho, takenJob_ring devFenceDef j s ha]

/-- A fence with SCOPE 1 looks at its world (R80). -/
theorem devFence_world (j : Job) (s : State) (hi : Inv s) (ha : accepted devFenceDef j s = true) (hn : noFences s = true)
    (hnc : (takenJob devFenceDef j s).noCompletion = false) (hu : (jobParams devFenceDef j s).u 4 1 = 1) :
    Fenced (takenJob devFenceDef j s) s j.ring .worldFence (worldBusy s j.secure s.mbx.fetched) (directJob devFenceDef j s) := by
  have hsec : (takenJob devFenceDef j s).secure = j.secure := by
    unfold Job.secure
    rw [takenJob_ring devFenceDef j s ha]
  refine devFence_fenced j s .worldFence _ hi ha hn hnc ?_ fun f hw hj ho => ?_
  · rw [devFence_run, hu]
    rfl
  · unfold settleOne
    rw [hw]
    dsimp only
    rw [worldBusy_withFlight, startState_worldBusy, hj, ho, hsec]

/-- What a fence leads to, as one case distinction. -/
theorem Fenced.outcome {j' : Job} {s t : State} {r : RingId} {w : Hold} {busy : Bool} (h : Fenced j' s r w busy t) :
    { t with mbx := s.mbx, intc := s.intc, pcu := s.pcu } = s ∧
      if busy then (∃ f ∈ t.mbx.flights, f.job = j' ∧ f.hold = w) ∧ t.mbx.mem = s.mbx.mem
      else t.mbx.flights = s.mbx.flights ∧ (t.ring r.val).ctail = (s.ring r.val).ctail + 1 ∧
        statusAt t r (s.ring r.val).ctail = 0 := by
  refine ⟨h.frame.restore, ?_⟩
  split
  next hb => exact h.waits hb
  next hb => exact h.ends (by simpa using hb)

/-- Settles O3: the scope decides what the fence looks at; the fence itself is none of the earlier jobs. -/
theorem fencesWait : Obligations.FencesWait := by
  refine ⟨fun j s hi ha hn hnc => ⟨_, rfl, ?_⟩, fun j s hi ha hn hnc => ⟨_, rfl, ?_⟩⟩
  · have hu := selector_accepted devFenceDef rfl j s 4 0 (by decide) (by decide) (by decide) ha
    have h := (devFence_ring (withByte 4 0 j) s hi ha hn hnc hu).outcome
    rwa [withByte_ring] at h
  · have hu := selector_accepted devFenceDef rfl j s 4 1 (by decide) (by decide) (by decide) ha
    have h := (devFence_world (withByte 4 1 j) s hi ha hn hnc hu).outcome
    rw [withByte_ring, show (withByte 4 1 j).secure = j.secure by unfold Job.secure; rw [withByte_ring]] at h
    exact h

end Sys2Proof.Machine

/-! ## The first failure of a job (O57) -/

namespace Sys2Proof.Machine

/-- A job that the engine takes goes to its checks with its parameter block (R54, R57). -/
theorem directJob_checked (d : JobDef) (j : Job) (s : State) (htk : takesJobs s j.ring = true)
    (hby : (!(withCode d.code j).dma || stagedBlocks s || decide ((withCode d.code j).paramLen ≤ (withCode d.code j).block.length)) = true) :
    (takenJob d j s).ring = j.ring ∧
      directJob d j s = settle (checkJob (some d) true (takenJob d j s) s.mbx.fetched (takenState j s)) := by
  obtain ⟨hload, hring, _⟩ := loadBlock_found (withCode d.code j) s hby
  have hj : (takenJob d j s).ring = j.ring := hring
  have ht : countFetch (takenJob d j s).ring s = takenState j s := by rw [hj]; rfl
  refine ⟨hj, ?_⟩
  unfold directJob takeUp
  rw [if_pos htk, hload]
  simp only [clocked_of_takesJobs s _ htk, Bool.not_true, Bool.false_eq_true, if_false]
  exact congrArg (fun u => settle (checkJob (some d) true (takenJob d j s) s.mbx.fetched u)) ht

/-- The status of the first failure of a job whose code has a row, in the order of R57. -/
theorem firstFailure_status (s : State) (d : JobDef) (j : Job) (row : CatRow) (hrow : catalogue j.code = some row) :
    (firstFailure s (some d) j).map Reply.status =
      if j.secure = false ∧ (row.secure = true ∨ s.sec.part.getLsbD row.target = true ∨ d.nsForbids s (paramsOf d j) = true) then
        some 0x10
      else if row.factory = true ∧ row.code ≠ 0x0208 ∧ s.fco.injectUnlocked = false then some 0x13
      else if row.code = 0x0208 ∧ s.srt.factoryPor = false then some 0x13
      else if s.present (subsystemOf row.target) = false ∨ d.absent s (paramsOf d j) = true then some 0x12
      else if (paramOffence s d j).isSome then some 0x11
      else (d.check s j (paramsOf d j)).map Reply.status := by
  unfold firstFailure
  rw [hrow]
  dsimp only
  simp only [Bool.and_eq_true, Bool.or_eq_true, Bool.not_eq_true', bne_iff_ne, beq_iff_eq, or_assoc, and_assoc,
    apply_ite (Option.map Reply.status)]
  cases paramOffence s d j <;> rfl

/-- What refusing a job leads to: its completion with a status, and nothing beside the services. -/
structure Refused (s : State) (r : RingId) (v : Nat) (t : State) : Prop where
  frame   : ServiceOnly s t
  flights : t.mbx.flights = s.mbx.flights
  ctail   : (t.ring r.val).ctail = (s.ring r.val).ctail + 1
  status  : (statusAt t r (s.ring r.val).ctail).toNat = v % 256

/-- Before its refusal a job has changed services alone, and neither flights, nor memory, nor completions. -/
structure Untouched (s e : State) : Prop where
  frame   : ServiceOnly s e
  flights : e.mbx.flights = s.mbx.flights
  mem     : e.mbx.mem = s.mbx.mem
  ctail   : ∀ q, (e.ring q).ctail = (s.ring q).ctail

theorem Untouched.trans {s e u : State} (h : Untouched s e) (g : Untouched e u) : Untouched s u :=
  ⟨h.frame.trans g.frame, g.flights.trans h.flights, g.mem.trans h.mem, fun q => (g.ctail q).trans (h.ctail q)⟩

theorem takenState_untouched (j : Job) (s : State) : Untouched s (takenState j s) :=
  ⟨takenState_service j s, by rw [takenState_mbx], by rw [takenState_mbx], fun q => by rw [takenState_ring]⟩

theorem chainStep_untouched (j : Job) (n : Nat) (b : Bool) (s : State) : Untouched s (chainStep j n b s) :=
  ⟨chainStep_service j n b s, rfl, rfl, fun q => (chainStep_completions j n b s q).1⟩

/-- DUP_TAG_SEEN and its interrupt source (R58). -/
theorem dupTag_untouched (r : RingId) (s : State) :
    Untouched s (raiseIrq 5 (s.setRing r.val fun g => { g with dupTagSeen := true })) := by
  refine ⟨.trans (setRing_service _ _ _) (raiseIrq_service _ _), by rw [raiseIrq_eq]; rfl, by rw [raiseIrq_eq]; rfl, fun q => ?_⟩
  have h : (raiseIrq 5 (s.setRing r.val fun g => { g with dupTagSeen := true })).ring q =
      (s.setRing r.val fun g => { g with dupTagSeen := true }).ring q := by rw [raiseIrq_eq]; rfl
  rw [h]
  by_cases hq : r.val = q
  · rw [← hq, State.ring_setRing _ _ _ r.isLt]
  · rw [State.ring_setRing_ne _ _ _ _ hq]

/-- A refused job completes with the status of its reply (R56, R57). -/
theorem refuse_refused (j : Job) (r : Reply) (f : DoneFlags) (s e : State) (he : Untouched s e) (hi : Inv s)
    (hc : s.clocked = true) (hl : s.cpx.list = none) (hp : posting s = true) (hn : j.noCompletion = false) :
    Refused s j.ring r.status (refuse j r f e) := by
  obtain ⟨hframe, hflights, hmem, hctail⟩ := he.trans (chainStep_untouched j f.order true e)
  generalize hu : chainStep j f.order true e = u at hframe hflights hmem hctail
  have hcu : u.clocked = true := by rw [hframe.clocked, hc]
  have hlu : u.cpx.list = none := by rw [hframe.cpx, hl]
  have hpu : posting u = true := by rw [hframe.posting, hp]
  have hwf : Memory.wf u.mbx.mem = true := by rw [hmem]; exact hi.mem
  have hanswer := (postCompletion_answer j r f u hcu hlu hpu (by simp [hn]) hwf).1
  have hstatus := postCompletion_status j r f u hcu hlu hpu (by simp [hn]) hwf
  rw [hctail] at hanswer hstatus
  unfold refuse
  rw [hu]
  refine ⟨hframe.trans (postCompletion_service j r f u hlu), ?_, hanswer, ?_⟩
  · rw [postCompletion_flights, hflights]
  · rw [hstatus, BitVec.toNat_ofNat]

theorem Refused.settled {s t : State} {r : RingId} {v : Nat} (h : Refused s r v t) (hn : noFences s = true) : settle t = t := by
  refine settle_noFences t ?_
  unfold noFences
  rw [h.flights]
  exact hn

/-- A job whose tag is in use is refused before every other check (R57, R58). -/
theorem checkJob_tagInUse (d : JobDef) (j j' : Job) (s : State) (n : Nat) (h : tagInUse s j' = true) :
    checkJob (some d) true j' n (takenState j s) = refuse j' rejState { dupTag := true, order := n }
      (raiseIrq 5 ((takenState j s).setRing j'.ring.val fun g => { g with dupTagSeen := true })) := by
  unfold checkJob
  rw [tagInUse_taken, if_pos h]

/-- A job whose tag is free, in no broken chain, is refused with the first failure of the rest (R57). -/
theorem checkJob_firstFailure (d : JobDef) (j j' : Job) (s : State) (n : Nat) (r : Reply) (h : tagInUse s j' = false)
    (hchain : (s.ring j'.ring.val).inChain = false ∨ (s.ring j'.ring.val).chainBroken = false)
    (hr : firstFailure (takenState j s) (some d) j' = some r) :
    checkJob (some d) true j' n (takenState j s) = refuse j' r { order := n } (takenState j s) := by
  have hb : ¬ (((s.ring j'.ring.val).inChain && (s.ring j'.ring.val).chainBroken) = true) := by
    rcases hchain with h | h <;> simp [h]
  have hf : fetchFailure (takenState j s) (some d) (!true && behind (takenState j s) j' n) j' = some r := by
    simp [fetchFailure, hr]
  unfold checkJob
  rw [tagInUse_taken, h, takenState_ring]
  dsimp only
  rw [if_neg (by decide), if_neg hb, hf]

theorem ServiceOnly.sec {s t : State} (h : ServiceOnly s t) : t.sec = s.sec := by rw [h]

theorem ServiceOnly.present {s t : State} (h : ServiceOnly s t) (b : Nat) : t.present b = s.present b := by
  rw [h]
  rfl

/-- Settles O57: the checks are made in the order of R57 on the job as it is taken up, and a refusal changes nothing but
the services and posts its status. -/
theorem firstFailureIsReported : Obligations.FirstFailureIsReported := by
  intro d j s j' p e hi htk hl hnf hp hby hchain hn failure v hv
  have hbytes : (!(withCode d.code j).dma || stagedBlocks s ||
      decide ((withCode d.code j).paramLen ≤ (withCode d.code j).block.length)) = true := by
    cases hd : (withCode d.code j).dma with
    | false => rfl
    | true => simpa using hby hd
  obtain ⟨hring, hjob⟩ := directJob_checked d j s htk hbytes
  have hc := clocked_of_takesJobs s _ htk
  have he := takenState_untouched j s
  have href : Refused s j.ring v (checkJob (some d) true j' s.mbx.fetched e) := by
    rw [← hring] at hchain ⊢
    cases htag : tagInUse s j' with
    | true =>
      have hfail : failure = some 0x12 := if_pos htag
      obtain rfl := Option.some.inj (hfail.symm.trans hv)
      rw [checkJob_tagInUse d j j' s _ htag]
      exact refuse_refused j' rejState _ s _ (he.trans (dupTag_untouched _ _)) hi hc hl hp hn
    | false =>
      have hfail : failure = (firstFailure e (some d) j').map Reply.status := by
        refine (if_neg (by simp [htag])).trans ?_
        cases hrow : catalogue j'.code with
        | none => simp [firstFailure, hrow, rejUnknown]
        | some row =>
          rw [firstFailure_status e d j' row hrow, he.frame.sec, he.frame.fco, he.frame.srt, he.frame.present]
          rfl
      obtain ⟨r, hr, rfl⟩ := Option.map_eq_some_iff.mp (hfail.symm.trans hv)
      rw [checkJob_firstFailure d j j' s _ r htag hchain hr]
      exact refuse_refused j' r _ s _ he hi hc hl hp hn
  have hdone : directJob d j s = checkJob (some d) true j' s.mbx.fetched e := hjob.trans (href.settled hnf)
  dsimp only
  rw [hdone]
  exact ⟨href.ctail, href.status, href.flights, href.frame.restore⟩

end Sys2Proof.Machine

/-! ## The invariant (O59) -/

namespace Sys2Proof.Machine

/-- The last reset that is asserted ends: boot begins, and the mailboxes stay as they are (R395, R403). -/
theorem endReset_last (b : Nat) (straps : Straps) (s : State) (h : s.srt.held.getLsbD b = true)
    (h0 : s.srt.held &&& ~~~BitVec.ofNat 3 (2 ^ b) = 0) :
    (endReset b straps s).cpx.phase = .starting ∧ (endReset b straps s).mbx = s.mbx := by
  unfold endReset
  rw [h]
  exact ⟨if_pos h0, rfl⟩

/-- An engine whose FW_READY stands while a CHIP reset is still asserted, with the end of that reset in the queue. No run
leads to it, but `Inv` does not speak of the resets that are asserted. -/
def readyInReset : State :=
  { cpx := { phase := .ready }, mbx := { fwReady := true }, srt := { held := 4 }, pending := [.chipResetEnd] }

theorem readyInReset_inv : Inv readyInReset where
  mem := rfl
  mask := by decide
  pin := by decide
  part := by decide
  region := by decide
  restarting := rfl
  ready := fun _ => ⟨rfl, rfl⟩
  order := fun _ hf => absurd hf List.not_mem_nil
  streams := List.nodup_nil

/-- Refutes O59: where `Inv` holds, a CHIP reset may be asserted though FW_READY stands; its end (R395) takes the boot back
to the start of the system PLL, and FW_READY stays, so that the clause `ready` fails. -/
theorem not_everyStepKeepsTheInvariant : ¬ Obligations.EveryStepKeepsTheInvariant := by
  unfold Obligations.EveryStepKeepsTheInvariant
  intro h
  have hinv := h readyInReset _ readyInReset_inv rfl
  obtain ⟨hphase, hmbx⟩ := endReset_last 2 readyInReset.srt.straps { readyInReset with pending := [] } (by decide) (by decide)
  have hready := (hinv.ready (congrArg Mbx.fwReady hmbx)).1
  exact absurd (hphase.symm.trans hready) (by decide)

end Sys2Proof.Machine

/-! ## Time-domain jobs and the restart of the firmware (O8, O9, O10, O11, O55) -/

namespace Sys2Proof.Machine

/-! ### Effects on a domain -/

theorem vmod_congr {α : Type} {n : Nat} (v : Vector α n) (i : Nat) (f g : α → α) (d : α) (h : f (vget v i d) = g (vget v i d)) :
    vmod v i f = vmod v i g := by
  unfold vmod
  split
  next hi => rw [vget, dif_pos hi] at h; rw [h]
  · rfl

theorem setDom_congr (s : State) (d : Nat) (f g : Domain → Domain) (h : f (s.domain d) = g (s.domain d)) :
    s.setDom d f = s.setDom d g := by
  unfold State.setDom
  rw [vmod_congr s.tcr.dom d f g {} h]

theorem QuietEffect.comp {f g : State → State} (hg : QuietEffect g) (hf : QuietEffect f) : QuietEffect fun s => g (f s) where
  map s m i q := by rw [hf.map, hg.map]
  list s := (hg.list _).trans (hf.list s)
  phase s := (hg.phase _).trans (hf.phase s)
  post s := (hg.post _).trans (hf.post s)
  spi s := (hg.spi _).trans (hf.spi s)

/-- A change of one domain, which may look at anything but the services, leaves them. -/
theorem quietEffect_setDom (d : Nat) (f : State → Domain → Domain)
    (hf : ∀ (s : State) m i q, f { s with mbx := m, intc := i, pcu := q } = f s) : QuietEffect fun s => s.setDom d (f s) where
  map s m i q := by rw [hf]; rfl
  list _ := rfl
  phase _ := rfl
  post _ := rfl
  spi _ := rfl

/-- Events that an effect counts are services. -/
theorem RunsTo.count {u x e : State} (h : RunsTo u x e) (ev inst n : Nat) : RunsTo u (pcuCount ev inst n x) e where
  list := by rw [(pcuCount_service ev inst n x).cpx, h.list]
  clock := by rw [(pcuCount_service ev inst n x).clocked, h.clock]
  post := by rw [(pcuCount_service ev inst n x).posting, h.post]
  acts := h.acts.trans (pcuCount_service ev inst n x)
  same := h.same.trans (pcuCount_same ev inst n x)

/-- The domain index of an accepted job. -/
theorem accepted_index (d : JobDef) (j : Job) (s : State) (hi : Nat) (h : accepted d j s = true)
    (hb : ∀ r, d.dma = some r → r.inBlock = true) (hf : fRange 4 1 0 hi ∈ d.fields) : (jobParams d j s).u 4 1 ≤ hi :=
  (accepted_range d j s h hb 4 1 0 hi hf).2

/-! ### TD_CONFIG -/

/-- The adoption that a domain waits for has lost its ground (R90). -/
def adoptionDrops (s : State) (d : Nat) : Bool :=
  match (s.domain d).pending with
  | some (.adopt r) => !(decide ((s.domain d).timeSource = some r) && givesTod s r.val)
  | _ => false

theorem dropAdopt_eq (d : Nat) (s : State) :
    dropAdopt d s = s.setDom d fun x => if adoptionDrops s d then { x with pending := none } else x := by
  have hid : s.setDom d (fun x => x) = s := by
    unfold State.setDom vmod
    by_cases h : d < 4 <;> simp [h]
  unfold dropAdopt adoptionDrops
  dsimp only
  generalize (s.domain d).pending = w
  cases w with
  | none => exact hid.symm
  | some w =>
    cases w with
    | adopt r =>
      dsimp only
      by_cases hr : (decide ((s.domain d).timeSource = some r) && givesTod s r.val) = true
      · simp only [hr, if_true, Bool.not_true, Bool.false_eq_true, if_false, hid]
      · simp only [hr, Bool.not_false, Bool.false_eq_true, if_false, if_true]
    | _ => exact hid.symm

theorem dropAdopt_timeSource (d : Nat) (s : State) : ((dropAdopt d s).domain d).timeSource = (s.domain d).timeSource := by
  rw [dropAdopt_eq]
  by_cases h : d < 4
  · rw [State.domain_setDom _ _ _ h]
    split <;> rfl
  · rw [State.setDom, vmod_of_le _ _ _ (by omega)]

/-- A domain without a TIME_SOURCE takes no time of day. -/
theorem followTod_unbound (d : Nat) (s : State) (h : (s.domain d).timeSource = none) : followTod d s = dropAdopt d s := by
  have h' := (dropAdopt_timeSource d s).trans h
  have htry : tryAdopt d (dropAdopt d s) = dropAdopt d s := by
    unfold tryAdopt
    dsimp only
    rw [h']
  unfold followTod
  rw [htry, checkTod]
  dsimp only
  rw [h']

/-- The configuration that TD_CONFIG gives a domain (R89). -/
def domainConfigured (p : Params) (x : Domain) : Domain :=
  { x with dpll := p.opt 5 8, timeSource := p.opt 6 32, divergePeer := p.opt 7 4, confirmS := p.u 8 4
           slewMaxPpb := p.u 12 4, warnPs := p.u 16 6, limitPs := p.u 22 6, supplyChargePs := p.u 28 4
           divergeNs := p.u 32 4 }

theorem tdConfig_run (e : State) (j : Job) (p : Params) (hd : p.u 4 1 < 4) :
    tdConfigDef.run e j p = done (followTod (p.u 4 1)
      (if p.opt 5 8 = (e.domain (p.u 4 1)).dpll then e.setDom (p.u 4 1) (domainConfigured p)
       else rebind e (p.u 4 1) (e.setDom (p.u 4 1) (domainConfigured p)))) := by
  have h : ((e.setDom (p.u 4 1) (domainConfigured p)).domain (p.u 4 1)).dpll = p.opt 5 8 := by
    rw [State.domain_setDom _ _ _ hd]
    rfl
  rw [← h]
  rfl

theorem tdConfig_index (j : Job) (s : State) (ha : accepted tdConfigDef j s = true) : (jobParams tdConfigDef j s).u 4 1 < 4 :=
  Nat.lt_succ_of_le (accepted_index _ j s 3 ha (fun _ h => nomatch h) (by simp [tdConfigDef]))

theorem tdConfig_acts :
    Acts .tdConfig tdConfigDef same (fun p s => p.u 6 1 = 0xFF ∧ (s.domain (p.u 4 1)).dpll = p.opt 5 8)
      (fun p s => dropAdopt (p.u 4 1) (s.setDom (p.u 4 1) fun x =>
        { x with timeSource := none, divergePeer := p.opt 7 4, confirmS := p.u 8 4, slewMaxPpb := p.u 12 4
                 warnPs := p.u 16 6, limitPs := p.u 22 6, supplyChargePs := p.u 28 4, divergeNs := p.u 32 4 })) := by
  have hdrop : ∀ d, QuietEffect (dropAdopt d) := fun d => by
    rw [show dropAdopt d = fun s => s.setDom d (fun x => if adoptionDrops s d then { x with pending := none } else x) from
      funext (dropAdopt_eq d)]
    exact quietEffect_setDom d _ fun _ _ _ _ => rfl
  refine acts_of_quiet _ _ _ _ _ (fun _ _ => rfl) (fun _ => rfl)
    (fun p => (hdrop _).comp (quietEffect_setDom _ _ fun _ _ _ _ => rfl)) fun j s ha hh e he => ?_
  obtain ⟨hsrc, hdpll⟩ := hh
  have hd := tdConfig_index _ s ha
  generalize jobParams tdConfigDef (same j) s = p at hsrc hdpll hd ⊢
  have hdom : e.domain (p.u 4 1) = s.domain (p.u 4 1) := effect_read (fun t => t.domain (p.u 4 1)) _ _ s e he fun _ _ _ _ _ => rfl
  have hnone : p.opt 6 32 = none := dif_neg (by omega)
  refine ⟨{}, ?_, by decide, rfl⟩
  rw [tdConfig_run e _ p hd, if_pos (by rw [hdom, hdpll]), followTod_unbound _ _ (by
    rw [State.domain_setDom _ _ _ hd]
    exact hnone)]
  refine congrArg (fun x => done (dropAdopt (p.u 4 1) x)) (setDom_congr e _ _ _ ?_)
  rw [domainConfigured, hnone, ← hdpll, ← hdom]

/-! ### TD_SET_TIME, TD_SLEW -/

/-- A step becomes pending on a domain; a return step that was pending waits (R92, R96). -/
def pendStep (step : PendingStep) (x : Domain) : Domain :=
  { x with pending := some step
           returnWaits := x.returnWaits || (match x.pending with
             | some (.return _) => true
             | _ => false) }

/-- TD_SET_TIME in one mode, whose step is `step`. -/
theorem tdSetTime_waits (c : Job → Instr) (mode : Nat) (step : Params → PendingStep) (hm : mode < 256)
    (hc : ∀ j s, exec (c j) s = .next (directJob tdSetTimeDef (withByte 5 mode j) s))
    (hstep : ∀ p : Params, p.u 5 1 = mode →
      (if p.u 5 1 = 0 then .absolute (p.u 16 8) (p.u 24 6) else .relative (p.i 8 8) (p.u 24 6)) = step p) :
    Waits c tdSetTimeDef (withByte 5 mode) always (fun p s => s.setDom (p.u 4 1) (pendStep (step p)))
      (fun p _ => .timeStep (Fin.ofNat 4 (p.u 4 1))) := by
  refine waits_of_quiet _ _ _ _ _ _ hc (fun _ _ => by simp) (fun p => quietEffect_setDom _ _ fun _ _ _ _ => rfl)
    fun j s ha _ e _ => ?_
  rw [← hstep _ (selector_accepted tdSetTimeDef rfl j s 5 mode (by decide) (by decide) hm ha)]
  rfl

/-- A domain with a slew of an offset at a rate, or none (R93). -/
def slewedBy (ppb : Nat) (offset : Int) (x : Domain) : Domain :=
  { x with slew := if offset = 0 then none else some { ppb := ppb, remaining := offset } }

/-- Starting a slew changes its domain; one that has something to absorb is counted. -/
theorem startSlew_cases (d ppb : Nat) (offset : Int) (s : State) :
    startSlew d ppb offset s = refreshMoving d (s.setDom d (slewedBy ppb offset)) ∨
      startSlew d ppb offset s = pcuCount 0x1002 d 1 (refreshMoving d (s.setDom d (slewedBy ppb offset))) := by
  unfold startSlew
  dsimp only
  by_cases h : offset = 0
  · exact .inl (if_pos h)
  · exact .inr (if_neg h)

/-- The rate of a TD_SLEW (R93). -/
def slewRate (p : Params) (s : State) : Nat := if p.u 8 4 = 0 then (s.domain (p.u 4 1)).slewMaxPpb else p.u 8 4

/-- |remainder| of a domain's record follows at once (R94). -/
theorem quietEffect_refreshMoving (d : Nat) : QuietEffect (refreshMoving d) :=
  quietEffect_setDom d (fun s x => { x with ledger := { x.ledger with moving := movingL s d } }) fun _ _ _ _ => rfl

theorem tdSlew_answers : Answers .tdSlew tdSlewDef same always
    (fun p s => refreshMoving (p.u 4 1) (s.setDom (p.u 4 1) (slewedBy (slewRate p s) (p.i 16 8 * ivlU))))
    (fun _ p s =>
      [(intervalWords (slewRemainder s (p.u 4 1))).1, (intervalWords (slewRemainder s (p.u 4 1))).2,
       word (durationImp (p.i 16 8 * ivlU) (slewRate p s)), 0]) := by
  refine answers_of_run _ _ _ _ _ _ (fun _ _ => rfl) (fun _ => rfl) fun j s ha _ e he => ?_
  generalize hp : jobParams tdSlewDef (same j) s = p
  have hquiet : QuietEffect fun t => refreshMoving (p.u 4 1) (t.setDom (p.u 4 1) (slewedBy (slewRate p t) (p.i 16 8 * ivlU))) :=
    (quietEffect_refreshMoving _).comp
      (quietEffect_setDom _ (fun t => slewedBy (slewRate p t) (p.i 16 8 * ivlU)) fun _ _ _ _ => rfl)
  have hx := hquiet.runs _ _ s ha e he
  have hdom : e.domain (p.u 4 1) = s.domain (p.u 4 1) := effect_read (fun t => t.domain (p.u 4 1)) _ _ s e he fun _ _ _ _ _ => rfl
  refine ⟨_, _, rfl, ?_, rfl, ?_, .inl rfl⟩
  · rcases startSlew_cases (p.u 4 1) (slewRate p e) (p.i 16 8 * ivlU) e with h | h
    · exact h ▸ hx
    · exact h ▸ hx.count _ _ _
  · simp only [slewRemainder, slewRate, hdom]

/-! ### TD_SET_UTC_INFO, TD_SET_RETURN_POLICY -/

theorem tdSetUtcInfo_acts : Acts .tdSetUtcInfo tdSetUtcInfoDef same always
    (fun p s => s.setDom (p.u 4 1) fun x =>
      { x with utcSource := p.opt 5 32, utcOffset := p.i 6 2, leapSecond := p.u 16 8
               leap := (match p.u 8 1 with
                 | 1 => .insert
                 | 2 => .delete
                 | _ => .none) }) := by
  refine acts_of_quiet _ _ _ _ _ (fun _ _ => rfl) (fun _ => rfl) (fun p => quietEffect_setDom _ _ fun _ _ _ _ => rfl)
    fun j s _ _ e _ => ⟨{}, ?_, by decide, rfl⟩
  generalize jobParams tdSetUtcInfoDef (same j) s = p
  have hleap : (if p.u 8 1 = 1 then Leap.insert else if p.u 8 1 = 2 then .delete else .none) =
      (match p.u 8 1 with
        | 1 => .insert
        | 2 => .delete
        | _ => .none) := by
    split
    next h => simp [h]
    next h1 =>
      split
      next h => simp [h]
      next h2 => split <;> simp_all
  simp only [tdSetUtcInfoDef, hleap]
  rfl

theorem tdSetReturnPolicy_acts : Acts .tdSetReturnPolicy tdSetReturnPolicyDef same always
    (fun p s => s.setDom (p.u 4 1) fun x =>
      { x with stepAllowed := p.u 5 1 == 1, stepThresholdNs := p.u 8 4, returnSlewPpb := p.u 12 4 }) :=
  acts_of_quiet _ _ _ _ _ (fun _ _ => rfl) (fun _ => rfl) (fun p => quietEffect_setDom _ _ fun _ _ _ _ => rfl)
    fun _ _ _ _ _ _ => ⟨{}, rfl, by decide, rfl⟩

/-- Settles O8: each job changes its domain alone; a slew is counted beside, and its answer reads the slew before. -/
theorem timeDomainJobsAct : Obligations.TimeDomainJobsAct :=
  ⟨tdConfig_acts,
    tdSetTime_waits _ 0 (fun p => .absolute (p.u 16 8) (p.u 24 6)) (by decide) (fun _ _ => rfl) fun _ h => if_pos h,
    tdSetTime_waits _ 1 (fun p => .relative (p.i 8 8) (p.u 24 6)) (by decide) (fun _ _ => rfl) fun _ h => if_neg (by omega),
    tdSlew_answers, tdSetUtcInfo_acts, tdSetReturnPolicy_acts⟩

end Sys2Proof.Machine

namespace Sys2Proof.Machine

/-! ### What TD_CONFIG leaves (O9) -/

/-- A change that touches at most the slew, the pending step and the ledger of one domain, the pool of references and the
services. -/
structure LocalTo (d : Nat) (s t : State) : Prop where
  others : ∀ i, d ≠ i → t.domain i = s.domain i
  config : t.domain d = { s.domain d with slew := (t.domain d).slew, pending := (t.domain d).pending
                                          returnWaits := (t.domain d).returnWaits, ledger := (t.domain d).ledger }
  frame  : { t with mbx := s.mbx, intc := s.intc, pcu := s.pcu, tcr := s.tcr, rim := s.rim } = s

section
variable {d : Nat} {s t u : State}

theorem LocalTo.refl (d : Nat) (s : State) : LocalTo d s s := ⟨fun _ _ => rfl, rfl, rfl⟩

theorem LocalTo.trans (h : LocalTo d s t) (g : LocalTo d t u) : LocalTo d s u where
  others i hi := (g.others i hi).trans (h.others i hi)
  config := by rw [g.config, h.config]
  frame := by rw [← h.frame, ← g.frame]

theorem LocalTo.cpx (h : LocalTo d s t) : t.cpx = s.cpx := by rw [← h.frame]

theorem ServiceOnly.localTo (d : Nat) (h : ServiceOnly s t) : LocalTo d s t := by
  rw [h]
  exact ⟨fun _ _ => rfl, rfl, rfl⟩

theorem localTo_setDom (d : Nat) (f : Domain → Domain) (s : State) (hf : ∀ x, f x =
    { x with slew := (f x).slew, pending := (f x).pending, returnWaits := (f x).returnWaits, ledger := (f x).ledger }) :
    LocalTo d s (s.setDom d f) where
  others i hi := State.domain_setDom_ne _ _ _ _ hi
  config := by
    by_cases h : d < 4
    · rw [State.domain_setDom _ _ _ h]
      exact hf _
    · rw [State.setDom, vmod_of_le _ _ _ (by omega)]
  frame := rfl

theorem localTo_setHistory (d r n : Nat) (s : State) : LocalTo d s (setHistory r n s) := by
  have hset : ∀ f, LocalTo d s (s.setRef r f) := fun _ => ⟨fun _ _ => rfl, rfl, rfl⟩
  have hcount : ∀ f, LocalTo d s (pcuCount (0x1010 + n) r 1 (s.setRef r f)) := fun f =>
    (hset f).trans ((pcuCount_service _ _ _ _).localTo d)
  unfold setHistory
  dsimp only
  split
  · exact (hcount _).trans ((raiseIrq_service _ _).localTo d)
  · exact hcount _

theorem localTo_startSlew (d ppb : Nat) (offset : Int) (s : State) : LocalTo d s (startSlew d ppb offset s) := by
  have h : LocalTo d s (refreshMoving d (s.setDom d (slewedBy ppb offset))) :=
    (localTo_setDom d _ s fun _ => rfl).trans (localTo_setDom d _ _ fun _ => rfl)
  rcases startSlew_cases d ppb offset s with hs | hs <;> rw [hs]
  · exact h
  · exact h.trans ((pcuCount_service _ _ _ _).localTo d)

theorem localTo_returnPolicy (d : Nat) (o : Int) (s : State) : LocalTo d s (returnPolicy d o s) := by
  unfold returnPolicy
  dsimp only
  split
  · exact localTo_setDom d _ s fun _ => rfl
  · exact localTo_setDom d _ s fun _ => rfl
  · split
    · exact localTo_setDom d _ s fun _ => rfl
    · exact (localTo_setDom d _ s fun _ => rfl).trans (localTo_startSlew d _ _ _)

theorem localTo_dropAdopt (d : Nat) (s : State) : LocalTo d s (dropAdopt d s) := by
  rw [dropAdopt_eq]
  exact localTo_setDom d _ s fun x => by split <;> rfl

theorem localTo_tryAdopt (d : Nat) (s : State) : LocalTo d s (tryAdopt d s) := by
  unfold tryAdopt
  dsimp only
  split
  · exact .refl d s
  · split
    · exact localTo_setDom d _ s fun _ => rfl
    · exact .refl d s

theorem localTo_checkTod (d : Nat) (s : State) : LocalTo d s (checkTod d s) := by
  unfold checkTod
  dsimp only
  split
  · exact .refl d s
  split
  · exact .refl d s
  split
  · exact .refl d s
  split
  · exact localTo_setHistory d _ _ s
  · exact (localTo_setHistory d _ _ s).trans (localTo_returnPolicy d _ _)

theorem localTo_followTod (d : Nat) (s : State) : LocalTo d s (followTod d s) :=
  ((localTo_dropAdopt d s).trans (localTo_tryAdopt d _)).trans (localTo_checkTod d _)

theorem localTo_rebind (old : State) (d : Nat) (s : State) : LocalTo d s (rebind old d s) := by
  have hlost : LocalTo d s (s.setDom d ledgerFreerun) := localTo_setDom d _ s fun _ => rfl
  have hledger : ∀ f t, LocalTo d t (t.setLedger d f) := fun f t => localTo_setDom d _ t fun _ => rfl
  have halone : ∀ (b : Bool) f, LocalTo d s (if b then (s.setDom d ledgerFreerun).setLedger d f else s) := fun b f => by
    split
    · exact hlost.trans (hledger f _)
    · exact .refl d s
  unfold rebind
  dsimp only
  split
  · exact halone _ _
  split
  · exact hledger _ s
  split
  · exact localTo_setDom d _ s fun _ => rfl
  · exact halone _ _

end

/-- An accepted job that answers, on any state it may be run from: the state after is the effect's, beside the services. -/
theorem directJob_answered (d : JobDef) (j : Job) (s : State) (h : accepted d j s = true)
    (hrun : ∀ e, ServiceOnly (effectState d j s) e → ∃ x r, d.run e (takenJob d j s) (jobParams d j s) = (x, .reply r) ∧
      succeeded r = true ∧ x.cpx.list = none) :
    ∃ e, ServiceOnly (effectState d j s) e ∧
      ServiceOnly (d.run e (takenJob d j s) (jobParams d j s)).1 (directJob d j s) := by
  obtain ⟨e, he, hs, -⟩ := start_frame d j s h
  obtain ⟨x, r, hr, hok, hl⟩ := hrun e hs
  refine ⟨e, hs, ?_⟩
  rw [directJob_accepted d j s h, he, hr]
  dsimp only
  rw [if_pos hok]
  have hp := postCompletion_service (takenJob d j s) r (takenFlight d j s).flags x hl
  exact hp.trans (settle_service _ (by rw [hp.cpx]; exact hl))

/-- TD_CONFIG configures no unit that a proof could test (R367). -/
theorem effectState_tdConfig (j : Job) (s : State) : effectState tdConfigDef j s = s := by
  have hbit : proofBit s (takenJob tdConfigDef j s).code ((jobParams tdConfigDef j s).u 4 1) = none := by
    rw [takenJob_code]
    rfl
  unfold effectState
  rw [hbit]
  rfl

/-- Once the settings stand, the rest of TD_CONFIG is local to its domain. -/
theorem tdConfig_local (e : State) (j : Job) (p : Params) (hd : p.u 4 1 < 4) :
    ∃ x, tdConfigDef.run e j p = done x ∧ LocalTo (p.u 4 1) (e.setDom (p.u 4 1) (domainConfigured p)) x := by
  refine ⟨_, tdConfig_run e j p hd, ?_⟩
  split
  · exact localTo_followTod _ _
  · exact (localTo_rebind _ _ _).trans (localTo_followTod _ _)

/-- Settles O9: beside the settings, TD_CONFIG changes only what is local to its domain. -/
theorem domainConfigIsLocal : Obligations.DomainConfigIsLocal := by
  intro j s (ha : accepted tdConfigDef j s = true) _
  have hd := tdConfig_index j s ha
  obtain ⟨e, he, hjob⟩ := directJob_answered tdConfigDef j s ha fun e he => by
    obtain ⟨x, hx, hloc⟩ := tdConfig_local e (takenJob tdConfigDef j s) (jobParams tdConfigDef j s) hd
    exact ⟨x, {}, hx, by decide, by rw [hloc.cpx]; exact effectState_list tdConfigDef j s ha e he⟩
  obtain ⟨x, hx, hloc⟩ := tdConfig_local e (takenJob tdConfigDef j s) (jobParams tdConfigDef j s) hd
  rw [effectState_tdConfig] at he
  rw [hx] at hjob
  have hall := hloc.trans (hjob.localTo _)
  have hdom : ∀ i, e.domain i = s.domain i := fun i => by
    unfold State.domain
    rw [he.tcr]
  refine ⟨directJob tdConfigDef j s, rfl, fun i (hi : i.val ≠ (jobParams tdConfigDef j s).u 4 1) => ?_,
    fun i (hi : i.val = (jobParams tdConfigDef j s).u 4 1) => ?_, ?_⟩
  · rw [hall.others _ hi.symm, State.domain_setDom_ne _ _ _ _ hi.symm, hdom]
  · rw [hi, hall.config, State.domain_setDom _ _ _ hd, hdom]
    exact ⟨rfl, rfl, rfl, rfl, rfl, rfl, rfl, rfl, rfl, rfl, rfl⟩
  · have hframe := hall.frame
    rw [he] at hframe
    exact congrArg (fun t : State => { t with mbx := s.mbx, intc := s.intc, pcu := s.pcu, tcr := s.tcr }) hframe

end Sys2Proof.Machine

namespace Sys2Proof.Machine

/-! ### TD_HANDOVER (O10) -/

/-- The state of a handover to a domain: the role, the remainder and the realignment of the grid (R101). -/
def handedOver (p : Params) (s : State) : State :=
  startRealign (gridLine s) { s with tcr := { s.tcr with
    active := Fin.ofNat 4 (p.u 4 1)
    remainder := viewCount s 4 - (s.domain (p.u 4 1)).count
    slewPpb := p.u 8 4
    involved := (List.finRange 4).filter fun x =>
      s.tcr.involved.contains x || x == s.tcr.active || x == Fin.ofNat 4 (p.u 4 1) } }

theorem quietEffect_handedOver (p : Params) : QuietEffect (handedOver p) where
  map _ _ _ _ := rfl
  list _ := rfl
  phase _ := rfl
  post _ := rfl
  spi _ := rfl

/-- The commit counts the handover beside. -/
theorem commitHandover_eq (p : Params) (e : State) (hd : p.u 4 1 < 4) :
    commitHandover (p.fin 4 4) (p.u 8 4) e = pcuCount 0x1000 (p.fin 4 4).val 1 (handedOver p e) := by
  have hfin : (p.fin 4 4).val = p.u 4 1 := Nat.mod_eq_of_lt hd
  unfold commitHandover handedOver handoverOffset
  dsimp only
  rw [hfin, neg_sub]
  rfl

theorem tdHandover_run (e : State) (j : Job) (p : Params) : tdHandoverDef.run e j p =
    if p.u 4 1 = e.tcr.active.val then done e else
      reply { status := if viewHoldover e (p.u 4 1) then 0x01 else 0x00
              r0 := (intervalWords (handoverOffset e (p.u 4 1))).1, r1 := (intervalWords (handoverOffset e (p.u 4 1))).2
              r2 := word (durationImp (handoverOffset e (p.u 4 1)) (p.u 8 4))
              r3 := if viewHoldover e (p.u 4 1) then 1 else 0 } (commitHandover (p.fin 4 4) (p.u 8 4) e) := rfl

theorem tdHandover_same_acts :
    Acts .tdHandover tdHandoverDef same (fun p s => p.u 4 1 = s.tcr.active.val) unchanged := by
  refine acts_of_quiet _ _ _ _ _ (fun _ _ => rfl) (fun _ => rfl) (fun _ => .id) fun j s _ hh e he => ⟨{}, ?_, by decide, rfl⟩
  have htcr : e.tcr = s.tcr := effect_read (fun t => t.tcr) _ _ s e he fun _ _ _ _ _ => rfl
  rw [tdHandover_run, if_pos (by rw [htcr]; exact hh)]
  rfl

theorem tdHandover_answers :
    Answers .tdHandover tdHandoverDef same (fun p s => p.u 4 1 ≠ s.tcr.active.val) handedOver
      (fun _ p s =>
        let d : Int := (s.domain (p.u 4 1)).count - viewCount s 4
        [(intervalWords d).1, (intervalWords d).2, word (durationImp d (p.u 8 4)), if viewHoldover s (p.u 4 1) then 1 else 0]) := by
  refine answers_of_run _ _ _ _ _ _ (fun _ _ => rfl) (fun _ => rfl) fun j s ha hh e he => ?_
  have hd : (jobParams tdHandoverDef (same j) s).u 4 1 < 4 :=
    Nat.lt_succ_of_le (accepted_index _ _ s 3 ha (fun _ h => nomatch h) (by simp [tdHandoverDef]))
  have hx := (quietEffect_handedOver (jobParams tdHandoverDef (same j) s)).runs _ _ s ha e he
  generalize jobParams tdHandoverDef (same j) s = p at hd hh hx ⊢
  have hread : (e.tcr, viewHoldover e (p.u 4 1), handoverOffset e (p.u 4 1)) =
      (s.tcr, viewHoldover s (p.u 4 1), handoverOffset s (p.u 4 1)) :=
    effect_read (fun t => (t.tcr, viewHoldover t (p.u 4 1), handoverOffset t (p.u 4 1))) _ _ s e he fun _ _ _ _ _ => rfl
  obtain ⟨htcr, hview, hoff⟩ : e.tcr = s.tcr ∧ viewHoldover e (p.u 4 1) = viewHoldover s (p.u 4 1) ∧
      handoverOffset e (p.u 4 1) = handoverOffset s (p.u 4 1) := by simpa using hread
  refine ⟨_, _, (tdHandover_run _ _ _).trans (if_neg (by rw [htcr]; exact hh)), ?_, ?_, ?_, .inl rfl⟩
  · rw [commitHandover_eq p e hd]
    exact hx.count _ _ _
  · cases viewHoldover e (p.u 4 1) <;> rfl
  · rw [hview, hoff]
    rfl

/-- Settles O10: to the active domain the state stays, to another the commit moves the role and counts beside. -/
theorem handoverCommits : Obligations.HandoverCommits := ⟨tdHandover_same_acts, tdHandover_answers⟩

/-! ### TD_READ_LEDGER and the ENS jobs (O11) -/

theorem length_ledgerRecord (s : State) (v : Nat) : (ledgerRecord s v).length = 64 := by
  simp [ledgerRecord, leBytes]

theorem tdReadLedger_answers : Answers .tdReadLedger tdReadLedgerDef same always unchanged (fun _ p s =>
    let v := p.u 4 1
    let g := (s.domain (recordDomain s v)).ledger
    [word (viewBound s v % 2 ^ 32), word (viewBound s v / 2 ^ 32 + chainCode g * 65536),
     if v < 4 then wordI g.growthFs else (intervalWords s.tcr.remainder).1,
     if v < 4 then g.sinceConfirm else (intervalWords s.tcr.remainder).2]) := by
  refine answers_of_quiet _ _ _ _ _ _ (fun _ _ => rfl) (fun _ => rfl) (fun _ => .id) fun j s ha _ e he =>
    ⟨_, rfl, rfl, ?_, .inr fun hdma => ?_⟩
  · exact effect_read (fun t =>
      let v := (jobParams tdReadLedgerDef (same j) s).u 4 1
      let g := (t.domain (recordDomain t v)).ledger
      [word (viewBound t v % 2 ^ 32), word (viewBound t v / 2 ^ 32 + chainCode g * 65536),
        if v < 4 then wordI g.growthFs else (intervalWords t.tcr.remainder).1,
        if v < 4 then g.sinceConfirm else (intervalWords t.tcr.remainder).2]) _ _ s e he fun _ _ _ _ _ => rfl
  · exact (length_ledgerRecord e _).le.trans (accepted_result tdReadLedgerDef _ s ha hdma)

/-- The source of a member by its code, as the layout of R105 reads it. -/
theorem sourceOf_opt (p : Params) : sourceOf (p.u 5 1) = (if p.u 5 1 = 0xFE then .localOscillator else
    match p.opt 5 31 with
    | some r => .ref (r.castLE (by omega))
    | none => .unassigned) := by
  unfold sourceOf Params.opt
  split
  · rfl
  · split <;> rfl

theorem ensConfigMember_waits : Waits .ensConfigMember ensConfigMemberDef same always
    (fun p s => s.setMember (p.u 4 1) fun y => { y with next := some {
      source := (if p.u 5 1 = 0xFE then .localOscillator else match p.opt 5 31 with
        | some r => .ref (r.castLE (by omega))
        | none => .unassigned)
      enable := p.u 6 1 == 1, drift := p.u 7 1 == 1, wpmPs := p.u 8 4, wfm := p.u 12 4, rwfm := p.u 16 4, cap := p.u 20 1 } })
    (fun _ _ => .cycle) := by
  refine waits_of_quiet _ _ _ _ _ _ (fun _ _ => rfl) (fun _ _ => by simp)
    (fun p => ⟨fun _ _ _ _ => rfl, fun _ => rfl, fun _ => rfl, fun _ => rfl, fun _ => rfl⟩) fun j s _ _ e _ => ?_
  simp only [ensConfigMemberDef, sourceOf_opt]

/-- The words of ENS_READ_STATE (R110). -/
def ensembleWords (s : State) : List Word :=
  let weight := fun m => weightByte (vget s.ehu.member m {}).weight
  [word (maskOf 8 (fun m => decide (0 < (vget s.ehu.member m {}).weight)) +
      maskOf 8 (fun m => match (vget s.ehu.member m {}).dew with
        | .zero _ => true
        | _ => false) * 2 ^ 8 + min 65535 s.ehu.lag * 2 ^ 16),
   word (weight 0 + weight 1 * 2 ^ 8 + weight 2 * 2 ^ 16 + weight 3 * 2 ^ 24),
   word (weight 4 + weight 5 * 2 ^ 8 + weight 6 * 2 ^ 16 + weight 7 * 2 ^ 24), wordI s.ehu.freq]

theorem ensReadState_answers : Answers .ensReadState ensReadStateDef same always unchanged (fun _ _ s => ensembleWords s) :=
  answers_of_quiet _ _ _ _ _ _ (fun _ _ => rfl) (fun _ => rfl) (fun _ => .id) fun _ s _ _ e he =>
    ⟨_, rfl, rfl, effect_read ensembleWords _ _ s e he fun _ _ _ _ _ => rfl, .inl rfl⟩

theorem ensSetPolicy_waits : Waits .ensSetPolicy ensSetPolicyDef same always
    (fun p s => { s with ehu := { s.ehu with nextPolicy := some {
      outlierK := p.u 4 1, minMembers := p.u 5 1, deweightS := p.u 8 4, reinstateS := p.u 12 4, steerTcS := p.u 16 4 } } })
    (fun _ _ => .cycle) :=
  waits_of_quiet _ _ _ _ _ _ (fun _ _ => rfl) (fun _ _ => by simp)
    (fun _ => ⟨fun _ _ _ _ => rfl, fun _ => rfl, fun _ => rfl, fun _ => rfl, fun _ => rfl⟩) fun _ _ _ _ _ _ => rfl

/-- Settles O11: the two reads leave the state, the two settings change the ensemble's next ones alone. -/
theorem ledgerReadAndEnsembleJobsAct : Obligations.LedgerReadAndEnsembleJobsAct :=
  ⟨tdReadLedger_answers, ensConfigMember_waits, ensReadState_answers, ensSetPolicy_waits⟩

end Sys2Proof.Machine

namespace Sys2Proof.Machine

/-! ### The end of a WARM restart (O55) -/

/-- The image in SRAM goes on where it matches its boot hash and no reload was asked for (R407). -/
theorem restartImage_kept (w : Warm) (s : State) (hw : w.reload = false)
    (hs : s.cpx.bootHash = some (Config.sha384 s.cpx.image)) : restartImage w s = some s := by
  unfold restartImage
  rw [hw, hs, beq_self_eq_true]
  rfl

/-- A WARM restart of a running image. -/
def plainWarm : Warm := { byJob := false, reload := false, since := 0 }

/-- An engine at the end of a WARM restart: lane 0 in UP whose RECOVER waits for it, with source 228, the
watchdog's, as the fault to report then. No run leads to it, since a lane waits with sources 128 to 131 only, but the
statement does not say so. -/
def watchdogLane : State :=
  { cpx := { phase := .ready, warm := some plainWarm, bootHash := some (Config.sha384 []) }
    nlu := { lane := Vector.ofFn fun l => if l.val = 0 then { st := .up, recoverDue := some 228 } else {} } }

/-- The lane loses UP once firmware runs again (R242), and its fault is of level 4: the end of the restart resets the chip. -/
theorem watchdogLane_ends (t : State) (h : exec .warmRestartEnd watchdogLane = .next t) : t.cpx.phase = .inReset := by
  have hkept := restartImage_kept plainWarm watchdogLane rfl rfl
  unfold exec execWarmRestartEnd at h
  rw [show watchdogLane.cpx.warm = some plainWarm from rfl] at h
  dsimp only at h
  rw [hkept] at h
  rw [← Host.Outcome.next.inj h]
  decide +kernel

/-- Refutes O55: a WARM restart that ends need not keep the phase, as its clause for an image that goes on says. A lane
that waits to enter RECOVER may bring source 228, whose level 4 resets the chip at the end of the restart. -/
theorem not_bootAndFlashEventsAct : ¬ Obligations.BootAndFlashEventsAct := by
  unfold Obligations.BootAndFlashEventsAct
  rintro ⟨-, -, -, -, -, -, -, -, -, hwarm, -⟩
  obtain ⟨hend, -, -⟩ := hwarm plainWarm
  obtain ⟨t, ht, -, -, -, -, -, -, hphase, -⟩ := hend watchdogLane ⟨rfl, rfl, rfl, rfl⟩
  have hready : t.cpx.phase = .ready := hphase
  rw [watchdogLane_ends t ht] at hready
  exact absurd hready (by decide)

end Sys2Proof.Machine

/-! ## Reference and DPLL jobs and events (O12, O13, O14, O15, O16, O41, O42) -/

namespace Sys2Proof.Machine

/-! ### Entries, DPLLs and holdover records -/

theorem vget_fin {α : Type} {n : Nat} (v : Vector α n) (i : Fin n) (d : α) : vget v i.val d = v[i] := dif_pos i.isLt

theorem State.refEntry_fin (s : State) (r : Fin 32) : s.refEntry r.val = s.rim.ref[r] := vget_fin _ _ _
theorem State.dpllOf_fin (s : State) (k : Fin 8) : s.dpllOf k.val = s.dsb.dpll[k] := vget_fin _ _ _

theorem setRef_congr (s : State) (r : Nat) (f g : RefEntry → RefEntry) (h : f (s.refEntry r) = g (s.refEntry r)) :
    s.setRef r f = s.setRef r g := by
  unfold State.setRef
  rw [vmod_congr s.rim.ref r f g {} h]

theorem setDpll_congr (s : State) (k : Nat) (f g : Dpll → Dpll) (h : f (s.dpllOf k) = g (s.dpllOf k)) :
    s.setDpll k f = s.setDpll k g := by
  unfold State.setDpll
  rw [vmod_congr s.dsb.dpll k f g {} h]

theorem setHold_congr (s : State) (k : Nat) (f g : Hold1 → Hold1) (h : f (s.holdOf k) = g (s.holdOf k)) :
    s.setHold k f = s.setHold k g := by
  unfold State.setHold
  rw [vmod_congr s.ehu.hold k f g {} h]

theorem vmod_vmod {α : Type} {n : Nat} (v : Vector α n) (i : Nat) (f g : α → α) :
    vmod (vmod v i f) i g = vmod v i fun x => g (f x) := by
  unfold vmod
  split <;> simp

theorem setRef_setRef (s : State) (r : Nat) (f g : RefEntry → RefEntry) :
    (s.setRef r f).setRef r g = s.setRef r fun e => g (f e) := by
  unfold State.setRef
  rw [vmod_vmod]

theorem setDpll_setDpll (s : State) (k : Nat) (f g : Dpll → Dpll) :
    (s.setDpll k f).setDpll k g = s.setDpll k fun x => g (f x) := by
  unfold State.setDpll
  rw [vmod_vmod]

/-! ### Effects on one part -/

theorem quietEffect_setRef (r : Nat) (f : State → RefEntry → RefEntry)
    (hf : ∀ (s : State) m i q, f { s with mbx := m, intc := i, pcu := q } = f s) : QuietEffect fun s => s.setRef r (f s) where
  map s m i q := by rw [hf]; rfl
  list _ := rfl
  phase _ := rfl
  post _ := rfl
  spi _ := rfl

theorem quietEffect_setDpll (k : Nat) (f : State → Dpll → Dpll)
    (hf : ∀ (s : State) m i q, f { s with mbx := m, intc := i, pcu := q } = f s) : QuietEffect fun s => s.setDpll k (f s) where
  map s m i q := by rw [hf]; rfl
  list _ := rfl
  phase _ := rfl
  post _ := rfl
  spi _ := rfl

theorem quietEffect_setHold (k : Nat) (f : State → Hold1 → Hold1)
    (hf : ∀ (s : State) m i q, f { s with mbx := m, intc := i, pcu := q } = f s) : QuietEffect fun s => s.setHold k (f s) where
  map s m i q := by rw [hf]; rfl
  list _ := rfl
  phase _ := rfl
  post _ := rfl
  spi _ := rfl

/-- A list of quiet effects, done one after the other. -/
theorem quietEffect_foldl {α : Type} (l : List α) (f : α → State → State) (h : ∀ a, QuietEffect (f a)) :
    QuietEffect fun s => l.foldl (fun t a => f a t) s := by
  induction l with
  | nil => exact .id
  | cons a l ih => exact ih.comp (h a)

theorem quietEffect_forAll (n : Nat) (f : Nat → State → State) (h : ∀ i, QuietEffect (f i)) :
    QuietEffect fun s => forAll n s f := quietEffect_foldl _ f h

/-- A quiet effect with a parameter that the services do not decide, after another one. -/
theorem QuietEffect.param {α : Type} {g : State → State} (hg : QuietEffect g) (a : State → α) (f : α → State → State)
    (hf : ∀ a, QuietEffect (f a)) (ha : ∀ (s : State) m i q, a { s with mbx := m, intc := i, pcu := q } = a s) :
    QuietEffect fun s => f (a s) (g s) where
  map s m i q := by rw [ha, hg.map, (hf _).map]
  list s := ((hf _).list _).trans (hg.list s)
  phase s := ((hf _).phase _).trans (hg.phase s)
  post s := ((hf _).post _).trans (hg.post s)
  spi s := ((hf _).spi _).trans (hg.spi s)

theorem quietEffect_onDomains (k : Nat) (f : Domain → Domain) : QuietEffect (onDomains k f) :=
  QuietEffect.id.param (fun s => domainsOf s k) (fun l s => l.foldl (fun t d => t.setDom d f) s)
    (fun l => quietEffect_foldl l _ fun d => quietEffect_setDom d (fun _ => f) fun _ _ _ _ => rfl) fun _ _ _ _ => rfl

/-- `t` differs from `s` in interrupts and counters that events have raised. -/
structure Serves (s t : State) : Prop where
  only : ServiceOnly s t
  same : ServiceSame s t

section
variable {s t u : State}

theorem Serves.refl (s : State) : Serves s s := ⟨.refl s, .refl s⟩

theorem Serves.trans (h : Serves s t) (g : Serves t u) : Serves s u := ⟨h.only.trans g.only, h.same.trans g.same⟩

theorem Serves.ite {c : Prop} [Decidable c] (h : Serves s t) (g : Serves s u) : Serves s (if c then t else u) := by
  split <;> assumption

theorem Serves.frame (h : Serves s t) : t = { s with intc := t.intc, pcu := t.pcu } := by
  rw [← h.same.mbx]
  exact h.only

end

theorem raiseIrq_serves (n : Nat) (s : State) : Serves s (raiseIrq n s) := ⟨raiseIrq_service n s, raiseIrq_same n s⟩

theorem pcuCount_serves (ev inst n : Nat) (s : State) : Serves s (pcuCount ev inst n s) :=
  ⟨pcuCount_service ev inst n s, pcuCount_same ev inst n s⟩

theorem RunsTo.serves {u x y e : State} (h : RunsTo u x e) (hs : Serves x y) : RunsTo u y e where
  list := by rw [hs.only.cpx, h.list]
  clock := by rw [hs.only.clocked, h.clock]
  post := by rw [hs.only.posting, h.post]
  acts := h.acts.trans hs.only
  same := h.same.trans hs.same

theorem RunsTo.quiet {u x e : State} (h : RunsTo u x e) (f : State → State) (hf : QuietEffect f) : RunsTo (f u) (f x) e where
  list := by rw [hf.list, h.list]
  clock := by rw [hf.clocked, h.clock]
  post := by rw [hf.post, h.post]
  acts := serviceOnly_map f hf.map h.acts
  same := h.same.trans (hf.same x)

theorem ServiceSame.symm {s t : State} (h : ServiceSame s t) : ServiceSame t s :=
  have ⟨hmask, hpin, hmap⟩ := h.intc
  have ⟨hlatch, hctr⟩ := h.pcu
  ⟨h.mbx.symm, h.straps.symm, ⟨hmask.symm, hpin.symm, hmap.symm⟩, hlatch.symm, fun n =>
    have ⟨hev, hinst, huser⟩ := hctr n
    ⟨hev.symm, hinst.symm, huser.symm⟩⟩

theorem Serves.quiet {s t : State} (h : Serves s t) (f : State → State) (hf : QuietEffect f) : Serves (f s) (f t) where
  only := serviceOnly_map f hf.map h.only
  same := (hf.same s).symm.trans (h.same.trans (hf.same t))

theorem Serves.setDpll {s t : State} (h : Serves s t) (k : Nat) (f : Dpll → Dpll) : Serves (s.setDpll k f) (t.setDpll k f) :=
  h.quiet _ (quietEffect_setDpll k (fun _ => f) fun _ _ _ _ => rfl)

/-- A row whose effect is `u`, beside interrupts and counters: its condition may read anything but the services and the proof
in progress. -/
theorem acts_of_serves (c : Job → Instr) (d : JobDef) (sel : Job → Job) (h : Params → State → Prop) (u : Params → State → State)
    (hc : ∀ j s, exec (c j) s = .next (directJob d (sel j) s)) (hring : ∀ j, (sel j).ring = j.ring)
    (hq : ∀ p, QuietEffect (u p))
    (hh : ∀ p (s : State) m i q v, h p { s with mbx := m, intc := i, pcu := q, cpx := { s.cpx with proof := v } } = h p s)
    (hrun : ∀ j s, accepted d (sel j) s = true → ∀ e, h (jobParams d (sel j) s) e →
      ∃ x, d.run e (takenJob d (sel j) s) (jobParams d (sel j) s) = done x ∧ Serves (u (jobParams d (sel j) s) e) x) :
    Acts c d sel h u := by
  refine acts_of_run c d sel h u hc hring fun j s ha hs e he => ?_
  have hhe := effect_read (h (jobParams d (sel j) s)) d (sel j) s e he (hh _)
  obtain ⟨x, hx, hux⟩ := hrun j s ha e (hhe.mpr hs)
  exact ⟨x, {}, hx, ((hq _).runs d (sel j) s ha e he).serves hux, by decide, rfl⟩

/-! ### History bits -/

/-- An entry with a history bit set (R128). -/
def withHistory (n : Nat) (e : RefEntry) : RefEntry :=
  { e with history := e.history ||| BitVec.ofNat 16 (2 ^ n), histNow := e.histNow ||| BitVec.ofNat 16 (2 ^ n) }

/-- A history bit that is set changes its entry alone. -/
theorem setHistory_serves (r n : Nat) (s : State) : Serves (s.setRef r (withHistory n)) (setHistory r n s) :=
  have h := pcuCount_serves (0x1010 + n) r 1 (s.setRef r (withHistory n))
  .ite (h.trans (raiseIrq_serves _ _)) h

/-- What a move of a DPLL makes of it (R131, R149). -/
def movedDpll (st : DpllState) (x : Dpll) : Dpll :=
  { x with st := st, steer := if x.st != st && (x.st == .freerun || x.st == .holdover) then 0 else x.steer }

/-- A move of a DPLL changes the DPLL alone. -/
theorem moveDpll_serves (k : Nat) (st : DpllState) (s : State) : Serves (s.setDpll k (movedDpll st)) (moveDpll k st s) := by
  rw [setDpll_congr s k (movedDpll st) (fun x =>
    { x with st := st, steer := if (s.dpllOf k).st != st && ((s.dpllOf k).st == .freerun || (s.dpllOf k).st == .holdover) then 0
                                else x.steer }) rfl]
  exact .ite (raiseIrq_serves _ _) (.refl _)

/-! ### Selection jobs (O14) -/

theorem unlessSwitching_acts (k : Nat) (s : State) (act : State → State × Fate) (h : inSwitch (s.dpllOf k) = false) :
    unlessSwitching k s act = act s := if_neg (by simp [h])

theorem unlessSwitching_waits (k : Nat) (s : State) (act : State → State × Fate) (h : inSwitch (s.dpllOf k) = true) :
    unlessSwitching k s act = (s, .hold (.release (Fin.ofNat 8 k))) := if_pos h

/-- A job for a DPLL that a switch has frozen waits for the release boundary (R142). -/
theorem waits_of_frozen (c : Job → Instr) (d : JobDef) (sel : Job → Job) (act : Params → State → State × Fate)
    (hc : ∀ j s, exec (c j) s = .next (directJob d (sel j) s))
    (hrun : ∀ e j p, d.run e j p = unlessSwitching (p.u 4 1) e (act p)) :
    Waits c d sel (fun p s => inSwitch (s.dpllOf (p.u 4 1)) = true) unchanged (fun p _ => .release (Fin.ofNat 8 (p.u 4 1))) :=
  waits_of_quiet _ _ _ _ _ _ hc (fun _ _ => by simp) (fun _ => .id) fun j s _ hh e he => by
    have hdpll := effect_read (fun t => t.dpllOf ((jobParams d (sel j) s).u 4 1)) d _ s e he fun _ _ _ _ _ => rfl
    rw [hrun, unlessSwitching_waits _ _ _ ((congrArg inSwitch hdpll).trans hh)]
    rfl

/-- What REF_SET_PRIORITY makes of its DPLL (R136). -/
def prioritised (p : Params) (l : List (Fin 32)) (x : Dpll) : Dpll :=
  { x with cands := l, revertive := p.u 6 1 == 1, wtrS := p.u 8 4, driftHoldoffS := p.u 12 4, tookOver := false
           restored := (x.restored.filter fun c => l.contains c), sw := none, takeoverFor := none }

/-- The candidates of R136, in order. -/
def namedCands (p : Params) : List (Fin 32) := (List.range (min 8 (p.u 5 1))).filterMap fun i => p.opt (16 + i) 32

theorem refSetPriority_run (e : State) (j : Job) (p : Params) : refSetPriorityDef.run e j p =
    unlessSwitching (p.u 4 1) e fun s => done (s.setDpll (p.u 4 1) (prioritised p (namedCands p))) := by
  have h : ((listedCands p).filterMap fun c => if h : c < 32 then some (⟨c, h⟩ : Fin 32) else none) = namedCands p :=
    List.filterMap_map
  rw [← h]
  rfl

theorem refSetPriority_acts : Acts .refSetPriority refSetPriorityDef same (fun p s => inSwitch (s.dpllOf (p.u 4 1)) = false)
    (fun p s => s.setDpll (p.u 4 1) (prioritised p (namedCands p))) :=
  acts_of_serves _ _ _ _ _ (fun _ _ => rfl) (fun _ => rfl) (fun _ => quietEffect_setDpll _ _ fun _ _ _ _ => rfl)
    (fun _ _ _ _ _ _ => rfl) fun _ _ _ e h => ⟨_, (refSetPriority_run e _ _).trans (unlessSwitching_acts _ _ _ h), .refl _⟩

/-- A force, or its end, drops a switch that has not frozen, and the selection is no takeover (R139). -/
def forcedTo (r : Option (Fin 32)) (x : Dpll) : Dpll := { x with forced := r, tookOver := false, sw := none }

/-- A force is noted in the history of its entry, and the DPLL changes as `f` says. -/
def forceEffect (r k : Nat) (f : State → Dpll → Dpll) (s : State) : State := (s.setRef r (withHistory 12)).setDpll k (f s)

theorem quietEffect_forceEffect (r k : Nat) (f : State → Dpll → Dpll)
    (hf : ∀ (s : State) m i q, f { s with mbx := m, intc := i, pcu := q } = f s) : QuietEffect (forceEffect r k f) where
  map s m i q := by
    unfold forceEffect
    rw [hf]
    rfl
  list _ := rfl
  phase _ := rfl
  post _ := rfl
  spi _ := rfl

/-- REF_FORCE_SELECT as it acts on a DPLL that no switch has frozen. -/
def forceSelect (p : Params) (s : State) : State × Fate :=
  match p.opt 5 32 with
  | none => done (s.setDpll (p.u 4 1) (forcedTo none))
  | some r =>
    let s := (setHistory r.val 12 s).setDpll (p.u 4 1) (forcedTo (some r))
    done (if (s.dpllOf (p.u 4 1)).selected = some r then s else decideSwitch (p.u 4 1) r false s)

theorem refForceSelect_run (e : State) (j : Job) (p : Params) :
    refForceSelectDef.run e j p = unlessSwitching (p.u 4 1) e (forceSelect p) := rfl

theorem refForceSelect_index (j : Job) (s : State) (ha : accepted refForceSelectDef j s = true) :
    (jobParams refForceSelectDef j s).u 4 1 < 8 :=
  Nat.lt_succ_of_le (accepted_index _ j s 7 ha (fun _ h => nomatch h) (by simp [refForceSelectDef]))

theorem setHistory_dpll (r n k : Nat) (s : State) : (setHistory r n s).dpllOf k = s.dpllOf k := by
  rw [(setHistory_serves r n s).frame]
  rfl

theorem setHistory_impressions (r n : Nat) (s : State) : (setHistory r n s).cpx = s.cpx := (setHistory_serves r n s).only.cpx

theorem forceSelect_some (p : Params) (s : State) (hk : p.u 4 1 < 8) (hr : p.u 5 1 < 32) :
    forceSelect p s = done (if (s.dpllOf (p.u 4 1)).selected = some (Fin.ofNat 32 (p.u 5 1))
      then (setHistory (p.u 5 1) 12 s).setDpll (p.u 4 1) (forcedTo (some (Fin.ofNat 32 (p.u 5 1))))
      else decideSwitch (p.u 4 1) (Fin.ofNat 32 (p.u 5 1)) false
        ((setHistory (p.u 5 1) 12 s).setDpll (p.u 4 1) (forcedTo (some (Fin.ofNat 32 (p.u 5 1)))))) := by
  have hopt : p.opt 5 32 = some (Fin.ofNat 32 (p.u 5 1)) := (dif_pos hr).trans (congrArg some (Fin.ext (Nat.mod_eq_of_lt hr).symm))
  have hval : (Fin.ofNat 32 (p.u 5 1)).val = p.u 5 1 := Nat.mod_eq_of_lt hr
  unfold forceSelect
  rw [hopt]
  dsimp only
  rw [hval, State.dpllOf_setDpll _ _ _ hk, setHistory_dpll]
  rfl

/-- A switch to an entry is decided now (R140 step 1). -/
def decidedFor (r : Fin 32) (s : State) (x : Dpll) : Dpll :=
  { x with sw := some { target := r, decidedAt := s.cpx.impressions, takeover := false
                        fromLost := x.st == .freerun || x.st == .holdover } }

theorem refForceSelect_selected_acts : Acts .refForceSelect refForceSelectDef same
    (fun p s => inSwitch (s.dpllOf (p.u 4 1)) = false ∧ p.u 5 1 < 32 ∧ (s.dpllOf (p.u 4 1)).selected = some (Fin.ofNat 32 (p.u 5 1)))
    (fun p => forceEffect (p.u 5 1) (p.u 4 1) fun _ => forcedTo (some (Fin.ofNat 32 (p.u 5 1)))) := by
  refine acts_of_serves _ _ _ _ _ (fun _ _ => rfl) (fun _ => rfl) (fun _ => quietEffect_forceEffect _ _ _ fun _ _ _ _ => rfl)
    (fun _ _ _ _ _ _ => rfl) fun j s ha e ⟨hfree, hr, hsel⟩ => ?_
  rw [refForceSelect_run, unlessSwitching_acts _ _ _ hfree, forceSelect_some _ _ (refForceSelect_index _ s ha) hr, if_pos hsel]
  exact ⟨_, rfl, (setHistory_serves _ _ e).setDpll _ _⟩

theorem refForceSelect_other_acts : Acts .refForceSelect refForceSelectDef same
    (fun p s => inSwitch (s.dpllOf (p.u 4 1)) = false ∧ p.u 5 1 < 32 ∧ (s.dpllOf (p.u 4 1)).selected ≠ some (Fin.ofNat 32 (p.u 5 1)))
    (fun p => forceEffect (p.u 5 1) (p.u 4 1) fun s x =>
      decidedFor (Fin.ofNat 32 (p.u 5 1)) s (forcedTo (some (Fin.ofNat 32 (p.u 5 1))) x)) := by
  refine acts_of_serves _ _ _ _ _ (fun _ _ => rfl) (fun _ => rfl) (fun _ => quietEffect_forceEffect _ _ _ fun _ _ _ _ => rfl)
    (fun _ _ _ _ _ _ => rfl) fun j s ha e ⟨hfree, hr, hsel⟩ => ?_
  rw [refForceSelect_run, unlessSwitching_acts _ _ _ hfree, forceSelect_some _ _ (refForceSelect_index _ s ha) hr, if_neg hsel,
    decideSwitch, setDpll_setDpll, State.setDpll_cpx, setHistory_impressions]
  exact ⟨_, rfl, (setHistory_serves _ _ e).setDpll _ _⟩

theorem refForceRelease_acts : Acts .refForceRelease refForceSelectDef (withByte 5 0xFF)
    (fun p s => inSwitch (s.dpllOf (p.u 4 1)) = false) (fun p s => s.setDpll (p.u 4 1) (forcedTo none)) := by
  refine acts_of_serves _ _ _ _ _ (fun _ _ => rfl) (withByte_ring _ _) (fun _ => quietEffect_setDpll _ _ fun _ _ _ _ => rfl)
    (fun _ _ _ _ _ _ => rfl) fun j s ha e hfree => ?_
  have hsel := selector_accepted refForceSelectDef rfl j s 5 0xFF (by decide) (by decide) (by decide) ha
  have hopt : (jobParams refForceSelectDef (withByte 5 0xFF j) s).opt 5 32 = none := dif_neg (by omega)
  rw [refForceSelect_run, unlessSwitching_acts _ _ _ hfree, forceSelect, hopt]
  exact ⟨_, rfl, .refl _⟩

theorem dpllPhaseStep_acts : Acts .dpllPhaseStep dpllPhaseStepDef same (fun p s => inSwitch (s.dpllOf (p.u 4 1)) = false)
    (fun p s => s.setDpll (p.u 4 1) fun x =>
      { x with buildOut := x.buildOut + p.i 8 8, moving := x.moving + p.i 8 8 * ivlU, stepMoving := true }) :=
  acts_of_serves _ _ _ _ _ (fun _ _ => rfl) (fun _ => rfl) (fun _ => quietEffect_setDpll _ _ fun _ _ _ _ => rfl)
    (fun _ _ _ _ _ _ => rfl) fun _ _ _ e h => ⟨_, unlessSwitching_acts _ e (fun s => done (s.setDpll _ _)) h, .refl _⟩

/-- Settles O14: each job acts on its DPLL, a force beside on the history of its entry, and waits where a switch has frozen
the DPLL. -/
theorem selectionJobsAct : Obligations.SelectionJobsAct :=
  ⟨refSetPriority_acts, waits_of_frozen _ _ _ _ (fun _ _ => rfl) refSetPriority_run,
    refForceSelect_selected_acts, refForceSelect_other_acts, refForceRelease_acts,
    waits_of_frozen _ _ _ _ (fun _ _ => rfl) refForceSelect_run, waits_of_frozen _ _ _ _ (fun _ _ => rfl) refForceSelect_run,
    dpllPhaseStep_acts, waits_of_frozen _ _ _ _ (fun _ _ => rfl) fun _ _ _ => rfl⟩

/-! ### DPLL jobs (O15) -/

theorem dpllConfig_acts : Acts .dpllConfig dpllConfigDef same always (fun p s => s.setDpll (p.u 4 1) fun x =>
    { x with pbo := p.u 5 1 == 1, fastAcq := p.u 6 1 == 1, bw := p.u 8 4, damping := p.u 12 2, acqBw := p.u 16 4
             lockNs := p.u 20 4, lockS := p.u 24 4, phaseSlope := p.u 28 4, pullIn := p.u 32 4
             curBw := if x.st == .locked || p.u 6 1 == 0 then p.u 8 4 else max (p.u 8 4) (min x.curBw (p.u 16 4)) }) :=
  acts_of_quiet _ _ _ _ _ (fun _ _ => rfl) (fun _ => rfl) (fun _ => quietEffect_setDpll _ _ fun _ _ _ _ => rfl)
    fun _ _ _ _ _ _ => ⟨{}, rfl, by decide, rfl⟩

theorem dpllSteerPpt_acts : Acts .dpllSteerPpt dpllSteerPptDef same always (fun p s => s.setDpll (p.u 4 1) fun x =>
    { x with steer := if p.u 5 1 = 1 then x.steer + p.i 8 8 else p.i 8 8 }) :=
  acts_of_quiet _ _ _ _ _ (fun _ _ => rfl) (fun _ => rfl) (fun _ => quietEffect_setDpll _ _ fun _ _ _ _ => rfl)
    fun _ _ _ _ _ _ => ⟨{}, rfl, by decide, rfl⟩

/-- A DPLL that takes up the holdover frequency `f` (R143); `last` is the entry it followed last. -/
def heldOn (last : Option (Fin 32)) (f : Int) (x : Dpll) : Dpll :=
  { x with selected := none, lastSelected := last, sw := none, inUse := some f, control := f }

/-- The entry that a DPLL follows or has followed last. -/
def lastFollowed (x : Dpll) : Option (Fin 32) := if x.selected.isSome then x.selected else x.lastSelected

/-- A DPLL as it enters HOLDOVER with the loss instant `l` (R143). -/
def heldDpll (l : Nat) (f : Int) (x : Dpll) : Dpll :=
  heldOn (lastFollowed x) f (movedDpll .holdover { x with lostAt := l })

/-- Seconds since a loss in impression `l` (R114, R146). -/
def sinceLoss (l : Nat) (s : State) : ℚ := ((s.cpx.impressions - l : Nat) : ℚ) / 8000

/-- The holdover value in use. -/
def usingValue (v : HoldValue) (h : Hold1) : Hold1 := { h with used := some v }

/-- The growth of R114 reads the settings of the holdover, the calibration and the sensors. -/
theorem holdGrowth_entered (s : State) (k : Nat) (v : HoldValue) (t : ℚ) (f : Dpll → Dpll) (hk : k < 8) :
    holdGrowth (((s.setDpll k f).setHold k (usingValue v))) k v t = holdGrowth s k v t := by
  unfold holdGrowth holdTemp
  rw [State.holdOf_setHold _ _ _ hk]
  rfl

theorem enterLostAt_value (l k : Nat) (followed : Bool) (s : State) (v : HoldValue) (hv : (s.holdOf k).value = some v) :
    enterLostAt l k followed s =
      (let lost := s.setDpll k fun x => { x with lostAt := l }
       let t := lostFor lost (lost.dpllOf k)
       let held := ((moveDpll k .holdover lost).setDpll k (heldOn (lastFollowed (s.dpllOf k)) (holdFreq lost k v t))).setHold k (usingValue v)
       let y := onDomains k (ledgerHoldover (holdGrowth held k v t)) held
       if (s.dpllOf k).st == .holdover then y else pcuCount 0x1021 k 1 y) := by
  have hv' : ((s.setDpll k fun x => { x with lostAt := l }).holdOf k).value = some v := hv
  unfold enterLostAt
  dsimp only
  rw [hv']
  rfl

/-- A loss on a precomputed value is an entry to HOLDOVER (R116, R143). -/
theorem enterLostAt_serves (l k : Nat) (followed : Bool) (s : State) (v : HoldValue) (hk : k < 8) (hv : (s.holdOf k).value = some v) :
    Serves (onDomains k (ledgerHoldover (holdGrowth s k v (sinceLoss l s)))
      ((s.setDpll k (heldDpll l (holdFreq s k v (sinceLoss l s)))).setHold k (usingValue v))) (enterLostAt l k followed s) := by
  rw [enterLostAt_value l k followed s v hv]
  extract_lets lost t held y
  have ht : t = sinceLoss l s := by
    unfold t lost lostFor
    rw [State.dpllOf_setDpll _ _ _ hk]
    rfl
  have hmove := (moveDpll_serves k .holdover lost).setDpll k (heldOn (lastFollowed (s.dpllOf k)) (holdFreq lost k v t))
  have hgrowth : holdGrowth held k v t = holdGrowth s k v (sinceLoss l s) := by
    unfold held
    rw [holdGrowth_entered _ _ _ _ _ hk, (moveDpll_serves k .holdover lost).frame, ht]
    rfl
  have hdpll : ((lost.setDpll k (movedDpll .holdover)).setDpll k (heldOn (lastFollowed (s.dpllOf k)) (holdFreq lost k v t))) =
      s.setDpll k (heldDpll l (holdFreq s k v (sinceLoss l s))) := by
    unfold lost
    rw [setDpll_setDpll, setDpll_setDpll, ht]
    exact setDpll_congr s k _ _ rfl
  rw [hdpll] at hmove
  have hheld := (hmove.quiet _ (quietEffect_setHold k (fun _ => usingValue v) fun _ _ _ _ => rfl)).quiet _
    (quietEffect_onDomains k (ledgerHoldover (holdGrowth held k v t)))
  rw [← hgrowth]
  exact .ite hheld (hheld.trans (pcuCount_serves _ _ _ _))

/-- Forced to HOLDOVER. -/
def holdoverMode (x : Dpll) : Dpll := { x with mode := .holdover }

/-- The modes of R132 on a DPLL that no switch has frozen. -/
theorem dpllSetMode_automatic (e : State) (j : Job) (p : Params) (hm : p.u 5 1 = 0) (h : inSwitch (e.dpllOf (p.u 4 1)) = false) :
    dpllSetModeDef.run e j p = done (e.setDpll (p.u 4 1) fun x => { x with mode := .automatic }) := by
  simp only [dpllSetModeDef, unlessSwitching_acts _ _ _ h, hm]

theorem dpllSetMode_holdover (e : State) (j : Job) (p : Params) (hm : p.u 5 1 = 2) (h : inSwitch (e.dpllOf (p.u 4 1)) = false) :
    dpllSetModeDef.run e j p = done (enterLost (p.u 4 1) true (e.setDpll (p.u 4 1) holdoverMode)) := by
  simp only [dpllSetModeDef, unlessSwitching_acts _ _ _ h, hm]
  rfl

/-- Forced to FREERUN, a DPLL in FREERUN only drops a switch. -/
def freerunMode (x : Dpll) : Dpll := { x with mode := .freerun, sw := none }

/-- What a forced FREERUN leaves of the selection and the loop (R132, R430); `l` is the loss instant. -/
def releasedDpll (l : Nat) (x : Dpll) : Dpll :=
  { x with selected := none, lastSelected := lastFollowed x, inUse := none, control := 0, lostAt := l }

theorem dpllSetMode_freerun (e : State) (j : Job) (p : Params) (hm : p.u 5 1 = 1) (h : inSwitch (e.dpllOf (p.u 4 1)) = false) :
    dpllSetModeDef.run e j p =
      (let s := e.setDpll (p.u 4 1) freerunMode
       if (e.dpllOf (p.u 4 1)).st == .freerun then done s else
       let s := moveDpll (p.u 4 1) .freerun s
       done (onDomains (p.u 4 1) ledgerFreerun (s.setDpll (p.u 4 1) (releasedDpll s.cpx.impressions)))) := by
  simp only [dpllSetModeDef, unlessSwitching_acts _ _ _ h, hm]
  rfl

theorem dpllSetMode_index (j : Job) (s : State) (ha : accepted dpllSetModeDef j s = true) :
    (jobParams dpllSetModeDef j s).u 4 1 < 8 :=
  Nat.lt_succ_of_le (accepted_index _ j s 7 ha (fun _ h => nomatch h) (by simp [dpllSetModeDef]))

theorem dpllSetMode_mode (v : Nat) (hv : v < 256) (j : Job) (s : State) (ha : accepted dpllSetModeDef (withByte 5 v j) s = true) :
    (jobParams dpllSetModeDef (withByte 5 v j) s).u 5 1 = v :=
  selector_accepted dpllSetModeDef rfl j s 5 v (by decide) (by decide) hv ha

theorem dpllSetModeAutomatic_acts : Acts .dpllSetModeAutomatic dpllSetModeDef (withByte 5 0)
    (fun p s => inSwitch (s.dpllOf (p.u 4 1)) = false) (fun p s => s.setDpll (p.u 4 1) fun x => { x with mode := .automatic }) :=
  acts_of_serves _ _ _ _ _ (fun _ _ => rfl) (withByte_ring _ _) (fun _ => quietEffect_setDpll _ _ fun _ _ _ _ => rfl)
    (fun _ _ _ _ _ _ => rfl) fun j s ha e hfree =>
      ⟨_, dpllSetMode_automatic e _ _ (dpllSetMode_mode 0 (by decide) j s ha) hfree, .refl _⟩

theorem dpllSetModeFreerun_same_acts : Acts .dpllSetModeFreerun dpllSetModeDef (withByte 5 1)
    (fun p s => inSwitch (s.dpllOf (p.u 4 1)) = false ∧ (s.dpllOf (p.u 4 1)).st = .freerun)
    (fun p s => s.setDpll (p.u 4 1) freerunMode) := by
  refine acts_of_serves _ _ _ _ _ (fun _ _ => rfl) (withByte_ring _ _) (fun _ => quietEffect_setDpll _ _ fun _ _ _ _ => rfl)
    (fun _ _ _ _ _ _ => rfl) fun j s ha e ⟨hfree, hst⟩ => ?_
  rw [dpllSetMode_freerun e _ _ (dpllSetMode_mode 1 (by decide) j s ha) hfree, hst]
  exact ⟨_, rfl, .refl _⟩

theorem dpllSetModeFreerun_acts : Acts .dpllSetModeFreerun dpllSetModeDef (withByte 5 1)
    (fun p s => inSwitch (s.dpllOf (p.u 4 1)) = false ∧ (s.dpllOf (p.u 4 1)).st ≠ .freerun)
    (fun p s => onDomains (p.u 4 1) ledgerFreerun (s.setDpll (p.u 4 1) fun x =>
      { x with mode := .freerun, st := .freerun, steer := if x.st = .holdover then 0 else x.steer, selected := none
               lastSelected := if x.selected.isSome then x.selected else x.lastSelected
               sw := none, inUse := none, control := 0, lostAt := s.cpx.impressions })) := by
  refine acts_of_serves _ _ _ _ _ (fun _ _ => rfl) (withByte_ring _ _)
    (fun _ => (quietEffect_onDomains _ _).comp (quietEffect_setDpll _ _ fun _ _ _ _ => rfl))
    (fun _ _ _ _ _ _ => rfl) fun j s ha e ⟨hfree, hst⟩ => ?_
  have hmode := dpllSetMode_mode 1 (by decide) j s ha
  generalize jobParams dpllSetModeDef (withByte 5 1 j) s = p at hfree hst hmode ⊢
  have hmove := moveDpll_serves (p.u 4 1) .freerun (e.setDpll (p.u 4 1) freerunMode)
  have hserves := (hmove.setDpll (p.u 4 1) (releasedDpll e.cpx.impressions)).quiet _ (quietEffect_onDomains (p.u 4 1) ledgerFreerun)
  rw [dpllSetMode_freerun e _ _ hmode hfree]
  dsimp only
  rw [if_neg (by simp [hst]), hmove.only.cpx]
  refine ⟨_, rfl, ?_⟩
  rw [setDpll_setDpll, setDpll_setDpll] at hserves
  rw [setDpll_congr e (p.u 4 1) _ _ ?_]
  · exact hserves
  · simp [releasedDpll, movedDpll, freerunMode, lastFollowed, hst]

/-- A DPLL forced to HOLDOVER at the frequency `f`, with the loss instant `l` (R132, R143). -/
def forcedDpll (l : Nat) (f : Int) (x : Dpll) : Dpll :=
  { x with mode := .holdover, st := .holdover, steer := if x.st = .freerun then 0 else x.steer, selected := none
           lastSelected := if x.selected.isSome then x.selected else x.lastSelected
           sw := none, inUse := some f, control := f, lostAt := l }

theorem heldDpll_holdoverMode (l : Nat) (f : Int) (x : Dpll) : heldDpll l f (holdoverMode x) = forcedDpll l f x := by
  cases hst : x.st <;> simp [heldDpll, heldOn, movedDpll, lastFollowed, forcedDpll, holdoverMode, hst]

/-- A forced HOLDOVER on the value `v` (R116, R143). -/
def forcedHoldover (v : HoldValue) (k : Nat) (s : State) : State :=
  onDomains k (ledgerHoldover (holdGrowth s k v 0))
    ((s.setDpll k (forcedDpll s.cpx.impressions (holdFreq s k v 0))).setHold k (usingValue v))

theorem quietEffect_forcedHoldover (v : HoldValue) (k : Nat) : QuietEffect (forcedHoldover v k) :=
  ((quietEffect_setHold k (fun _ => usingValue v) fun _ _ _ _ => rfl).comp
    (quietEffect_setDpll k (fun s => forcedDpll s.cpx.impressions (holdFreq s k v 0)) fun _ _ _ _ => rfl)).param
    (fun s => holdGrowth s k v 0) (fun g => onDomains k (ledgerHoldover g)) (fun _ => quietEffect_onDomains _ _) fun _ _ _ _ => rfl

theorem enterLost_forced (v : HoldValue) (e : State) (k : Nat) (hk : k < 8) (hv : (e.holdOf k).value = some v) :
    Serves (forcedHoldover v k e) (enterLost k true (e.setDpll k holdoverMode)) := by
  have hnow : sinceLoss e.cpx.impressions (e.setDpll k holdoverMode) = 0 := by simp [sinceLoss]
  have hserves := enterLostAt_serves e.cpx.impressions k true (e.setDpll k holdoverMode) v hk hv
  rw [hnow, setDpll_setDpll] at hserves
  simp only [heldDpll_holdoverMode] at hserves
  exact hserves

theorem dpllSetModeHoldover_acts (v : HoldValue) : Acts .dpllSetModeHoldover dpllSetModeDef (withByte 5 2)
    (fun p s => inSwitch (s.dpllOf (p.u 4 1)) = false ∧ (s.holdOf (p.u 4 1)).value = some v)
    (fun p => forcedHoldover v (p.u 4 1)) := by
  refine acts_of_serves _ _ _ _ _ (fun _ _ => rfl) (withByte_ring _ _) (fun _ => quietEffect_forcedHoldover _ _)
    (fun _ _ _ _ _ _ => rfl) fun j s ha e ⟨hfree, hv⟩ => ?_
  have hmode := dpllSetMode_mode 2 (by decide) j s ha
  have hk := dpllSetMode_index _ s ha
  generalize jobParams dpllSetModeDef (withByte 5 2 j) s = p at hfree hv hmode hk ⊢
  exact ⟨_, dpllSetMode_holdover e _ _ hmode hfree, enterLost_forced v e _ hk hv⟩

/-- Settles O15: a job changes its DPLL; a forced FREERUN or HOLDOVER also changes the ledgers of the domains. -/
theorem dpllJobsAct : Obligations.DpllJobsAct :=
  have hfrozen := fun (c : Job → Instr) v (hc : ∀ j s, exec (c j) s = .next (directJob dpllSetModeDef (withByte 5 v j) s)) =>
    waits_of_frozen c dpllSetModeDef (withByte 5 v) _ hc fun _ _ _ => rfl
  ⟨dpllConfig_acts, dpllSteerPpt_acts, dpllSetModeAutomatic_acts, dpllSetModeFreerun_acts, dpllSetModeFreerun_same_acts,
    dpllSetModeHoldover_acts, hfrozen _ 0 fun _ _ => rfl, hfrozen _ 1 fun _ _ => rfl, hfrozen _ 2 fun _ _ => rfl⟩

/-! ### Holdover and steering jobs (O16) -/

theorem quietEffect_keepSpan (i : Nat) : QuietEffect fun t => t.setHold i fun h => { h with hist := h.hist.take (spanOf t i) } :=
  quietEffect_setHold i (fun t h => { h with hist := h.hist.take (spanOf t i) }) fun _ _ _ _ => rfl

theorem holdConfig_acts : Acts .holdConfig holdConfigDef same always (fun p s =>
    let on := p.u 5 1 == 1
    forAll 8 (s.setHold (p.u 4 1) fun h =>
      { h with archive := on, aging := Fin.ofNat 3 (p.u 6 1), temp := p.u 7 1 == 1, windowS := p.u 8 4, guardS := p.u 12 4
               agingFitS := p.u 16 4, agingPptDay := p.i 20 4, sigmaFloor := p.u 24 4, minValid := p.u 28 2
               sensor := Fin.ofNat 5 (p.u 30 1), hist := if h.archive = on then h.hist else []
               value := if h.archive = on ∨ (s.dpllOf (p.u 4 1)).st = .holdover then h.value else none })
      fun i t => t.setHold i fun h => { h with hist := h.hist.take (spanOf t i) }) := by
  refine acts_of_quiet _ _ _ _ _ (fun _ _ => rfl) (fun _ => rfl)
    (fun _ => (quietEffect_forAll 8 _ quietEffect_keepSpan).comp (quietEffect_setHold _ _ fun _ _ _ _ => rfl))
    fun j s _ _ e _ => ⟨{}, ?_, by decide, rfl⟩
  refine congrArg (fun x => done (forAll 8 x fun i t => t.setHold i fun h => { h with hist := h.hist.take (spanOf t i) }))
    (setHold_congr e _ _ _ ?_)
  simp [Params.fin]

/-- Each entry takes 12 bytes (R144). -/
theorem length_entryBytes (k : Nat) (es : List ArchEntry) : ((es.map (entryBytes k)).flatten).length = 12 * es.length := by
  have h : List.length ∘ entryBytes k = fun _ => 12 := funext fun _ => rfl
  rw [List.length_flatten, List.map_map, h, List.map_const', List.sum_replicate, smul_eq_mul, Nat.mul_comm]

/-- The entries that HOLD_READ_ARCHIVE reads, newest first (R148). -/
def archivedRun (p : Params) (s : State) : List ArchEntry := ((s.holdOf (p.u 4 1)).hist.drop (p.u 0 4)).take (p.u 8 4)

/-- The words of HOLD_READ_ARCHIVE: the number of entries and the second of the newest (R148). -/
def archiveWords (es : List ArchEntry) : List Word :=
  [word es.length, word (match es with
    | [] => 0
    | e :: _ => e.second), 0, 0]

theorem holdReadArchive_answers :
    Answers .holdReadArchive holdReadArchiveDef same always unchanged (fun _ p s => archiveWords (archivedRun p s)) := by
  refine answers_of_quiet _ _ _ _ _ _ (fun _ _ => rfl) (fun _ => rfl) (fun _ => .id) fun j s ha _ e he =>
    ⟨_, rfl, rfl, ?_, .inr fun hdma => ?_⟩
  · exact congrArg archiveWords
      (effect_read (archivedRun (jobParams holdReadArchiveDef (same j) s)) _ _ s e he fun _ _ _ _ _ => rfl)
  · refine le_trans ?_ (accepted_result holdReadArchiveDef _ s ha hdma)
    rw [length_entryBytes, List.length_reverse]
    exact Nat.mul_le_mul_left 12 (List.length_take_le _ _)

theorem oscSteerConfig_acts : Acts .oscSteerConfig oscSteerConfigDef same always (fun p s =>
    { s with ehu := { s.ehu with steer := { s.ehu.steer with
      dpll := p.opt 4 8, serial := p.u 5 1 == 1, dacBits := p.u 6 1, spiMode := Fin.ofNat 4 (p.u 7 1), centre := p.u 8 4
      updateImp := p.u 12 4, maxStep := p.u 16 4, baud := p.u 20 4, outside := p.u 24 1 == 1, steeredRef := p.opt 25 32
      template := p.bytes 32 32 } } }) :=
  acts_of_quiet _ _ _ _ _ (fun _ _ => rfl) (fun _ => rfl)
    (fun _ => ⟨fun _ _ _ _ => rfl, fun _ => rfl, fun _ => rfl, fun _ => rfl, fun _ => rfl⟩)
    fun _ _ _ _ _ _ => ⟨{}, rfl, by decide, rfl⟩

/-- Settles O16: a configuration changes its record of EHU alone, the archive is read without a change. -/
theorem holdoverAndSteeringJobsAct : Obligations.HoldoverAndSteeringJobsAct :=
  ⟨holdConfig_acts, holdReadArchive_answers, oscSteerConfig_acts⟩

/-! ### Reference jobs (O12) -/

/-- An entry moved to a state at the impression `now` (R127, R128). -/
def movedRef (now : Nat) (st : RefState) (e : RefEntry) : RefEntry :=
  let e' := { e with st := st, clean := if e.st = st then e.clean else 0, counting := e.st == st && e.counting
                     qualifiedAt := if e.st ≠ st ∧ st = .qualified then now else e.qualifiedAt }
  if e.st = st then e' else
  match st with
  | .qualified => withHistory 7 e'
  | .disqualified => withHistory 9 e'
  | _ => e'

theorem moveRef_serves (r : Nat) (st : RefState) (s : State) :
    Serves (s.setRef r (movedRef s.cpx.impressions st)) (moveRef r st s) := by
  have hmark : ∀ n (f : RefEntry → RefEntry), movedRef s.cpx.impressions st (s.refEntry r) = withHistory n (f (s.refEntry r)) →
      Serves (s.setRef r (movedRef s.cpx.impressions st)) (setHistory r n (s.setRef r f)) := fun n f h => by
    rw [setRef_congr s r _ (fun e => withHistory n (f e)) h, ← setRef_setRef]
    exact setHistory_serves _ _ _
  have hplain : ∀ f : RefEntry → RefEntry, movedRef s.cpx.impressions st (s.refEntry r) = f (s.refEntry r) →
      Serves (s.setRef r (movedRef s.cpx.impressions st)) (s.setRef r f) := fun f h => by
    rw [setRef_congr s r _ f h]
    exact .refl _
  unfold moveRef
  dsimp only
  by_cases hst : (s.refEntry r).st = st
  · rw [if_pos hst]
    exact hplain _ (if_pos hst)
  · rw [if_neg hst]
    cases st with
    | qualified => exact hmark 7 _ (if_neg hst)
    | disqualified => exact hmark 9 _ (if_neg hst)
    | _ => exact hplain _ (if_neg hst)

/-- The settings of REF_CONFIG (R122). -/
def refSettings (p : Params) (e : RefEntry) : RefEntry :=
  { e with enable := p.u 5 1 == 1, timeKind := if p.u 4 1 < 12 then p.u 6 1 == 1 else e.timeKind, todSource := p.opt 7 32
           nominalMhz := p.u 8 8, singleEnded := p.u 16 1 == 1, falling := p.u 17 1 == 1
           irqMask := BitVec.ofNat 16 (p.u 18 2), timeUncPs := p.u 20 4, freqUncPpt := p.u 24 4
           integAction := Fin.ofNat 3 (p.u 28 1) }

/-- An entry with no measurement. -/
def unmeasured (e : RefEntry) : RefEntry :=
  { e with arrived := false, los := true, freqs := [], delays := [], firstStamp := none, lastStamp := none
           lastEdge := none, lag := none, lagMark := none, freqNow := none, tod := none }

/-- An entry that REF_CONFIG has configured: one that was not enabled starts without a measurement. -/
def configuredRef (p : Params) (e : RefEntry) : RefEntry :=
  withHistory 14 (if e.enable then refSettings p e else unmeasured (refSettings p e))

/-- REF_CONFIG takes the entry back to UNQUALIFIED (R122, R127). -/
def configReturns (p : Params) (e : RefEntry) : Bool :=
  !(p.u 5 1 == 1) || !e.enable || (decide (p.u 4 1 < 12) && (e.timeKind != (p.u 6 1 == 1))) || e.nominalMhz != p.u 8 8

/-- The settings stand, and CONFIG_CHANGED is noted. -/
def refConfigured (p : Params) (e : State) : State :=
  setHistory (p.u 4 1) 14 (e.setRef (p.u 4 1) fun x => if x.enable then refSettings p x else unmeasured (refSettings p x))

theorem refConfig_run (e : State) (j : Job) (p : Params) : refConfigDef.run e j p =
    done (spreadTod (p.u 4 1) (if configReturns p (e.refEntry (p.u 4 1))
      then reviewRef (p.u 4 1) (moveRef (p.u 4 1) .unqualified (refConfigured p e)) else refConfigured p e)) := by
  have h : e.setRef (p.u 4 1) (fun x => if x.enable then refSettings p x else unmeasured (refSettings p x)) =
      if (e.refEntry (p.u 4 1)).enable then e.setRef (p.u 4 1) (refSettings p)
      else (e.setRef (p.u 4 1) (refSettings p)).setRef (p.u 4 1) unmeasured := by
    rw [setRef_setRef]
    split
    next hen => exact setRef_congr e _ _ _ (if_pos hen)
    next hen => exact setRef_congr e _ _ _ (if_neg hen)
  unfold refConfigured
  rw [h]
  rfl

theorem refConfigured_serves (p : Params) (e : State) : Serves (e.setRef (p.u 4 1) (configuredRef p)) (refConfigured p e) := by
  have h := setHistory_serves (p.u 4 1) 14
    (e.setRef (p.u 4 1) fun x => if x.enable then refSettings p x else unmeasured (refSettings p x))
  rw [setRef_setRef] at h
  exact h

/-! A time of day that an entry no longer gives -/

theorem quietEffect_dropAdopt (d : Nat) : QuietEffect (dropAdopt d) := by
  rw [show dropAdopt d = fun s => s.setDom d (fun x => if adoptionDrops s d then { x with pending := none } else x) from
    funext (dropAdopt_eq d)]
  exact quietEffect_setDom d _ fun _ _ _ _ => rfl

/-- The domains that wait for the time of day of an entry wait no longer, where it gives none. -/
def dropAdopts (r : Nat) (s : State) : State :=
  forAll 4 s fun d t => if (t.domain d).timeSource.any (fun x => x.val == r) then dropAdopt d t else t

theorem quietEffect_dropAdopts (r : Nat) : QuietEffect (dropAdopts r) :=
  quietEffect_forAll 4 _ fun d => QuietEffect.id.param (fun t => (t.domain d).timeSource.any fun x => x.val == r)
    (fun b t => if b then dropAdopt d t else t) (fun b => by
      cases b
      · exact .id
      · exact quietEffect_dropAdopt d) fun _ _ _ _ => rfl

/-- Two folds that agree where a property holds that the second one keeps. -/
theorem forAll_congr (P : State → Prop) (n : Nat) (f g : Nat → State → State) (s : State) (hg : ∀ i t, P t → P (g i t))
    (hfg : ∀ i t, P t → f i t = g i t) (h : P s) : forAll n s f = forAll n s g := by
  induction n with
  | zero => rfl
  | succ n ih => rw [forAll_succ, forAll_succ, ih, hfg _ _ (forAll_keeps P n g s hg h)]

theorem dropAdopt_rim (d : Nat) (s : State) : (dropAdopt d s).rim = s.rim := by
  rw [dropAdopt_eq]
  rfl

/-- A domain adopts nothing from an entry that is not QUALIFIED (R90). -/
theorem followTod_unqualified (d : Nat) (s : State) (r : Fin 32) (hsrc : (s.domain d).timeSource = some r)
    (hst : (s.refEntry r.val).st ≠ .qualified) : followTod d s = dropAdopt d s := by
  have hsrc' := (dropAdopt_timeSource d s).trans hsrc
  have hst' : ((dropAdopt d s).refEntry r.val).st ≠ .qualified := by
    unfold State.refEntry
    rw [dropAdopt_rim]
    exact hst
  have htry : tryAdopt d (dropAdopt d s) = dropAdopt d s := by
    unfold tryAdopt
    simp [hsrc', hst']
  unfold followTod checkTod
  rw [htry]
  dsimp only
  rw [hsrc']
  dsimp only
  split
  · rfl
  · exact if_pos (by simp [hst'])

theorem spreadTod_unqualified (r : Nat) (s : State) (hst : (s.refEntry r).st ≠ .qualified) : spreadTod r s = dropAdopts r s := by
  refine forAll_congr (fun t => (t.refEntry r).st ≠ .qualified) 4 _ _ s (fun d t ht => ?_) (fun d t ht => ?_) hst
  · split
    · unfold State.refEntry
      rw [dropAdopt_rim]
      exact ht
    · exact ht
  · split
    next hsrc =>
      obtain ⟨q, hq, hqr⟩ := (Option.any_eq_true _ _).mp hsrc
      obtain rfl : q.val = r := beq_iff_eq.mp hqr
      exact followTod_unqualified d t q hq ht
    · rfl

/-! REF_CONFIG that disables, REF_CLEAR_HISTORY, REF_READ_STATUS -/

theorem reviewRef_disabled (r : Nat) (s : State) (h : (s.refEntry r).enable = false) : reviewRef r s = s :=
  if_pos (by rw [h]; rfl)

/-- An entry that REF_CONFIG disables (R122, R127). -/
def disabledRef (p : Params) (e : RefEntry) : RefEntry :=
  { (if e.enable then e else
      { e with freqs := [], delays := [], firstStamp := none, lastStamp := none, lastEdge := none, lag := none
               lagMark := none, freqNow := none, tod := none, arrived := false, los := true }) with
           enable := false, timeKind := if p.u 4 1 < 12 then p.u 6 1 == 1 else e.timeKind, todSource := p.opt 7 32
           nominalMhz := p.u 8 8, singleEnded := p.u 16 1 == 1, falling := p.u 17 1 == 1
           irqMask := BitVec.ofNat 16 (p.u 18 2), timeUncPs := p.u 20 4, freqUncPpt := p.u 24 4
           integAction := Fin.ofNat 3 (p.u 28 1), history := e.history ||| 0x4000, histNow := e.histNow ||| 0x4000
           st := .unqualified, clean := if e.st = .unqualified then e.clean else 0
           counting := e.st == .unqualified && e.counting }

theorem disabledRef_eq (p : Params) (now : Nat) (e : RefEntry) (h0 : p.u 5 1 = 0) :
    movedRef now .unqualified (configuredRef p e) = disabledRef p e := by
  by_cases hen : e.enable = true <;>
    simp [movedRef, configuredRef, disabledRef, refSettings, unmeasured, withHistory, hen, h0]

theorem disabledRef_enable (p : Params) (r : Nat) (s : State) (hr : r < 32) :
    ((s.setRef r (disabledRef p)).refEntry r).enable = false := by
  rw [State.refEntry_setRef _ _ _ hr]
  rfl

theorem disabledRef_unqualified (p : Params) (r : Nat) (s : State) : ((s.setRef r (disabledRef p)).refEntry r).st ≠ .qualified := by
  by_cases hr : r < 32
  · rw [State.refEntry_setRef _ _ _ hr]
    exact RefState.noConfusion
  · unfold State.refEntry vget
    rw [dif_neg hr]
    exact RefState.noConfusion

theorem refConfig_acts : Acts .refConfig refConfigDef same (fun p _ => p.u 5 1 = 0)
    (fun p s => spreadTod (p.u 4 1) (s.setRef (p.u 4 1) (disabledRef p))) := by
  have hspread : (fun (p : Params) (s : State) => spreadTod (p.u 4 1) (s.setRef (p.u 4 1) (disabledRef p))) =
      fun p s => dropAdopts (p.u 4 1) (s.setRef (p.u 4 1) (disabledRef p)) :=
    funext fun p => funext fun s => spreadTod_unqualified _ _ (disabledRef_unqualified _ _ _)
  rw [hspread]
  refine acts_of_serves _ _ _ _ _ (fun _ _ => rfl) (fun _ => rfl)
    (fun _ => (quietEffect_dropAdopts _).comp (quietEffect_setRef _ (fun _ => disabledRef _) fun _ _ _ _ => rfl))
    (fun _ _ _ _ _ _ => rfl) fun j s ha e h0 => ?_
  have hr : (jobParams refConfigDef (same j) s).u 4 1 < 32 :=
    Nat.lt_succ_of_le (accepted_index _ _ s 31 ha (fun _ h => nomatch h) (by simp [refConfigDef]))
  generalize jobParams refConfigDef (same j) s = p at h0 hr ⊢
  have hmoved := ((refConfigured_serves p e).quiet _
    (quietEffect_setRef (p.u 4 1) (fun s => movedRef s.cpx.impressions .unqualified) fun _ _ _ _ => rfl)).trans
    (moveRef_serves _ _ _)
  rw [setRef_setRef] at hmoved
  simp only [disabledRef_eq p _ _ h0] at hmoved
  have hback : configReturns p (e.refEntry (p.u 4 1)) = true := by simp [configReturns, h0]
  have hen : ((moveRef (p.u 4 1) .unqualified (refConfigured p e)).refEntry (p.u 4 1)).enable = false := by
    rw [hmoved.frame]
    exact disabledRef_enable p _ e hr
  have hst : ((moveRef (p.u 4 1) .unqualified (refConfigured p e)).refEntry (p.u 4 1)).st ≠ .qualified := by
    rw [hmoved.frame]
    exact disabledRef_unqualified p _ e
  rw [refConfig_run, hback, if_pos rfl, reviewRef_disabled _ _ hen, spreadTod_unqualified _ _ hst]
  exact ⟨_, rfl, hmoved.quiet _ (quietEffect_dropAdopts _)⟩

/-- Each of the first `n` elements changed on its own. -/
def mapFirst {α : Type} {m : Nat} (n : Nat) (f : Nat → α → α) (v : Vector α m) : Vector α m :=
  Vector.ofFn fun (i : Fin m) => if i.val < n then f i.val v[i] else v[i]

theorem mapFirst_zero {α : Type} {m : Nat} (f : Nat → α → α) (v : Vector α m) : mapFirst 0 f v = v :=
  Vector.ext fun i hi => by simp [mapFirst]

theorem mapFirst_succ {α : Type} {m : Nat} (n : Nat) (f : Nat → α → α) (v : Vector α m) :
    vmod (mapFirst n f v) n (f n) = mapFirst (n + 1) f v := by
  refine Vector.ext fun i hi => ?_
  unfold vmod mapFirst
  split
  · rw [Vector.getElem_set]
    split
    next h => subst h; simp
    next h => simp [show i ≤ n ↔ i < n by omega]
  · simp [show i ≤ n ↔ i < n by omega]

theorem forAll_setRef (f : Nat → RefEntry → RefEntry) (n : Nat) (s : State) :
    forAll n s (fun r t => t.setRef r (f r)) = { s with rim := { s.rim with ref := mapFirst n f s.rim.ref } } := by
  induction n with
  | zero =>
    rw [mapFirst_zero]
    rfl
  | succ n ih =>
    rw [forAll_succ, ih, ← mapFirst_succ]
    rfl

theorem forAll_setDpll (f : Nat → Dpll → Dpll) (n : Nat) (s : State) :
    forAll n s (fun k t => t.setDpll k (f k)) = { s with dsb := { s.dsb with dpll := mapFirst n f s.dsb.dpll } } := by
  induction n with
  | zero =>
    rw [mapFirst_zero]
    rfl
  | succ n ih =>
    rw [forAll_succ, ih, ← mapFirst_succ]
    rfl

/-- An entry whose history bits of a mask are cleared; a bit whose event has occurred in the impression stays (R129). -/
def clearedHistory (p : Params) (r : Nat) (e : RefEntry) : RefEntry :=
  if p.u 4 1 = 0xFF ∨ p.u 4 1 = r then
    { e with history := e.history &&& ~~~(BitVec.ofNat 16 (p.u 6 2) &&& ~~~e.histNow) }
  else e

theorem setRef_id (r : Nat) (s : State) : s.setRef r (fun e => e) = s := by
  unfold State.setRef vmod
  by_cases h : r < 32 <;> simp [h]

theorem refClearHistory_run (e : State) (j : Job) (p : Params) :
    refClearHistoryDef.run e j p = done (forAll 32 e fun r t => t.setRef r (clearedHistory p r)) := by
  refine congrArg done (forAll_congr (fun _ => True) 32 _ _ e (fun _ _ _ => trivial) (fun r t _ => ?_) trivial)
  unfold clearedHistory
  split
  · rfl
  · exact (setRef_id r t).symm

theorem refClearHistory_acts : Acts .refClearHistory refClearHistoryDef same always (fun p s => { s with rim := { s.rim with
    ref := (Vector.ofFn fun (r : Fin 32) => clearedHistory p r.val s.rim.ref[r]) } }) := by
  have hall : (fun (p : Params) (s : State) => { s with rim := { s.rim with
      ref := (Vector.ofFn fun (r : Fin 32) => clearedHistory p r.val s.rim.ref[r]) } }) =
      fun p s => forAll 32 s fun r t => t.setRef r (clearedHistory p r) := funext fun p => funext fun s => by
    rw [forAll_setRef]
    simp [mapFirst]
  rw [hall]
  exact acts_of_quiet _ _ _ _ _ (fun _ _ => rfl) (fun _ => rfl)
    (fun p => quietEffect_forAll 32 _ fun r => quietEffect_setRef r (fun _ => clearedHistory p r) fun _ _ _ _ => rfl)
    fun j s _ _ e _ => ⟨{}, refClearHistory_run e _ _, by decide, rfl⟩

/-- The words of an entry's status (R130). -/
def entryWords (i : Nat) (s : State) : List Word :=
  let e := s.refEntry i
  let left := match e.st with
    | .qualifying => e.qualS - e.clean
    | .drifting => e.driftClearS - e.clean
    | _ => 0
  let cond := bit e.los + 2 * bit e.freqSoftNow + 4 * bit e.freqHardNow + 8 * bit e.driftNow + 16 * bit e.pdvSoftNow +
    32 * bit e.pdvHardNow + 64 * bit (e.gnssFail || e.integSoftNow || e.integHardNow)
  [word (e.st.code + cond * 2 ^ 8 + e.history.toNat * 2 ^ 16), wordI (round (refFreq e)), wordI (round (refDrift e * 100)),
   word (left % 65536 + min 255 (pdvFloor e / 10) * 2 ^ 16 +
     maskOf 8 (fun k => (s.dpllOf k).selected.any fun x => x.val == i) * 2 ^ 24)]

/-- The words of a DPLL's status (R131). -/
def dpllWords (i : Nat) (s : State) : List Word :=
  let x := s.dpllOf i
  [word (x.st.code + x.mode.code * 8 + bit x.forced.isSome * 32 + bit (s.holdOf i).value.isSome * 64 +
     optCode x.selected * 2 ^ 8 + optCode x.lastSelected * 2 ^ 16),
   wordI (x.control.tdiv 1000), wordI x.phaseErr, wordI (holdReport s i)]

theorem refReadStatus_entry (e : State) (j : Job) (p : Params) (h : p.u 5 1 = 0) :
    ∃ r, refReadStatusDef.run e j p = reply r e ∧ r.status = 0 ∧ r.out = [] ∧ [r.r0, r.r1, r.r2, r.r3] = entryWords (p.u 4 1) e :=
  ⟨_, if_pos h, rfl, rfl, rfl⟩

theorem refReadStatus_dpll (e : State) (j : Job) (p : Params) (h : p.u 5 1 = 1) :
    ∃ r, refReadStatusDef.run e j p = reply r e ∧ r.status = 0 ∧ r.out = [] ∧ [r.r0, r.r1, r.r2, r.r3] = dpllWords (p.u 4 1) e :=
  ⟨_, if_neg (by omega), rfl, rfl, rfl⟩

/-- A job that reads: its words are those of the state before it. -/
theorem answers_of_read (c : Job → Instr) (d : JobDef) (h : Params → State → Prop) (words : Params → State → List Word)
    (hc : ∀ j s, exec (c j) s = .next (directJob d j s))
    (hw : ∀ p (s : State) m i q v, words p { s with mbx := m, intc := i, pcu := q, cpx := { s.cpx with proof := v } } = words p s)
    (hrun : ∀ s e j p, h p s → ∃ r, d.run e j p = reply r e ∧ r.status = 0 ∧ r.out = [] ∧ [r.r0, r.r1, r.r2, r.r3] = words p e) :
    Answers c d same h unchanged fun _ p s => words p s :=
  answers_of_quiet _ _ _ _ _ _ hc (fun _ => rfl) (fun _ => .id) fun j s _ hh e he => by
    obtain ⟨r, hr, hst, hout, hwords⟩ := hrun s e (takenJob d (same j) s) (jobParams d (same j) s) hh
    exact ⟨r, hr, by simp [succeeded, hst], hwords.trans (effect_read (words _) _ _ s e he (hw _)), .inl hout⟩

/-- Settles O12: a disabled entry is UNQUALIFIED, so that no domain adopts from it; the reads leave the state. -/
theorem referenceJobsAct : Obligations.ReferenceJobsAct :=
  ⟨refConfig_acts, refClearHistory_acts,
    answers_of_read _ _ _ (fun p => entryWords (p.u 4 1)) (fun _ _ => rfl) (fun _ _ _ _ _ _ => rfl)
      fun _ e j p h => refReadStatus_entry e j p h,
    answers_of_read _ _ _ (fun p => dpllWords (p.u 4 1)) (fun _ _ => rfl) (fun _ _ _ _ _ _ => rfl)
      fun _ e j p h => refReadStatus_dpll e j p h⟩

/-! ### Reference settings (O13) -/

theorem ServiceOnly.rim {s t : State} (h : ServiceOnly s t) : t.rim = s.rim := by rw [h]

theorem refEntry_of_rim {s t : State} (h : t.rim = s.rim) (q : Nat) : t.refEntry q = s.refEntry q := by
  unfold State.refEntry
  rw [h]

/-- `t` differs from `s` in the DPLLs, the holdover, the domains, the interrupts and the counters alone. -/
def ServoOnly (s t : State) : Prop := t = { s with intc := t.intc, pcu := t.pcu, tcr := t.tcr, dsb := t.dsb, ehu := t.ehu }

section
variable {s t u : State}

theorem ServoOnly.refl (s : State) : ServoOnly s s := rfl

theorem ServoOnly.trans (h : ServoOnly s t) (g : ServoOnly t u) : ServoOnly s u := by
  unfold ServoOnly at *
  rw [g, h]

theorem ServoOnly.rim (h : ServoOnly s t) : t.rim = s.rim := by rw [h]
theorem ServoOnly.cpx (h : ServoOnly s t) : t.cpx = s.cpx := by rw [h]

theorem Serves.servoOnly (h : Serves s t) : ServoOnly s t := by
  rw [h.frame]
  rfl

theorem ServoOnly.ite {c : Prop} [Decidable c] (h : c → ServoOnly s t) (g : ¬c → ServoOnly s u) :
    ServoOnly s (if c then t else u) := by
  split
  next hc => exact h hc
  next hc => exact g hc

end

theorem servoOnly_setDpll (s : State) (k : Nat) (f : Dpll → Dpll) : ServoOnly s (s.setDpll k f) := rfl
theorem servoOnly_setHold (s : State) (k : Nat) (f : Hold1 → Hold1) : ServoOnly s (s.setHold k f) := rfl
theorem servoOnly_setDom (s : State) (d : Nat) (f : Domain → Domain) : ServoOnly s (s.setDom d f) := rfl

theorem servoOnly_onDomains (k : Nat) (f : Domain → Domain) (s : State) : ServoOnly s (onDomains k f s) :=
  foldl_keeps (ServoOnly s) _ _ s (fun t _ h => h.trans (servoOnly_setDom t _ _)) (.refl s)

theorem servoOnly_moveDpll (k : Nat) (st : DpllState) (s : State) : ServoOnly s (moveDpll k st s) :=
  (servoOnly_setDpll s k _).trans (moveDpll_serves k st s).servoOnly

/-- A loss touches no entry of the pool. -/
theorem servoOnly_enterLostAt (l k : Nat) (followed : Bool) (s : State) : ServoOnly s (enterLostAt l k followed s) := by
  have hmove : ∀ st, ServoOnly s (moveDpll k st (s.setDpll k fun x => { x with lostAt := l })) := fun st =>
    (servoOnly_setDpll s k _).trans (servoOnly_moveDpll k st _)
  have hset : ∀ t f, ServoOnly s t → ServoOnly s (t.setDpll k f) := fun t f h => h.trans (servoOnly_setDpll t k f)
  have hhold : ∀ t f, ServoOnly s t → ServoOnly s (t.setHold k f) := fun t f h => h.trans (servoOnly_setHold t k f)
  have hdom : ∀ t f, ServoOnly s t → ServoOnly s (onDomains k f t) := fun t f h => h.trans (servoOnly_onDomains k f t)
  unfold enterLostAt
  dsimp only
  split
  · refine .ite (fun _ => ?_) fun _ => .trans ?_ (pcuCount_serves _ _ _ _).servoOnly <;>
      exact hdom _ _ (hhold _ _ (hset _ _ (hmove .holdover)))
  · exact .ite (fun _ => hdom _ _ (hset _ _ (hmove .freerun))) fun _ => hset _ _ (hmove .freerun)

theorem servoOnly_warmLoss (r : Nat) (s : State) : ServoOnly s (warmLoss r s) :=
  .ite (fun _ => forAll_keeps (ServoOnly s) 8 _ s
    (fun _ t h => .ite (fun _ => h.trans (servoOnly_enterLostAt t.cpx.impressions _ _ t)) fun _ => h) (.refl s)) fun _ => .refl s

/-- The state to which the conditions of an entry move it (R127). -/
def reviewedState (e : RefEntry) : RefState :=
  if !e.enable then e.st else
  match e.st with
  | .unqualified => if e.los then .unqualified else .qualifying
  | .qualifying => if hardNow e then .disqualified else .qualifying
  | .qualified => if hardNow e then .disqualified else if softNow e then .drifting else .qualified
  | .drifting => if hardNow e then .disqualified else .drifting
  | .disqualified => if hardNow e then .disqualified else .qualifying

/-- An entry after its review. -/
def reviewed (now : Nat) (e : RefEntry) : RefEntry := movedRef now (reviewedState e) e

/-- A move to the state in which an entry is changes nothing. -/
theorem movedRef_same (now : Nat) (e : RefEntry) : movedRef now e.st e = e := by
  simp [movedRef]

/-- A review moves the entry; a loss during a WARM restart changes beside what follows it. -/
theorem reviewRef_servo (r : Nat) (s : State) : ServoOnly (s.setRef r (reviewed s.cpx.impressions)) (reviewRef r s) := by
  have hmove : ∀ st, reviewedState (s.refEntry r) = st →
      ServoOnly (s.setRef r (reviewed s.cpx.impressions)) (moveRef r st s) := fun st h => by
    rw [setRef_congr s r (reviewed s.cpx.impressions) (movedRef s.cpx.impressions st) (by rw [reviewed, h])]
    exact (moveRef_serves r st s).servoOnly
  have hstay : reviewedState (s.refEntry r) = (s.refEntry r).st → ServoOnly (s.setRef r (reviewed s.cpx.impressions)) s := fun h => by
    rw [setRef_congr s r (reviewed s.cpx.impressions) (fun e => e) (by rw [reviewed, h, movedRef_same]), setRef_id]
    exact .refl s
  have hlost : reviewedState (s.refEntry r) = .disqualified →
      ServoOnly (s.setRef r (reviewed s.cpx.impressions)) (warmLoss r (moveRef r .disqualified s)) := fun h =>
    (hmove _ h).trans (servoOnly_warmLoss _ _)
  unfold reviewRef
  dsimp only
  refine .ite (fun hen => hstay (by simp_all [reviewedState])) fun hen => ?_
  cases hst : (s.refEntry r).st with
  | unqualified =>
    exact .ite (fun hlos => hstay (by simp [reviewedState, hst, hlos])) fun hlos =>
      hmove _ (by simp_all [reviewedState])
  | qualifying =>
    exact .ite (fun hhard => hmove _ (by simp_all [reviewedState])) fun hhard => hstay (by simp_all [reviewedState])
  | qualified =>
    exact .ite (fun hhard => hlost (by simp_all [reviewedState])) fun hhard =>
      .ite (fun hsoft => hmove _ (by simp_all [reviewedState])) fun hsoft => hstay (by simp_all [reviewedState])
  | drifting =>
    exact .ite (fun hhard => hlost (by simp_all [reviewedState])) fun hhard => hstay (by simp_all [reviewedState])
  | disqualified =>
    exact .ite (fun hhard => hstay (by simp_all [reviewedState])) fun hhard => hmove _ (by simp_all [reviewedState])

/-! What a review and a time of day leave of the settings -/

/-- The settings of an entry and its measurements: without the state, the history and the conditions of its monitors. -/
def settingsOf (e : RefEntry) : RefEntry :=
  { e with st := .unqualified, clean := 0, counting := false, qualifiedAt := 0, history := 0, histNow := 0, freqSoftNow := false
           freqHardNow := false, driftNow := false, pdvSoftNow := false, pdvHardNow := false }

/-- An entry has kept its settings and its history bits. -/
structure Advanced (e e' : RefEntry) : Prop where
  settings : settingsOf e' = settingsOf e
  history  : ∀ n, e.history.getLsbD n = true → e'.history.getLsbD n = true

theorem Advanced.refl (e : RefEntry) : Advanced e e := ⟨rfl, fun _ h => h⟩

theorem Advanced.trans {e f g : RefEntry} (h : Advanced e f) (k : Advanced f g) : Advanced e g :=
  ⟨k.settings.trans h.settings, fun n hn => k.history n (h.history n hn)⟩

/-- What the settings decide stays as it was. -/
theorem Advanced.holds {e e' : RefEntry} (h : Advanced e e') (P : RefEntry → Prop) (hP : ∀ e, P (settingsOf e) ↔ P e) (he : P e) : P e' := by
  rw [← hP, h.settings, hP]
  exact he

theorem advanced_withHistory (n : Nat) (e : RefEntry) : Advanced e (withHistory n e) :=
  ⟨rfl, fun k h => by simp [withHistory, h]⟩

theorem advanced_movedRef (now : Nat) (st : RefState) (e : RefEntry) : Advanced e (movedRef now st e) := by
  have hplain : ∀ clean counting at', Advanced e { e with st := st, clean := clean, counting := counting, qualifiedAt := at' } :=
    fun _ _ _ => ⟨rfl, fun _ h => h⟩
  unfold movedRef
  dsimp only
  split
  · exact hplain _ _ _
  · split
    · exact (hplain _ _ _).trans (advanced_withHistory 7 _)
    · exact (hplain _ _ _).trans (advanced_withHistory 9 _)
    · exact hplain _ _ _

/-- Of the pool, at most the entry `r` has changed, and it keeps its settings and its history bits. -/
structure Advances (r : Nat) (s t : State) : Prop where
  others : ∀ q, r ≠ q → t.refEntry q = s.refEntry q
  own    : Advanced (s.refEntry r) (t.refEntry r)
  cpx    : t.cpx = s.cpx

section
variable {r : Nat} {s t u : State}

theorem Advances.refl (r : Nat) (s : State) : Advances r s s := ⟨fun _ _ => rfl, .refl _, rfl⟩

theorem Advances.trans (h : Advances r s t) (g : Advances r t u) : Advances r s u :=
  ⟨fun q hq => (g.others q hq).trans (h.others q hq), h.own.trans g.own, g.cpx.trans h.cpx⟩

theorem Advances.of_rim (hr : t.rim = s.rim) (hc : t.cpx = s.cpx) : Advances r s t :=
  ⟨fun q _ => refEntry_of_rim hr q, by rw [refEntry_of_rim hr]; exact .refl _, hc⟩

theorem Serves.advances (h : Serves s t) : Advances r s t := .of_rim h.only.rim h.only.cpx
theorem ServoOnly.advances (h : ServoOnly s t) : Advances r s t := .of_rim h.rim h.cpx

theorem Advances.ite {c : Prop} [Decidable c] (h : c → Advances r s t) (g : ¬c → Advances r s u) :
    Advances r s (if c then t else u) := by
  split
  next hc => exact h hc
  next hc => exact g hc

end

theorem advances_setRef (r : Nat) (f : RefEntry → RefEntry) (s : State) (hf : Advanced (s.refEntry r) (f (s.refEntry r))) :
    Advances r s (s.setRef r f) where
  others q hq := State.refEntry_setRef_ne _ _ _ _ hq
  own := by
    by_cases hr : r < 32
    · rw [State.refEntry_setRef _ _ _ hr]
      exact hf
    · rw [State.setRef, vmod_of_le _ _ _ (by omega)]
      exact .refl _
  cpx := rfl

theorem advances_setHistory (r n : Nat) (s : State) : Advances r s (setHistory r n s) :=
  (advances_setRef r _ s (advanced_withHistory n _)).trans (setHistory_serves r n s).advances

theorem advances_moveRef (r : Nat) (st : RefState) (s : State) : Advances r s (moveRef r st s) :=
  (advances_setRef r _ s (advanced_movedRef _ _ _)).trans (moveRef_serves r st s).advances

theorem advances_reviewRef (r : Nat) (s : State) : Advances r s (reviewRef r s) :=
  (advances_setRef r (reviewed s.cpx.impressions) s (advanced_movedRef _ _ _)).trans (reviewRef_servo r s).advances

theorem advances_risen (r n : Nat) (was is : Bool) (s : State) : Advances r s (risen r n was is s) :=
  .ite (fun _ => advances_setHistory r n s) fun _ => .refl r s

theorem advances_evalConditions (r : Nat) (s : State) : Advances r s (evalConditions r s) := by
  have hset := fun e' => advances_setRef r (fun _ => e') s
  have hrisen := fun n was is t (h : Advances r s t) => h.trans (advances_risen r n was is t)
  exact hrisen _ _ _ _ (hrisen _ _ _ _ (hrisen _ _ _ _ (hrisen _ _ _ _ (hset _ ⟨rfl, fun _ h => h⟩))))

/-! The time of day of an entry notes at most a mismatch in its history -/

/-- Of the pool, at most the history of the entry `r` has changed. -/
structure Noted (r : Nat) (s t : State) : Prop where
  others : ∀ q, r ≠ q → t.refEntry q = s.refEntry q
  own : t.refEntry r = { s.refEntry r with history := (t.refEntry r).history, histNow := (t.refEntry r).histNow }
  history  : ∀ n, (s.refEntry r).history.getLsbD n = true → (t.refEntry r).history.getLsbD n = true

section
variable {r : Nat} {s t u : State}

theorem Noted.of_rim (h : t.rim = s.rim) : Noted r s t where
  others q _ := refEntry_of_rim h q
  own := by rw [refEntry_of_rim h]
  history n hn := by rw [refEntry_of_rim h]; exact hn

theorem Noted.trans (h : Noted r s t) (g : Noted r t u) : Noted r s u where
  others q hq := (g.others q hq).trans (h.others q hq)
  own := by rw [g.own, h.own]
  history n hn := g.history n (h.history n hn)

theorem Noted.ite {c : Prop} [Decidable c] (h : Noted r s t) (g : Noted r s u) : Noted r s (if c then t else u) := by
  split <;> assumption

end

theorem noted_setHistory (r n : Nat) (s : State) : Noted r s (setHistory r n s) := by
  have hset : Noted r s (s.setRef r (withHistory n)) := {
    others := fun q hq => State.refEntry_setRef_ne _ _ _ _ hq
    own := by
      by_cases hr : r < 32
      · rw [State.refEntry_setRef _ _ _ hr]
        rfl
      · rw [State.setRef, vmod_of_le _ _ _ (by omega)]
    history := (advances_setRef r _ s (advanced_withHistory n _)).own.history }
  exact hset.trans (.of_rim (setHistory_serves r n s).only.rim)

theorem startSlew_rim (d ppb : Nat) (offset : Int) (s : State) : (startSlew d ppb offset s).rim = s.rim := by
  rcases startSlew_cases d ppb offset s with h | h <;> rw [h]
  · rfl
  · exact (pcuCount_service _ _ _ _).rim

theorem returnPolicy_rim (d : Nat) (o : Int) (s : State) : (returnPolicy d o s).rim = s.rim := by
  unfold returnPolicy
  dsimp only
  split
  · rfl
  · rfl
  · split
    · rfl
    · exact startSlew_rim _ _ _ _

theorem tryAdopt_rim (d : Nat) (s : State) : (tryAdopt d s).rim = s.rim := by
  unfold tryAdopt
  dsimp only
  split
  · rfl
  · split <;> rfl

theorem tryAdopt_timeSource (d : Nat) (s : State) : ((tryAdopt d s).domain d).timeSource = (s.domain d).timeSource := by
  rw [(localTo_tryAdopt d s).config]

theorem noted_checkTod (d : Nat) (s : State) (r : Fin 32) (hsrc : (s.domain d).timeSource = some r) : Noted r.val s (checkTod d s) := by
  unfold checkTod
  dsimp only
  rw [hsrc]
  dsimp only
  split
  · exact .of_rim rfl
  · refine .ite (.of_rim rfl) (.ite (noted_setHistory _ _ _) ((noted_setHistory _ _ _).trans (.of_rim (returnPolicy_rim _ _ _))))

theorem noted_followTod (d : Nat) (s : State) (r : Fin 32) (hsrc : (s.domain d).timeSource = some r) : Noted r.val s (followTod d s) :=
  (Noted.of_rim ((tryAdopt_rim d _).trans (dropAdopt_rim d s))).trans
    (noted_checkTod d _ r ((tryAdopt_timeSource d _).trans ((dropAdopt_timeSource d s).trans hsrc)))

theorem noted_spreadTod (r : Nat) (s : State) : Noted r s (spreadTod r s) :=
  forAll_keeps (Noted r s) 4 _ s (fun d t h => by
    split
    next hsrc =>
      obtain ⟨q, hq, hqr⟩ := (Option.any_eq_true _ _).mp hsrc
      obtain rfl : q.val = r := beq_iff_eq.mp hqr
      exact h.trans (noted_followTod d t q hq)
    · exact h) (.of_rim rfl)

/-- Beside the pool, a time of day changes the domains. -/
theorem spreadTod_frame (r : Nat) (s : State) :
    { spreadTod r s with mbx := s.mbx, intc := s.intc, pcu := s.pcu, tcr := s.tcr, rim := s.rim } = s :=
  forAll_keeps (fun t => { t with mbx := s.mbx, intc := s.intc, pcu := s.pcu, tcr := s.tcr, rim := s.rim } = s) 4 _ s (fun d t h => by
    split
    · exact (congrArg (fun u : State => { u with mbx := s.mbx, intc := s.intc, pcu := s.pcu, tcr := s.tcr, rim := s.rim })
        (localTo_followTod d t).frame).trans h
    · exact h) rfl

theorem advances_spreadTod (r : Nat) (s : State) : Advances r s (spreadTod r s) where
  others := (noted_spreadTod r s).others
  own := ⟨by rw [(noted_spreadTod r s).own]; rfl, (noted_spreadTod r s).history⟩
  cpx :=
    have h := congrArg State.cpx (spreadTod_frame r s)
    h

/-! The two jobs -/

/-- A job that sets an entry and lets it advance leaves every other entry. -/
theorem gives_of_advance (c : Job → Instr) (d : JobDef) (f : Params → RefEntry → RefEntry)
    (hc : ∀ j s, exec (c j) s = .next (directJob d j s))
    (hr : ∀ j s, accepted d j s = true → (jobParams d j s).u 4 1 < 32)
    (hrun : ∀ e j p, ∃ x, d.run e j p = done x ∧ Advances (p.u 4 1) (e.setRef (p.u 4 1) (f p)) x) :
    Gives c d same always fun p s t =>
      (∀ r : Fin 32, r.val ≠ p.u 4 1 → t.refEntry r.val = s.refEntry r.val) ∧
      ∀ r : Fin 32, r.val = p.u 4 1 → Advanced (f p (s.refEntry r.val)) (t.refEntry r.val) := by
  intro j s (ha : accepted d j s = true) _
  obtain ⟨e, he, hjob⟩ := directJob_answered d j s ha fun e he => by
    obtain ⟨x, hx, hadv⟩ := hrun e (takenJob d j s) (jobParams d j s)
    exact ⟨x, {}, hx, by decide, by rw [hadv.cpx]; exact effectState_list d j s ha e he⟩
  obtain ⟨x, hx, hadv⟩ := hrun e (takenJob d j s) (jobParams d j s)
  rw [hx] at hjob
  have hread : ∀ q, e.refEntry q = s.refEntry q := fun q => effect_read (fun t => t.refEntry q) d j s e he fun _ _ _ _ _ => rfl
  have hall := hadv.trans (.of_rim hjob.rim hjob.cpx)
  refine ⟨_, hc j s, fun r (hne : r.val ≠ (jobParams d j s).u 4 1) => ?_, fun r (heq : r.val = (jobParams d j s).u 4 1) => ?_⟩
  · exact (hall.others _ hne.symm).trans ((State.refEntry_setRef_ne _ _ _ _ hne.symm).trans (hread _))
  · have hown := hall.own
    rw [State.refEntry_setRef _ _ _ (hr j s ha), hread, ← heq] at hown
    exact hown

theorem refConfig_index (j : Job) (s : State) (ha : accepted refConfigDef j s = true) : (jobParams refConfigDef j s).u 4 1 < 32 :=
  Nat.lt_succ_of_le (accepted_index _ _ s 31 ha (fun _ h => nomatch h) (by simp [refConfigDef]))

theorem refSetThresholds_index (j : Job) (s : State) (ha : accepted refSetThresholdsDef j s = true) :
    (jobParams refSetThresholdsDef j s).u 4 1 < 32 :=
  Nat.lt_succ_of_le (accepted_index _ _ s 31 ha (fun _ h => nomatch h) (by simp [refSetThresholdsDef]))

theorem refConfig_advances (e : State) (j : Job) (p : Params) :
    ∃ x, refConfigDef.run e j p = done x ∧ Advances (p.u 4 1) (e.setRef (p.u 4 1) (configuredRef p)) x :=
  ⟨_, refConfig_run e j p, .trans (.ite (fun _ => ((refConfigured_serves p e).advances.trans (advances_moveRef _ _ _)).trans
    (advances_reviewRef _ _)) fun _ => (refConfigured_serves p e).advances) (advances_spreadTod _ _)⟩

/-- An entry with the thresholds of REF_SET_THRESHOLDS (R125). -/
def thresholdsSet (p : Params) (e : RefEntry) : RefEntry :=
  { e with losPeriods := p.u 5 1, pdvPop := p.u 6 2, qualS := p.u 8 4, freqWindow := p.u 12 4, freqSoft := p.u 16 4
           freqHard := p.u 20 4, driftWindow := p.u 24 4, driftPptS := p.u 28 4, phaseJumpNs := p.u 32 4
           pdvWindow := p.u 36 4, pdvSoftNs := p.u 40 4, pdvHardNs := p.u 44 4, driftClearS := p.u 48 4 }

theorem refSetThresholds_advances (e : State) (j : Job) (p : Params) : ∃ x, refSetThresholdsDef.run e j p = done x ∧
    Advances (p.u 4 1) (e.setRef (p.u 4 1) fun x => withHistory 14 (thresholdsSet p x)) x := by
  have hset : Serves (e.setRef (p.u 4 1) fun x => withHistory 14 (thresholdsSet p x))
      (setHistory (p.u 4 1) 14 (e.setRef (p.u 4 1) (thresholdsSet p))) := by
    rw [← setRef_setRef]
    exact setHistory_serves _ _ _
  exact ⟨_, rfl, hset.advances.trans (.ite (fun _ => (advances_evalConditions _ _).trans (advances_reviewRef _ _)) fun _ => .refl _ _)⟩

theorem withHistory_bit (n : Nat) (hn : n < 16) (e : RefEntry) : (withHistory n e).history.getLsbD n = true := by
  unfold withHistory
  rw [BitVec.getLsbD_or, BitVec.getLsbD_ofNat, Nat.testBit_two_pow_self]
  simp [hn]

/-- The settings of an entry are those of a REF_CONFIG (R122). -/
def ConfiguredAs (p : Params) (r : Nat) (e : RefEntry) : Prop :=
  e.enable = (p.u 5 1 == 1) ∧ e.todSource = p.opt 7 32 ∧ e.nominalMhz = p.u 8 8 ∧ e.singleEnded = (p.u 16 1 == 1) ∧
  e.falling = (p.u 17 1 == 1) ∧ e.irqMask = BitVec.ofNat 16 (p.u 18 2) ∧ e.timeUncPs = p.u 20 4 ∧ e.freqUncPpt = p.u 24 4 ∧
  e.integAction = Fin.ofNat 3 (p.u 28 1) ∧ (r < 12 → e.timeKind = (p.u 6 1 == 1))

theorem configuredRef_settings (p : Params) (e : RefEntry) : ConfiguredAs p (p.u 4 1) (configuredRef p e) := by
  unfold configuredRef
  split <;> exact ⟨rfl, rfl, rfl, rfl, rfl, rfl, rfl, rfl, rfl, fun h => if_pos h⟩

/-- The thresholds of an entry are those of a REF_SET_THRESHOLDS (R125). -/
def LimitedAs (p : Params) (enable : Bool) (e : RefEntry) : Prop :=
  e.losPeriods = p.u 5 1 ∧ e.pdvPop = p.u 6 2 ∧ e.qualS = p.u 8 4 ∧ e.freqWindow = p.u 12 4 ∧ e.freqSoft = p.u 16 4 ∧
  e.freqHard = p.u 20 4 ∧ e.driftWindow = p.u 24 4 ∧ e.driftPptS = p.u 28 4 ∧ e.phaseJumpNs = p.u 32 4 ∧
  e.pdvWindow = p.u 36 4 ∧ e.pdvSoftNs = p.u 40 4 ∧ e.pdvHardNs = p.u 44 4 ∧ e.driftClearS = p.u 48 4 ∧ e.enable = enable

/-- Settles O13: the settings stand, CONFIG_CHANGED is noted, and what follows (a review, a time of day) keeps both. -/
theorem referenceSettingsAreLocal : Obligations.ReferenceSettingsAreLocal := by
  refine ⟨fun j s ha hh => ?_, fun j s ha hh => ?_⟩
  · obtain ⟨t, ht, hothers, hown⟩ := gives_of_advance .refConfig refConfigDef configuredRef (fun _ _ => rfl) refConfig_index
      refConfig_advances j s ha hh
    refine ⟨t, ht, hothers, fun r hr => ?_⟩
    have hadv := hown r hr
    obtain ⟨hen, htod, hnom, hse, hfall, hirq, htime, hfreq, hinteg, hkind⟩ :=
      hadv.holds (ConfiguredAs _ r.val) (fun _ => .rfl) (hr ▸ configuredRef_settings _ _)
    exact ⟨hen, htod, hnom, hse, hfall, hirq, htime, hfreq, hinteg, hkind, hadv.history 14 (withHistory_bit 14 (by decide) _)⟩
  · obtain ⟨t, ht, hothers, hown⟩ := gives_of_advance .refSetThresholds refSetThresholdsDef
      (fun p e => withHistory 14 (thresholdsSet p e)) (fun _ _ => rfl) refSetThresholds_index refSetThresholds_advances j s ha hh
    refine ⟨t, ht, hothers, fun r hr => ?_⟩
    have hadv := hown r hr
    obtain ⟨hlos, hpop, hqual, hwin, hsoft, hhard, hdwin, hdrift, hjump, hpwin, hpsoft, hphard, hclear, hen⟩ :=
      hadv.holds (LimitedAs _ (s.refEntry r.val).enable) (fun _ => .rfl) ⟨rfl, rfl, rfl, rfl, rfl, rfl, rfl, rfl, rfl, rfl, rfl, rfl, rfl, rfl⟩
    exact ⟨hlos, hpop, hqual, hwin, hsoft, hhard, hdwin, hdrift, hjump, hpwin, hpsoft, hphard, hclear, hen,
      hadv.history 14 (withHistory_bit 14 (by decide) _)⟩

/-! ### Reference events (O41) -/

theorem movedRef_st (now : Nat) (st : RefState) (e : RefEntry) : (movedRef now st e).st = st := by
  unfold movedRef
  dsimp only
  split
  · rfl
  · split <;> rfl

theorem Noted.entry {r : Nat} {s t : State} (h : Noted r s t) :
    ∃ history histNow, t.refEntry r = { s.refEntry r with history := history, histNow := histNow } := ⟨_, _, h.own⟩

/-- What an entry shows after a review, beside its state: what its settings and measurements decide. -/
theorem reviewRef_entry (r : Nat) (s : State) (hr : r < 32) :
    (reviewRef r s).refEntry r = reviewed s.cpx.impressions (s.refEntry r) := by
  rw [refEntry_of_rim (reviewRef_servo r s).rim, State.refEntry_setRef _ _ _ hr]

/-! REF_EDGE -/

/-- An edge with its stamp at an entry (R123, R124). -/
def stampedRef (mark : ℚ) (stamp : Nat) (jump : Bool) (e : RefEntry) : RefEntry :=
  { e with jumpNow := jump, lastStamp := some mark, lastEdge := some (stamp / 128), edges := e.edges + 1
           firstStamp := if e.firstStamp.isNone then some mark else e.firstStamp }

/-- Something arrives at an entry. -/
def arrivedRef (e : RefEntry) : RefEntry := { e with los := false, arrived := true }

/-- The stamp of an edge stands in its entry. -/
def stamped (r stamp : Nat) (s : State) : State :=
  (risen r 4 (s.refEntry r).jumpNow (phaseJumped s r stamp) s).setRef r
    (stampedRef (unsteered s ((stamp : ℚ) / 128)) stamp (phaseJumped s r stamp))

/-- The measurements of an edge stand, before the review of the entry. -/
def edged (r stamp : Nat) (s : State) : State :=
  (if (s.refEntry r).timeKind then timeEdge r stamp (stamped r stamp s) else stamped r stamp s).setRef r arrivedRef

theorem exec_refEdge (r : Fin 16) (stamp : Nat) (s : State) (hrun : s.blockRuns 5 = true) (hen : (s.refEntry r.val).enable = true)
    (hsq : r.val < 12 ∨ squelched s (r.val - 12) = false) :
    exec (.refEdge r stamp) s = .next (spreadTod r.val (reviewRef r.val (edged r.val stamp s))) := by
  have hpass : ¬(!(s.blockRuns 5 && (s.refEntry r.val).enable) || (decide (12 ≤ r.val) && squelched s (r.val - 12))) = true := by
    rcases hsq with h | h <;> simp [hrun, hen, h]
  exact congrArg Host.Outcome.next (if_neg hpass)

/-- What an edge shows in its entry (R123, R124). -/
def EdgeShown (mark : ℚ) (stamp : Nat) (jump : Bool) (e e' : RefEntry) : Prop :=
  e'.lastStamp = some mark ∧ e'.lastEdge = some (stamp / 128) ∧ e'.edges = e.edges + 1 ∧ e'.los = false ∧ e'.arrived = true ∧
  e'.firstStamp = (if e.firstStamp.isNone then some mark else e.firstStamp) ∧ e'.jumpNow = jump ∧
  (e.timeKind = true → ∃ q, e'.lag = some (q, stamp / 128))

theorem noted_risen (r n : Nat) (was is : Bool) (s : State) : Noted r s (risen r n was is s) :=
  .ite (noted_setHistory r n s) (.of_rim rfl)

theorem edged_entry (r stamp : Nat) (s : State) (hr : r < 32) :
    EdgeShown (unsteered s ((stamp : ℚ) / 128)) stamp (phaseJumped s r stamp) (s.refEntry r) ((edged r stamp s).refEntry r) ∧
    ((edged r stamp s).refEntry r).st = (s.refEntry r).st ∧ ((edged r stamp s).refEntry r).enable = (s.refEntry r).enable := by
  obtain ⟨history, histNow, hrisen⟩ := (noted_risen r 4 (s.refEntry r).jumpNow (phaseJumped s r stamp) s).entry
  have hstamped : (stamped r stamp s).refEntry r = stampedRef (unsteered s ((stamp : ℚ) / 128)) stamp (phaseJumped s r stamp)
      { s.refEntry r with history := history, histNow := histNow } := by
    unfold stamped
    rw [State.refEntry_setRef _ _ _ hr, hrisen]
  unfold edged
  rw [State.refEntry_setRef _ _ _ hr]
  split
  next hkind =>
    unfold timeEdge
    rw [State.refEntry_setRef _ _ _ hr, hstamped]
    exact ⟨⟨rfl, rfl, rfl, rfl, rfl, rfl, rfl, fun _ => ⟨_, rfl⟩⟩, rfl, rfl⟩
  next hkind =>
    rw [hstamped]
    exact ⟨⟨rfl, rfl, rfl, rfl, rfl, rfl, rfl, fun h => absurd h hkind⟩, rfl, rfl⟩

theorem edged_others (r stamp q : Nat) (s : State) (hq : r ≠ q) : (edged r stamp s).refEntry q = s.refEntry q := by
  have hstamped : (stamped r stamp s).refEntry q = s.refEntry q := by
    unfold stamped
    rw [State.refEntry_setRef_ne _ _ _ _ hq, (noted_risen _ _ _ _ _).others q hq]
  unfold edged
  rw [State.refEntry_setRef_ne _ _ _ _ hq]
  split
  · unfold timeEdge
    rw [State.refEntry_setRef_ne _ _ _ _ hq, hstamped]
  · exact hstamped

/-- Where something arrives, an entry that was UNQUALIFIED is QUALIFYING (R127). -/
theorem reviewedState_arrival (e : RefEntry) (hen : e.enable = true) (hlos : e.los = false) (hst : e.st = .unqualified) :
    reviewedState e = .qualifying := by
  simp [reviewedState, hen, hst, hlos]

/-- A hard condition disqualifies (R127). -/
theorem reviewedState_hard (e : RefEntry) (hen : e.enable = true) (hhard : hardNow e = true) (hst : e.st ≠ .unqualified) :
    reviewedState e = .disqualified := by
  cases h : e.st <;> simp_all [reviewedState]

theorem refEdge_leads (r : Fin 16) (stamp : Nat) : Leads (.refEdge r stamp)
    (fun s => s.blockRuns 5 = true ∧ (s.refEntry r.val).enable = true ∧ (r.val < 12 ∨ squelched s (r.val - 12) = false))
    (fun s t =>
      EdgeShown (unsteered s ((stamp : ℚ) / 128)) stamp (phaseJumped s r.val stamp) (s.refEntry r.val) (t.refEntry r.val) ∧
      ((s.refEntry r.val).st = .unqualified → (t.refEntry r.val).st = .qualifying) ∧
      (phaseJumped s r.val stamp = true → (s.refEntry r.val).st ≠ .unqualified → (t.refEntry r.val).st = .disqualified) ∧
      ∀ q : Fin 32, q.val ≠ r.val → t.rim.ref[q] = s.rim.ref[q]) := by
  intro s ⟨hrun, hen, hsq⟩
  have hr : r.val < 32 := by omega
  obtain ⟨hshown, hst, hen'⟩ := edged_entry r.val stamp s hr
  have hreview := reviewRef_entry r.val (edged r.val stamp s) hr
  have hspread := noted_spreadTod r.val (reviewRef r.val (edged r.val stamp s))
  have hstate : ((spreadTod r.val (reviewRef r.val (edged r.val stamp s))).refEntry r.val).st =
      reviewedState ((edged r.val stamp s).refEntry r.val) := by
    rw [hspread.own, hreview]
    exact movedRef_st _ _ _
  have hkeeps := (advances_reviewRef r.val (edged r.val stamp s)).trans (advances_spreadTod r.val _)
  have ⟨_, _, _, hlos, _, _, hjump, _⟩ := hshown
  refine ⟨_, exec_refEdge r stamp s hrun hen hsq, hkeeps.own.holds (EdgeShown _ _ _ _) (fun _ => .rfl) hshown, fun h => ?_,
    fun hj h => ?_, fun q hq => ?_⟩
  · rw [hstate, reviewedState_arrival _ (hen'.trans hen) hlos (hst.trans h)]
  · exact hstate.trans (reviewedState_hard _ (hen'.trans hen) (by simp [hardNow, hjump, hj]) (hst ▸ h))
  · rw [← State.refEntry_fin, ← State.refEntry_fin, hkeeps.others _ hq.symm, edged_others _ _ _ _ hq.symm]

/-! REF_LOS -/

theorem advance_rim (n : Nat) (s : State) : (advance n s).rim = s.rim := by
  unfold advance
  dsimp only
  split <;> rfl

theorem cycles_le_advance (n : Nat) (s : State) : s.tcr.cycles ≤ (advance n s).tcr.cycles := by
  unfold advance
  dsimp only
  split
  · exact le_rfl
  · exact Nat.le_add_right _ _

theorem runOn_rim (p : Nat → Bool) (s : State) : (runOn p s).rim = s.rim := by
  unfold runOn
  split
  · exact (pcuCount_service _ _ _ _).rim.trans (advance_rim _ s)
  · rfl

theorem cycles_le_runOn (p : Nat → Bool) (s : State) : s.tcr.cycles ≤ (runOn p s).tcr.cycles := by
  unfold runOn
  split
  · exact (cycles_le_advance _ s).trans (congrArg Tcr.cycles (pcuCount_service _ _ _ _).tcr).ge
  · exact le_rfl

/-- A loss at its time: time may have run on, and the pool is as it was. -/
theorem exec_refLos (r : RefId) (s : State) (hrun : s.blockRuns 5 = true) (hen : s.rim.ref[r].enable = true)
    (hlos : s.rim.ref[r].los = false)
    (hdue : (12 ≤ r.val ∧ r.val < 16 ∧ squelched s (r.val - 12) = true) ∨ ∃ c, losCycle s r.val = some c ∧ c ≤ s.tcr.cycles) :
    ∃ x : State, x.rim = s.rim ∧ exec (.refLos r) s = .next (loseRef r.val x) := by
  rw [← State.refEntry_fin] at hen hlos
  have hpass : ¬(!(s.blockRuns 5 && (s.refEntry r.val).enable) || (s.refEntry r.val).los) = true := by simp [hrun, hen, hlos]
  by_cases hsq : 12 ≤ r.val ∧ r.val < 16 ∧ squelched s (r.val - 12) = true
  · exact ⟨s, rfl, congrArg Host.Outcome.next ((if_neg hpass).trans (if_pos hsq))⟩
  · obtain ⟨c, hc, hle⟩ := hdue.resolve_left hsq
    refine ⟨if s.clocked then runOn (fun n => decide (c ≤ s.tcr.cycles + n)) s else s, ?_,
      congrArg Host.Outcome.next ((if_neg hpass).trans ((if_neg hsq).trans ?_))⟩
    · split
      · exact runOn_rim _ s
      · rfl
    · rw [hc]
      dsimp only
      refine if_pos ?_
      split
      · exact hle.trans (cycles_le_runOn _ s)
      · exact hle

/-- An entry that its signal has left. -/
def lostRef (e : RefEntry) : RefEntry := withHistory 0 { e with los := true }

theorem loseRef_entry (r : Nat) (s : State) (hr : r < 32) (hlos : (s.refEntry r).los = false) :
    ∃ now, (loseRef r s).refEntry r = reviewed now (lostRef (s.refEntry r)) := by
  have hnote : loseRef r s = reviewRef r (setHistory r 0 (s.setRef r fun e => { e with los := true })) :=
    congrArg (reviewRef r) (if_pos (by simp [hlos]))
  have hmark := (setHistory_serves r 0 (s.setRef r fun e => { e with los := true })).only.rim
  rw [hnote, reviewRef_entry _ _ hr, refEntry_of_rim hmark, setRef_setRef, State.refEntry_setRef _ _ _ hr]
  exact ⟨_, rfl⟩

theorem loseRef_others (r q : Nat) (s : State) (hq : r ≠ q) : (loseRef r s).refEntry q = s.refEntry q := by
  unfold loseRef
  dsimp only
  rw [(advances_reviewRef r _).others q hq, (noted_risen r 0 _ _ _).others q hq, State.refEntry_setRef_ne _ _ _ _ hq]

/-- A lost entry is UNQUALIFIED where it was, and else DISQUALIFIED (R127). -/
theorem reviewedState_lost (e : RefEntry) (hen : e.enable = true) :
    reviewedState (lostRef e) = if e.st = .unqualified then .unqualified else .disqualified := by
  split
  next hst => simp [reviewedState, lostRef, withHistory, hen, hst]
  next hst => exact reviewedState_hard _ hen (by simp [hardNow, lostRef, withHistory]) hst

theorem refLos_same (r : RefId) : Sets (.refLos r) (fun s => s.rim.ref[r].los = true) id := fun s h => by
  have hlos : s.rim.ref[r].los = true := h
  rw [← State.refEntry_fin] at hlos
  exact congrArg Host.Outcome.next (if_pos (by simp [hlos]))

/-- A move notes DISQUALIFIED (R128). -/
theorem movedRef_disqualified (now : Nat) (e : RefEntry) (h : e.st ≠ .disqualified) :
    (movedRef now .disqualified e).history.getLsbD 9 = true := by
  unfold movedRef
  dsimp only
  rw [if_neg h]
  exact withHistory_bit 9 (by decide) _

theorem refLos_leads (r : RefId) : Leads (.refLos r)
    (fun s => s.blockRuns 5 = true ∧ s.rim.ref[r].enable = true ∧ s.rim.ref[r].los = false ∧
      ((12 ≤ r.val ∧ r.val < 16 ∧ squelched s (r.val - 12) = true) ∨ ∃ c, losCycle s r.val = some c ∧ c ≤ s.tcr.cycles))
    (fun s t =>
      let e := s.rim.ref[r]
      t.rim.ref[r].los = true ∧ t.rim.ref[r].st = (if e.st = .unqualified then .unqualified else .disqualified) ∧
      t.rim.ref[r].history.getLsbD 0 = true ∧
      (e.st ≠ .unqualified → e.st ≠ .disqualified → t.rim.ref[r].history.getLsbD 9 = true) ∧
      ∀ q : Fin 32, q ≠ r → t.rim.ref[q] = s.rim.ref[q]) := by
  intro s ⟨hrun, hen, hlos, hdue⟩
  obtain ⟨x, hx, ht⟩ := exec_refLos r s hrun hen hlos hdue
  refine ⟨_, ht, ?_⟩
  simp only [← State.refEntry_fin] at hen hlos ⊢
  rw [← refEntry_of_rim hx] at hen hlos ⊢
  obtain ⟨now, hentry⟩ := loseRef_entry r.val x r.isLt hlos
  have hadv : Advanced (lostRef (x.refEntry r.val)) ((loseRef r.val x).refEntry r.val) := hentry ▸ advanced_movedRef _ _ _
  have hstate := reviewedState_lost (x.refEntry r.val) hen
  refine ⟨hadv.holds (fun e => e.los = true) (fun _ => .rfl) rfl, ?_, hadv.history 0 (withHistory_bit 0 (by decide) _),
    fun hne hnd => ?_, fun q hq => ?_⟩
  · rw [hentry, ← hstate]
    exact movedRef_st _ _ _
  · rw [hentry, reviewed, hstate, if_neg hne]
    exact movedRef_disqualified _ _ hnd
  · rw [loseRef_others _ _ _ fun h => hq (Fin.ext h.symm), refEntry_of_rim hx]

/-! QUALIFICATION_END, DRIFT_CLEAR, WTR_EXPIRY -/

/-- Wait-to-restore of an entry counts anew (R135). -/
theorem clearRestored_eq (r : Nat) (s : State) : clearRestored r s = { s with dsb := { s.dsb with
    dpll := mapFirst 8 (fun _ x => { x with restored := x.restored.filter fun c => c.val != r }) s.dsb.dpll } } :=
  forAll_setDpll _ 8 s

/-- UTC information changes the domains alone (R97). -/
theorem giveUtc_tcr (r : Nat) (s : State) : giveUtc r s = { s with tcr := (giveUtc r s).tcr } := by
  unfold giveUtc
  dsimp only
  split
  · rfl
  · split
    · rfl
    · exact forAll_keeps (fun t => t = { s with tcr := t.tcr }) 4 _ s (fun d t h => by
        split
        · rw [h]
          rfl
        · exact h) rfl

theorem movedRef_qualified (now : Nat) (e : RefEntry) (h : e.st ≠ .qualified) :
    (movedRef now .qualified e).clean = 0 ∧ (movedRef now .qualified e).qualifiedAt = now ∧
      (movedRef now .qualified e).history.getLsbD 7 = true := by
  unfold movedRef
  dsimp only
  rw [if_neg h]
  exact ⟨if_neg h, if_pos ⟨h, rfl⟩, withHistory_bit 7 (by decide) _⟩

/-- What an entry shows that has become QUALIFIED, and what the DPLLs take from it (R127, R128, R135). -/
def Qualified (r : RefId) (s t : State) : Prop :=
  t.rim.ref[r].st = .qualified ∧ t.rim.ref[r].clean = 0 ∧ t.rim.ref[r].qualifiedAt = s.cpx.impressions ∧
  t.rim.ref[r].history.getLsbD 7 = true ∧ (∀ q : Fin 32, q ≠ r → t.rim.ref[q] = s.rim.ref[q]) ∧
  ∀ k : Fin 8, t.dsb.dpll[k] = { s.dsb.dpll[k] with restored := s.dsb.dpll[k].restored.filter fun c => c != r }

/-- Beside the pool and the domains, an entry that becomes QUALIFIED has its wait-to-restore counted anew. -/
theorem qualify_dsb (r : RefId) (s : State) (k : Fin 8) : (qualify r.val s).dsb.dpll[k] =
    { s.dsb.dpll[k] with restored := s.dsb.dpll[k].restored.filter fun c => c != r } := by
  have hspread : (qualify r.val s).dsb = (giveUtc r.val (clearRestored r.val (moveRef r.val .qualified s))).dsb :=
    have h := congrArg State.dsb (spreadTod_frame r.val (giveUtc r.val (clearRestored r.val (moveRef r.val .qualified s))))
    h
  have hgive : (giveUtc r.val (clearRestored r.val (moveRef r.val .qualified s))).dsb =
      (clearRestored r.val (moveRef r.val .qualified s)).dsb := by rw [giveUtc_tcr]
  have hmove : (moveRef r.val .qualified s).dsb = s.dsb := by
    rw [(moveRef_serves r.val .qualified s).frame]
    rfl
  have hfilter : (fun c : Fin 32 => c.val != r.val) = fun c => c != r := funext fun c => by
    rw [Bool.eq_iff_iff, bne_iff_ne, bne_iff_ne, Ne, Ne, Fin.ext_iff]
  rw [hspread, hgive, clearRestored_eq, hmove, hfilter]
  simp [mapFirst]

theorem qualify_noted (r : Nat) (s : State) : Noted r (s.setRef r (movedRef s.cpx.impressions .qualified)) (qualify r s) := by
  have hmove : (moveRef r .qualified s).rim = (s.setRef r (movedRef s.cpx.impressions .qualified)).rim :=
    (moveRef_serves r .qualified s).only.rim
  have hclear : (clearRestored r (moveRef r .qualified s)).rim = (moveRef r .qualified s).rim := by rw [clearRestored_eq]
  have hgive : (giveUtc r (clearRestored r (moveRef r .qualified s))).rim = (clearRestored r (moveRef r .qualified s)).rim := by
    rw [giveUtc_tcr]
  exact (Noted.of_rim (hgive.trans (hclear.trans hmove))).trans (noted_spreadTod r _)

theorem qualify_qualified (r : RefId) (s : State) (h : s.rim.ref[r].st ≠ .qualified) : Qualified r s (qualify r.val s) := by
  have hnoted := qualify_noted r.val s
  have hown := hnoted.own
  have hbit := hnoted.history 7
  rw [← State.refEntry_fin] at h
  obtain ⟨hclean, hat, hhist⟩ := movedRef_qualified s.cpx.impressions _ h
  rw [State.refEntry_setRef _ _ _ r.isLt] at hown hbit
  refine ⟨?_, ?_, ?_, ?_, fun q hq => ?_, qualify_dsb r s⟩
  · rw [← State.refEntry_fin, hown]
    exact movedRef_st _ _ _
  · rw [← State.refEntry_fin, hown]
    exact hclean
  · rw [← State.refEntry_fin, hown]
    exact hat
  · rw [← State.refEntry_fin]
    exact hbit hhist
  · have hne : r.val ≠ q.val := fun h => hq (Fin.ext h.symm)
    rw [← State.refEntry_fin, ← State.refEntry_fin, hnoted.others _ hne, State.refEntry_setRef_ne _ _ _ _ hne]

theorem qualificationEnd_leads (r : RefId) : Leads (.qualificationEnd r)
    (fun s => let e := s.rim.ref[r]; e.st = .qualifying ∧ hardNow e = false ∧ softNow e = false ∧ e.qualS ≤ e.clean) (Qualified r) := by
  intro s ⟨hst, hhard, hsoft, hclean⟩
  refine ⟨_, congrArg Host.Outcome.next (if_pos ?_), qualify_qualified r s fun h => RefState.noConfusion (hst.symm.trans h)⟩
  rw [hst, hhard, hsoft, decide_eq_true hclean]
  rfl

theorem driftClear_leads (r : RefId) : Leads (.driftClear r)
    (fun s => let e := s.rim.ref[r]; e.st = .drifting ∧ hardNow e = false ∧ softNow e = false ∧ e.driftClearS ≤ e.clean) (Qualified r) := by
  intro s ⟨hst, hhard, hsoft, hclean⟩
  refine ⟨_, congrArg Host.Outcome.next (if_pos ?_), qualify_qualified r s fun h => RefState.noConfusion (hst.symm.trans h)⟩
  rw [hst, hhard, hsoft, decide_eq_true hclean]
  rfl

theorem wtrExpiry_sets (k : DpllId) (r : RefId) : Sets (.wtrExpiry k r)
    (fun s => s.dsb.dpll[k].cands.contains r = true ∧ selectable s r.val = true ∧ waited s k.val r = true ∧
      s.dsb.dpll[k].restored.contains r = false)
    (fun s => s.setDpll k.val fun x => { x with restored := x.restored ++ [r] }) := by
  intro s ⟨hcand, hsel, hwaited, hrest⟩
  refine congrArg Host.Outcome.next (if_pos ?_)
  rw [State.dpllOf_fin, hcand, hsel, hwaited, hrest]
  rfl

/-- Settles O41: an edge or a loss sets the conditions of its entry and moves it; a clean time qualifies it. -/
theorem referenceEventsAct : Obligations.ReferenceEventsAct := by
  refine ⟨fun r stamp s hs => ?_, refLos_same, refLos_leads, fun r => ⟨qualificationEnd_leads r, driftClear_leads r⟩, wtrExpiry_sets⟩
  obtain ⟨t, ht, ⟨hstamp, hedge, hedges, hlos, harr, hfirst, hjump, hlag⟩, hun, hdis, hothers⟩ := refEdge_leads r stamp s hs
  exact ⟨t, ht, hstamp, hedge, hedges, hlos, harr, hfirst, hjump, hun, hdis, hlag, hothers⟩

/-! ### Switch events (O42) -/

/-- A switch to reference 3 that was decided at impression 0. -/
def decidedSwitch : Switch := { target := 3, decidedAt := 0 }

/-- DPLL 0 free-runs steered, with that switch before its freeze; it disciplines domain 0. The impression began one cycle ago
and no span of time is kept, so that the present rate of a domain gives its time at the beginning. No run leads to it, since
a run keeps the spans of its latest 2 ms, but the statement does not say so. -/
def steeredFreerun : State :=
  { cpx := { impressions := 1 }
    tcr := { cycles := 1, began := 0, past := []
             dom := Vector.ofFn fun d => if d.val = 0 then { dpll := some 0, count := 10 ^ 42 } else {} }
    rim := { ref := Vector.ofFn fun r => if r.val = 3 then { enable := true, st := .qualified } else {} }
    dsb := { dpll := Vector.ofFn fun k => if k.val = 0 then { st := .freerun, steer := 1000000, sw := some decidedSwitch } else {} } }

/-- The counts that a freeze holds. -/
def frozenCounts (x : Dpll) : List Nat := (x.sw.map Switch.counts).getD []

/-- The counts of a freeze are taken after the move to SWITCHING, which has cleared the steering value: domain 0's time one
cycle ago is reckoned without it, and in the state before with it. -/
theorem steeredFreerun_frozenCounts (t : State) (h : exec (.switchFreeze 0) steeredFreerun = .next t) :
    frozenCounts t.dsb.dpll[(0 : DpllId)] ≠ (List.range 4).map fun d => timeAtMark steeredFreerun d (128 * steeredFreerun.tcr.began) := by
  rw [← Host.Outcome.next.inj h]
  decide +kernel

/-- Refutes O42: at a freeze that leaves FREERUN or HOLDOVER, the domains' times are those after the steering value has been
cleared, not those of the state before, where they are reckoned by the present rate. -/
theorem not_switchEventsAct : ¬ Obligations.SwitchEventsAct := by
  unfold Obligations.SwitchEventsAct
  rintro ⟨-, hswitch, -⟩
  obtain ⟨hfreeze, -⟩ := hswitch 0 decidedSwitch
  obtain ⟨t, ht, hdpll, -⟩ := hfreeze steeredFreerun ⟨by decide +kernel, rfl, by decide +kernel, by decide +kernel⟩
  refine steeredFreerun_frozenCounts t ht ?_
  rw [hdpll]
  rfl

end Sys2Proof.Machine

/-! ## The receiver (O29, O43) -/

namespace Sys2Proof.Machine

/-! ### Updates of the receiver -/

/-- A change of the receiver, which may look at anything but the services, leaves them. -/
theorem quietEffect_setGtr (f : State → Gtr → Gtr)
    (hf : ∀ (s : State) m i q, f { s with mbx := m, intc := i, pcu := q } = f s) : QuietEffect fun s => s.setGtr (f s) where
  map s m i q := by rw [hf]; rfl
  list _ := rfl
  phase _ := rfl
  post _ := rfl
  spi _ := rfl

theorem setGtr_congr (s : State) (f f' : Gtr → Gtr) (h : f s.gtr = f' s.gtr) : s.setGtr f = s.setGtr f' :=
  congrArg (fun g => { s with gtr := g }) h

theorem ServiceOnly.gtr {s t : State} (h : ServiceOnly s t) : t.gtr = s.gtr := by rw [h]

theorem ServiceOnly.setGtr {s t : State} (h : ServiceOnly s t) (f : Gtr → Gtr) : ServiceOnly (s.setGtr f) (t.setGtr f) :=
  serviceOnly_map (fun s => s.setGtr f) (fun _ _ _ _ => rfl) h

theorem Serves.setGtr {s t : State} (h : Serves s t) (f : Gtr → Gtr) : Serves (s.setGtr f) (t.setGtr f) :=
  h.quiet _ (quietEffect_setGtr (fun _ => f) fun _ _ _ _ => rfl)

/-- A move of the receiver changes its state, and raises interrupts. -/
theorem moveGnss_serves (st : GnssState) (s : State) : Serves (s.setGtr fun g => { g with st := st }) (moveGnss st s) := by
  unfold moveGnss
  split
  next h =>
    rw [← h]
    exact .refl s
  · exact raiseIrq_serves _ _

/-- The receiver as it starts again (R174, R177). -/
def restartedGtr (g : Gtr) : Gtr :=
  { g with st := if g.cfg.enable then .search else .idle, channels := [], used := [], epoch := none, survey := none
           valid16 := false, valid17 := false, cn0For := 0, posFor := 0, phase := none, cross := [] }

theorem restartGnss_serves (s : State) : Serves (s.setGtr restartedGtr) (restartGnss s) :=
  moveGnss_serves (if s.gtr.cfg.enable then .search else .idle) (s.setGtr fun g => { restartedGtr g with st := g.st })

/-! ### GNSS_CONFIG -/

/-- The front-end list after a GNSS_CONFIG (R174). -/
def frontEndList (j : Job) (g : Gtr) : List (BitVec 16 × Byte) := if j.dma then feWrites j.block else g.feList

/-- The settings of a GNSS_CONFIG stand (R174). -/
def gnssSettings (j : Job) (p : Params) (g : Gtr) : Gtr :=
  let c := gnssCfgOf p
  let o := g.cfg
  let filter := c.systems != o.systems || c.timescale != o.timescale || c.domain != o.domain
  { g with cfg := c, feList := frontEndList j g, nextLimits := some (limitsOf p), restarted := g.restarted || filter
           feFault := g.feFault && c.feReg.isSome
           bias := if filter then Vector.replicate 2 [] else g.bias
           noise := if c.enable && !o.enable then Vector.replicate 2 ([], []) else g.noise
           notch := if c.enable then g.notch
             else g.notch.map fun v => v.map (fun (n : Notch) => ({ n with holds := none } : Notch)) }

/-- The writes of the front-end list have gone out (R156). -/
def sentGtr (g : Gtr) : Gtr := { g with feSent := g.feSent ++ g.feList.map fun x => feTransfer false x.1 x.2 }

/-- A GNSS_CONFIG starts the receiver again (R174). -/
def gnssFresh (j : Job) (p : Params) (g : Gtr) : Bool :=
  let c := gnssCfgOf p
  let o := g.cfg
  c.enable != o.enable || c.lower != o.lower || c.ifOffset0 != o.ifOffset0 || c.ifOffset1 != o.ifOffset1 ||
    frontEndList j g != g.feList

/-- The settings of a GNSS_CONFIG stand, and its front-end writes have gone out. -/
def gnssSent (j : Job) (p : Params) (g : Gtr) : Gtr :=
  if j.dma then sentGtr (gnssSettings j p g) else gnssSettings j p g

/-- The receiver after a GNSS_CONFIG. -/
def gnssConfigured (j : Job) (p : Params) (g : Gtr) : Gtr :=
  if gnssFresh j p g then restartedGtr (gnssSent j p g) else gnssSent j p g

theorem gnssConfig_run (e : State) (j : Job) (p : Params) : ∃ y, Serves (e.setGtr (gnssSent j p)) y ∧
    gnssConfigDef.run e j p = done (if gnssFresh j p e.gtr then restartGnss y else y) := by
  refine ⟨_, ?_, rfl⟩
  have hsent : e.setGtr (gnssSent j p) =
      if j.dma then sendFrontEnd (e.setGtr (gnssSettings j p)) else e.setGtr (gnssSettings j p) := by
    unfold gnssSent
    split <;> rfl
  rw [hsent]
  exact .ite (.refl _) (pcuCount_serves _ _ _ _)

theorem gnssConfig_serves (e : State) (j : Job) (p : Params) :
    ∃ x, gnssConfigDef.run e j p = done x ∧ Serves (e.setGtr (gnssConfigured j p)) x := by
  obtain ⟨y, hy, hrun⟩ := gnssConfig_run e j p
  refine ⟨_, hrun, ?_⟩
  split
  next hfresh =>
    rw [setGtr_congr e (gnssConfigured j p) (fun g => restartedGtr (gnssSent j p g)) (if_pos hfresh)]
    exact (hy.setGtr restartedGtr).trans (restartGnss_serves y)
  next hfresh =>
    rw [setGtr_congr e (gnssConfigured j p) (gnssSent j p) (if_neg hfresh)]
    exact hy

/-- GNSS_CONFIG configures no unit that a proof could test (R367). -/
theorem effectState_gnssConfig (j : Job) (s : State) : effectState gnssConfigDef j s = s := by
  have hbit : proofBit s (takenJob gnssConfigDef j s).code ((jobParams gnssConfigDef j s).u 4 1) = none := by
    rw [takenJob_code]
    rfl
  unfold effectState
  rw [hbit]
  rfl

/-- Parameters that do not stand in a block come from a job without DMA_PARAM (R54). -/
theorem paramsOf_inline (d : JobDef) (r : DmaRule) (j : Job) (hd : d.dma = some r) (hb : r.inBlock = true)
    (h : (paramsOf d j).block = false) : j.dma = false := by
  cases hdma : j.dma with
  | false => rfl
  | true =>
    unfold paramsOf at h
    rw [hd] at h
    simp [hdma, hb] at h

/-- What a GNSS_CONFIG leaves of the receiver: held position, anchor, store, the failure that stands and the exclusions,
and the thresholds of the second in progress (R174). -/
theorem gnssConfigured_kept (j : Job) (p : Params) (g : Gtr) :
    (gnssConfigured j p g).limits = g.limits ∧ (gnssConfigured j p g).held = g.held ∧ (gnssConfigured j p g).anchor = g.anchor ∧
    (gnssConfigured j p g).store = g.store ∧ (gnssConfigured j p g).integrity = g.integrity ∧
    (gnssConfigured j p g).excluded = g.excluded := by
  unfold gnssConfigured gnssSent
  split <;> split <;> exact ⟨rfl, rfl, rfl, rfl, rfl, rfl⟩

/-- What a GNSS_CONFIG sets of the receiver: its settings at once, its thresholds for the next second (R174). -/
theorem gnssConfigured_set (j : Job) (p : Params) (g : Gtr) :
    (gnssConfigured j p g).cfg = gnssCfgOf p ∧ (gnssConfigured j p g).nextLimits = some (limitsOf p) := by
  unfold gnssConfigured gnssSent
  split <;> split <;> exact ⟨rfl, rfl⟩

/-- Without a block, the front-end list stays, and nothing is sent. -/
theorem gnssConfigured_inline (j : Job) (p : Params) (g : Gtr) (h : j.dma = false) :
    (gnssConfigured j p g).feList = g.feList ∧ (gnssConfigured j p g).feSent = g.feSent := by
  have hlist : frontEndList j g = g.feList := if_neg (by simp [h])
  have hsent : gnssSent j p g = gnssSettings j p g := if_neg (by simp [h])
  unfold gnssConfigured
  rw [hsent]
  split <;> exact ⟨hlist, rfl⟩

/-- A change of ENABLE starts or stops the receiver. -/
theorem gnssConfigured_enable (j : Job) (p : Params) (g : Gtr) (h : (gnssCfgOf p).enable ≠ g.cfg.enable) :
    (gnssConfigured j p g).st = if (gnssCfgOf p).enable then .search else .idle := by
  have hfresh : gnssFresh j p g = true := by simp [gnssFresh, h]
  unfold gnssConfigured
  rw [if_pos hfresh]
  unfold gnssSent
  split <;> rfl

/-- The state after an accepted GNSS_CONFIG. -/
theorem directJob_gnssConfig (j : Job) (s : State) (ha : accepted gnssConfigDef j s = true) :
    ServiceOnly (s.setGtr (gnssConfigured (takenJob gnssConfigDef j s) (jobParams gnssConfigDef j s))) (directJob gnssConfigDef j s) := by
  obtain ⟨e, he, hjob⟩ := directJob_answered gnssConfigDef j s ha fun e he => by
    obtain ⟨x, hx, hserves⟩ := gnssConfig_serves e (takenJob gnssConfigDef j s) (jobParams gnssConfigDef j s)
    exact ⟨x, {}, hx, by decide, by rw [hserves.only.cpx]; exact effectState_list gnssConfigDef j s ha e he⟩
  obtain ⟨x, hx, hserves⟩ := gnssConfig_serves e (takenJob gnssConfigDef j s) (jobParams gnssConfigDef j s)
  rw [hx] at hjob
  rw [effectState_gnssConfig] at he
  exact (he.setGtr _).trans (hserves.only.trans hjob)

theorem gnssConfig_gives : Gives .gnssConfig gnssConfigDef same always (fun p s t =>
    t.gtr.cfg = gnssCfgOf p ∧ t.gtr.nextLimits = some (limitsOf p) ∧
    (p.block = false → t.gtr.feList = s.gtr.feList ∧ t.gtr.feSent = s.gtr.feSent) ∧
    t.gtr.limits = s.gtr.limits ∧ t.gtr.held = s.gtr.held ∧ t.gtr.anchor = s.gtr.anchor ∧ t.gtr.store = s.gtr.store ∧
    t.gtr.integrity = s.gtr.integrity ∧ t.gtr.excluded = s.gtr.excluded ∧
    (p.u 4 1 = 1 → s.gtr.cfg.enable = false → t.gtr.st = .search) ∧
    (p.u 4 1 = 0 → s.gtr.cfg.enable = true → t.gtr.st = .idle) ∧
    { t with mbx := s.mbx, intc := s.intc, pcu := s.pcu, gtr := s.gtr } = s) := by
  intro j s (ha : accepted gnssConfigDef j s = true) _
  have hjob := directJob_gnssConfig j s ha
  refine ⟨directJob gnssConfigDef j s, rfl, ?_⟩
  have hinline := paramsOf_inline gnssConfigDef _ (takenJob gnssConfigDef j s) rfl rfl
  change (jobParams gnssConfigDef j s).block = false → _ at hinline
  change _ ∧ _
  rw [show same j = j from rfl, hjob.gtr]
  generalize jobParams gnssConfigDef j s = p at hjob hinline ⊢
  generalize takenJob gnssConfigDef j s = j' at hjob hinline ⊢
  obtain ⟨hcfg, hnext⟩ := gnssConfigured_set j' p s.gtr
  obtain ⟨hlimits, hheld, hanchor, hstore, hinteg, hexcl⟩ := gnssConfigured_kept j' p s.gtr
  refine ⟨hcfg, hnext, fun h => gnssConfigured_inline j' p s.gtr (hinline h), hlimits, hheld, hanchor, hstore, hinteg, hexcl,
    fun hon hoff => ?_, fun hoff hon => ?_, ?_⟩
  · have hen : (gnssCfgOf p).enable = true := beq_iff_eq.mpr hon
    rw [State.setGtr, gnssConfigured_enable j' p s.gtr (by simp [hen, hoff]), hen, if_pos rfl]
  · have hen : (gnssCfgOf p).enable = false := by simp [gnssCfgOf, hoff]
    rw [State.setGtr, gnssConfigured_enable j' p s.gtr (by simp [hen, hon]), hen]
    rfl
  · rw [hjob]
    rfl

/-! ### The other jobs of the receiver -/

/-- The three modes of GNSS_SURVEY wait for the next second (R162). -/
theorem gnssSurvey_waits (c : Job → Instr) (mode : Nat)
    (hc : ∀ j s, exec (c j) s = .next (directJob gnssSurveyDef (withByte 4 mode j) s)) :
    Waits c gnssSurveyDef (withByte 4 mode) always unchanged fun _ _ => .survey :=
  waits_of_quiet _ _ _ _ _ _ hc (fun _ _ => by simp) (fun _ => .id) fun _ _ _ _ _ _ => rfl

/-- The words of GNSS_READ_STATUS (R176). -/
def gnssWords (s : State) : List Word :=
  let g := s.gtr
  let notches := fun b => maskOf 4 fun n => (s.notchOf b n).mode == 2 && (s.notchOf b n).holds.isSome
  [word (g.st.code + 8 * bit g.valid16 + 16 * bit g.valid17 + 32 * bit g.integrity + 2 ^ 6 * g.failed.toNat +
     2 ^ 11 * g.unarmed.toNat + 2 ^ 16 * min 255 g.used.length + 2 ^ 24 * min 255 (g.channels.filter SatObs.tracking).length),
   word (g.jam[(0 : Fin 2)].toNat + 2 ^ 8 * g.jam[(1 : Fin 2)].toNat + 2 ^ 16 * notches 0 + 2 ^ 20 * notches 1 +
     2 ^ 24 * bit g.clockFault + 2 ^ 25 * bit g.feFault + 2 ^ 26 * bit g.surveyShort),
   word (min (2 ^ 32 - 1) g.est16), wordI (max (-(2 ^ 31)) (min (2 ^ 31 - 1) g.dPs))]

theorem length_channelBytes (s : State) (o : Option SatObs) : (channelBytes s o).length = 16 := by
  cases o with
  | none => rfl
  | some o => simp [channelBytes, leBytes]

/-- The 128 channel records of GNSS_READ_STATUS fill the result buffer that it asks for (R176). -/
theorem length_channelRecords (s : State) : ((List.range 128).flatMap fun k => channelBytes s s.gtr.channels[k]?).length = 2048 := by
  simp [List.length_flatMap, length_channelBytes]

theorem gnssReadStatus_answers : Answers .gnssReadStatus gnssReadStatusDef same always unchanged (fun _ _ s => gnssWords s) := by
  refine answers_of_quiet _ _ _ _ _ _ (fun _ _ => rfl) (fun _ => rfl) (fun _ => .id) fun j s ha _ e he =>
    ⟨_, rfl, rfl, ?_, .inr fun hdma => ?_⟩
  · exact effect_read gnssWords _ _ s e he fun _ _ _ _ _ => rfl
  · exact (length_channelRecords e).le.trans (accepted_result gnssReadStatusDef _ s ha hdma)

/-- A notch as GNSS_NOTCH_CONFIG sets it: an adaptive one keeps the interferer that lies in its range (R169). -/
def notchSet (p : Params) (old : Notch) : Notch :=
  { mode := Fin.ofNat 3 (p.u 6 1), freq := p.i 8 4, search := p.u 12 4, widthKhz := p.u 16 2, detectDb := p.u 18 1
    holds := old.holds.filter fun f => p.u 6 1 == 2 && decide ((f - p.i 8 4).natAbs ≤ p.u 12 4)
    movedAt := old.movedAt }

theorem quietEffect_setNotch (b n : Nat) (f : State → Notch → Notch)
    (hf : ∀ (s : State) m i q, f { s with mbx := m, intc := i, pcu := q } = f s) : QuietEffect fun s => s.setNotch b n (f s) :=
  quietEffect_setGtr (fun s g => { g with notch := vmod g.notch b fun v => vmod v n (f s) }) fun s m i q => by rw [hf]

theorem notchEvent_serves (s : State) : Serves s (notchEvent s) := (raiseIrq_serves 15 s).trans (pcuCount_serves _ _ _ _)

/-- What a notch keeps: what it holds, where it stays adaptive and that lies in its range. -/
theorem filter_holds (o : Option Int) (b : Bool) (q : Int → Bool) :
    (if (b && o.any q) = true then o else none) = o.filter fun f => b && q f := by
  cases o with
  | none => cases b <;> rfl
  | some f => cases b <;> cases h : q f <;> simp [Option.filter, h]

theorem gnssNotchConfig_serves (e : State) (j : Job) (p : Params) (hm : p.u 6 1 < 3) :
    ∃ x, gnssNotchConfigDef.run e j p = done x ∧
      Serves (e.setNotch (p.u 4 1) (p.u 5 1) fun _ => notchSet p (e.notchOf (p.u 4 1) (p.u 5 1))) x := by
  have hmode : (p.fin 6 3 == (2 : Fin 3)) = (p.u 6 1 == 2) := by
    rw [Bool.eq_iff_iff, beq_iff_eq, beq_iff_eq, Fin.ext_iff]
    exact ⟨fun h => (Nat.mod_eq_of_lt hm).symm.trans h, fun h => (Nat.mod_eq_of_lt hm).trans h⟩
  have hset : notchSet p (e.notchOf (p.u 4 1) (p.u 5 1)) =
      { mode := p.fin 6 3, freq := p.i 8 4, search := p.u 12 4, widthKhz := p.u 16 2, detectDb := p.u 18 1
        holds := if (p.fin 6 3 == 2 && (e.notchOf (p.u 4 1) (p.u 5 1)).holds.any fun f =>
          decide ((f - p.i 8 4).natAbs ≤ p.u 12 4)) = true then (e.notchOf (p.u 4 1) (p.u 5 1)).holds else none
        movedAt := (e.notchOf (p.u 4 1) (p.u 5 1)).movedAt } := by
    rw [filter_holds, hmode]
    rfl
  rw [hset]
  exact ⟨_, rfl, .ite (notchEvent_serves _) (.refl _)⟩

theorem gnssNotchConfig_acts : Acts .gnssNotchConfig gnssNotchConfigDef same always fun p s =>
    s.setNotch (p.u 4 1) (p.u 5 1) fun _ => notchSet p (s.notchOf (p.u 4 1) (p.u 5 1)) :=
  acts_of_serves _ _ _ _ _ (fun _ _ => rfl) (fun _ => rfl) (fun _ => quietEffect_setNotch _ _ _ fun _ _ _ _ => rfl)
    (fun _ _ _ _ _ _ => rfl) fun _ s ha e _ =>
      gnssNotchConfig_serves e _ _ (Nat.lt_succ_of_le (accepted_range gnssNotchConfigDef _ s ha (fun _ h => nomatch h) 6 1 0 2
        (by simp [gnssNotchConfigDef])).2)

/-- The store of the receiver with the records of a GNSS_AIDING_LOAD (R175). -/
def aidedStore (p : Params) (l : List Nat) (store : List AidRecord) : List AidRecord :=
  l.foldl (fun l k => storeAid { type := BitVec.ofNat 8 (p.u 0 1), body := aidBody p k } l) store

/-- The records of a block join the store one after the other. -/
theorem foldl_storeAid (p : Params) (l : List Nat) (s : State) :
    l.foldl (fun t k => t.setGtr fun g =>
        { g with store := storeAid { type := BitVec.ofNat 8 (p.u 0 1), body := aidBody p k } g.store }) s =
      s.setGtr fun g => { g with store := aidedStore p l g.store } := by
  induction l generalizing s with
  | nil => rfl
  | cons k l ih => exact ih _

theorem gnssAidingLoad_acts : Acts .gnssAidingLoad gnssAidingLoadDef same always fun p s =>
    s.setGtr fun g => { g with store := aidedStore p (List.range (p.u 2 2)) g.store } :=
  acts_of_quiet _ _ _ _ _ (fun _ _ => rfl) (fun _ => rfl) (fun _ => quietEffect_setGtr (fun _ g => _) fun _ _ _ _ => rfl)
    fun _ _ _ _ e _ => ⟨{}, congrArg done (foldl_storeAid _ _ e), by decide, rfl⟩

/-- Settles O29: GNSS_CONFIG sets its settings and starts the receiver again where they ask for it; a survey waits, the
status is read, and the other two change their part of the receiver alone. -/
theorem gnssJobsAct : Obligations.GnssJobsAct :=
  ⟨gnssConfig_gives, gnssSurvey_waits _ 0 fun _ _ => rfl, gnssSurvey_waits _ 1 fun _ _ => rfl,
    gnssSurvey_waits _ 2 fun _ _ => rfl, gnssReadStatus_answers, gnssNotchConfig_acts, gnssAidingLoad_acts⟩

end Sys2Proof.Machine
namespace Sys2Proof.Machine

/-! ### What events raise -/

/-- What two events raise one after the other. -/
theorem Raised.trans {a b : Word} {s t u : State} (h : Raised a s t) (g : Raised b t u) : Raised (a ||| b) s u := by
  obtain ⟨hmask, hpin, hmap⟩ := h.intc
  obtain ⟨gmask, gpin, gmap⟩ := g.intc
  obtain ⟨hlatch, hctr⟩ := h.pcu
  obtain ⟨glatch, gctr⟩ := g.pcu
  refine ⟨?_, ⟨gmask.trans hmask, gpin.trans hpin, gmap.trans hmap⟩, glatch.trans hlatch, fun n => ?_⟩
  · refine BitVec.eq_of_getLsbD_eq fun i hi => ?_
    have hbit := congrArg (BitVec.getLsbD · i) h.status
    have gbit := congrArg (BitVec.getLsbD · i) g.status
    simp only [BitVec.getLsbD_or, BitVec.getLsbD_and] at hbit gbit ⊢
    have hbool : ∀ x a t b u m : Bool, t = (x || a || t && m) → u = (t || b || u && m) → u = (x || (a || b) || u && m) := by
      decide
    exact hbool _ _ _ _ _ _ hbit gbit
  · obtain ⟨hev, hinst, huser⟩ := hctr n
    obtain ⟨gev, ginst, guser⟩ := gctr n
    exact ⟨gev.trans hev, ginst.trans hinst, guser.trans huser⟩

theorem Raised.refl (s : State) : Raised 0 s s := by
  refine ⟨BitVec.eq_of_getLsbD_eq fun i hi => ?_, ⟨rfl, rfl, rfl⟩, rfl, fun _ => ⟨rfl, rfl, rfl⟩⟩
  simp only [BitVec.getLsbD_or, BitVec.getLsbD_and]
  cases s.intc.status.getLsbD i <;> simp

/-- Counting raises source 17 at most. -/
theorem pcuCount_raised (ev inst n : Nat) (s : State) : Raised 0 s (pcuCount ev inst n s) := by
  have hsame := pcuCount_same ev inst n s
  refine ⟨?_, hsame.intc, hsame.pcu⟩
  have hstatus : (pcuCount ev inst n s).intc.status = s.intc.status ∨
      (pcuCount ev inst n s).intc.status = s.intc.status ||| 0x20000 := by
    unfold pcuCount
    dsimp only
    split
    · exact .inr (raiseIrq_status 17 _ (by decide))
    · exact .inl rfl
  refine BitVec.eq_of_getLsbD_eq fun i hi => ?_
  have hbit := hstatus.imp (congrArg (BitVec.getLsbD · i)) (congrArg (BitVec.getLsbD · i))
  simp only [BitVec.getLsbD_or, BitVec.getLsbD_and] at hbit ⊢
  have hbool : ∀ x z t m : Bool, t = x ∨ t = (x || m) → z = false → t = (x || z || t && m) := by decide
  exact hbool _ _ _ _ hbit BitVec.getLsbD_zero

/-- Source 15, the receiver's (R159). -/
theorem raiseIrq_receiver (s : State) : Raised 0x8000 s (raiseIrq 15 s) := raiseIrq_raised 15 s fun h => absurd h (by decide)

theorem notchEvent_raised (s : State) : Raised 0x8000 s (notchEvent s) := (raiseIrq_receiver s).trans (pcuCount_raised _ _ _ _)

/-- A change of the receiver with what it raises. -/
theorem moves_of_gtr (c : Instr) (h : State → Prop) (irq : Word) (f : State → Gtr → Gtr)
    (hrun : ∀ s, h s → ∃ t, exec c s = .next t ∧ Serves (s.setGtr (f s)) t ∧ Raised irq (s.setGtr (f s)) t) :
    Moves c h irq fun s => s.setGtr (f s) := fun s hs => by
  obtain ⟨t, ht, hserves, hraised⟩ := hrun s hs
  exact ⟨t, ht, hserves.frame, hraised.status, hraised.intc, hraised.pcu⟩

/-! ### Exclusions, the anchor, the front end (R155, R156, R167, R171) -/

theorem satelliteExclusionEnd_sets (k : Fin 4) (n : Fin 64) : Sets (.satelliteExclusionEnd k n) (fun s => s.blockRuns 14 = true)
    (fun s => { s with gtr := { s.gtr with excluded := s.gtr.excluded.filter fun x =>
      !(x.1 == k && x.2.1 == n && decide (480000 ≤ s.cpx.impressions - x.2.2)) } }) := by
  intro s hrun
  have hleft : ∀ since, (exclusionLeft s since == 0) = decide (480000 ≤ s.cpx.impressions - since) := fun since => by
    rw [Bool.eq_iff_iff, beq_iff_eq, decide_eq_true_iff, exclusionLeft]
    omega
  have hexec : exec (.satelliteExclusionEnd k n) s = .next (s.setGtr fun g => { g with excluded := g.excluded.filter fun x =>
      !(x.1 == k && x.2.1 == n && exclusionLeft s x.2.2 == 0) }) := congrArg Host.Outcome.next (if_neg (by simp [gtrRuns, hrun]))
  simp only [hexec, hleft]
  rfl

/-- The end of a window (R171). -/
def windowEnded (g : Gtr) : Gtr := { g with windowFor := 0, windowBad := false }

/-- A window of the time check has ended. -/
def windowDue (s : State) : Prop :=
  s.blockRuns 14 = true ∧ s.gtr.anchor.isSome = true ∧ s.gtr.limits.windowS ≤ s.gtr.windowFor

theorem exec_timeCheckAnchorMove (s : State) (h : windowDue s) : exec .timeCheckAnchorMove s =
    .next (match !s.gtr.windowBad && !s.gtr.integrity, checkValue s, s.gtr.phase with
      | true, some v, some (p, c) => (s.setGtr windowEnded).setGtr fun g =>
        { g with anchor := some { cycle := c, phasePs := p, h := v.h, sigma := v.sigma } }
      | _, _, _ => s.setGtr windowEnded) := by
  obtain ⟨hrun, hanchor, hdue⟩ := h
  exact congrArg Host.Outcome.next (if_pos (by simp [gtrRuns, hrun, hanchor, hdue]))

theorem timeCheckAnchorMove_moves (v : HoldValue) (p : Int) (c : Nat) : Sets .timeCheckAnchorMove
    (fun s => s.blockRuns 14 = true ∧ s.gtr.anchor.isSome = true ∧ s.gtr.limits.windowS ≤ s.gtr.windowFor ∧
      s.gtr.windowBad = false ∧ s.gtr.integrity = false ∧ checkValue s = some v ∧ s.gtr.phase = some (p, c))
    (fun s => { s with gtr := { s.gtr with
      windowFor := 0, windowBad := false, anchor := some { cycle := c, phasePs := p, h := v.h, sigma := v.sigma } } }) := by
  intro s ⟨hrun, hanchor, hdue, hbad, hinteg, hvalue, hphase⟩
  rw [exec_timeCheckAnchorMove s ⟨hrun, hanchor, hdue⟩, hbad, hinteg, hvalue, hphase]
  rfl

theorem timeCheckAnchorMove_stays : Sets .timeCheckAnchorMove
    (fun s => s.blockRuns 14 = true ∧ s.gtr.anchor.isSome = true ∧ s.gtr.limits.windowS ≤ s.gtr.windowFor ∧
      (s.gtr.windowBad = true ∨ s.gtr.integrity = true))
    (fun s => { s with gtr := { s.gtr with windowFor := 0, windowBad := false } }) := by
  intro s ⟨hrun, hanchor, hdue, hbad⟩
  have hfails : (!s.gtr.windowBad && !s.gtr.integrity) = false := by
    rcases hbad with h | h <;> simp [h]
  rw [exec_timeCheckAnchorMove s ⟨hrun, hanchor, hdue⟩, hfails]
  rfl

theorem feStatusPoll_sets (v : Byte) (a : BitVec 16) : Sets (.feStatusPoll v)
    (fun s => s.blockRuns 14 = true ∧ s.gtr.cfg.feReg = some a)
    (fun s => { s with gtr := { s.gtr with
      feSent := s.gtr.feSent ++ [feTransfer true a v]
      feFault := decide (v &&& s.gtr.cfg.feMask ≠ s.gtr.cfg.feMask) } }) := by
  intro s ⟨hrun, hreg⟩
  have hexec : exec (.feStatusPoll v) s = .next (match s.gtr.cfg.feReg with
      | none => s
      | some a => s.setGtr fun g =>
        { g with feSent := g.feSent ++ [feTransfer true a v], feFault := (v &&& g.cfg.feMask) != g.cfg.feMask }) :=
    congrArg Host.Outcome.next (if_neg (by simp [gtrRuns, hrun]))
  have hbne : ((v &&& s.gtr.cfg.feMask) != s.gtr.cfg.feMask) = decide (v &&& s.gtr.cfg.feMask ≠ s.gtr.cfg.feMask) := by
    rw [Bool.eq_iff_iff, bne_iff_ne, decide_eq_true_iff]
  rw [hexec, hreg]
  exact congrArg (fun b => Host.Outcome.next { s with gtr := { s.gtr with
    feSent := s.gtr.feSent ++ [feTransfer true a v], feFault := b } }) hbne

/-- A move of the receiver touches its state and the interrupt controller alone. -/
theorem moveGnss_eq (st : GnssState) (s : State) :
    moveGnss st s = { s with gtr := { s.gtr with st := st }, intc := (moveGnss st s).intc } := by
  unfold moveGnss
  split
  next h => rw [← h]
  · rw [raiseIrq_eq]

/-- A move of the receiver to another state raises source 15 (R159). -/
theorem moveGnss_raises (st : GnssState) (s : State) (h : s.gtr.st ≠ st) :
    Raised 0x8000 (s.setGtr fun g => { g with st := st }) (moveGnss st s) := by
  unfold moveGnss
  rw [if_neg h]
  exact raiseIrq_receiver _

theorem moveGnss_setsBit (st : GnssState) (s : State) (h : s.gtr.st ≠ st) : (moveGnss st s).intc.status.getLsbD 15 = true := by
  unfold moveGnss
  rw [if_neg h]
  exact raiseIrq_setsBit 15 _ (by decide) fun h => absurd h (by decide)

theorem gclkReturn_leads : Leads .gclkReturn (fun s => s.blockRuns 14 = true ∧ s.gtr.clockFault = true)
    (fun s t =>
      let st := if s.gtr.cfg.enable then GnssState.search else .idle
      t.gtr = { s.gtr with
        clockFault := false, feSent := s.gtr.feSent ++ s.gtr.feList.map (fun x => feTransfer false x.1 x.2)
        st := st, channels := [], used := [], epoch := none, survey := none, valid16 := false, valid17 := false
        cn0For := 0, posFor := 0, phase := none, cross := [] } ∧
      (st ≠ s.gtr.st → t.intc.status.getLsbD 15 = true) ∧ { t with gtr := s.gtr, intc := s.intc } = s) := by
  intro s ⟨hrun, hfault⟩
  refine ⟨restartGnss (sendFrontEnd (s.setGtr fun g => { g with clockFault := false })),
    congrArg Host.Outcome.next (if_neg (by simp [gtrRuns, hrun, hfault])), ?_, fun h => moveGnss_setsBit _ _ h.symm, ?_⟩
  all_goals
    unfold restartGnss
    rw [moveGnss_eq]
    rfl

/-- The result of a survey stands (R160). -/
def surveyedGtr (v : Survey) (g : Gtr) : Gtr :=
  { g with survey := none, held := some (surveyMean v, surveyAccuracy v)
           surveyShort := !(decide (v.minS ≤ v.elapsed) && surveyMet v), posFor := 0 }

theorem surveyEnd_moves (v : Survey) : Moves .surveyEnd
    (fun s => s.blockRuns 14 = true ∧ s.gtr.st = .survey ∧ s.gtr.survey = some v ∧ 0 < v.count ∧
      ((v.minS ≤ v.elapsed ∧ surveyMet v = true) ∨ v.maxS ≤ v.elapsed)) 0x8000
    (fun s => { s with gtr := { s.gtr with
      st := .hold, survey := none, posFor := 0
      held := some ({ x := v.sum.x / v.count, y := v.sum.y / v.count, z := v.sum.z / v.count }, surveyAccuracy v)
      surveyShort := !(decide (v.minS ≤ v.elapsed) && surveyMet v) } }) := by
  refine moves_of_gtr _ _ _ (fun _ g => { surveyedGtr v g with st := .hold }) fun s ⟨hrun, hst, hsurvey, hcount, hend⟩ => ?_
  have hends : (gtrRuns s && decide (0 < v.count) && ((decide (v.minS ≤ v.elapsed) && surveyMet v) || decide (v.maxS ≤ v.elapsed))) =
      true := by
    rcases hend with ⟨hmin, hmet⟩ | hmax
    · simp [gtrRuns, hrun, hcount, hmin, hmet]
    · simp [gtrRuns, hrun, hcount, hmax]
  refine ⟨moveGnss .hold (s.setGtr (surveyedGtr v)), ?_, moveGnss_serves .hold (s.setGtr (surveyedGtr v)),
    moveGnss_raises .hold (s.setGtr (surveyedGtr v)) ?_⟩
  · unfold exec execSurveyEnd
    rw [hst, hsurvey]
    exact congrArg Host.Outcome.next (if_pos hends)
  · change s.gtr.st ≠ .hold
    rw [hst]
    exact GnssState.noConfusion

theorem setJam_serves (band : Fin 2) (level : Byte) (s : State) :
    Serves (s.setGtr fun g => { g with jam := g.jam.set band level }) (setJam band level s) :=
  .ite (.refl _) (raiseIrq_serves _ _)

/-- A band's jamming indicator changes, and a crossing of the threshold raises source 15 (R170). -/
theorem jamThreshold_moves (band : Fin 2) (power : Int) (crosses : Bool) : Moves (.jamThreshold band power)
    (fun s => s.blockRuns 14 = true ∧ s.gtr.cfg.enable = true ∧
      (crosses = true ↔ ¬(s.gtr.limits.jam < s.gtr.jam[band].toNat ↔ s.gtr.limits.jam < (jamIndicator s.gtr band.val power).toNat)))
    (if crosses then 0x8000 else 0)
    (fun s => { s with gtr := { s.gtr with jam := s.gtr.jam.set band.val (jamIndicator s.gtr band.val power) } }) := by
  refine moves_of_gtr _ _ _ (fun s g => { g with jam := g.jam.set band.val (jamIndicator s.gtr band.val power) })
    fun s ⟨hrun, hen, hcross⟩ => ⟨setJam band (jamIndicator s.gtr band.val power) s,
      congrArg Host.Outcome.next (if_neg (by simp [gtrRuns, hrun, hen])), setJam_serves band _ s, ?_⟩
  unfold setJam
  dsimp only
  cases crosses with
  | false =>
    have hsame := not_not.mp (mt hcross.mpr Bool.false_ne_true)
    rw [if_pos (decide_eq_decide.mpr hsame)]
    exact .refl _
  | true =>
    rw [if_neg (mt decide_eq_decide.mp (hcross.mp rfl))]
    exact raiseIrq_receiver _

end Sys2Proof.Machine
namespace Sys2Proof.Machine

/-! ### The second of the receiver (R162, R163, R174) -/

theorem State.domain_fin (s : State) (d : Fin 4) : s.domain d.val = s.tcr.dom[d] := vget_fin _ _ _

/-- Thresholds are taken up (R174). -/
def epochLimits (g : Gtr) : Gtr := { g with limits := g.nextLimits.getD g.limits, nextLimits := none }

/-- The surveys that wait act, and the fences that this lets go complete (R162). -/
def surveysActed (s : State) : State :=
  settle ((s.mbx.flights.filter fun f => f.hold == .survey).foldl (fun t f =>
    finish f (surveyAct f.job t).1 (surveyAct f.job t).2) s)

/-- A measurement epoch is taken, unless the receiver is IDLE (R163). -/
def epochTaken (d : Nat) (s : State) : State :=
  if s.gtr.st == .idle then s else s.setGtr fun g => { g with epoch := some (s.tcr.cycles, (s.domain d).count) }

theorem epochTaken_idle (d : Nat) (s : State) (h : s.gtr.st = .idle) : epochTaken d s = s := if_pos (beq_iff_eq.mpr h)

theorem epochTaken_some (d : Nat) (s : State) (h : s.gtr.st ≠ .idle) :
    epochTaken d s = s.setGtr fun g => { g with epoch := some (s.tcr.cycles, (s.domain d).count) } :=
  if_neg (mt beq_iff_eq.mp h)

theorem exec_gnssEpoch (s : State) (hrun : s.blockRuns 14 = true)
    (hsec : s.tcr.dom[s.gtr.cfg.domain].count % 10 ^ 42 < 10 ^ 33) :
    exec .gnssEpoch s = .next (epochTaken s.gtr.cfg.domain.val
      (if s.fwRuns then surveysActed (s.setGtr epochLimits) else s.setGtr epochLimits)) := by
  have hview : viewCount s s.gtr.cfg.domain.val = s.tcr.dom[s.gtr.cfg.domain].count :=
    (if_pos s.gtr.cfg.domain.isLt).trans (congrArg Domain.count (State.domain_fin s _))
  have hnow : toSecond s.gtr.cfg.domain.val s = s := if_pos (by rw [hview]; exact hsec)
  have hexec : exec .gnssEpoch s = .next (epochTaken s.gtr.cfg.domain.val
      (if (toSecond s.gtr.cfg.domain.val s).fwRuns then surveysActed ((toSecond s.gtr.cfg.domain.val s).setGtr epochLimits)
       else (toSecond s.gtr.cfg.domain.val s).setGtr epochLimits)) :=
    congrArg Host.Outcome.next (if_neg (by simp [gtrRuns, hrun]))
  rw [hexec, hnow]

/-- The receiver after an epoch in which no survey acts. -/
def epochOf (s : State) : Gtr :=
  { s.gtr with
    limits := s.gtr.nextLimits.getD s.gtr.limits, nextLimits := none
    epoch := if s.gtr.st = .idle then s.gtr.epoch else some (s.tcr.cycles, s.tcr.dom[s.gtr.cfg.domain].count) }

theorem surveysActed_none (s : State) (hno : ∀ f ∈ s.mbx.flights, f.hold ≠ .survey) (hfence : noFences s = true) :
    surveysActed s = s := by
  have hnone : s.mbx.flights.filter (fun f => f.hold == .survey) = [] :=
    List.filter_eq_nil_iff.mpr fun f hf => by simp [hno f hf]
  unfold surveysActed
  rw [hnone]
  exact settle_noFences s hfence

theorem gnssEpoch_sets : Sets .gnssEpoch
    (fun s => s.blockRuns 14 = true ∧ s.tcr.dom[s.gtr.cfg.domain].count % 10 ^ 42 < 10 ^ 33 ∧
      (∀ f ∈ s.mbx.flights, f.hold ≠ .survey) ∧ noFences s = true)
    (fun s => { s with gtr := epochOf s }) := by
  intro s ⟨hrun, hsec, hno, hfence⟩
  rw [exec_gnssEpoch s hrun hsec, surveysActed_none (s.setGtr epochLimits) hno hfence, ite_self]
  refine congrArg Host.Outcome.next ?_
  unfold epochOf
  dsimp only
  by_cases hidle : s.gtr.st = .idle
  · rw [epochTaken_idle _ (s.setGtr epochLimits) hidle, if_pos hidle]
    rfl
  · rw [epochTaken_some _ (s.setGtr epochLimits) hidle, if_neg hidle, ← State.domain_fin]
    rfl

/-- A completion touches neither the receiver nor the time, whoever takes it. -/
theorem postCompletion_outside (j : Job) (r : Reply) (f : DoneFlags) (s : State) :
    (postCompletion j r f s).gtr = s.gtr ∧ (postCompletion j r f s).tcr = s.tcr := by
  unfold postCompletion
  split
  · exact ⟨rfl, rfl⟩
  split
  · exact ⟨rfl, rfl⟩
  · split
    · exact ⟨(postNow_service _ _ _ _).gtr, (postNow_service _ _ _ _).tcr⟩
    · exact ⟨rfl, rfl⟩

/-- A survey that starts at its second (R160). -/
def surveyStarted (p : Params) (g : Gtr) : Gtr :=
  { g with st := .survey, survey := some { minS := p.u 8 4, maxS := p.u 12 4, accMm := p.u 16 4 }, surveyShort := false }

theorem surveyAct_start (j : Job) (s : State) (hmode : (jobInline j).u 4 1 = 0) (hidle : s.gtr.st ≠ .idle)
    (hhold : s.gtr.st ≠ .hold) :
    succeeded (surveyAct j s).1 = true ∧ Serves (s.setGtr (surveyStarted (jobInline j))) (surveyAct j s).2 := by
  have hno : (s.gtr.st == .hold || s.gtr.st == .idle) = false := by simp [hidle, hhold]
  unfold surveyAct
  dsimp only
  rw [hmode]
  rw [hno]
  exact ⟨rfl, moveGnss_serves .survey (s.setGtr fun g => { surveyStarted (jobInline j) g with st := g.st })⟩

/-- The one job in flight that waits for the second acts and completes. -/
theorem surveysActed_one (s : State) (f : Flight) (hf : s.mbx.flights = [f]) (hhold : f.hold = .survey)
    (hok : succeeded (surveyAct f.job s).1 = true) (hsame : (surveyAct f.job s).2.mbx = s.mbx) :
    (surveysActed s).mbx.flights = [] ∧ (surveysActed s).gtr = (surveyAct f.job s).2.gtr ∧
      (surveysActed s).tcr = (surveyAct f.job s).2.tcr := by
  have hone : s.mbx.flights.filter (fun f => f.hold == .survey) = [f] := by simp [hf, hhold]
  generalize hx : surveyAct f.job s = x at hok hsame
  have hfin : finish f x.1 x.2 = postCompletion f.job (lateReply f x.1) f.flags (dropFlight f x.2) := if_pos hok
  have hempty : (finish f x.1 x.2).mbx.flights = [] := by
    rw [hfin, postCompletion_flights, dropFlight, hsame, hf]
    simp
  have hsettle : settle (finish f x.1 x.2) = finish f x.1 x.2 := settle_noFences _ (by simp [noFences, hempty])
  unfold surveysActed
  rw [hone, List.foldl_cons, List.foldl_nil, hx, hsettle]
  refine ⟨hempty, ?_⟩
  rw [hfin]
  exact postCompletion_outside _ _ _ _

theorem gnssEpoch_survey (f : Flight) : Leads .gnssEpoch
    (fun s => s.blockRuns 14 = true ∧ s.fwRuns = true ∧ s.tcr.dom[s.gtr.cfg.domain].count % 10 ^ 42 < 10 ^ 33 ∧
      s.mbx.flights = [f] ∧ f.hold = .survey ∧ (jobInline f.job).u 4 1 = 0 ∧ s.gtr.st ≠ .idle ∧ s.gtr.st ≠ .hold)
    (fun s t => t.mbx.flights = [] ∧ t.gtr = { epochOf s with
      st := .survey, surveyShort := false
      survey := some { minS := (jobInline f.job).u 8 4, maxS := (jobInline f.job).u 12 4, accMm := (jobInline f.job).u 16 4 } }) := by
  intro s ⟨hrun, hfw, hsec, hf, hhold, hmode, hidle, hnh⟩
  obtain ⟨hok, hserves⟩ := surveyAct_start f.job (s.setGtr epochLimits) hmode hidle hnh
  obtain ⟨hempty, hgtr, htcr⟩ := surveysActed_one (s.setGtr epochLimits) f hf hhold hok hserves.same.mbx
  rw [hserves.only.gtr] at hgtr
  rw [hserves.only.tcr] at htcr
  refine ⟨_, exec_gnssEpoch s hrun hsec, ?_⟩
  rw [if_pos hfw]
  generalize surveysActed (s.setGtr epochLimits) = y at hempty hgtr htcr
  have hst : y.gtr.st ≠ .idle := by
    rw [hgtr]
    exact GnssState.noConfusion
  have hdom : (y.domain s.gtr.cfg.domain.val).count = s.tcr.dom[s.gtr.cfg.domain].count := by
    rw [State.domain_fin, htcr]
    rfl
  rw [epochTaken_some _ _ hst]
  refine ⟨hempty, ?_⟩
  unfold State.setGtr epochOf
  dsimp only
  rw [hdom, htcr, hgtr, if_neg hidle]
  rfl

/-! ### The end of an integrity failure (R172) -/

/-- A failure of the receiver no longer stands on an entry, whose state follows (R127, R172). -/
def failureEnded (r : Nat) (s : State) : State := reviewRef r (s.setRef r fun e => { e with gnssFail := false })

theorem failureEnded_others (r q : Nat) (s : State) (h : r ≠ q) : (failureEnded r s).refEntry q = s.refEntry q := by
  unfold failureEnded
  rw [(advances_reviewRef r _).others q h, State.refEntry_setRef_ne _ _ _ _ h]

theorem failureEnded_entry (r : Nat) (s : State) (hr : r < 32) :
    (failureEnded r s).refEntry r = reviewed s.cpx.impressions { s.refEntry r with gnssFail := false } := by
  unfold failureEnded
  rw [reviewRef_entry _ _ hr, State.refEntry_setRef _ _ _ hr]
  rfl

theorem failureEnded_gtr (r : Nat) (s : State) : (failureEnded r s).gtr = s.gtr := by
  have hservo := reviewRef_servo r (s.setRef r fun e => { e with gnssFail := false })
  unfold failureEnded
  rw [hservo]
  rfl

/-- What an entry shows that was DISQUALIFIED for the failure alone. -/
def FailureOver (e e' : RefEntry) : Prop :=
  e'.gnssFail = false ∧
    (e.enable = true → e.st = .disqualified → hardNow { e with gnssFail := false } = false → e'.st = .qualifying)

/-- Without a hard condition, a DISQUALIFIED entry is QUALIFYING again (R127). -/
theorem reviewedState_cleared (e : RefEntry) (hen : e.enable = true) (hst : e.st = .disqualified) (hhard : hardNow e = false) :
    reviewedState e = .qualifying := by
  simp [reviewedState, hen, hst, hhard]

theorem reviewed_failureOver (now : Nat) (e : RefEntry) : FailureOver e (reviewed now { e with gnssFail := false }) := by
  refine ⟨(advanced_movedRef _ _ _).holds (fun e => e.gnssFail = false) (fun _ => .rfl) rfl, fun hen hst hhard => ?_⟩
  exact (movedRef_st _ _ _).trans (reviewedState_cleared { e with gnssFail := false } hen hst hhard)

theorem integrityClear_leads : Leads .integrityClear
    (fun s => s.blockRuns 14 = true ∧ s.gtr.integrity = true ∧ s.gtr.limits.clearS ≤ s.gtr.cleanFor ∧
      s.rim.ref[16].outlierNow = false ∧ s.rim.ref[17].outlierNow = false)
    (fun s t => t.gtr = { s.gtr with integrity := false } ∧
      (∀ r : Fin 32, r = 16 ∨ r = 17 →
        let e := { s.rim.ref[r] with gnssFail := false }
        t.rim.ref[r].gnssFail = false ∧
        (e.enable = true → e.st = .disqualified → hardNow e = false → t.rim.ref[r].st = .qualifying)) ∧
      ∀ r : Fin 32, r ≠ 16 → r ≠ 17 → t.rim.ref[r] = s.rim.ref[r]) := by
  intro s ⟨hrun, hinteg, hclean, h16, h17⟩
  refine ⟨failureEnded 17 (failureEnded 16 (s.setGtr fun g => { g with integrity := false })),
    congrArg Host.Outcome.next (if_pos ?_), ?_, fun r hr => ?_, fun r hr16 hr17 => ?_⟩
  · have o16 : (s.refEntry 16).outlierNow = false := h16
    have o17 : (s.refEntry 17).outlierNow = false := h17
    simp [gtrRuns, hrun, hinteg, hclean, o16, o17]
  · rw [failureEnded_gtr, failureEnded_gtr]
    rfl
  · rw [← State.refEntry_fin, ← State.refEntry_fin]
    rcases hr with rfl | rfl
    · change FailureOver (s.refEntry 16) ((failureEnded 17 (failureEnded 16 _)).refEntry 16)
      rw [failureEnded_others 17 _ _ (by decide), failureEnded_entry _ _ (by decide)]
      exact reviewed_failureOver _ _
    · change FailureOver (s.refEntry 17) ((failureEnded 17 (failureEnded 16 _)).refEntry 17)
      rw [failureEnded_entry _ _ (by decide), failureEnded_others 16 _ _ (by decide)]
      exact reviewed_failureOver _ _
  · have n16 : (16 : Nat) ≠ r.val := fun h => hr16 (Fin.ext h.symm)
    have n17 : (17 : Nat) ≠ r.val := fun h => hr17 (Fin.ext h.symm)
    rw [← State.refEntry_fin, ← State.refEntry_fin, failureEnded_others _ _ _ n17, failureEnded_others _ _ _ n16]
    rfl

end Sys2Proof.Machine
namespace Sys2Proof.Machine

/-! ### A fault that rises (R352, R354, R356, R358) -/

/-- What has risen may be named again. -/
theorem Raised.also {a : Word} {s t : State} (h : Raised a s t) (b : Word) : Raised (a ||| (t.intc.status &&& b)) s t := by
  refine ⟨BitVec.eq_of_getLsbD_eq fun i hi => ?_, h.intc, h.pcu⟩
  have hbit := congrArg (BitVec.getLsbD · i) h.status
  simp only [BitVec.getLsbD_or, BitVec.getLsbD_and] at hbit ⊢
  have hbool : ∀ x a t b m : Bool, t = (x || a || t && m) → t = (x || (a || t && b) || t && m) := by decide
  exact hbool _ _ _ _ _ hbit

/-- Sources that have risen, named by what the status shows of them. -/
theorem Raised.shown {a b : Word} {s t : State} (h : Raised (a ||| b) s t) : Raised (a ||| (t.intc.status &&& b)) s t := by
  refine ⟨BitVec.eq_of_getLsbD_eq fun i hi => ?_, h.intc, h.pcu⟩
  have hbit := congrArg (BitVec.getLsbD · i) h.status
  simp only [BitVec.getLsbD_or, BitVec.getLsbD_and] at hbit ⊢
  have hbool : ∀ x a t b m : Bool, t = (x || (a || b) || t && m) → t = (x || (a || t && b) || t && m) := by decide
  exact hbool _ _ _ _ _ hbit

/-- What has risen stands in the status. -/
theorem Raised.setsBit {a : Word} {s t : State} (h : Raised a s t) (i : Nat) (hi : a.getLsbD i = true) :
    t.intc.status.getLsbD i = true := by
  rw [h.status, BitVec.getLsbD_or, BitVec.getLsbD_or, hi, Bool.or_true, Bool.true_or]

/-- A reaction of level 1 or 2 raises source 8, and 31 with a trap (R354). -/
theorem react_low (src : Nat) (owner : Option Nat) (level : Nat) (s : State) (h1 : 1 ≤ level) (h2 : level ≤ 2) :
    react src owner level s = { s with
      intc := (react src owner level s).intc
      fco := { s.fco with traps := (react src owner level s).fco.traps, trapsDue := (react src owner level s).fco.trapsDue } } ∧
    Raised (0x100 ||| ((react src owner level s).intc.status &&& 0x80000000)) s (react src owner level s) := by
  have h8 := raiseIrq_raised 8 s fun h => absurd h (by decide)
  have h31 := h8.trans (raiseIrq_raised 31 (raiseIrq 8 s) fun h => absurd h (by decide))
  have hboth := Raised.shown (a := 0x100) (b := 0x80000000) h31
  obtain rfl | rfl : level = 1 ∨ level = 2 := by omega
  · have hreact : react src owner 1 s = raiseIrq 8 s := rfl
    rw [hreact]
    exact ⟨by rw [raiseIrq_eq], h8.also _⟩
  · have hreact : react src owner 2 s =
        if (raiseIrq 31 (raiseIrq 8 s)).clockOk then
          { raiseIrq 31 (raiseIrq 8 s) with fco := { (raiseIrq 31 (raiseIrq 8 s)).fco with
            traps := (raiseIrq 31 (raiseIrq 8 s)).fco.traps + 1 } }
        else { raiseIrq 31 (raiseIrq 8 s) with fco := { (raiseIrq 31 (raiseIrq 8 s)).fco with
          trapsDue := (raiseIrq 31 (raiseIrq 8 s)).fco.trapsDue + 1 } } := rfl
    have hfco : (raiseIrq 31 (raiseIrq 8 s)).fco = s.fco := by rw [raiseIrq_eq, raiseIrq_eq]
    rw [hreact]
    split
    all_goals
      refine ⟨?_, hboth.status, hboth.intc, hboth.pcu⟩
      rw [hfco, raiseIrq_eq 31, raiseIrq_eq 8]

/-- The reaction level of a fault of level 1 or more (R356). -/
def reactionLevel (s : State) (src : Nat) : Nat :=
  min (sourceCfg s src).cap ((sourceCfg s src).level + (vget s.fco.cls (src / 32) {}).n)

/-- A class with a fault of a source recorded (R356, R358). -/
def faultRecord (s : State) (src addr : Nat) (k : FaultClass) : FaultClass :=
  let cfg := sourceCfg s src
  let up := decide (cfg.level < reactionLevel s src)
  { k with
    pending := k.pending || decide (1 ≤ cfg.level)
    escalated := k.escalated || up
    errnHold := k.errnHold || cfg.errn
    recorded := min 65535 (k.recorded + 1)
    n := if cfg.level = 0 then k.n else min 255 (k.n + 1)
    cap := capturePut (captureOf s src { addr := addr } false up (reactionLevel s src) cfg.level) k.cap }

/-- The fault stands in its class, and it is counted. -/
def faultCounted (src addr : Nat) (s : State) : State :=
  let x := pcuCount (0x0200 + src / 32) 0xFF 1 (s.setClass (src / 32) (faultRecord s src addr))
  if decide ((sourceCfg s src).level < reactionLevel s src) then pcuCount 0x0218 0xFF 1 x else x

/-- What lets a fault rise (R6, R352, R360, R402). -/
structure CanRise (s : State) (src addr : Nat) : Prop where
  phase  : (s.cpx.phase == .inReset) = false
  row    : (sourceRow src).isSome = true
  owner  : ∃ b, faultOwner s src { addr := addr } = some b ∧ (inShadow s b = false ∨ neverConsequential src = true)
  level  : 1 ≤ (sourceCfg s src).level
  least  : 1 ≤ reactionLevel s src
  most   : reactionLevel s src ≤ 2

theorem canRise_of_rises (s : State) (src addr : Nat) (h : rises s src addr = true) : CanRise s src addr := by
  unfold rises at h
  simp only [Bool.and_eq_true, decide_eq_true_eq, bne_iff_ne, ne_eq] at h
  obtain ⟨⟨⟨⟨⟨hphase, hrow⟩, howner⟩, hlevel⟩, hcap⟩, hmost⟩ := h
  refine ⟨by simpa using hphase, hrow, ?_, hlevel, ?_, hmost⟩
  · split at howner
    next b hb => exact ⟨b, hb, by simpa using howner⟩
    · exact absurd howner Bool.false_ne_true
  · unfold reactionLevel
    omega

theorem raiseFault_eq (s : State) (src addr : Nat) (h : CanRise s src addr) :
    raiseFault src { addr := addr } s =
      react src (faultOwner s src { addr := addr }) (reactionLevel s src) (faultCounted src addr s) := by
  obtain ⟨hphase, hrow, ⟨b, hb, hshadow⟩, hlevel, -, -⟩ := h
  have hpos : ¬(sourceCfg s src).level = 0 := by omega
  have hrec : (if (sourceCfg s src).level = 0 then 0 else
      min (sourceCfg s src).cap ((sourceCfg s src).level + (vget s.fco.cls (src / 32) {}).n)) = reactionLevel s src := if_neg hpos
  have hrises : ¬(s.cpx.phase == .inReset || (sourceRow src).isNone || ((some b).isNone && decide (1 < src))) = true := by
    simp [hphase, Option.isNone_iff_eq_none, Option.isSome_iff_ne_none.mp hrow]
  have hconseq : ¬(inShadow s b && !neverConsequential src) = true := by
    rcases hshadow with h | h <;> simp [h]
  unfold raiseFault
  dsimp only
  rw [hb, if_neg hrises, hrec]
  dsimp only
  rw [if_neg hconseq]
  rfl

/-- Every source of the table has a class (R351). -/
theorem source_lt (src : Nat) (h : (sourceRow src).isSome = true) : src / 32 < 8 := by
  by_contra hge
  have hnone : sourceRow src = none := by
    unfold sourceRow
    simp (disch := omega) only [if_neg]
  rw [hnone] at h
  exact Bool.false_ne_true h

/-- What stands in the class of a fault (R356, R358). -/
theorem faultRecord_cap (s : State) (src addr : Nat) (k : FaultClass) :
    match k.cap, (faultRecord s src addr k).cap with
    | none, some c => c.source = BitVec.ofNat 8 src ∧ c.addr = BitVec.ofNat 64 addr ∧ c.count = 0
    | some b, some c => c = { b with count := min 65535 (b.count + 1) }
    | _, none => False := by
  unfold faultRecord capturePut
  cases k.cap with
  | none => exact ⟨rfl, rfl, rfl⟩
  | some b => rfl

/-- A fault counted beside: its class has it, and interrupts of wrapping counters. -/
theorem faultCounted_serves (src addr : Nat) (s : State) :
    Serves (s.setClass (src / 32) (faultRecord s src addr)) (faultCounted src addr s) ∧ Raised 0 s (faultCounted src addr s) := by
  have h1 := pcuCount_serves (0x0200 + src / 32) 0xFF 1 (s.setClass (src / 32) (faultRecord s src addr))
  have r1 := pcuCount_raised (0x0200 + src / 32) 0xFF 1 (s.setClass (src / 32) (faultRecord s src addr))
  unfold faultCounted
  dsimp only
  split
  · have r2 := r1.trans (pcuCount_raised 0x0218 0xFF 1 _)
    exact ⟨h1.trans (pcuCount_serves _ _ _ _), r2.status, r2.intc, r2.pcu⟩
  · exact ⟨h1, r1.status, r1.intc, r1.pcu⟩

/-- A fault that rises is recorded, and answered with a reaction of level 1 or 2 (R354, R356, R358). -/
theorem faultEvent_reports (src addr : Nat) (s : State) (h : rises s src addr = true) :
    faultEvent src { addr := addr } s = { s with
      intc := (faultEvent src { addr := addr } s).intc, pcu := (faultEvent src { addr := addr } s).pcu
      fco := (faultEvent src { addr := addr } s).fco } ∧
    Raised (0x100 ||| ((faultEvent src { addr := addr } s).intc.status &&& 0x80000000)) s (faultEvent src { addr := addr } s) ∧
    Recorded s (faultEvent src { addr := addr } s) src addr := by
  have hc := canRise_of_rises s src addr h
  have hlt := source_lt src hc.row
  have hrun : fcoRuns s = true := by simp [fcoRuns, bne, hc.phase]
  have hev : faultEvent src { addr := addr } s =
      react src (faultOwner s src { addr := addr }) (reactionLevel s src) (faultCounted src addr s) :=
    (if_pos hrun).trans (raiseFault_eq s src addr hc)
  obtain ⟨hserves, hraised⟩ := faultCounted_serves src addr s
  obtain ⟨hframe, hreact⟩ := react_low src (faultOwner s src { addr := addr }) (reactionLevel s src) (faultCounted src addr s)
    hc.least hc.most
  rw [hev]
  generalize react src (faultOwner s src { addr := addr }) (reactionLevel s src) (faultCounted src addr s) = t at hframe hreact
  have hcls : t.fco.cls = vmod s.fco.cls (src / 32) (faultRecord s src addr) := by
    rw [hframe, hserves.frame]
    rfl
  have hown : vget t.fco.cls (src / 32) {} = faultRecord s src addr (vget s.fco.cls (src / 32) {}) := by
    rw [hcls, vget_vmod_self _ _ _ _ hlt]
  refine ⟨?_, ?_, ?_⟩
  · rw [hframe, hserves.frame]
    rfl
  · have hzero : ∀ b : Word, 0 ||| b = b := fun _ => BitVec.zero_or
    have hall := hraised.trans hreact
    rwa [hzero] at hall
  · have hlevel := hc.level
    have hpos : ¬(sourceCfg s src).level = 0 := by omega
    have hcap := faultRecord_cap s src addr (vget s.fco.cls (src / 32) {})
    unfold Recorded
    dsimp only
    rw [hown]
    refine ⟨?_, rfl, if_neg hpos, rfl, rfl, rfl, hcap, fun c hne => ?_, ?_⟩
    · simp [faultRecord, hlevel]
    · rw [hcls, ← vget_fin _ c {}, ← vget_fin _ c {}, vget_vmod_ne _ _ _ _ _ hne.symm]
    · rw [hframe, hserves.frame]
      exact ⟨rfl, rfl, rfl⟩

/-! ### GCLK (R155) -/

/-- GCLK is out of range. -/
def clockLost (s : State) : State := s.setGtr fun g => { g with clockFault := true }

theorem exec_gnssClockFault (s : State) (hrun : s.blockRuns 14 = true) (hok : s.gtr.clockFault = false) :
    exec .gnssClockFault s = .next (faultEvent 72 { addr := 0 } (raiseIrq 15 (clockLost s))) :=
  congrArg Host.Outcome.next (if_neg (by simp [gtrRuns, hrun, hok]))

theorem gnssClockFault_reports :
    Reports .gnssClockFault (fun s => s.blockRuns 14 = true ∧ s.gtr.clockFault = false) 72 0 0x8000 clockLost := by
  intro s ⟨hrun, hok⟩ hrises
  have hirq : raiseIrq 15 (clockLost s) = { clockLost s with intc := (raiseIrq 15 (clockLost s)).intc } := raiseIrq_eq _ _
  have hrises' : rises (raiseIrq 15 (clockLost s)) 72 0 = true := by
    rw [hirq]
    exact hrises
  obtain ⟨hframe, hraised, hrec⟩ := faultEvent_reports 72 0 _ hrises'
  have hall := (raiseIrq_receiver (clockLost s)).trans hraised
  refine ⟨_, exec_gnssClockFault s hrun hok, ?_, ?_, ?_⟩
  · rw [hframe, hirq]
  · rw [BitVec.or_assoc]
    exact ⟨hall.status, hall.intc, hall.pcu⟩
  · rw [hirq] at hrec ⊢
    exact hrec

/-- With the configuration that fault collection starts with, a loss of GCLK rises (R351). -/
theorem clockFault_rises (s : State) (hphase : s.cpx.phase ≠ .inReset) (hcfg : s.fco.cfg = []) (hpresent : s.present 14 = true)
    (hshadow : inShadow s 14 = false) : rises s 72 0 = true := by
  have hsrc : sourceCfg s 72 = { level := 1, cap := 1, errn := false } := by
    unfold sourceCfg
    rw [hcfg]
    rfl
  have howner : faultOwner s 72 { addr := 0 } = some 14 := if_pos hpresent
  have hrow : (sourceRow 72).isSome = true := rfl
  unfold rises
  rw [hsrc, howner]
  simp [hphase, hshadow, hrow]

theorem gnssClockFault_faults : Faults .gnssClockFault (fun s => s.blockRuns 14 = true ∧ s.gtr.clockFault = false) 72 14 := by
  intro s ⟨hs, hphase, hcfg, hpresent, hshadow⟩
  obtain ⟨t, ht, -, hraised, hrec⟩ := gnssClockFault_reports s hs (clockFault_rises s hphase hcfg hpresent hshadow)
  obtain ⟨hpending, hcount, -⟩ := hrec
  refine ⟨t, ht, hpending, hcount, hraised.setsBit 8 ?_⟩
  rw [BitVec.getLsbD_or]
  rfl

/-! ### Notches (R168) -/

theorem State.notchOf_fin (s : State) (b : Fin 2) (n : Fin 4) : s.notchOf b.val n.val = s.gtr.notch[b][n] := by
  unfold State.notchOf
  rw [vget_fin, vget_fin]

theorem vmod_fin {α : Type} {n : Nat} (v : Vector α n) (i : Fin n) (f : α → α) : vmod v i.val f = v.set i.val (f v[i]) :=
  dif_pos i.isLt

/-- A change that leaves the element as it is changes nothing. -/
theorem vmod_same {α : Type} {n : Nat} (v : Vector α n) (i : Nat) (f : α → α) (d : α) (h : f (vget v i d) = vget v i d) :
    vmod v i f = v := by
  rw [vmod_congr v i f (fun x => x) d h]
  unfold vmod
  split
  · exact Vector.set_getElem_self _
  · rfl

theorem setNotch_congr (s : State) (b n : Nat) (f g : Notch → Notch) (h : f (s.notchOf b n) = g (s.notchOf b n)) :
    s.setNotch b n f = s.setNotch b n g := by
  unfold State.setNotch
  refine setGtr_congr s _ _ ?_
  rw [vmod_congr s.gtr.notch b (fun v => vmod v n f) (fun v => vmod v n g) (Vector.replicate 4 {}) (vmod_congr _ n f g {} h)]

theorem setNotch_same (s : State) (b n : Nat) (f : Notch → Notch) (h : f (s.notchOf b n) = s.notchOf b n) : s.setNotch b n f = s := by
  unfold State.setNotch State.setGtr
  dsimp only
  rw [vmod_same s.gtr.notch b _ (Vector.replicate 4 {}) (vmod_same _ n f {} h)]

theorem Serves.setNotch {s t : State} (h : Serves s t) (b n : Nat) (f : Notch → Notch) :
    Serves (s.setNotch b n f) (t.setNotch b n f) := h.setGtr _

/-- A notch after a lower-numbered one of its band has taken an interferer at a frequency. -/
def releasedNotch (n : Nat) (f : Int) (m : Nat) (y : Notch) : Notch :=
  if n < m && y.adaptiveOn f then { y with holds := none } else y

/-- What a higher-numbered notch does as a lower one takes an interferer (R168). -/
def releaseOne (b n : Nat) (f : Int) (m : Nat) (t : State) : State :=
  if n < m && (t.notchOf b m).adaptiveOn f then notchEvent (t.setNotch b m fun y => { y with holds := none }) else t

theorem releaseHigher_eq (b n : Nat) (f : Int) (s : State) : releaseHigher b n f s = forAll 4 s (releaseOne b n f) := rfl

theorem releaseOne_serves (b n : Nat) (f : Int) (m : Nat) (t : State) :
    Serves (t.setNotch b m (releasedNotch n f m)) (releaseOne b n f m t) := by
  unfold releaseOne
  split
  next h =>
    rw [setNotch_congr t b m (releasedNotch n f m) (fun y => { y with holds := none }) (if_pos h)]
    exact notchEvent_serves _
  next h =>
    rw [setNotch_same t b m (releasedNotch n f m) (if_neg h)]
    exact .refl _

theorem forAll_setNotch (b : Nat) (f : Nat → Notch → Notch) (k : Nat) (s : State) :
    forAll k s (fun m t => t.setNotch b m (f m)) = s.setGtr fun g => { g with notch := vmod g.notch b (mapFirst k f) } := by
  induction k with
  | zero =>
    unfold State.setGtr
    dsimp only
    rw [vmod_same s.gtr.notch b _ (Vector.replicate 4 {}) (mapFirst_zero f _)]
    rfl
  | succ k ih =>
    have hstep : mapFirst (k + 1) f = fun v : Vector Notch 4 => vmod (mapFirst k f v) k (f k) :=
      funext fun v => (mapFirst_succ k f v).symm
    rw [forAll_succ, ih, hstep]
    unfold State.setNotch State.setGtr
    dsimp only
    rw [vmod_vmod]

theorem releaseHigher_serves (b n : Nat) (f : Int) (s : State) :
    Serves (s.setGtr fun g => { g with notch := vmod g.notch b (mapFirst 4 (releasedNotch n f)) }) (releaseHigher b n f s) := by
  rw [← forAll_setNotch, releaseHigher_eq]
  generalize 4 = k
  induction k with
  | zero => exact .refl _
  | succ k ih =>
    rw [forAll_succ, forAll_succ]
    exact (ih.setNotch b k _).trans (releaseOne_serves b n f k _)

/-- A notch that adapts (R168). -/
def adapts (s : State) (band : Fin 2) (n : Fin 4) : Prop :=
  s.blockRuns 14 = true ∧ s.gtr.cfg.enable = true ∧ s.gtr.notch[band][n].mode = 2

theorem adapts_runs (s : State) (band : Fin 2) (n : Fin 4) (h : adapts s band n) :
    ¬(!(gtrRuns s && s.gtr.cfg.enable && (s.notchOf band.val n.val).mode == 2)) = true := by
  obtain ⟨hrun, hen, hmode⟩ := h
  rw [State.notchOf_fin, hmode]
  simp [gtrRuns, hrun, hen]

/-- An adaptive notch that sees no interferer releases the one that it holds. -/
theorem exec_notchAdapt_none (band : Fin 2) (n : Fin 4) (seen : List Interferer) (s : State) (h : adapts s band n)
    (hsees : strongest (notchSees s band.val n.val seen) = none) : exec (.notchAdapt band n seen) s =
      .next (if s.gtr.notch[band][n].holds.isNone then s
        else notchEvent (s.setNotch band.val n.val fun y => { y with holds := none })) := by
  unfold exec execNotchAdapt
  dsimp only
  rw [if_neg (adapts_runs s band n h), hsees, State.notchOf_fin]

/-- An interferer has been taken at an impression (R168). -/
def takenNotch (f : Int) (now : Nat) (y : Notch) : Notch := { y with holds := some f, movedAt := some now }

/-- A notch takes an interferer, and the higher-numbered ones of its band release it. -/
def notchTaken (band : Fin 2) (n : Fin 4) (i : Interferer) (s : State) : State :=
  releaseHigher band.val n.val i.freq (s.setNotch band.val n.val (takenNotch i.freq s.cpx.impressions))

/-- A notch stays where it is: on its interferer, or for 10 ms after a move. -/
def notchWaits (x : Notch) (f : Int) (now : Nat) : Bool :=
  x.holds == some f || x.movedAt.any fun t => decide (now < t + 80)

/-- The interferer that a notch holds has gone. -/
def notchFollows (x : Notch) (sees : List Interferer) : Bool := x.holds.any fun f => !sees.any fun j => j.freq == f

theorem exec_notchAdapt_some (band : Fin 2) (n : Fin 4) (seen : List Interferer) (s : State) (i : Interferer) (h : adapts s band n)
    (hsees : strongest (notchSees s band.val n.val seen) = some i) : exec (.notchAdapt band n seen) s =
      .next (if notchWaits s.gtr.notch[band][n] i.freq s.cpx.impressions then s
        else if notchFollows s.gtr.notch[band][n] (notchSees s band.val n.val seen) then notchTaken band n i s
        else notchEvent (notchTaken band n i s)) := by
  unfold exec execNotchAdapt
  dsimp only
  rw [if_neg (adapts_runs s band n h), hsees, State.notchOf_fin]
  rfl

theorem notchWaits_iff (x : Notch) (f : Int) (now : Nat) :
    notchWaits x f now = true ↔ x.holds = some f ∨ ∃ m, x.movedAt = some m ∧ now < m + 80 := by
  unfold notchWaits
  rw [Bool.or_eq_true, beq_iff_eq, Option.any_eq_true]
  simp only [decide_eq_true_eq]

/-- The notches after one has taken an interferer. -/
def takenNotches (band n : Nat) (f : Int) (now : Nat) (v : Vector (Vector Notch 4) 2) : Vector (Vector Notch 4) 2 :=
  vmod v band fun w => mapFirst 4 (releasedNotch n f) (vmod w n (takenNotch f now))

theorem notchTaken_serves (band : Fin 2) (n : Fin 4) (i : Interferer) (s : State) :
    Serves (s.setGtr fun g => { g with notch := takenNotches band.val n.val i.freq s.cpx.impressions g.notch })
      (notchTaken band n i s) := by
  have h := releaseHigher_serves band.val n.val i.freq (s.setNotch band.val n.val (takenNotch i.freq s.cpx.impressions))
  unfold State.setNotch State.setGtr at h
  dsimp only at h
  rw [vmod_vmod] at h
  exact h

theorem mapFirst_all {α : Type} {m : Nat} (f : Nat → α → α) (v : Vector α m) (i : Fin m) : (mapFirst m f v)[i] = f i.val v[i] := by
  simp [mapFirst]

theorem takenNotches_other (band b : Fin 2) (n : Nat) (f : Int) (now : Nat) (v : Vector (Vector Notch 4) 2) (h : b ≠ band) :
    (takenNotches band.val n f now v)[b] = v[b] := by
  rw [← vget_fin _ b (Vector.replicate 4 {}), ← vget_fin _ b (Vector.replicate 4 {})]
  exact vget_vmod_ne _ _ _ _ _ fun e => h (Fin.ext e.symm)

theorem takenNotches_band (band : Fin 2) (n m : Fin 4) (f : Int) (now : Nat) (v : Vector (Vector Notch 4) 2) :
    (takenNotches band.val n.val f now v)[band][m] =
      releasedNotch n.val f m.val (if n = m then takenNotch f now v[band][m] else v[band][m]) := by
  have hband : (takenNotches band.val n.val f now v)[band] =
      mapFirst 4 (releasedNotch n.val f) (vmod v[band] n.val (takenNotch f now)) := by
    rw [← vget_fin _ band (Vector.replicate 4 {}), ← vget_fin v band (Vector.replicate 4 {})]
    exact vget_vmod_self _ _ _ _ band.isLt
  rw [hband, mapFirst_all, ← vget_fin _ m {}, vget_vmod _ _ _ _ _ n.isLt, vget_fin]
  simp only [Fin.ext_iff]

/-- A notch that sees nothing holds nothing, and says so when it held something (R168). -/
theorem notchAdapt_none (band : Fin 2) (n : Fin 4) (seen : List Interferer) (held : Bool) : Moves (.notchAdapt band n seen)
    (fun s => adapts s band n ∧ notchSees s band.val n.val seen = [] ∧ s.gtr.notch[band][n].holds.isSome = held)
    (if held then 0x8000 else 0)
    (fun s => { s with gtr := { s.gtr with
      notch := s.gtr.notch.set band.val (s.gtr.notch[band].set n.val { s.gtr.notch[band][n] with holds := none }) } }) := by
  refine moves_of_gtr _ _ _ (fun s g => { g with
      notch := s.gtr.notch.set band.val (s.gtr.notch[band].set n.val { s.gtr.notch[band][n] with holds := none }) })
    fun s ⟨hadapts, hsees, hheld⟩ => ⟨_, exec_notchAdapt_none band n seen s hadapts (by rw [hsees]; rfl), ?_⟩
  have hset : (s.setGtr fun g => { g with
      notch := s.gtr.notch.set band.val (s.gtr.notch[band].set n.val { s.gtr.notch[band][n] with holds := none }) }) =
      s.setNotch band.val n.val fun y => { y with holds := none } := by
    unfold State.setNotch State.setGtr
    dsimp only
    rw [vmod_fin, vmod_fin]
  rw [hset]
  cases held with
  | false =>
    have hnone : s.gtr.notch[band][n].holds = none := Option.isSome_eq_false_iff.mp hheld |> Option.isNone_iff_eq_none.mp
    rw [if_pos (Option.isNone_iff_eq_none.mpr hnone), setNotch_same s _ _ _ (by rw [State.notchOf_fin, ← hnone])]
    exact ⟨.refl _, .refl _⟩
  | true =>
    have hholds : ¬s.gtr.notch[band][n].holds.isNone = true := fun h => by
      rw [Option.isNone_iff_eq_none.mp h] at hheld
      exact Bool.false_ne_true hheld
    rw [if_neg hholds]
    exact ⟨notchEvent_serves _, notchEvent_raised _⟩

theorem notchAdapt_waits (band : Fin 2) (n : Fin 4) (seen : List Interferer) (i : Interferer) : Sets (.notchAdapt band n seen)
    (fun s => adapts s band n ∧ strongest (notchSees s band.val n.val seen) = some i ∧
      (s.gtr.notch[band][n].holds = some i.freq ∨ ∃ m, s.gtr.notch[band][n].movedAt = some m ∧ s.cpx.impressions < m + 80)) id := by
  intro s ⟨hadapts, hsees, hwaits⟩
  rw [exec_notchAdapt_some band n seen s i hadapts hsees, if_pos ((notchWaits_iff _ _ _).mpr hwaits)]
  rfl

theorem notchAdapt_takes (band : Fin 2) (n : Fin 4) (seen : List Interferer) (i : Interferer) : Leads (.notchAdapt band n seen)
    (fun s => adapts s band n ∧ strongest (notchSees s band.val n.val seen) = some i ∧
      ¬(s.gtr.notch[band][n].holds = some i.freq ∨ ∃ m, s.gtr.notch[band][n].movedAt = some m ∧ s.cpx.impressions < m + 80))
    (fun s t =>
      let x := s.gtr.notch[band][n]
      t.gtr.notch[band][n] = { x with holds := some i.freq, movedAt := some s.cpx.impressions } ∧
      (∀ m : Fin 4, m ≠ n → t.gtr.notch[band][m] =
        let y := s.gtr.notch[band][m]
        if n < m ∧ y.mode = 2 ∧ y.holds = some i.freq then { y with holds := none } else y) ∧
      (∀ b : Fin 2, b ≠ band → t.gtr.notch[b] = s.gtr.notch[b]) ∧
      (x.holds = none → t.intc.status.getLsbD 15 = true) ∧
      { t with gtr := { t.gtr with notch := s.gtr.notch }, intc := s.intc, pcu := s.pcu } = s) := by
  intro s ⟨hadapts, hsees, hwaits⟩
  refine ⟨_, (exec_notchAdapt_some band n seen s i hadapts hsees).trans
    (congrArg Host.Outcome.next (if_neg (mt (notchWaits_iff _ _ _).mp hwaits))), ?_⟩
  have htaken := notchTaken_serves band n i s
  have hserves : Serves (s.setGtr fun g => { g with notch := takenNotches band.val n.val i.freq s.cpx.impressions g.notch })
      (if notchFollows s.gtr.notch[band][n] (notchSees s band.val n.val seen) then notchTaken band n i s
        else notchEvent (notchTaken band n i s)) := .ite htaken (htaken.trans (notchEvent_serves _))
  have hnotch := congrArg Gtr.notch hserves.only.gtr
  refine ⟨?_, fun m hm => ?_, fun b hb => ?_, fun hnone => ?_, ?_⟩
  · rw [hnotch]
    refine (takenNotches_band band n n _ _ _).trans ?_
    rw [if_pos rfl, releasedNotch, if_neg (by simp)]
    rfl
  · rw [hnotch]
    refine (takenNotches_band band n m _ _ _).trans ?_
    rw [if_neg hm.symm]
    unfold releasedNotch Notch.adaptiveOn
    simp only [Bool.and_eq_true, decide_eq_true_eq, beq_iff_eq]
    rfl
  · rw [hnotch]
    exact takenNotches_other band b _ _ _ _ hb
  · have hfree : ¬notchFollows s.gtr.notch[band][n] (notchSees s band.val n.val seen) = true := fun h => by
      unfold notchFollows at h
      rw [hnone] at h
      exact Bool.false_ne_true h
    rw [if_neg hfree]
    exact (notchEvent_raised _).setsBit 15 rfl
  · rw [hserves.frame]
    rfl

end Sys2Proof.Machine
namespace Sys2Proof.Machine

/-! ### What a delivery to the pool leaves alone (R163) -/

/-- `t` differs from `s` in the pool, the domains, the interrupts and the counters alone. -/
def PoolOnly (s t : State) : Prop :=
  t = { s with intc := t.intc, pcu := t.pcu, rim := t.rim, tcr := { s.tcr with dom := t.tcr.dom } }

section
variable {s t u : State}

theorem PoolOnly.refl (s : State) : PoolOnly s s := rfl

theorem PoolOnly.trans (h : PoolOnly s t) (g : PoolOnly t u) : PoolOnly s u := by
  unfold PoolOnly at *
  rw [g, h]

theorem PoolOnly.ite {c : Prop} [Decidable c] (h : PoolOnly s t) (g : PoolOnly s u) : PoolOnly s (if c then t else u) := by
  split <;> assumption

theorem Serves.poolOnly (h : Serves s t) : PoolOnly s t := by
  rw [h.frame]
  rfl

theorem PoolOnly.setGtr (h : PoolOnly s t) (f : Gtr → Gtr) : PoolOnly (s.setGtr f) (t.setGtr f) := by
  unfold PoolOnly at *
  rw [h]
  rfl

theorem PoolOnly.gtr (h : PoolOnly s t) : t.gtr = s.gtr := by rw [h]
theorem PoolOnly.cpx (h : PoolOnly s t) : t.cpx = s.cpx := by rw [h]
theorem PoolOnly.mbx (h : PoolOnly s t) : t.mbx = s.mbx := by rw [h]
theorem PoolOnly.cycles (h : PoolOnly s t) : t.tcr.cycles = s.tcr.cycles := by rw [h]

theorem PoolOnly.blockRuns (h : PoolOnly s t) (b : Nat) : t.blockRuns b = s.blockRuns b := by
  rw [h]
  rfl

theorem PoolOnly.unsteered (h : PoolOnly s t) (ns : ℚ) : unsteered t ns = unsteered s ns := by
  rw [h]
  rfl

end

theorem poolOnly_setRef (r : Nat) (f : RefEntry → RefEntry) (s : State) : PoolOnly s (s.setRef r f) := rfl
theorem poolOnly_setDom (d : Nat) (f : Domain → Domain) (s : State) : PoolOnly s (s.setDom d f) := rfl

theorem poolOnly_setHistory (r n : Nat) (s : State) : PoolOnly s (setHistory r n s) :=
  (poolOnly_setRef r _ s).trans (setHistory_serves r n s).poolOnly

theorem poolOnly_moveRef (r : Nat) (st : RefState) (s : State) : PoolOnly s (moveRef r st s) :=
  (poolOnly_setRef r _ s).trans (moveRef_serves r st s).poolOnly

/-- A review moves the entry or leaves it; a loss of a qualified one also tells what follows it (R127, R406). -/
theorem reviewRef_cases (r : Nat) (s : State) : reviewRef r s = s ∨ (∃ st, reviewRef r s = moveRef r st s) ∨
    reviewRef r s = warmLoss r (moveRef r .disqualified s) := by
  unfold reviewRef
  dsimp only
  split
  · exact .inl rfl
  split
  · split
    · exact .inl rfl
    · exact .inr (.inl ⟨_, rfl⟩)
  · split
    · exact .inr (.inl ⟨_, rfl⟩)
    · exact .inl rfl
  · split
    · exact .inr (.inr rfl)
    · split
      · exact .inr (.inl ⟨_, rfl⟩)
      · exact .inl rfl
  · split
    · exact .inr (.inr rfl)
    · exact .inl rfl
  · split
    · exact .inl rfl
    · exact .inr (.inl ⟨_, rfl⟩)

/-- Outside a WARM restart a loss moves no DPLL (R406). -/
theorem warmLoss_cold (r : Nat) (s : State) (h : s.cpx.warm = none) : warmLoss r s = s := if_neg (by simp [h])

theorem poolOnly_reviewRef (r : Nat) (s : State) (h : s.cpx.warm = none) : PoolOnly s (reviewRef r s) := by
  rcases reviewRef_cases r s with hs | ⟨st, hs⟩ | hs <;> rw [hs]
  · exact .refl s
  · exact poolOnly_moveRef r st s
  · have hmove := poolOnly_moveRef r .disqualified s
    rw [warmLoss_cold r _ (by rw [hmove.cpx, h])]
    exact hmove

theorem poolOnly_giveUtc (r : Nat) (s : State) : PoolOnly s (giveUtc r s) := by
  unfold giveUtc
  dsimp only
  split
  · exact .refl s
  · split
    · exact .refl s
    · exact forAll_keeps (PoolOnly s) 4 _ s (fun d t h => .ite (h.trans (poolOnly_setDom d _ t)) h) (.refl s)

theorem poolOnly_startSlew (d ppb : Nat) (offset : Int) (s : State) : PoolOnly s (startSlew d ppb offset s) := by
  have h : PoolOnly s (refreshMoving d (s.setDom d (slewedBy ppb offset))) := rfl
  rcases startSlew_cases d ppb offset s with hs | hs <;> rw [hs]
  · exact h
  · exact h.trans (pcuCount_serves _ _ _ _).poolOnly

theorem poolOnly_returnPolicy (d : Nat) (o : Int) (s : State) : PoolOnly s (returnPolicy d o s) := by
  unfold returnPolicy
  dsimp only
  split
  · exact poolOnly_setDom d _ s
  · exact poolOnly_setDom d _ s
  · exact .ite (poolOnly_setDom d _ s) ((poolOnly_setDom d _ s).trans (poolOnly_startSlew d _ _ _))

theorem poolOnly_dropAdopt (d : Nat) (s : State) : PoolOnly s (dropAdopt d s) := by
  rw [dropAdopt_eq]
  exact poolOnly_setDom d _ s

theorem poolOnly_tryAdopt (d : Nat) (s : State) : PoolOnly s (tryAdopt d s) := by
  unfold tryAdopt
  dsimp only
  split
  · exact .refl s
  · exact .ite (poolOnly_setDom d _ s) (.refl s)

theorem poolOnly_checkTod (d : Nat) (s : State) : PoolOnly s (checkTod d s) := by
  unfold checkTod
  dsimp only
  split
  · exact .refl s
  split
  · exact .refl s
  · have hnoted := fun r => poolOnly_setHistory r 11 s
    exact .ite (.refl s) (.ite (hnoted _) ((hnoted _).trans (poolOnly_returnPolicy d _ _)))

theorem poolOnly_followTod (d : Nat) (s : State) : PoolOnly s (followTod d s) :=
  ((poolOnly_dropAdopt d s).trans (poolOnly_tryAdopt d _)).trans (poolOnly_checkTod d _)

theorem poolOnly_spreadTod (r : Nat) (s : State) : PoolOnly s (spreadTod r s) :=
  forAll_keeps (PoolOnly s) 4 _ s (fun d t h => .ite (h.trans (poolOnly_followTod d t)) h) (.refl s)

/-! ### A delivery (R123, R124, R163) -/

/-- A delivery to an enabled entry measures it, and something has arrived there. -/
theorem deliver_eq (r : Nat) (d : Delivery) (s : State) (hen : (s.refEntry r).enable = true) (hrun : s.blockRuns 5 = true) :
    ∃ was is f, deliver r d s = spreadTod r (giveUtc r (refArrives r ((risen r 4 was is s).setRef r f))) ∧
      ∀ e, (f e).lag = some (d.lag + s.tcr.cycles - unsteered s s.tcr.cycles, s.tcr.cycles) :=
  ⟨_, _, _, if_neg (by simp [hen, hrun]), fun _ => rfl⟩

theorem deliver_idle (r : Nat) (d : Delivery) (s : State) (h : ¬((s.refEntry r).enable = true ∧ s.blockRuns 5 = true)) :
    deliver r d s = s := if_pos (by simpa [imp_iff_not_or] using h)

theorem poolOnly_risen (r n : Nat) (was is : Bool) (s : State) : PoolOnly s (risen r n was is s) :=
  .ite (poolOnly_setHistory r n s) (.refl s)

theorem poolOnly_deliver (r : Nat) (d : Delivery) (s : State) (hwarm : s.cpx.warm = none) : PoolOnly s (deliver r d s) := by
  by_cases h : (s.refEntry r).enable = true ∧ s.blockRuns 5 = true
  · obtain ⟨was, is, f, heq, -⟩ := deliver_eq r d s h.1 h.2
    have hset : PoolOnly s (((risen r 4 was is s).setRef r f).setRef r arrivedRef) :=
      ((poolOnly_risen r 4 was is s).trans (poolOnly_setRef r f _)).trans (poolOnly_setRef r _ _)
    rw [heq]
    exact ((hset.trans (poolOnly_reviewRef r _ (by rw [hset.cpx, hwarm]))).trans (poolOnly_giveUtc r _)).trans
      (poolOnly_spreadTod r _)
  · rw [deliver_idle r d s h]
    exact .refl s

/-- After an arrival, an entry keeps what has been measured, and LOS is off. -/
theorem advances_arrival (r : Nat) (s : State) : Advances r (s.setRef r arrivedRef) (spreadTod r (giveUtc r (refArrives r s))) := by
  have hutc : ∀ t, Advances r t (giveUtc r t) := fun t =>
    .of_rim (by rw [giveUtc_tcr]) (by rw [giveUtc_tcr])
  exact ((advances_reviewRef r (s.setRef r arrivedRef)).trans (hutc _)).trans (advances_spreadTod r _)

/-- A delivery leaves the other entries. -/
theorem deliver_others (r q : Nat) (d : Delivery) (s : State) (hq : r ≠ q) : (deliver r d s).refEntry q = s.refEntry q := by
  by_cases h : (s.refEntry r).enable = true ∧ s.blockRuns 5 = true
  · obtain ⟨was, is, f, heq, -⟩ := deliver_eq r d s h.1 h.2
    rw [heq, (advances_arrival r _).others q hq, State.refEntry_setRef_ne _ _ _ _ hq, State.refEntry_setRef_ne _ _ _ _ hq,
      (advances_risen r 4 was is s).others q hq]
  · rw [deliver_idle r d s h]

/-- What a delivery shows in its entry. -/
theorem deliver_entry (r : Nat) (d : Delivery) (s : State) (hr : r < 32) (hen : (s.refEntry r).enable = true)
    (hrun : s.blockRuns 5 = true) : ((deliver r d s).refEntry r).lag =
      some (d.lag + s.tcr.cycles - unsteered s s.tcr.cycles, s.tcr.cycles) ∧ ((deliver r d s).refEntry r).los = false := by
  obtain ⟨was, is, f, heq, hlag⟩ := deliver_eq r d s hen hrun
  rw [heq]
  refine (advances_arrival r ((risen r 4 was is s).setRef r f)).own.holds
    (fun e => e.lag = some (d.lag + s.tcr.cycles - unsteered s s.tcr.cycles, s.tcr.cycles) ∧ e.los = false) (fun _ => .rfl) ?_
  rw [State.refEntry_setRef _ _ _ hr, State.refEntry_setRef _ _ _ hr]
  exact ⟨hlag _, rfl⟩

/-! ### A failure that stands (R172) -/

/-- A failure of the receiver begins: it stands, and both entries are to be reviewed. -/
def failureBegun (s : State) : State :=
  pcuCount 0x3001 0xFF 1 (raiseIrq 15 (s.setGtr fun g => { g with integrity := true, cleanFor := 0, windowBad := true }))

/-- An entry is held DISQUALIFIED while the failure stands. -/
def failureMarked (r : Nat) (s : State) : State :=
  reviewRef r (setHistory r 6 (s.setRef r fun e => { e with gnssFail := true }))

theorem gnssFailure_eq (s : State) (h : s.gtr.integrity = false) :
    gnssFailure s = failureMarked 17 (failureMarked 16 (failureBegun s)) := if_neg (by simp [h])

theorem failureBegun_serves (s : State) :
    Serves (s.setGtr fun g => { g with integrity := true, cleanFor := 0, windowBad := true }) (failureBegun s) :=
  (raiseIrq_serves 15 _).trans (pcuCount_serves _ _ _ _)

theorem poolOnly_failureMarked (r : Nat) (s : State) (h : s.cpx.warm = none) : PoolOnly s (failureMarked r s) := by
  have hset : PoolOnly s (setHistory r 6 (s.setRef r fun e => { e with gnssFail := true })) :=
    (poolOnly_setRef r _ s).trans (poolOnly_setHistory r 6 _)
  exact hset.trans (poolOnly_reviewRef r _ (by rw [hset.cpx, h]))

/-- A failure stands from its report on. -/
theorem gnssFailure_poolOnly (s : State) (hwarm : s.cpx.warm = none) :
    ∃ c w, PoolOnly (s.setGtr fun g => { g with integrity := true, cleanFor := c, windowBad := w }) (gnssFailure s) := by
  cases h : s.gtr.integrity with
  | true =>
    have hsame : gnssFailure s = s := if_pos h
    have hstands : s.setGtr (fun g => { g with integrity := true, cleanFor := s.gtr.cleanFor, windowBad := s.gtr.windowBad }) = s :=
      setGtr_congr s _ (fun g => g) (by rw [← h])
    refine ⟨s.gtr.cleanFor, s.gtr.windowBad, ?_⟩
    rw [hsame, hstands]
    exact .refl s
  | false =>
    rw [gnssFailure_eq s h]
    have hbegun := (failureBegun_serves s).poolOnly
    have h16 := hbegun.trans (poolOnly_failureMarked 16 _ (by rw [hbegun.cpx]; exact hwarm))
    exact ⟨_, _, h16.trans (poolOnly_failureMarked 17 _ (by rw [h16.cpx]; exact hwarm))⟩

end Sys2Proof.Machine
namespace Sys2Proof.Machine

/-! ### What a second hears (R157, R170, R175) -/

/-- The receiver with the noise and the jamming indicators of a second (R170). -/
def noisedGtr (noise : Vector (List Int × List Int) 2) (jam : Vector Byte 2) (g : Gtr) : Gtr := { g with noise := noise, jam := jam }

/-- The noise of a second in one band. -/
def noiseBand (band : Fin 2) (power : Int) (s : State) : State :=
  setJam band (jamIndicator (keepNoise band power s.gtr) band.val power) (s.setGtr (keepNoise band power))

theorem noiseBand_serves (band : Fin 2) (power : Int) (s : State) :
    ∃ noise jam, Serves (s.setGtr (noisedGtr noise jam)) (noiseBand band power s) :=
  ⟨(keepNoise band power s.gtr).noise, s.gtr.jam.set band (jamIndicator (keepNoise band power s.gtr) band.val power),
    setJam_serves band _ (s.setGtr (keepNoise band power))⟩

theorem noiseSecond_serves (noise : Vector Int 2) (s : State) :
    ∃ noise' jam, Serves (s.setGtr (noisedGtr noise' jam)) (noiseSecond noise s) := by
  have hbands : noiseSecond noise s = noiseBand 1 noise[(1 : Fin 2)] (noiseBand 0 noise[(0 : Fin 2)] s) := rfl
  rw [hbands]
  obtain ⟨_, _, hfirst⟩ := noiseBand_serves 0 noise[(0 : Fin 2)] s
  obtain ⟨noise', jam, hsecond⟩ := noiseBand_serves 1 noise[(1 : Fin 2)] (noiseBand 0 noise[(0 : Fin 2)] s)
  exact ⟨noise', jam, (hfirst.setGtr (noisedGtr noise' jam)).trans hsecond⟩

/-- The receiver with what its channels hear in a second. -/
def heardGtr (ch : List SatObs) (noise : Vector (List Int × List Int) 2) (jam : Vector Byte 2) (g : Gtr) : Gtr :=
  { hearBroadcasts ch g with epoch := none, channels := ch, noise := noise, jam := jam }

/-- The channels hear a second, with its noise. -/
def heardSecond (o : GnssObs) (ch : List SatObs) (s : State) : State :=
  noiseSecond o.noise (s.setGtr fun g => hearBroadcasts ch { g with epoch := none, channels := ch })

theorem heardSecond_serves (o : GnssObs) (ch : List SatObs) (s : State) :
    ∃ noise jam, Serves (s.setGtr (heardGtr ch noise jam)) (heardSecond o ch s) :=
  noiseSecond_serves o.noise (s.setGtr fun g => hearBroadcasts ch { g with epoch := none, channels := ch })

/-- Without a residual that is too large, no satellite is excluded (R167). -/
theorem excludeSats_none (ch : List SatObs) (s : State) (h : residualBad s.gtr ch = []) : excludeSats ch s = s :=
  if_neg (by simp [h])

/-! ### Solutions (R163, R164) -/

/-- Whether a solution is valid. -/
theorem validSolution_isSome (s : State) (dual : Bool) (sats : List (Fin 4 × Fin 64)) (sol : Option SolObs) :
    (validSolution s dual sats sol).isSome =
      ((!s.gtr.clockFault && !s.gtr.feFault && !s.gtr.restarted) && !sats.isEmpty &&
        decide (satsNeeded s.gtr sats ≤ sats.length) && sol.any fun x => !(taiOffsets sats x).isEmpty) := by
  have hlt : decide (satsNeeded s.gtr sats ≤ sats.length) = !decide (sats.length < satsNeeded s.gtr sats) := by
    rw [Bool.eq_iff_iff, decide_eq_true_iff, Bool.not_eq_true', decide_eq_false_iff_not, Nat.not_lt]
  rw [hlt]
  unfold validSolution
  dsimp only
  split
  next h =>
    have hbool : ∀ a b c d e f : Bool, (a || b || c || d || e) = true → false = ((!a && !b && !c) && !d && !e && f) := by decide
    exact hbool _ _ _ _ _ _ h
  next h =>
    have hbool : ∀ a b c d e f : Bool, ¬(a || b || c || d || e) = true → ((!a && !b && !c) && !d && !e && f) = f := by decide
    rw [hbool _ _ _ _ _ _ h]
    cases sol with
    | none => rfl
    | some x =>
      rw [Option.bind_some, Option.any_some]
      split
      next he => rw [he]; rfl
      next he => rw [Bool.eq_false_of_not_eq_true he]; rfl

/-- A valid solution comes with its offset from TAI. -/
theorem validSolution_some (s : State) (dual : Bool) (sats : List (Fin 4 × Fin 64)) (x : SolObs)
    (h : (validSolution s dual sats (some x)).isSome = true) :
    validSolution s dual sats (some x) = some (solvedOffset s dual sats x, x) := by
  unfold validSolution at h ⊢
  dsimp only at h ⊢
  split at h
  · exact absurd h Bool.false_ne_true
  next hlive =>
    rw [if_neg hlive, Option.bind_some]
    rw [Option.bind_some] at h
    split at h
    · exact absurd h Bool.false_ne_true
    next he => exact if_neg he

/-- No solution is valid without a satellite. -/
theorem validSolution_nil (s : State) (dual : Bool) (sol : Option SolObs) : validSolution s dual [] sol = none :=
  if_pos (by simp)

/-! ### The estimates and the checks of a second (R164, R171) -/

/-- The receiver without what the estimates and the checks of a second set. -/
def uncheckedOf (g : Gtr) : Gtr :=
  { g with bias := Vector.replicate 2 [], anchor := none, windowFor := 0, windowBad := false, failed := 0, unarmed := 0
           cn0For := 0, posFor := 0, cleanFor := 0, dPs := 0, integrity := false }

/-- `t` differs from `s` in the estimates of the receiver alone. -/
structure Estimates (s t : State) : Prop where
  frame : t = s.setGtr fun _ => t.gtr
  kept  : uncheckedOf t.gtr = uncheckedOf s.gtr

theorem Estimates.refl (s : State) : Estimates s s := ⟨rfl, rfl⟩

theorem Estimates.trans {s t u : State} (h : Estimates s t) (g : Estimates t u) : Estimates s u where
  frame := by
    rw [g.frame, h.frame]
    rfl
  kept := g.kept.trans h.kept

theorem estimates_biasSecond (dual : Bool) (sats : List (Fin 4 × Fin 64)) (sol : Option (Int × SolObs)) (s : State) :
    Estimates s (biasSecond dual sats sol s) := by
  unfold biasSecond
  split
  · exact .refl s
  · dsimp only
    split
    · exact .refl s
    · exact ⟨rfl, rfl⟩

theorem estimates_firstAnchor (ps : Option Int) (cycle : Nat) (s : State) : Estimates s (firstAnchor ps cycle s) := by
  unfold firstAnchor
  split
  · exact ⟨rfl, rfl⟩
  · exact .refl s

/-- What the checks of a second say: none that is not enabled fails, and a failing one lets a failure stand. -/
structure Judged (checks : BitVec 5) (g : Gtr) : Prop where
  enabled : g.failed &&& ~~~checks = 0
  stands  : g.failed ≠ 0 → g.integrity = true

/-- What a failure leaves of the second's checks. -/
theorem judged_failing {checks : BitVec 5} {g : Gtr} (henabled : g.failed &&& ~~~checks = 0) (c : Nat) (w : Bool) :
    Judged checks { g with integrity := true, cleanFor := c, windowBad := w } := ⟨henabled, fun _ => rfl⟩

theorem masked_and_not (x m : BitVec 5) : x &&& m &&& ~~~m = 0 := by
  refine BitVec.eq_of_getLsbD_eq fun i hi => ?_
  rw [BitVec.getLsbD_and, BitVec.getLsbD_and, BitVec.getLsbD_not]
  cases m.getLsbD i <;> simp

/-- The checks of a second: with a bad one a failure is reported. -/
theorem runChecks_eq (o : GnssObs) (ch : List SatObs) (phase : Option (Int × ℚ)) (cycle : Nat) (residual : CheckResult) (s : State) :
    ∃ g bad, runChecks o ch phase cycle residual s = (if bad = true then gnssFailure (s.setGtr fun _ => g) else s.setGtr fun _ => g) ∧
      uncheckedOf g = uncheckedOf s.gtr ∧ (∃ x, g.failed = x &&& s.gtr.limits.checks) ∧ (g.failed ≠ 0 → bad = true) :=
  ⟨_, _, rfl, rfl, ⟨_, rfl⟩, fun h => by rw [Bool.or_eq_true, bne_iff_ne]; exact .inl h⟩

/-- With a bad check a failure stands; without one nothing beside the receiver changes. -/
theorem runChecks_judges (o : GnssObs) (ch : List SatObs) (phase : Option (Int × ℚ)) (cycle : Nat) (residual : CheckResult) (s : State)
    (hwarm : s.cpx.warm = none) : ∃ g, PoolOnly (s.setGtr fun _ => g) (runChecks o ch phase cycle residual s) ∧
      uncheckedOf g = uncheckedOf s.gtr ∧ Judged s.gtr.limits.checks g ∧
      (g.integrity = false → (runChecks o ch phase cycle residual s).rim = s.rim) := by
  obtain ⟨g, bad, heq, hkept, ⟨x, hx⟩, hbad⟩ := runChecks_eq o ch phase cycle residual s
  have henabled : g.failed &&& ~~~s.gtr.limits.checks = 0 := by
    rw [hx]
    exact masked_and_not _ _
  rw [heq]
  split
  · obtain ⟨c, w, hpool⟩ := gnssFailure_poolOnly (s.setGtr fun _ => g) hwarm
    exact ⟨_, hpool, hkept, judged_failing henabled _ _, fun h => absurd h (Bool.false_ne_true ·.symm)⟩
  next h => exact ⟨g, .refl _, hkept, ⟨henabled, fun hfailed => absurd (hbad hfailed) h⟩, fun _ => rfl⟩

/-- The phase of GNSS time that a second has measured, ps, and its time less the CD-TIME count, ns. -/
def solutionPhase (o : GnssObs) (cycle count : Nat) (single dual : Option (Int × SolObs)) : Option (Int × ℚ) :=
  (dual.or single).map fun x => (o.phasePs, (count : ℚ) / nsU - (x.1 : ℚ) / 1000 - cycle)

/-- The estimates of a second stand. -/
def estimatedSecond (o : GnssObs) (cycle count : Nat) (up two : List (Fin 4 × Fin 64)) (single dual : Option (Int × SolObs))
    (s : State) : State :=
  firstAnchor ((solutionPhase o cycle count single dual).map Prod.fst) cycle
    (biasSecond true two dual (biasSecond false up single s))

theorem estimates_estimatedSecond (o : GnssObs) (cycle count : Nat) (up two : List (Fin 4 × Fin 64))
    (single dual : Option (Int × SolObs)) (s : State) : Estimates s (estimatedSecond o cycle count up two single dual s) :=
  ((estimates_biasSecond false up single s).trans (estimates_biasSecond true two dual _)).trans (estimates_firstAnchor _ _ _)

/-- The receiver has used its satellites in a second. -/
def usedGtr (up : List (Fin 4 × Fin 64)) (phase : Option (Int × Nat)) (g : Gtr) : Gtr :=
  { g with used := up, restarted := false, phase := phase }

/-- The checks of a second have run. -/
def checkedSecond (o : GnssObs) (ch : List SatObs) (cycle count : Nat) (residual : CheckResult) (up two : List (Fin 4 × Fin 64))
    (single dual : Option (Int × SolObs)) (s : State) : State :=
  runChecks o ch (solutionPhase o cycle count single dual) cycle residual
    ((estimatedSecond o cycle count up two single dual s).setGtr
      (usedGtr up ((solutionPhase o cycle count single dual).map fun x => (x.1, cycle))))

theorem checkedSecond_judges (o : GnssObs) (ch : List SatObs) (cycle count : Nat) (residual : CheckResult)
    (up two : List (Fin 4 × Fin 64)) (single dual : Option (Int × SolObs)) (s : State) (hwarm : s.cpx.warm = none) :
    ∃ g phase, PoolOnly (s.setGtr fun _ => g) (checkedSecond o ch cycle count residual up two single dual s) ∧
      uncheckedOf g = uncheckedOf (usedGtr up phase s.gtr) ∧ Judged s.gtr.limits.checks g ∧
      (g.integrity = false → (checkedSecond o ch cycle count residual up two single dual s).rim = s.rim) := by
  have hest := estimates_estimatedSecond o cycle count up two single dual s
  unfold checkedSecond
  generalize estimatedSecond o cycle count up two single dual s = t at hest ⊢
  generalize (solutionPhase o cycle count single dual).map (fun x => (x.1, cycle)) = phase
  have hwarm' : (t.setGtr (usedGtr up phase)).cpx.warm = none := by
    rw [hest.frame]
    exact hwarm
  obtain ⟨g, hpool, hkept, hjudged, hrim⟩ := runChecks_judges o ch (solutionPhase o cycle count single dual) cycle residual _ hwarm'
  have hlimits := congrArg Gtr.limits hest.kept
  change t.gtr.limits = s.gtr.limits at hlimits
  refine ⟨g, phase, ?_, hkept.trans (congrArg (usedGtr up phase) hest.kept), ?_, fun h => (hrim h).trans ?_⟩
  · have hset : (t.setGtr (usedGtr up phase)).setGtr (fun _ => g) = s.setGtr fun _ => g := by
      rw [hest.frame]
      rfl
    rw [← hset]
    exact hpool
  · rw [← hlimits]
    exact hjudged
  · rw [hest.frame]
    rfl

/-! ### The end of a second (R159, R160, R163) -/

/-- Where a solution leads the receiver (R159). -/
def solvedState (solved : Bool) (g : Gtr) : GnssState :=
  if g.st = .search ∧ solved = true then (if g.held.isSome then .hold else .solve) else g.st

/-- The differences of the pseudoranges are kept, and a receiver that has solved is out of SEARCH. -/
def movedSecond (ch : List SatObs) (solved : Bool) (s : State) : State :=
  let s := s.setGtr (keepCross ch)
  if s.gtr.st == .search && solved then moveGnss (if s.gtr.held.isSome then .hold else .solve) s else s

theorem movedSecond_serves (ch : List SatObs) (solved : Bool) (s : State) :
    Serves (s.setGtr fun g => { keepCross ch g with st := solvedState solved g }) (movedSecond ch solved s) := by
  have hmoves : movedSecond ch solved s = if s.gtr.st == .search && solved then
      moveGnss (if s.gtr.held.isSome then .hold else .solve) (s.setGtr (keepCross ch)) else s.setGtr (keepCross ch) := rfl
  rw [hmoves]
  split
  next h =>
    have hst : solvedState solved s.gtr = if s.gtr.held.isSome then .hold else .solve := if_pos (by simpa using h)
    rw [setGtr_congr s _ (fun g => { keepCross ch g with st := if s.gtr.held.isSome then .hold else .solve }) (by rw [hst])]
    exact moveGnss_serves _ (s.setGtr (keepCross ch))
  next h =>
    have hst : solvedState solved s.gtr = s.gtr.st := if_neg (by simpa using h)
    rw [setGtr_congr s _ (keepCross ch) (by rw [hst]; rfl)]
    exact .refl _

theorem surveySecond_survey (pos : Option Ecef) (s : State) : ∃ v, surveySecond pos s = s.setGtr fun g => { g with survey := v } := by
  unfold surveySecond
  split
  · exact ⟨s.gtr.survey, rfl⟩
  · exact ⟨_, rfl⟩

/-- The receiver shows which solutions are valid, and the estimate of entry 16. -/
def decidedGtr (ok : Bool) (single dual : Option (Int × SolObs)) (g : Gtr) : Gtr :=
  { g with valid16 := ok && dual.isSome, valid17 := ok && single.isSome
           est16 := (match dual with
             | some x => gnssEstimate g x.2
             | none => g.est16) }

/-- The receiver has moved as it has solved, and its survey has the second's position. -/
def surveyedSecond (o : GnssObs) (ch : List SatObs) (solved : Bool) (s : State) : State :=
  surveySecond (if solved then o.pos else none) (movedSecond ch solved s)

/-- The receiver as it has solved, with its survey. -/
def surveyedAs (solved : Bool) (c : List (Fin 4 × Fin 64 × List Int)) (v : Option Survey) (g : Gtr) : Gtr :=
  { g with cross := c, survey := v, st := solvedState solved g }

theorem surveyedSecond_serves (o : GnssObs) (ch : List SatObs) (solved : Bool) (s : State) :
    ∃ c v, Serves (s.setGtr (surveyedAs solved c v)) (surveyedSecond o ch solved s) := by
  have hmoved := movedSecond_serves ch solved s
  unfold surveyedSecond
  generalize movedSecond ch solved s = t at hmoved ⊢
  obtain ⟨v, hsurvey⟩ := surveySecond_survey (if solved then o.pos else none) t
  rw [hsurvey]
  exact ⟨(keepCross ch s.gtr).cross, v, hmoved.setGtr fun g => { g with survey := v }⟩

end Sys2Proof.Machine
namespace Sys2Proof.Machine

/-! ### The delivery of a second (R163) -/

/-- Entry 16 has what the solution in both bands says. -/
def deliveredDual (o : GnssObs) (cycle count : Nat) (dual : Option (Int × SolObs)) (s : State) : State :=
  match dual with
  | some x => pcuCount 0x3003 0xFF 1 (gnssDeliver 16 x.1 x.2 o cycle count s)
  | none => s

/-- The entries have what the solutions of a second say. -/
def deliveredSecond (o : GnssObs) (cycle count : Nat) (ok : Bool) (single dual : Option (Int × SolObs)) (s : State) : State :=
  if !ok then s else
  match single with
  | some x => pcuCount 0x3004 0xFF 1 (gnssDeliver 17 x.1 x.2 o cycle count (deliveredDual o cycle count dual s))
  | none => deliveredDual o cycle count dual s

theorem poolOnly_deliveredDual (o : GnssObs) (cycle count : Nat) (dual : Option (Int × SolObs)) (s : State)
    (hwarm : s.cpx.warm = none) : PoolOnly s (deliveredDual o cycle count dual s) := by
  cases dual with
  | none => exact .refl s
  | some x => exact (poolOnly_deliver 16 _ s hwarm).trans (pcuCount_serves _ _ _ _).poolOnly

theorem deliveredDual_single (o : GnssObs) (cycle count : Nat) (dual : Option (Int × SolObs)) (s : State) :
    (deliveredDual o cycle count dual s).refEntry 17 = s.refEntry 17 := by
  cases dual with
  | none => rfl
  | some x =>
    refine (refEntry_of_rim (pcuCount_serves 0x3003 0xFF 1 (gnssDeliver 16 x.1 x.2 o cycle count s)).only.rim 17).trans ?_
    exact deliver_others 16 17 _ s (by decide)

theorem poolOnly_deliveredSecond (o : GnssObs) (cycle count : Nat) (ok : Bool) (single dual : Option (Int × SolObs)) (s : State)
    (hwarm : s.cpx.warm = none) : PoolOnly s (deliveredSecond o cycle count ok single dual s) := by
  have hdual := poolOnly_deliveredDual o cycle count dual s hwarm
  refine .ite (.refl s) ?_
  cases single with
  | none => exact hdual
  | some x =>
    exact (hdual.trans (poolOnly_deliver 17 _ _ (by rw [hdual.cpx, hwarm]))).trans (pcuCount_serves _ _ _ _).poolOnly

/-- What a solution of a second delivers (R163). -/
def solutionDelivery (o : GnssObs) (cycle count : Nat) (x : Int × SolObs) (s : State) : Delivery :=
  { lag := (count : ℚ) / nsU - (x.1 : ℚ) / 1000 - cycle, freq := some (solvedFreq s x.2), uncPs := gnssEstimate s.gtr x.2
    cls := 1, utc := o.utc }

/-- The time of a solution in its entry: GNSS time less the CD-TIME count, the steering out (R123, R163). -/
def solvedLag (cycle count : Nat) (off : Int) (s : State) : ℚ :=
  (count : ℚ) / nsU - (off : ℚ) / 1000 - cycle + s.tcr.cycles - unsteered s s.tcr.cycles

theorem deliveredSecond_entry (o : GnssObs) (cycle count : Nat) (x : Int × SolObs) (dual : Option (Int × SolObs)) (s : State)
    (hwarm : s.cpx.warm = none) (hen : (s.refEntry 17).enable = true)
    (hrun : s.blockRuns 5 = true) :
    ((deliveredSecond o cycle count true (some x) dual s).refEntry 17).lag = some (solvedLag cycle count x.1 s, s.tcr.cycles) ∧
      ((deliveredSecond o cycle count true (some x) dual s).refEntry 17).los = false := by
  have hdual := poolOnly_deliveredDual o cycle count dual s hwarm
  have hsecond : deliveredSecond o cycle count true (some x) dual s =
      pcuCount 0x3004 0xFF 1 (gnssDeliver 17 x.1 x.2 o cycle count (deliveredDual o cycle count dual s)) :=
    if_neg (by decide)
  have hentry := deliver_entry 17 (solutionDelivery o cycle count x (deliveredDual o cycle count dual s))
    (deliveredDual o cycle count dual s) (by decide) (by rw [deliveredDual_single, hen]) (by rw [hdual.blockRuns, hrun])
  rw [hdual.cycles, hdual.unsteered] at hentry
  rw [hsecond, refEntry_of_rim (pcuCount_serves _ _ _ _).only.rim]
  exact hentry

/-! ### A second as a whole (R157–R172) -/

/-- The satellites of the solution in both bands. -/
def dualSats (ch : List SatObs) (g : Gtr) : List (Fin 4 × Fin 64) := if g.cfg.lower then usedDual g ch else []

/-- The solution of entry 17. -/
def singleOf (o : GnssObs) (ch : List SatObs) (s : State) : Option (Int × SolObs) :=
  validSolution s false (usedUpper s.gtr ch) o.single

/-- The solution of entry 16. -/
def dualOf (o : GnssObs) (ch : List SatObs) (s : State) : Option (Int × SolObs) :=
  validSolution s true (dualSats ch s.gtr) o.dual

/-- What a second has heard is checked, and the receiver moves as it has solved. -/
def judgedSecond (o : GnssObs) (ch : List SatObs) (cycle count : Nat) (residual : CheckResult) (s : State) : State :=
  surveyedSecond o ch ((singleOf o ch s).isSome || (dualOf o ch s).isSome)
    (checkedSecond o ch cycle count residual (usedUpper s.gtr ch) (dualSats ch s.gtr) (singleOf o ch s) (dualOf o ch s) s)

/-- What a second has heard is checked, decided and delivered. -/
def solvedSecond (o : GnssObs) (ch : List SatObs) (cycle count : Nat) (residual : CheckResult) (s : State) : State :=
  let judged := judgedSecond o ch cycle count residual s
  let ok := !judged.gtr.integrity
  deliveredSecond o cycle count ok (singleOf o ch s) (dualOf o ch s) (judged.setGtr (decidedGtr ok (singleOf o ch s) (dualOf o ch s)))

theorem exec_gnssSolution (o : GnssObs) (cycle count : Nat) (s : State) (hrun : s.blockRuns 14 = true)
    (hwarm : s.cpx.warm = none) (hst : s.gtr.st ≠ .idle) (hepoch : s.gtr.epoch = some (cycle, count))
    (hresidual : residualBad (hearBroadcasts (channelsOf s.gtr o.sats) s.gtr) (channelsOf s.gtr o.sats) = []) :
    ∃ residual, exec (.gnssSolution o) s = .next (solvedSecond o (channelsOf s.gtr o.sats) cycle count residual
      (heardSecond o (channelsOf s.gtr o.sats) s)) := by
  have hepochs : exec (.gnssSolution o) s = .next (if !gtrRuns s || s.gtr.st == .idle then s else
      let ch := channelsOf s.gtr (seenSats s o.sats)
      solvedSecond o ch cycle count (checkResidual (heardSecond o ch s).gtr ch) (excludeSats ch (heardSecond o ch s))) := by
    unfold exec execGnssSolution
    rw [hepoch]
    rfl
  have hseen : seenSats s o.sats = o.sats := if_neg (by simp [hwarm])
  obtain ⟨noise, jam, hheard⟩ := heardSecond_serves o (channelsOf s.gtr o.sats) s
  rw [hepochs, if_neg (by simp [gtrRuns, hrun, hst]), hseen]
  dsimp only
  rw [excludeSats_none _ _ (by rw [hheard.only.gtr]; exact hresidual)]
  exact ⟨_, rfl⟩

/-- A second that has heard something: the receiver as its checks and its solutions have decided. -/
theorem judgedSecond_judges (o : GnssObs) (ch : List SatObs) (cycle count : Nat) (residual : CheckResult) (s : State)
    (hwarm : s.cpx.warm = none) :
    ∃ g c v phase, PoolOnly (s.setGtr fun _ => surveyedAs ((singleOf o ch s).isSome || (dualOf o ch s).isSome) c v g)
        (judgedSecond o ch cycle count residual s) ∧
      uncheckedOf g = uncheckedOf (usedGtr (usedUpper s.gtr ch) phase s.gtr) ∧ Judged s.gtr.limits.checks g ∧
      (g.integrity = false → (judgedSecond o ch cycle count residual s).rim = s.rim) := by
  unfold judgedSecond
  generalize ((singleOf o ch s).isSome || (dualOf o ch s).isSome) = solved
  obtain ⟨g, phase, hpool, hkept, hjudged, hrim⟩ := checkedSecond_judges o ch cycle count residual
    (usedUpper s.gtr ch) (dualSats ch s.gtr) (singleOf o ch s) (dualOf o ch s) s hwarm
  generalize checkedSecond o ch cycle count residual (usedUpper s.gtr ch) (dualSats ch s.gtr) (singleOf o ch s)
    (dualOf o ch s) s = t at hpool hrim ⊢
  obtain ⟨c, v, hsurveyed⟩ := surveyedSecond_serves o ch solved t
  refine ⟨g, c, v, phase, ?_, hkept, hjudged, fun h => hsurveyed.only.rim.trans (hrim h)⟩
  exact (hpool.setGtr (surveyedAs solved c v)).trans hsurveyed.poolOnly

end Sys2Proof.Machine
namespace Sys2Proof.Machine

/-! ### GNSS_SOLUTION as the manual states it (R157–R172) -/

/-- The solution of entry 17 is valid by what the second has heard (R159, R163). -/
def singleSolves (o : GnssObs) (ch : List SatObs) (g : Gtr) : Bool :=
  (!g.clockFault && !g.feFault && !g.restarted) && !(usedUpper g ch).isEmpty &&
    decide (satsNeeded g (usedUpper g ch) ≤ (usedUpper g ch).length) && o.single.any fun x => !(taiOffsets (usedUpper g ch) x).isEmpty

/-- The solution of entry 16 is valid by what the second has heard (R159, R163). -/
def dualSolves (o : GnssObs) (ch : List SatObs) (g : Gtr) : Bool :=
  g.cfg.lower && ((!g.clockFault && !g.feFault && !g.restarted) && !(usedDual g ch).isEmpty &&
    decide (satsNeeded g (usedDual g ch) ≤ (usedDual g ch).length) && o.dual.any fun x => !(taiOffsets (usedDual g ch) x).isEmpty)

theorem singleOf_isSome (o : GnssObs) (ch : List SatObs) (s : State) : (singleOf o ch s).isSome = singleSolves o ch s.gtr :=
  validSolution_isSome s false _ _

theorem dualOf_isSome (o : GnssObs) (ch : List SatObs) (s : State) : (dualOf o ch s).isSome = dualSolves o ch s.gtr := by
  unfold dualOf dualSats dualSolves
  cases s.gtr.cfg.lower with
  | false => rw [if_neg Bool.false_ne_true, validSolution_nil, Bool.false_and]; rfl
  | true => rw [if_pos rfl, validSolution_isSome, Bool.true_and]

/-- The noise of a second decides no solution. -/
theorem singleSolves_heard (o : GnssObs) (ch : List SatObs) (noise : Vector (List Int × List Int) 2) (jam : Vector Byte 2) (g : Gtr) :
    singleSolves o ch (heardGtr ch noise jam g) = singleSolves o ch (hearBroadcasts ch g) := rfl

theorem dualSolves_heard (o : GnssObs) (ch : List SatObs) (noise : Vector (List Int × List Int) 2) (jam : Vector Byte 2) (g : Gtr) :
    dualSolves o ch (heardGtr ch noise jam g) = dualSolves o ch (hearBroadcasts ch g) := rfl

/-- The receiver after a second's solutions. -/
structure Solved (o : GnssObs) (ch : List SatObs) (g g' : Gtr) : Prop where
  epoch     : g'.epoch = none
  channels  : g'.channels = ch
  used      : g'.used = usedUpper (hearBroadcasts ch g) ch
  restarted : g'.restarted = false
  heard     : g'.heard = (hearBroadcasts ch g).heard
  store     : g'.store = (hearBroadcasts ch g).store
  valid17   : g'.valid17 = (singleSolves o ch (hearBroadcasts ch g) && !g'.integrity)
  valid16   : g'.valid16 = (dualSolves o ch (hearBroadcasts ch g) && !g'.integrity)
  st        : g'.st = solvedState (singleSolves o ch (hearBroadcasts ch g) || dualSolves o ch (hearBroadcasts ch g)) g
  judged    : Judged g.limits.checks g'

/-- What the checks leave of the receiver, with its solutions decided. -/
theorem solved_of_kept (o : GnssObs) (ch : List SatObs) (s y : State) (noise : Vector (List Int × List Int) 2) (jam : Vector Byte 2)
    (hy : y.gtr = heardGtr ch noise jam s.gtr) (g : Gtr) (phase : Option (Int × Nat))
    (hkept : uncheckedOf g = uncheckedOf (usedGtr (usedUpper y.gtr ch) phase y.gtr)) (hjudged : Judged y.gtr.limits.checks g)
    (c : List (Fin 4 × Fin 64 × List Int)) (v : Option Survey) :
    Solved o ch s.gtr (decidedGtr (!g.integrity) (singleOf o ch y) (dualOf o ch y)
      (surveyedAs ((singleOf o ch y).isSome || (dualOf o ch y).isSome) c v g)) := by
  have hsingle := singleOf_isSome o ch y
  have hdual := dualOf_isSome o ch y
  rw [hy, singleSolves_heard] at hsingle
  rw [hy, dualSolves_heard] at hdual
  rw [hy] at hkept hjudged
  have hst := congrArg Gtr.st hkept
  have hheld := congrArg Gtr.held hkept
  have hheard := congrArg Gtr.heard hkept
  have hstore := congrArg Gtr.store hkept
  dsimp only [uncheckedOf, usedGtr, heardGtr, hearBroadcasts] at hst hheld
  exact {
    epoch := congrArg Gtr.epoch hkept
    channels := congrArg Gtr.channels hkept
    used := congrArg Gtr.used hkept
    restarted := congrArg Gtr.restarted hkept
    heard := hheard
    store := hstore
    valid17 := by rw [← hsingle, Bool.and_comm]; rfl
    valid16 := by rw [← hdual, Bool.and_comm]; rfl
    st := by
      rw [← hsingle, ← hdual]
      change solvedState _ g = _
      unfold solvedState
      rw [hst, hheld]
    judged := ⟨hjudged.enabled, hjudged.stands⟩ }

theorem setGtr_const (s : State) (f : Gtr → Gtr) (g : Gtr) : (s.setGtr f).setGtr (fun _ => g) = s.setGtr fun _ => g := rfl

/-- The offset of entry 17 (R163): the reported one, less the calibrated delay of the upper band. -/
theorem solvedOffset_heard (ch : List SatObs) (s y : State) (noise : Vector (List Int × List Int) 2) (jam : Vector Byte 2)
    (hheard : Serves (s.setGtr (heardGtr ch noise jam)) y) (x : SolObs) : solvedOffset y false (usedUpper y.gtr ch) x =
      (reportedOffset s.gtr false (taiOffsets (usedUpper (hearBroadcasts ch s.gtr) ch) x)).getD 0 - calValue s 0x3000 := by
  have hcal : gnssDelay y false = calValue s 0x3000 := by
    rw [hheard.frame]
    rfl
  have hreported : reportedOffset y.gtr false = reportedOffset s.gtr false := by
    rw [hheard.only.gtr]
    rfl
  have hused : usedUpper y.gtr ch = usedUpper (hearBroadcasts ch s.gtr) ch := by
    rw [hheard.only.gtr]
    rfl
  rw [solvedOffset, hcal, hreported, hused]

/-- A valid solution of entry 17 comes from the one that the second has seen. -/
theorem singleOf_some (o : GnssObs) (ch : List SatObs) (s : State) (x : SolObs) (hx : o.single = some x)
    (h : (singleOf o ch s).isSome = true) : singleOf o ch s = some (solvedOffset s false (usedUpper s.gtr ch) x, x) := by
  unfold singleOf at h ⊢
  rw [hx] at h ⊢
  exact validSolution_some s false _ x h

theorem PoolOnly.solvedLag {s t : State} (h : PoolOnly s t) (cycle count : Nat) (off : Int) :
    solvedLag cycle count off t = solvedLag cycle count off s := by
  unfold Machine.solvedLag
  rw [h.cycles, h.unsteered]

/-- GNSS_SOLUTION: the receiver as a whole, and where entry 17 is valid what it is told. -/
theorem gnssSolution_solves (o : GnssObs) (cycle count : Nat) (s : State) (hrun : s.blockRuns 14 = true)
    (hwarm : s.cpx.warm = none) (hst : s.gtr.st ≠ .idle) (hepoch : s.gtr.epoch = some (cycle, count))
    (hresidual : residualBad (hearBroadcasts (channelsOf s.gtr o.sats) s.gtr) (channelsOf s.gtr o.sats) = []) :
    ∃ t, exec (.gnssSolution o) s = .next t ∧ PoolOnly (s.setGtr fun _ => t.gtr) t ∧
      Solved o (channelsOf s.gtr o.sats) s.gtr t.gtr ∧
      ∀ x, o.single = some x → t.gtr.valid17 = true → (s.refEntry 17).enable = true → s.blockRuns 5 = true →
        (t.refEntry 17).lag = some (solvedLag cycle count
          ((reportedOffset s.gtr false (taiOffsets (usedUpper (hearBroadcasts (channelsOf s.gtr o.sats) s.gtr)
            (channelsOf s.gtr o.sats)) x)).getD 0 - calValue s 0x3000) s, s.tcr.cycles) ∧ (t.refEntry 17).los = false := by
  obtain ⟨residual, hexec⟩ := exec_gnssSolution o cycle count s hrun hwarm hst hepoch hresidual
  generalize channelsOf s.gtr o.sats = ch at hexec ⊢
  obtain ⟨noise, jam, hheard⟩ := heardSecond_serves o ch s
  have hygtr := hheard.only.gtr
  generalize heardSecond o ch s = y at hexec hheard hygtr
  have hywarm : y.cpx.warm = none := by rw [hheard.only.cpx]; exact hwarm
  obtain ⟨g, c, v, phase, hpool, hkept, hjudged, hrim⟩ := judgedSecond_judges o ch cycle count residual y hywarm
  have hsolved := solved_of_kept o ch s y noise jam hygtr g phase hkept hjudged c v
  unfold solvedSecond at hexec
  dsimp only at hexec
  generalize judgedSecond o ch cycle count residual y = z at hexec hpool hrim
  have hz : z.gtr.integrity = g.integrity := by rw [hpool.gtr]; rfl
  rw [hz] at hexec
  have hdecided := ((hheard.poolOnly.setGtr _).trans hpool).setGtr (decidedGtr (!g.integrity) (singleOf o ch y) (dualOf o ch y))
  rw [setGtr_const] at hdecided
  have hwgtr := hdecided.gtr
  have hwrim : g.integrity = false → (z.setGtr (decidedGtr (!g.integrity) (singleOf o ch y) (dualOf o ch y))).rim = s.rim := fun h =>
    (hrim h).trans hheard.only.rim
  generalize z.setGtr (decidedGtr (!g.integrity) (singleOf o ch y) (dualOf o ch y)) = w at hexec hdecided hwgtr hwrim
  have hwwarm : w.cpx.warm = none := by rw [hdecided.cpx]; exact hwarm
  have hdelivered := poolOnly_deliveredSecond o cycle count (!g.integrity) (singleOf o ch y) (dualOf o ch y) w hwwarm
  have hgtr := hdelivered.gtr.trans hwgtr
  refine ⟨_, hexec, ?_, ?_, fun x hx hvalid hen hrun5 => ?_⟩
  · rw [hgtr]
    exact hdecided.trans hdelivered
  · rw [hgtr]
    exact hsolved
  · rw [hgtr] at hvalid
    obtain ⟨hok, hsome⟩ := Bool.and_eq_true_iff.mp hvalid
    have hinteg : g.integrity = false := by simpa using hok
    have hentry := deliveredSecond_entry o cycle count (solvedOffset y false (usedUpper y.gtr ch) x, x) (dualOf o ch y) w hwwarm
      (by rw [refEntry_of_rim (hwrim hinteg), hen]) (by rw [hdecided.blockRuns]; exact hrun5)
    rw [hdecided.solvedLag, hdecided.cycles] at hentry
    rw [hok, singleOf_some o ch y x hx hsome, ← solvedOffset_heard ch s y noise jam hheard x]
    exact hentry

/-- The records of a second, read off clause by clause. -/
theorem gnssSolution_leads (o : GnssObs) (cycle count : Nat) : Leads (.gnssSolution o)
    (fun s =>
      let ch := channelsOf s.gtr o.sats
      s.blockRuns 14 = true ∧ s.cpx.warm = none ∧ s.gtr.st ≠ .idle ∧ s.gtr.epoch = some (cycle, count) ∧
      residualBad (hearBroadcasts ch s.gtr) ch = [])
    (fun s t =>
      let ch := channelsOf s.gtr o.sats
      let g := hearBroadcasts ch s.gtr
      let up := usedUpper g ch
      let two := usedDual g ch
      let live := !g.clockFault && !g.feFault && !g.restarted
      let solves := fun (sats : List (Fin 4 × Fin 64)) (sol : Option SolObs) =>
        live && !sats.isEmpty && decide (satsNeeded s.gtr sats ≤ sats.length) && sol.any fun x => !(taiOffsets sats x).isEmpty
      let one := solves up o.single
      let both := g.cfg.lower && solves two o.dual
      t.gtr.epoch = none ∧ t.gtr.channels = ch ∧ t.gtr.used = up ∧ t.gtr.restarted = false ∧
      t.gtr.heard = g.heard ∧ t.gtr.store = g.store ∧
      t.gtr.valid17 = (one && !t.gtr.integrity) ∧ t.gtr.valid16 = (both && !t.gtr.integrity) ∧
      t.gtr.st = (if s.gtr.st = .search ∧ (one || both) = true then (if s.gtr.held.isSome then .hold else .solve) else s.gtr.st) ∧
      (t.gtr.failed &&& ~~~s.gtr.limits.checks = 0) ∧ (t.gtr.failed ≠ 0 → t.gtr.integrity = true) ∧
      (∀ x, o.single = some x → t.gtr.valid17 = true → s.rim.ref[17].enable = true → s.blockRuns 5 = true →
        let off : ℚ := (((reportedOffset s.gtr false (taiOffsets up x)).getD 0 - calValue s 0x3000 : Int) : ℚ)
        let now := s.tcr.cycles
        t.rim.ref[17].lag = some ((count : ℚ) / 10 ^ 33 - off / 1000 - cycle + now - unsteered s now, now) ∧
        t.rim.ref[17].los = false) ∧
      t.mbx = s.mbx ∧ t.tcr.cycles = s.tcr.cycles) := by
  intro s ⟨hrun, hwarm, hst, hepoch, hresidual⟩
  obtain ⟨t, hexec, hpool, hsolved, hentry⟩ := gnssSolution_solves o cycle count s hrun hwarm hst hepoch hresidual
  refine ⟨t, hexec, hsolved.epoch, hsolved.channels, hsolved.used, hsolved.restarted, hsolved.heard, hsolved.store,
    hsolved.valid17, hsolved.valid16, hsolved.st, hsolved.judged.enabled, hsolved.judged.stands, fun x hx hvalid hen hrun5 => ?_,
    hpool.mbx, hpool.cycles⟩
  have hunit : ((nsU : Nat) : ℚ) = 10 ^ 33 := by
    rw [nsU]
    norm_num
  have hshown := hentry x hx hvalid hen hrun5
  rw [solvedLag, hunit] at hshown
  exact hshown

/-- Settles O43, event by event: what each does to the receiver, to the entries 16 and 17 and to the interrupts. -/
theorem gnssEventsAct : Obligations.GnssEventsAct :=
  ⟨gnssEpoch_sets, gnssEpoch_survey, gnssSolution_leads, satelliteExclusionEnd_sets, integrityClear_leads,
    timeCheckAnchorMove_moves, timeCheckAnchorMove_stays, ⟨gnssClockFault_reports, gnssClockFault_faults⟩, gclkReturn_leads,
    feStatusPoll_sets, surveyEnd_moves,
    fun band n seen => ⟨notchAdapt_none band n seen,
      fun i => ⟨notchAdapt_waits band n seen i, notchAdapt_takes band n seen i⟩⟩,
    jamThreshold_moves⟩

end Sys2Proof.Machine

/-! ## Synthesis: APLLs and outputs (O17, O18, O19, O44) -/

namespace Sys2Proof.Machine

/-! ### Masks -/

/-- One more index looked at. -/
theorem maskOf_succ (n : Nat) (p : Nat → Bool) : maskOf (n + 1) p = if p n then maskOf n p + 2 ^ n else maskOf n p := by
  simp [maskOf, List.range_succ]

theorem maskOf_lt (n : Nat) (p : Nat → Bool) : maskOf n p < 2 ^ n := by
  induction n with
  | zero => exact Nat.one_pos
  | succ n ih =>
    rw [maskOf_succ, pow_succ]
    split <;> omega

/-- A mask holds the indices that its predicate names. -/
theorem testBit_maskOf (n : Nat) (p : Nat → Bool) (i : Nat) (h : i < n) : (maskOf n p).testBit i = p i := by
  induction n with
  | zero => omega
  | succ n ih =>
    rw [maskOf_succ, Nat.add_comm]
    rcases Nat.lt_succ_iff_lt_or_eq.mp h with hlt | rfl
    · split
      · rw [Nat.testBit_two_pow_add_gt hlt, ih hlt]
      · exact ih hlt
    · have hhigh : (maskOf i p).testBit i = false := Nat.testBit_lt_two_pow (maskOf_lt i p)
      split
      next hp => rw [Nat.testBit_two_pow_add_eq, hhigh, hp]; rfl
      next hp => rw [hhigh, Bool.eq_false_iff.mpr hp]

/-! ### APLLs and outputs -/

theorem State.apllOf_fin (s : State) (n : Fin 4) : s.apllOf n.val = s.fso.apll[n] := vget_fin _ _ _
theorem State.outOf_fin (s : State) (o : Fin 24) : s.outOf o.val = s.fso.out[o] := vget_fin _ _ _

theorem setOut_congr (s : State) (o : Nat) (f g : Output → Output) (h : f (s.outOf o) = g (s.outOf o)) :
    s.setOut o f = s.setOut o g := by
  unfold State.setOut
  rw [vmod_congr s.fso.out o f g {} h]

/-- A change of one APLL, which may look at anything but the services, leaves them. -/
theorem quietEffect_setApll (n : Nat) (f : State → Apll → Apll)
    (hf : ∀ (s : State) m i q, f { s with mbx := m, intc := i, pcu := q } = f s) : QuietEffect fun s => s.setApll n (f s) where
  map s m i q := by rw [hf]; rfl
  list _ := rfl
  phase _ := rfl
  post _ := rfl
  spi _ := rfl

/-- The same for an output. -/
theorem quietEffect_setOut (o : Nat) (f : State → Output → Output)
    (hf : ∀ (s : State) m i q, f { s with mbx := m, intc := i, pcu := q } = f s) : QuietEffect fun s => s.setOut o (f s) where
  map s m i q := by rw [hf]; rfl
  list _ := rfl
  phase _ := rfl
  post _ := rfl
  spi _ := rfl

/-- The same for every output by its number. -/
theorem quietEffect_mapOuts (f : State → Nat → Output → Output)
    (hf : ∀ (s : State) m i q, f { s with mbx := m, intc := i, pcu := q } = f s) : QuietEffect fun s => s.mapOuts (f s) where
  map s m i q := by rw [hf]; rfl
  list _ := rfl
  phase _ := rfl
  post _ := rfl
  spi _ := rfl

/-! ### APLL_CONFIG (R178, R181) -/

/-- An APLL with the settings of an APLL_CONFIG: a running source change moves the word, a new nominal is relocked. -/
def configuredApll (p : Params) (s : State) (a : Apll) : Apll :=
  { a with
    source := p.opt 5 8, loopBw := p.u 6 2, ramp := p.u 16 4, vco := p.u 8 8
    yRest := if anyOut s (p.u 4 1) (fun x => x.st == .running) then a.yRest + sourceY s a.source - sourceY s (p.opt 5 8) else 0
    loop := if p.u 8 8 = a.vco then a.loop else .relockNominal }

theorem apllConfig_answers : Answers .apllConfig apllConfigDef same always
    (fun p s => s.setApll (p.u 4 1) (configuredApll p s))
    (fun _ p _ => [word (feedbackWord (p.u 8 8) / 2 ^ 48), word (feedbackWord (p.u 8 8) % 2 ^ 32),
      word (feedbackWord (p.u 8 8) % 2 ^ 48 / 2 ^ 32), wordI (residualNhz (p.u 8 8))]) :=
  answers_of_quiet _ _ _ _ _ _ (fun _ _ => rfl) (fun _ => rfl) (fun _ => quietEffect_setApll _ _ fun _ _ _ _ => rfl)
    fun _ _ _ _ _ _ => ⟨_, rfl, rfl, rfl, .inl rfl⟩

/-! ### APLL_RETUNE (R193–R195) -/

theorem takesLarge_effect (d : JobDef) (j : Job) (s e : State) (p : Params) (he : ServiceOnly (effectState d j s) e) :
    takesLarge e p = takesLarge s p :=
  effect_read (fun t => takesLarge t p) d j s e he fun _ _ _ _ _ => rfl

theorem apllRetune_small_waits : Waits .apllRetune apllRetuneDef same (fun p s => takesLarge s p = false)
    (fun p s => s.setApll (p.u 4 1) fun a =>
      { a with rampTo := some (p.u 8 8), rampFrom := some (a.vco, a.ramp), ramp := p.u 16 4 })
    (fun p _ => .retune (Fin.ofNat 4 (p.u 4 1))) :=
  waits_of_quiet _ _ _ _ _ _ (fun _ _ => rfl) (fun _ _ => by simp) (fun _ => quietEffect_setApll _ _ fun _ _ _ _ => rfl)
    fun j s _ hsmall e he => if_neg (by rw [takesLarge_effect _ _ s e _ he, hsmall]; exact Bool.false_ne_true)

/-- An APLL at the commit of a large retune (R195 step 2). -/
def committedApll (p : Params) (now : Nat) (a : Apll) : Apll :=
  { a with vco := p.u 8 8, ramp := p.u 16 4, loop := .relockNominal, restartDue := true, timedOut := false
           large := some { vco := a.vco, ramp := a.ramp, commit := now } }

/-- An output at that commit: a RUNNING one is held, and a staged divider is loaded. -/
def committedOut (s : State) (o : Nat) (x : Output) : Output :=
  { x with held := x.held || x.st == .running, divider := x.staged.getD x.divider, staged := none
           oldDivider := if x.staged.isSome then some x.divider else none
           fell := if x.st = .running ∧ x.held = false then some (lastFall s o x) else x.fell }

/-- The commit of a large retune. -/
def committed (p : Params) (s : State) : State :=
  (s.setApll (p.u 4 1) (committedApll p s.tcr.cycles)).mapOuts fun o x => if x.apll.val = p.u 4 1 then committedOut s o x else x

/-- An output that is held loads its staged divider. -/
def loadedOut (x : Output) : Output :=
  { x with divider := x.staged.getD x.divider, staged := none, oldDivider := if x.staged.isSome then some x.divider else none }

theorem loadedOut_heldOut (s : State) (o : Nat) (x : Output) : loadedOut (heldOut s false o x) = committedOut s o x := by
  unfold heldOut committedOut
  split
  next hst => simp [loadedOut, bne_iff_ne.mp hst]
  next hst =>
    have hrun : x.st = .running := by simpa using hst
    split
    next hheld => simp [loadedOut, hheld]
    next hheld => simp [loadedOut, hrun, hheld]

@[simp] theorem heldOut_apll (s : State) (cut : Bool) (o : Nat) (x : Output) : (heldOut s cut o x).apll = x.apll := by
  unfold heldOut
  split
  · rfl
  · split <;> rfl

theorem holdApll_loaded (n : Nat) (s : State) (f : Apll → Apll) :
    ((holdApll n s).setApll n f).mapOuts (fun _ x => if x.apll.val = n then loadedOut x else x) =
      (s.setApll n f).mapOuts fun o x => if x.apll.val = n then committedOut s o x else x := by
  have hout : (holdApll n s).fso.out.mapIdx (fun _ x => if x.apll.val = n then loadedOut x else x) =
      s.fso.out.mapIdx fun o x => if x.apll.val = n then committedOut s o x else x := by
    unfold holdApll State.mapOuts
    rw [Vector.mapIdx_mapIdx]
    refine congrArg (fun f => s.fso.out.mapIdx f) (funext fun o => funext fun x => ?_)
    by_cases hx : x.apll.val = n
    · simp only [Function.comp_apply, hx, if_true, heldOut_apll, loadedOut_heldOut]
    · simp only [Function.comp_apply, hx, if_false]
  exact congrArg (fun v => { s with fso := { (s.setApll n f).fso with out := v } }) hout

theorem quietEffect_committed (p : Params) : QuietEffect (committed p) where
  map _ _ _ _ := rfl
  list _ := rfl
  phase _ := rfl
  post _ := rfl
  spi _ := rfl

theorem apllRetune_large (e : State) (j : Job) (p : Params) (h : takesLarge e p = true) :
    apllRetuneDef.run e j p = (pcuCount 0x1502 (p.u 4 1) 1 (committed p e), .hold (.retune (Fin.ofNat 4 (p.u 4 1)))) := by
  unfold committed
  rw [← holdApll_loaded]
  exact if_pos h

theorem apllRetune_large_waits : Waits .apllRetune apllRetuneDef same (fun p s => takesLarge s p = true) committed
    (fun p _ => .retune (Fin.ofNat 4 (p.u 4 1))) := by
  refine waits_of_run _ _ _ _ _ _ (fun _ _ => rfl) (fun _ _ => by simp) fun j s ha hlarge e he => ?_
  rw [apllRetune_large e _ _ ((takesLarge_effect _ _ s e _ he).trans hlarge)]
  exact ⟨_, rfl, ((quietEffect_committed _).runs _ _ s ha e he).count _ _ _⟩

theorem mapIdx_eq_ofFn {α β : Type} {n : Nat} (v : Vector α n) (f : Nat → α → β) :
    v.mapIdx f = Vector.ofFn fun i => f i.val v[i] := by
  ext i hi
  simp

/-- Settles O17: the configuration answers its word, the small path leaves the ramp waiting, the large path commits. -/
theorem apllJobsAct : Obligations.ApllJobsAct := by
  refine ⟨apllConfig_answers, apllRetune_small_waits, ?_⟩
  have hlarge := apllRetune_large_waits
  unfold committed State.mapOuts at hlarge
  simp only [mapIdx_eq_ofFn] at hlarge
  exact hlarge

end Sys2Proof.Machine

namespace Sys2Proof.Machine

/-! ### The start of an output (R186) -/

theorem ServiceOnly.fso {s t : State} (h : ServiceOnly s t) : t.fso = s.fso := by rw [h]

theorem ServiceOnly.outOf {s t : State} (h : ServiceOnly s t) : t.outOf = s.outOf := by
  unfold State.outOf
  rw [h.fso]

theorem State.outOf_setOut_ne (s : State) (o i : Nat) (f : Output → Output) (h : o ≠ i) : (s.setOut o f).outOf i = s.outOf i :=
  vget_vmod_ne _ _ _ _ _ h

/-- A start moves an output to RUNNING: its settings and its accumulated steps stay. -/
theorem startedOut_eq (s : State) (o : Nat) (x : Output) : startedOut s o x =
    { x with st := .running, held := false, startDue := false, aligning := 0, delayLeft := 0, alignAt := s.tcr.cycles
             trim := (startedOut s o x).trim, rose := (startedOut s o x).rose } := by
  unfold startedOut
  dsimp only
  split <;> rfl

/-! ### OUT_CONFIG (R184, R188, R197) -/

/-- A RUNNING output with the settings of an OUT_CONFIG: the stepper has the change of its delay still to make. -/
def reconfiguredOut (p : Params) (s : State) (x : Output) : Output :=
  { x.take (outCfgOf p) with
    aligning := if p.u 19 1 = 1 then x.aligning else 0
    delayLeft := x.delayLeft + round (((p.u 16 2 : ℚ) - x.coarse) * (10 ^ 12 / ((s.apllOf x.apll.val).vco / 65536))) +
      ((p.u 18 1 : Int) - x.fine) }

/-- A held output keeps the settings for its restart. -/
def deferredOut (p : Params) (x : Output) : Output := { x with deferred := some (outCfgOf p) }

theorem outRuns_iff (x : Output) : outRuns x = true ↔ x.st = .running ∧ x.held = false := by simp [outRuns]

theorem outConfig_run (e : State) (j : Job) (p : Params) (h : p.u 5 1 = 0) : outConfigDef.run e j p = done
    (if outRuns (e.outOf (p.u 4 1)) then e.setOut (p.u 4 1) (reconfiguredOut p e)
     else if (e.outOf (p.u 4 1)).held then e.setOut (p.u 4 1) (deferredOut p)
     else startFreed (p.u 4 1) (e.setOut (p.u 4 1) (configured p))) := by
  have hruns : e.setOut (p.u 4 1) (reconfiguredOut p e) = e.setOut (p.u 4 1) fun x =>
      { configured p (e.outOf (p.u 4 1)) with
        aligning := if (configured p (e.outOf (p.u 4 1))).align then x.aligning else 0
        delayLeft := x.delayLeft + delayMove e x (configured p (e.outOf (p.u 4 1))) } :=
    setOut_congr e _ _ _ (by simp only [reconfiguredOut, delayMove, configured, Output.take, outCfgOf, beq_iff_eq, add_assoc])
  have hstopped : e.setOut (p.u 4 1) (configured p) = e.setOut (p.u 4 1) fun _ => configured p (e.outOf (p.u 4 1)) :=
    setOut_congr e _ _ _ rfl
  rw [hruns, hstopped]
  exact if_neg (by omega)

theorem outConfig_index (j : Job) (s : State) (ha : accepted outConfigDef j s = true) : (jobParams outConfigDef j s).u 4 1 < 24 :=
  Nat.lt_succ_of_le (accepted_index _ _ s 23 ha (fun _ h => nomatch h) (by simp [outConfigDef]))

theorem outConfig_apply (v : Nat) (hv : v < 256) (j : Job) (s : State) (ha : accepted outConfigDef (withByte 5 v j) s = true) :
    (jobParams outConfigDef (withByte 5 v j) s).u 5 1 = v :=
  selector_accepted outConfigDef rfl j s 5 v (by decide) (by decide) hv ha

theorem outConfig_running_acts : Acts .outConfig outConfigDef (withByte 5 0)
    (fun p s => (s.outOf (p.u 4 1)).st = .running ∧ (s.outOf (p.u 4 1)).held = false)
    (fun p s => s.setOut (p.u 4 1) (reconfiguredOut p s)) :=
  acts_of_serves _ _ _ _ _ (fun _ _ => rfl) (withByte_ring _ _)
    (fun p => quietEffect_setOut _ (reconfiguredOut p) fun _ _ _ _ => rfl) (fun _ _ _ _ _ _ => rfl) fun j s ha e hruns =>
      ⟨_, (outConfig_run e _ _ (outConfig_apply 0 (by decide) j s ha)).trans (congrArg done (if_pos ((outRuns_iff _).mpr hruns))),
        .refl _⟩

theorem outConfig_held_acts : Acts .outConfig outConfigDef (withByte 5 0) (fun p s => (s.outOf (p.u 4 1)).held = true)
    (fun p s => s.setOut (p.u 4 1) (deferredOut p)) := by
  refine acts_of_serves _ _ _ _ _ (fun _ _ => rfl) (withByte_ring _ _) (fun _ => quietEffect_setOut _ _ fun _ _ _ _ => rfl)
    (fun _ _ _ _ _ _ => rfl) fun j s ha e hheld => ?_
  rw [outConfig_run e _ _ (outConfig_apply 0 (by decide) j s ha), if_neg (by simp [outRuns, hheld]), if_pos hheld]
  exact ⟨_, rfl, .refl _⟩

theorem outConfig_stopped (e : State) (j : Job) (p : Params) (h : p.u 5 1 = 0) (hheld : (e.outOf (p.u 4 1)).held = false)
    (hst : (e.outOf (p.u 4 1)).st ≠ .running) :
    outConfigDef.run e j p = done (startFreed (p.u 4 1) (e.setOut (p.u 4 1) (configured p))) := by
  rw [outConfig_run e j p h, if_neg (by simp [outRuns, hst]), if_neg (by simp [hheld])]

theorem outConfig_stopped_acts : Acts .outConfig outConfigDef (withByte 5 0)
    (fun p s => (s.outOf (p.u 4 1)).held = false ∧ (s.outOf (p.u 4 1)).st ≠ .running ∧ (s.outOf (p.u 4 1)).startDue = false)
    (fun p s => s.setOut (p.u 4 1) (configured p)) := by
  refine acts_of_serves _ _ _ _ _ (fun _ _ => rfl) (withByte_ring _ _) (fun _ => quietEffect_setOut _ _ fun _ _ _ _ => rfl)
    (fun _ _ _ _ _ _ => rfl) fun j s ha e ⟨hheld, hst, hdue⟩ => ?_
  have hsel := outConfig_apply 0 (by decide) j s ha
  have ho := outConfig_index _ s ha
  generalize jobParams outConfigDef (withByte 5 0 j) s = p at hheld hst hdue hsel ho ⊢
  have hnone : ((e.setOut (p.u 4 1) (configured p)).outOf (p.u 4 1)).startDue = false :=
    (congrArg Output.startDue (State.outOf_setOut e _ _ ho)).trans hdue
  rw [outConfig_stopped e _ _ hsel hheld hst, startFreed, if_neg (by simp [hnone])]
  exact ⟨_, rfl, .refl _⟩

/-! A start that waited for an APLL (R187) -/

theorem outputsSettle_service (m : BitVec 24) (b : Bool) (s : State) (h : s.cpx.list = none) : ServiceOnly s (outputsSettle m b s) :=
  .trans (withMbx_service s _) (completeHeld_service _ _ _ h)

theorem startFreed_starts (o : Nat) (s : State) (hl : s.cpx.list = none) (hdue : (s.outOf o).startDue = true)
    (hfree : holdsStart s (s.outOf o).apll.val = false) : ServiceOnly (s.setOut o (startedOut s o)) (startFreed o s) := by
  unfold startFreed
  dsimp only
  rw [if_pos (by simp [hdue, hfree])]
  exact outputsSettle_service _ _ _ hl

theorem startFreed_waits (o : Nat) (s : State) (hholds : holdsStart s (s.outOf o).apll.val = true) : startFreed o s = s :=
  if_neg (by simp [hholds])

/-- A change of an output that is not held, and stays so, leaves what holds starts back. -/
theorem holdsStart_setOut (s : State) (o n : Nat) (f : Output → Output) (ho : o < 24) (h : (s.outOf o).held = false)
    (hf : (f (s.outOf o)).held = false) : holdsStart (s.setOut o f) n = holdsStart s n := by
  have hany : anyOut (s.setOut o f) n (fun x => x.held) = anyOut s n fun x => x.held := by
    refine congrArg ((List.range 24).any ·) (funext fun i => ?_)
    by_cases hi : o = i
    · subst hi
      simp only [State.outOf_setOut _ _ _ ho, h, hf, Bool.and_false]
    · rw [State.outOf_setOut_ne _ _ _ _ hi]
  unfold holdsStart
  rw [hany]
  rfl

/-- What an OUT_CONFIG leaves of an output whose start waited: it starts, unless its APLL holds starts back. -/
structure FreedOut (s : State) (p : Params) (x y : Output) : Prop where
  divider : y.divider = p.u 8 8
  apll    : y.apll = Fin.ofNat 4 (p.u 6 1)
  starts  : holdsStart s (Fin.ofNat 4 (p.u 6 1)).val = false → y.st = .running ∧ y.startDue = false
  waits   : holdsStart s (Fin.ofNat 4 (p.u 6 1)).val = true → y = configured p x

theorem outConfig_freed (e : State) (p : Params) (ho : p.u 4 1 < 24) (hl : e.cpx.list = none)
    (hheld : (e.outOf (p.u 4 1)).held = false) (hdue : (e.outOf (p.u 4 1)).startDue = true) :
    (startFreed (p.u 4 1) (e.setOut (p.u 4 1) (configured p))).cpx.list = none ∧
    (∀ i, p.u 4 1 ≠ i → (startFreed (p.u 4 1) (e.setOut (p.u 4 1) (configured p))).outOf i = e.outOf i) ∧
    FreedOut e p (e.outOf (p.u 4 1)) ((startFreed (p.u 4 1) (e.setOut (p.u 4 1) (configured p))).outOf (p.u 4 1)) := by
  have hown : (e.setOut (p.u 4 1) (configured p)).outOf (p.u 4 1) = configured p (e.outOf (p.u 4 1)) := State.outOf_setOut _ _ _ ho
  have hother : ∀ i, p.u 4 1 ≠ i → (e.setOut (p.u 4 1) (configured p)).outOf i = e.outOf i := fun i hi =>
    State.outOf_setOut_ne _ _ _ _ hi
  have hholds : holdsStart (e.setOut (p.u 4 1) (configured p)) (Fin.ofNat 4 (p.u 6 1)).val =
      holdsStart e (Fin.ofNat 4 (p.u 6 1)).val := holdsStart_setOut _ _ _ _ ho hheld hheld
  have hapll : ((e.setOut (p.u 4 1) (configured p)).outOf (p.u 4 1)).apll = Fin.ofNat 4 (p.u 6 1) := congrArg Output.apll hown
  cases hh : holdsStart e (Fin.ofNat 4 (p.u 6 1)).val with
  | true =>
    rw [startFreed_waits _ _ (by rw [hapll, hholds, hh]), hown]
    exact ⟨hl, hother, rfl, rfl, fun h => absurd (hh.symm.trans h) Bool.noConfusion, fun _ => rfl⟩
  | false =>
    have hstart := startFreed_starts (p.u 4 1) (e.setOut (p.u 4 1) (configured p)) hl
      ((congrArg Output.startDue hown).trans hdue) (by rw [hapll, hholds, hh])
    refine ⟨(congrArg Cpx.list hstart.cpx).trans hl, fun i hi => ?_, ?_⟩
    · rw [hstart.outOf, State.outOf_setOut_ne _ _ _ _ hi, hother i hi]
    · rw [hstart.outOf, State.outOf_setOut _ _ _ ho, hown, startedOut_eq]
      exact ⟨rfl, rfl, fun _ => ⟨rfl, rfl⟩, fun h => absurd (hh.symm.trans h) Bool.noConfusion⟩

theorem outConfig_freed_gives : Gives .outConfig outConfigDef (withByte 5 0)
    (fun p s => (s.outOf (p.u 4 1)).held = false ∧ (s.outOf (p.u 4 1)).st ≠ .running ∧ (s.outOf (p.u 4 1)).startDue = true)
    (fun p s t => ∀ o : Fin 24, (o.val ≠ p.u 4 1 → t.fso.out[o] = s.fso.out[o]) ∧
      (o.val = p.u 4 1 → FreedOut s p s.fso.out[o] t.fso.out[o])) := by
  intro j s (ha : accepted outConfigDef (withByte 5 0 j) s = true) ⟨hheld, hst, hdue⟩
  have hsel := outConfig_apply 0 (by decide) j s ha
  have ho := outConfig_index _ s ha
  have hrun : ∀ e, ServiceOnly (effectState outConfigDef (withByte 5 0 j) s) e → ∀ k,
      outConfigDef.run e k (jobParams outConfigDef (withByte 5 0 j) s) =
        done (startFreed _ (e.setOut _ (configured (jobParams outConfigDef (withByte 5 0 j) s)))) ∧ e.cpx.list = none ∧
        e.outOf = s.outOf := fun e he k => by
    have hout : e.outOf = s.outOf := effect_read State.outOf _ _ s e he fun _ _ _ _ _ => rfl
    refine ⟨outConfig_stopped e k _ hsel ?_ ?_, effectState_list _ _ s ha e he, hout⟩ <;> rw [hout] <;> assumption
  obtain ⟨e, he, hjob⟩ := directJob_answered outConfigDef _ s ha fun e he => by
    obtain ⟨hx, hl, hout⟩ := hrun e he (takenJob outConfigDef (withByte 5 0 j) s)
    obtain ⟨hlist, -⟩ := outConfig_freed e _ ho hl (by rw [hout]; exact hheld) (by rw [hout]; exact hdue)
    exact ⟨_, {}, hx, by decide, hlist⟩
  obtain ⟨hx, hl, hout⟩ := hrun e he (takenJob outConfigDef (withByte 5 0 j) s)
  obtain ⟨-, hothers, hfreed⟩ := outConfig_freed e _ ho hl (by rw [hout]; exact hheld) (by rw [hout]; exact hdue)
  have hholds : ∀ n, holdsStart e n = holdsStart s n := fun n =>
    effect_read (fun t => holdsStart t n) _ _ s e he fun _ _ _ _ _ => rfl
  rw [hx] at hjob
  rw [hout] at hothers hfreed
  refine ⟨_, rfl, fun o => ⟨fun (hne : o.val ≠ (jobParams outConfigDef (withByte 5 0 j) s).u 4 1) => ?_,
    fun (heq : o.val = (jobParams outConfigDef (withByte 5 0 j) s).u 4 1) => ?_⟩⟩
  · rw [← State.outOf_fin, ← State.outOf_fin, hjob.outOf]
    exact hothers _ hne.symm
  · rw [← State.outOf_fin, ← State.outOf_fin, hjob.outOf, heq]
    exact ⟨hfreed.divider, hfreed.apll, by rw [← hholds]; exact hfreed.starts, by rw [← hholds]; exact hfreed.waits⟩

theorem outConfigStage_acts : Acts .outConfigStage outConfigDef (withByte 5 1) always
    (fun p s => s.setOut (p.u 4 1) fun x => { x with staged := some (p.u 8 8) }) :=
  acts_of_quiet _ _ _ _ _ (fun _ _ => rfl) (withByte_ring _ _) (fun _ => quietEffect_setOut _ _ fun _ _ _ _ => rfl)
    fun j s ha _ _ _ => ⟨{}, if_pos (outConfig_apply 1 (by decide) j s ha), by decide, rfl⟩

/-! ### OUT_PHASE_STEP, OUT_SET_CEILING (R189, R190) -/

/-- A step begins on a RUNNING output. -/
def steppingOut (p : Params) (s : State) (x : Output) : Output :=
  { x with left := p.i 8 4, stepMax := p.u 5 1, spacing := p.u 12 4, paced := (0, (s.apllOf x.apll.val).turns) }

/-- The words of OUT_PHASE_STEP: the duration in impressions, and what was left of the step that it replaces. -/
def stepWords (p : Params) (s : State) : List Word :=
  [word (min (2 ^ 32 - 1) (ceilNat ((ceilDiv (p.i 8 4).natAbs (p.u 5 1) * p.u 12 4 : Nat) / outFreq s (p.u 4 1) * 8000))),
    wordI (s.outOf (p.u 4 1)).left, 0, 0]

theorem outPhaseStep_answers : Answers .outPhaseStep outPhaseStepDef same
    (fun p s => (s.outOf (p.u 4 1)).st = .running ∧ (s.outOf (p.u 4 1)).held = false)
    (fun p s => s.setOut (p.u 4 1) (steppingOut p s)) (fun _ p s => stepWords p s) := by
  refine answers_of_quiet _ _ _ _ _ _ (fun _ _ => rfl) (fun _ => rfl)
    (fun p => quietEffect_setOut _ (steppingOut p) fun _ _ _ _ => rfl) fun j s _ hruns e he => ?_
  have hout : e.outOf = s.outOf := effect_read State.outOf _ _ s e he fun _ _ _ _ _ => rfl
  exact ⟨_, if_pos ((outRuns_iff _).mpr (by rw [hout]; exact hruns)), rfl,
    effect_read (stepWords _) _ _ s e he fun _ _ _ _ _ => rfl, .inl rfl⟩

theorem outPhaseStep_stopped_acts : Acts .outPhaseStep outPhaseStepDef same
    (fun p s => (s.outOf (p.u 4 1)).st ≠ .running ∨ (s.outOf (p.u 4 1)).held = true)
    (fun p s => s.setOut (p.u 4 1) fun x => { x with steps := x.steps + p.i 8 4 }) :=
  acts_of_serves _ _ _ _ _ (fun _ _ => rfl) (fun _ => rfl) (fun _ => quietEffect_setOut _ _ fun _ _ _ _ => rfl)
    (fun _ _ _ _ _ _ => rfl) fun _ _ _ e hstops =>
      ⟨_, if_neg fun h => hstops.elim (absurd ((outRuns_iff _).mp h).1) fun hheld => by simp [outRuns, hheld] at h, .refl _⟩

theorem outSetCeiling_acts : Acts .outSetCeiling outSetCeilingDef same always
    (fun p s => s.setOut (p.u 4 1) fun x => { x with ceiling := p.u 8 4 }) :=
  acts_of_quiet _ _ _ _ _ (fun _ _ => rfl) (fun _ => rfl) (fun _ => quietEffect_setOut _ _ fun _ _ _ _ => rfl)
    fun _ _ _ _ _ _ => ⟨{}, rfl, by decide, rfl⟩

/-- Settles O18: each job changes its output alone, and an output whose start waited starts where its new APLL lets it. -/
theorem outputJobsAct : Obligations.OutputJobsAct := by
  refine ⟨outConfig_running_acts, outConfig_held_acts, outConfig_stopped_acts, fun j s ha hh => ?_, outConfigStage_acts,
    outPhaseStep_answers, outPhaseStep_stopped_acts, outSetCeiling_acts⟩
  obtain ⟨t, ht, hout⟩ := outConfig_freed_gives j s ha hh
  refine ⟨t, ht, fun o => ⟨(hout o).1, fun ho => ?_⟩⟩
  obtain ⟨hdivider, hapll, hstarts, hwaits⟩ := (hout o).2 ho
  exact ⟨hdivider, hapll, hstarts, hwaits⟩

end Sys2Proof.Machine

namespace Sys2Proof.Machine

/-! ### What the phase of an output reads (R184, R186) -/

/-- At most the services and the outputs differ: an output's phase, its start and its stop read neither. -/
def PhaseAlike (s t : State) : Prop :=
  t = { s with mbx := t.mbx, intc := t.intc, pcu := t.pcu, fso := { s.fso with out := t.fso.out } }

theorem phaseAlike_services (s : State) (m : Mbx) (i : Intc) (q : Pcu) :
    PhaseAlike s { s with mbx := m, intc := i, pcu := q } := rfl

section
variable {s t : State}

theorem PhaseAlike.vcoRate (h : PhaseAlike s t) : vcoRate t = vcoRate s := by
  rw [h]
  rfl

theorem PhaseAlike.calValue (h : PhaseAlike s t) : calValue t = calValue s := by
  rw [h]
  rfl

theorem PhaseAlike.dividerEdge (h : PhaseAlike s t) : dividerEdge t = dividerEdge s := by
  funext x
  unfold Machine.dividerEdge
  rw [h.vcoRate, h]
  rfl

theorem PhaseAlike.outPeriod (h : PhaseAlike s t) : outPeriod t = outPeriod s := by
  funext x
  unfold Machine.outPeriod
  rw [h.vcoRate]

theorem PhaseAlike.configDelay (h : PhaseAlike s t) : configDelay t = configDelay s := by
  funext x
  unfold Machine.configDelay
  rw [h.vcoRate]

theorem PhaseAlike.outDelay (h : PhaseAlike s t) : outDelay t = outDelay s := by
  funext o x
  unfold Machine.outDelay
  rw [h.configDelay, h.calValue]

theorem PhaseAlike.sinceRise (h : PhaseAlike s t) : sinceRise t = sinceRise s := by
  funext o x
  unfold Machine.sinceRise
  rw [h.dividerEdge, h.outDelay, h.outPeriod]

theorem PhaseAlike.alignDomain (h : PhaseAlike s t) : alignDomain t = alignDomain s := by
  rw [h]
  rfl

theorem PhaseAlike.baseInc (h : PhaseAlike s t) : baseInc t = baseInc s := by
  rw [h]
  rfl

theorem PhaseAlike.tcr (h : PhaseAlike s t) : t.tcr = s.tcr := by rw [h]

theorem PhaseAlike.domain (h : PhaseAlike s t) : t.domain = s.domain := by
  unfold State.domain
  rw [h.tcr]

theorem PhaseAlike.misalignment (h : PhaseAlike s t) : misalignment t = misalignment s := by
  funext o x
  unfold Machine.misalignment
  rw [h.alignDomain, h.dividerEdge, h.outDelay, h.configDelay, h.calValue, h.domain, h.baseInc, h.outPeriod]

theorem PhaseAlike.nowPs (h : PhaseAlike s t) : nowPs t = nowPs s := by
  unfold Machine.nowPs
  rw [h.tcr]

theorem PhaseAlike.startedOut (h : PhaseAlike s t) : startedOut t = startedOut s := by
  funext o x
  unfold Machine.startedOut
  rw [h.tcr, h.misalignment, h.nowPs, h.sinceRise, h.outPeriod]

theorem PhaseAlike.lastFall (h : PhaseAlike s t) : lastFall t = lastFall s := by
  funext o x
  unfold Machine.lastFall
  rw [h.nowPs, h.sinceRise, h.outPeriod]

theorem PhaseAlike.stoppedOut (h : PhaseAlike s t) : stoppedOut t = stoppedOut s := by
  funext o st x
  unfold Machine.stoppedOut
  rw [h.lastFall]

end

/-! ### OUT_ENABLE (R186, R187, R189) -/

/-- A mask of 24 outputs holds those that its predicate names. -/
theorem getLsbD_maskOf (f : Nat → Bool) (o : Fin 24) : (BitVec.ofNat 24 (maskOf 24 f)).getLsbD o.val = f o.val := by
  rw [BitVec.getLsbD_ofNat, testBit_maskOf 24 f o.val o.isLt]
  simp

theorem maskOf_eq_zero_iff (f : Nat → Bool) : BitVec.ofNat 24 (maskOf 24 f) = 0 ↔ ∀ o : Fin 24, f o.val = false := by
  refine ⟨fun h o => ?_, fun h => BitVec.eq_of_getLsbD_eq fun i hi => ?_⟩
  · rw [← getLsbD_maskOf f, h]
    exact BitVec.getLsbD_zero
  · exact ((getLsbD_maskOf f ⟨i, hi⟩).trans (h ⟨i, hi⟩)).trans BitVec.getLsbD_zero.symm

theorem setWidth_maskOf (f : Nat → Bool) : (BitVec.ofNat 24 (maskOf 24 f)).setWidth 32 = word (maskOf 24 f) := by
  have hlt := maskOf_lt 24 f
  refine BitVec.eq_of_toNat_eq ?_
  simp only [word, BitVec.toNat_setWidth, BitVec.toNat_ofNat]
  omega

/-- The state that OUT_ENABLE asks for. -/
def enableTarget (p : Params) : OutState :=
  match p.u 7 1 with
  | 0 => .highz
  | 1 => .low
  | _ => .running

/-- An output of the mask whose start its APLL holds back. -/
def startWaits (p : Params) (s : State) (o : Nat) : Bool :=
  (p.u 4 3).testBit o && enableTarget p == .running && (s.outOf o).st != .running && holdsStart s (s.outOf o).apll.val

/-- An output of the mask whose state changes. -/
def stateChanges (p : Params) (s : State) (o : Nat) : Bool :=
  (p.u 4 3).testBit o && (s.outOf o).st != enableTarget p && !((s.outOf o).startDue && enableTarget p == .running)

/-- What OUT_ENABLE makes of an output. -/
def movedOut (p : Params) (s : State) (o : Nat) (x : Output) : Output :=
  if !(p.u 4 3).testBit o then x
  else if startWaits p s o then { x with startDue := true }
  else if enableTarget p != .running then (stoppedOut s o (enableTarget p) x).settled
  else if x.st == .running then x
  else startedOut s o x

/-- The step of OUT_ENABLE for one output. -/
def moveOut (p : Params) (s : State) (o : Nat) (t : State) : State :=
  if !(p.u 4 3).testBit o then t
  else if startWaits p s o then t.setOut o fun x => { x with startDue := true }
  else t.setOut o fun x =>
    if enableTarget p != .running then (stoppedOut t o (enableTarget p) x).settled
    else if x.st == .running then x
    else startedOut t o x

theorem setOut_same (s : State) (o : Nat) (f : Output → Output) (h : f (s.outOf o) = s.outOf o) : s.setOut o f = s := by
  unfold State.setOut
  rw [vmod_same s.fso.out o f {} h]

/-- The outputs alone differ. -/
def OutsOnly (s t : State) : Prop := t = { s with fso := { s.fso with out := t.fso.out } }

theorem OutsOnly.alike {s t : State} (h : OutsOnly s t) : PhaseAlike s t := by
  rw [h]
  rfl

/-- The start and the stop of an output read of FSO its APLLs and the output itself. -/
theorem moveOut_eq (p : Params) (s : State) (o : Nat) (t : State) (h : OutsOnly s t) :
    moveOut p s o t = t.setOut o (movedOut p s o) := by
  unfold moveOut
  rw [h.alike.startedOut, h.alike.stoppedOut]
  split
  next hbit => exact (setOut_same t o (movedOut p s o) (if_pos hbit)).symm
  next hbit =>
    split
    next hwait => exact setOut_congr t o _ _ ((if_neg hbit).trans (if_pos hwait)).symm
    next hwait => exact setOut_congr t o _ _ ((if_neg hbit).trans (if_neg hwait)).symm

theorem forAll_setOut (f : Nat → Output → Output) (n : Nat) (s : State) :
    forAll n s (fun o t => t.setOut o (f o)) = { s with fso := { s.fso with out := mapFirst n f s.fso.out } } := by
  induction n with
  | zero =>
    rw [mapFirst_zero]
    rfl
  | succ n ih =>
    rw [forAll_succ, ih, ← mapFirst_succ]
    rfl

theorem mapFirst_eq_mapIdx {α : Type} {n : Nat} (f : Nat → α → α) (v : Vector α n) : mapFirst n f v = v.mapIdx f := by
  ext i hi
  simp [mapFirst]

theorem forAll_moveOut (p : Params) (s : State) : forAll 24 s (moveOut p s) = s.mapOuts (movedOut p s) := by
  rw [forAll_congr (OutsOnly s) 24 (moveOut p s) (fun o t => t.setOut o (movedOut p s o)) s (fun o t h => ?_) (moveOut_eq p s) rfl,
    forAll_setOut, mapFirst_eq_mapIdx]
  · rfl
  · unfold OutsOnly at *
    rw [h]
    rfl

/-- The state after OUT_ENABLE has moved its outputs. -/
def enabled (p : Params) (s : State) : State :=
  if enableTarget p == .running then s.mapOuts (movedOut p s)
  else outputsSettle (BitVec.ofNat 24 (p.u 4 3)) false (s.mapOuts (movedOut p s))

theorem outEnable_run (e : State) (j : Job) (p : Params) : outEnableDef.run e j p =
    if BitVec.ofNat 24 (maskOf 24 (startWaits p e)) = 0 then reply { r0 := word (maskOf 24 (stateChanges p e)) } (enabled p e)
    else (enabled p e, .hold (.outputs (BitVec.ofNat 24 (maskOf 24 (startWaits p e))) (BitVec.ofNat 24 (maskOf 24 (stateChanges p e))))) := by
  unfold enabled
  rw [← forAll_moveOut, ← setWidth_maskOf]
  rfl

/-! To RUNNING -/

/-- The outputs of the mask that are not RUNNING start, or wait for their APLL. -/
def startedOrDue (p : Params) (s : State) : State := s.mapOuts fun o x =>
  if (p.u 4 3).testBit o ∧ x.st ≠ .running then
    if holdsStart s x.apll.val = true then { x with startDue := true } else startedOut s o x
  else x

/-- The outputs of the mask that are not RUNNING start. -/
def startedAll (p : Params) (s : State) : State := s.mapOuts fun o x =>
  if (p.u 4 3).testBit o ∧ x.st ≠ .running then startedOut s o x else x

theorem mapOuts_congr (s : State) (f g : Nat → Output → Output) (h : ∀ o : Fin 24, f o.val s.fso.out[o] = g o.val s.fso.out[o]) :
    s.mapOuts f = s.mapOuts g := by
  have hout : s.fso.out.mapIdx f = s.fso.out.mapIdx g := Vector.ext fun i hi => by simpa using h ⟨i, hi⟩
  unfold State.mapOuts
  rw [hout]

theorem enableTarget_running (p : Params) (h : p.u 7 1 = 2) : enableTarget p = .running := by
  simp only [enableTarget, h]

theorem movedOut_running (p : Params) (s : State) (o : Nat) (h : p.u 7 1 = 2) : movedOut p s o (s.outOf o) =
    if (p.u 4 3).testBit o ∧ (s.outOf o).st ≠ .running then
      if holdsStart s (s.outOf o).apll.val = true then { s.outOf o with startDue := true } else startedOut s o (s.outOf o)
    else s.outOf o := by
  unfold movedOut startWaits
  rw [enableTarget_running p h]
  by_cases hbit : (p.u 4 3).testBit o = true
  · by_cases hst : (s.outOf o).st = .running
    · simp [hst]
    · by_cases hholds : holdsStart s (s.outOf o).apll.val = true
      · simp [hbit, hst, hholds]
      · simp [hbit, hst, hholds]
  · simp [hbit]

theorem enabled_running (p : Params) (s : State) (h : p.u 7 1 = 2) : enabled p s = startedOrDue p s := by
  unfold enabled
  rw [enableTarget_running p h]
  refine mapOuts_congr s _ _ fun o => ?_
  rw [← State.outOf_fin]
  exact movedOut_running p s o.val h

theorem startWaits_running (p : Params) (s : State) (h : p.u 7 1 = 2) : startWaits p s = fun o =>
    (p.u 4 3).testBit o && (s.outOf o).st != .running && holdsStart s (s.outOf o).apll.val := by
  funext o
  unfold startWaits
  rw [enableTarget_running p h, beq_self_eq_true, Bool.and_true]

theorem stateChanges_running (p : Params) (s : State) (h : p.u 7 1 = 2) : stateChanges p s = fun o =>
    (p.u 4 3).testBit o && (s.outOf o).st != .running && !(s.outOf o).startDue := by
  funext o
  unfold stateChanges
  rw [enableTarget_running p h, beq_self_eq_true, Bool.and_true]

/-- No APLL holds back the start of an output that OUT_ENABLE starts. -/
def StartsFree (p : Params) (s : State) : Prop :=
  ∀ o : Fin 24, (p.u 4 3).testBit o.val → s.fso.out[o].st ≠ .running → holdsStart s s.fso.out[o].apll.val = false

theorem startsFree_iff (p : Params) (s : State) (h : p.u 7 1 = 2) :
    BitVec.ofNat 24 (maskOf 24 (startWaits p s)) = 0 ↔ StartsFree p s := by
  rw [maskOf_eq_zero_iff, startWaits_running p s h]
  refine forall_congr' fun o => ?_
  dsimp only
  rw [State.outOf_fin]
  simp only [Bool.and_eq_false_imp, Bool.and_eq_true, bne_iff_ne, and_imp]

theorem startedOrDue_free (p : Params) (s : State) (h : StartsFree p s) : startedOrDue p s = startedAll p s :=
  mapOuts_congr s _ _ fun o => by
    by_cases hst : (p.u 4 3).testBit o.val ∧ s.fso.out[o].st ≠ .running
    · rw [if_pos hst, if_pos hst, h o hst.1 hst.2, if_neg Bool.false_ne_true]
    · rw [if_neg hst, if_neg hst]

theorem quietEffect_startedAll (p : Params) : QuietEffect (startedAll p) :=
  quietEffect_mapOuts (fun s o x => if (p.u 4 3).testBit o ∧ x.st ≠ .running then startedOut s o x else x) fun s m i q => by
    rw [(phaseAlike_services s m i q).startedOut]

theorem quietEffect_startedOrDue (p : Params) : QuietEffect (startedOrDue p) :=
  quietEffect_mapOuts (fun s o x => if (p.u 4 3).testBit o ∧ x.st ≠ .running then
      if holdsStart s x.apll.val = true then { x with startDue := true } else startedOut s o x
    else x) fun s m i q => by
    rw [(phaseAlike_services s m i q).startedOut]
    rfl

theorem outEnable_starts_answers : Answers .outEnable outEnableDef same (fun p s => p.u 7 1 = 2 ∧ StartsFree p s) startedAll
    (fun _ p s => [word (maskOf 24 fun o => (p.u 4 3).testBit o && (s.outOf o).st != .running && !(s.outOf o).startDue), 0, 0, 0]) := by
  refine answers_of_quiet _ _ _ _ _ _ (fun _ _ => rfl) (fun _ => rfl)
    quietEffect_startedAll fun j s _ ⟨hrun, hfree⟩ e he => ?_
  have hfree' := (effect_read (StartsFree _) _ _ s e he fun _ _ _ _ _ => rfl).mpr hfree
  have hout : e.outOf = s.outOf := effect_read State.outOf _ _ s e he fun _ _ _ _ _ => rfl
  rw [outEnable_run, if_pos ((startsFree_iff _ e hrun).mpr hfree'), enabled_running _ e hrun, startedOrDue_free _ e hfree',
    stateChanges_running _ e hrun, hout]
  exact ⟨_, rfl, rfl, rfl, .inl rfl⟩

theorem outEnable_starts_waits : Waits .outEnable outEnableDef same (fun p s => p.u 7 1 = 2 ∧ ¬StartsFree p s) startedOrDue
    (fun p s => .outputs
      (BitVec.ofNat 24 (maskOf 24 fun o => (p.u 4 3).testBit o && (s.outOf o).st != .running && holdsStart s (s.outOf o).apll.val))
      (BitVec.ofNat 24 (maskOf 24 fun o => (p.u 4 3).testBit o && (s.outOf o).st != .running && !(s.outOf o).startDue))) := by
  refine waits_of_quiet _ _ _ _ _ _ (fun _ _ => rfl) (fun _ _ => by simp)
    quietEffect_startedOrDue fun j s _ ⟨hrun, hheld⟩ e he => ?_
  have hheld' := (effect_read (fun t => ¬StartsFree _ t) _ _ s e he fun _ _ _ _ _ => rfl).mpr hheld
  have hwait := effect_read (startWaits (jobParams outEnableDef (same j) s)) _ _ s e he fun _ _ _ _ _ => rfl
  have hchange := effect_read (stateChanges (jobParams outEnableDef (same j) s)) _ _ s e he fun _ _ _ _ _ => rfl
  rw [outEnable_run, if_neg (mt (startsFree_iff _ e hrun).mp hheld'), enabled_running _ e hrun, hwait, hchange,
    startWaits_running _ s hrun, stateChanges_running _ s hrun]

/-! To HIGHZ or LOW -/

theorem settled_cases (x : Output) :
    x.deferred = none ∧ x.settled = x ∨ ∃ c, x.deferred = some c ∧ x.settled = { x.take c with deferred := none } := by
  unfold Output.settled
  cases x.deferred with
  | none => exact .inl ⟨rfl, rfl⟩
  | some c => exact .inr ⟨c, rfl, rfl⟩

/-- What a stop leaves of an output: a step in progress is complete. -/
structure StoppedOut (st : OutState) (x y : Output) : Prop where
  st : y.st = st
  held : y.held = false
  startDue : y.startDue = false
  steps : y.steps = x.steps + x.left
  left : y.left = 0
  delayLeft : y.delayLeft = 0
  ceiling : y.ceiling = x.ceiling
  staged : y.staged = x.staged
  config : x.deferred = none → y.divider = x.divider ∧ y.apll = x.apll

theorem stoppedOut_settled (s : State) (o : Nat) (st : OutState) (x : Output) : StoppedOut st x (stoppedOut s o st x).settled := by
  rcases settled_cases (stoppedOut s o st x) with ⟨-, h⟩ | ⟨c, hc, h⟩ <;> rw [h]
  · exact ⟨rfl, rfl, rfl, rfl, rfl, rfl, rfl, rfl, fun _ => ⟨rfl, rfl⟩⟩
  · exact ⟨rfl, rfl, rfl, rfl, rfl, rfl, rfl, rfl, fun hnone => absurd (hc.symm.trans hnone) nofun⟩

theorem enableTarget_stopped (p : Params) (h : p.u 7 1 ≤ 2) (hne : p.u 7 1 ≠ 2) :
    enableTarget p = if p.u 7 1 = 0 then .highz else .low := by
  unfold enableTarget
  obtain h0 | h1 : p.u 7 1 = 0 ∨ p.u 7 1 = 1 := by omega
  · rw [h0]; rfl
  · rw [h1]; rfl

theorem movedOut_stopped (p : Params) (s : State) (o : Nat) (x : Output) (h : enableTarget p ≠ .running) :
    movedOut p s o x = if (p.u 4 3).testBit o then (stoppedOut s o (enableTarget p) x).settled else x := by
  unfold movedOut startWaits
  cases (p.u 4 3).testBit o <;> simp [h]

theorem startWaits_stopped (p : Params) (s : State) (h : enableTarget p ≠ .running) :
    BitVec.ofNat 24 (maskOf 24 (startWaits p s)) = 0 :=
  (maskOf_eq_zero_iff _).mpr fun o => by simp [startWaits, h]

/-- OUT_ENABLE configures no unit that a proof could test (R367). -/
theorem effectState_outEnable (j : Job) (s : State) : effectState outEnableDef j s = s := by
  have hbit : proofBit s (takenJob outEnableDef j s).code ((jobParams outEnableDef j s).u 4 1) = none := by
    rw [takenJob_code]
    rfl
  unfold effectState
  rw [hbit]
  rfl

theorem outEnable_stops (e : State) (j : Job) (p : Params) (h : enableTarget p ≠ .running) : outEnableDef.run e j p =
    reply { r0 := word (maskOf 24 (stateChanges p e)) }
      (outputsSettle (BitVec.ofNat 24 (p.u 4 3)) false (e.mapOuts (movedOut p e))) := by
  rw [outEnable_run, if_pos (startWaits_stopped p e h), enabled, if_neg (mt beq_iff_eq.mp h)]

theorem quietEffect_movedOut (p : Params) : QuietEffect fun s => s.mapOuts (movedOut p s) :=
  quietEffect_mapOuts (movedOut p) fun s m i q => by
    unfold movedOut
    rw [(phaseAlike_services s m i q).startedOut, (phaseAlike_services s m i q).stoppedOut]
    rfl

/-- To HIGHZ or LOW, OUT_ENABLE moves its outputs and nothing else but the services. -/
theorem directJob_stops (j : Job) (s : State) (ha : accepted outEnableDef j s = true)
    (h : enableTarget (jobParams outEnableDef j s) ≠ .running) :
    ServiceOnly (s.mapOuts (movedOut (jobParams outEnableDef j s) s)) (directJob outEnableDef j s) := by
  generalize hp : jobParams outEnableDef j s = p at h ⊢
  have hset : ∀ e, ServiceOnly (effectState outEnableDef j s) e →
      ServiceOnly (e.mapOuts (movedOut p e)) (outputsSettle (BitVec.ofNat 24 (p.u 4 3)) false (e.mapOuts (movedOut p e))) := fun e he =>
    outputsSettle_service _ _ _ (((quietEffect_movedOut p).list e).trans (effectState_list _ j s ha e he))
  obtain ⟨e, he, hjob⟩ := directJob_answered outEnableDef j s ha fun e he => by
    rw [hp]
    exact ⟨_, _, outEnable_stops e _ p h, rfl, by rw [(hset e he).cpx]; exact effectState_list _ j s ha e he⟩
  rw [hp, outEnable_stops e _ p h] at hjob
  have hse := hset e he
  rw [effectState_outEnable] at he
  exact (serviceOnly_map (fun s => s.mapOuts (movedOut p s)) (quietEffect_movedOut p).map he).trans (hse.trans hjob)

theorem outEnable_stops_gives : Gives .outEnable outEnableDef same (fun p _ => p.u 7 1 ≠ 2) fun p s t =>
    (∀ o : Fin 24, if (p.u 4 3).testBit o.val then StoppedOut (if p.u 7 1 = 0 then .highz else .low) s.fso.out[o] t.fso.out[o]
      else t.fso.out[o] = s.fso.out[o]) ∧
    { t with mbx := s.mbx, intc := s.intc, pcu := s.pcu, fso := { t.fso with out := s.fso.out } } = s := by
  intro j s (ha : accepted outEnableDef j s = true) (hne : (jobParams outEnableDef j s).u 7 1 ≠ 2)
  have hle : (jobParams outEnableDef j s).u 7 1 ≤ 2 :=
    (accepted_range _ _ s ha (fun _ h => nomatch h) 7 1 0 2 (by simp [outEnableDef])).2
  have htarget := enableTarget_stopped _ hle hne
  have hstop : enableTarget (jobParams outEnableDef j s) ≠ .running := by
    rw [htarget]
    split <;> exact OutState.noConfusion
  have hjob := directJob_stops j s ha hstop
  refine ⟨_, rfl, fun o => ?_, ?_⟩
  · change if ((jobParams outEnableDef j s).u 4 3).testBit o.val = true then
      StoppedOut (if (jobParams outEnableDef j s).u 7 1 = 0 then .highz else .low) s.fso.out[o] (directJob outEnableDef j s).fso.out[o]
      else (directJob outEnableDef j s).fso.out[o] = s.fso.out[o]
    have hout : (directJob outEnableDef j s).fso.out[o] = movedOut (jobParams outEnableDef j s) s o.val s.fso.out[o] := by
      rw [hjob.fso]
      exact Vector.getElem_mapIdx _
    rw [hout, movedOut_stopped _ _ _ _ hstop, ← htarget]
    split
    · exact stoppedOut_settled _ _ _ _
    · rfl
  · change { directJob outEnableDef j s with
      mbx := s.mbx, intc := s.intc, pcu := s.pcu, fso := { (directJob outEnableDef j s).fso with out := s.fso.out } } = s
    rw [hjob]
    rfl

/-- Settles O19: to RUNNING the outputs start or wait for their APLL, to another state they stop at once. -/
theorem outputEnableMovesItsOutputs : Obligations.OutputEnableMovesItsOutputs := by
  refine ⟨?_, ?_, fun j s ha hh => ?_⟩
  · have hstarts := outEnable_starts_answers
    unfold startedAll State.mapOuts at hstarts
    simp only [mapIdx_eq_ofFn] at hstarts
    exact hstarts
  · have hwaits := outEnable_starts_waits
    unfold startedOrDue State.mapOuts at hwaits
    simp only [mapIdx_eq_ofFn] at hwaits
    intro j s hi ha ⟨hrun, o, hbit, hst, hholds⟩
    exact hwaits j s hi ha ⟨hrun, fun hfree => Bool.false_ne_true ((hfree o hbit hst).symm.trans hholds)⟩
  · obtain ⟨t, ht, hout, hframe⟩ := outEnable_stops_gives j s ha hh
    refine ⟨t, ht, fun o => ?_, hframe⟩
    have ho := hout o
    revert ho
    dsimp only
    split
    · exact fun h => ⟨h.st, h.held, h.startDue, h.steps, h.left, h.delayLeft, h.ceiling, h.staged, h.config⟩
    · exact id

end Sys2Proof.Machine

namespace Sys2Proof.Machine

/-! ## Synthesis events (O44) -/

/-! ### Completion of what waits (R61) -/

theorem breakChain_flights (f g : Flight) (s : State) (h : g ∈ (breakChain f s).mbx.flights) :
    g ∈ s.mbx.flights := by
  unfold breakChain at h
  split at h
  · exact h
  next c =>
    refine foldl_keeps (fun t => g ∈ t.mbx.flights → g ∈ s.mbx.flights) _ _ (s.setRing _ _) (fun t x ht hg => ht ?_) id h
    rw [postCompletion_flights] at hg
    exact List.mem_of_mem_filter hg

/-- A job that completes leaves the list, and no other joins it. -/
theorem finish_leaves (f g : Flight) (r : Reply) (s : State) (h : g ∈ (finish f r s).mbx.flights) :
    g ∈ s.mbx.flights ∧ g.order ≠ f.order := by
  have hdrop : g ∈ (postCompletion f.job (lateReply f r) f.flags (dropFlight f s)).mbx.flights := by
    unfold finish at h
    dsimp only at h
    split at h
    · exact h
    · exact breakChain_flights f g _ h
  rw [postCompletion_flights] at hdrop
  obtain ⟨hmem, hne⟩ := List.mem_filter.mp hdrop
  exact ⟨hmem, bne_iff_ne.mp hne⟩

theorem settle_leaves (g : Flight) (s : State) (h : g ∈ (settle s).mbx.flights) : g ∈ s.mbx.flights := by
  refine foldl_keeps (fun t => g ∈ t.mbx.flights → g ∈ s.mbx.flights) s.mbx.flights _ s (fun t f ht hg => ht ?_) id h
  revert hg
  split
  · split
    · exact id
    · exact fun hg => (finish_leaves _ _ _ _ hg).1
  · split
    · exact id
    · exact fun hg => (finish_leaves _ _ _ _ hg).1
  · exact id

/-- The jobs that complete leave the list one after the other. -/
theorem foldl_finish_leaves (r : Flight → Reply) (l : List Flight) (g : Flight) (s : State)
    (h : g ∈ (l.foldl (fun t f => finish f (r f) t) s).mbx.flights) : g ∈ s.mbx.flights ∧ g ∉ l := by
  induction l generalizing s with
  | nil => exact ⟨h, List.not_mem_nil⟩
  | cons f l ih =>
    obtain ⟨hf, hl⟩ := ih _ h
    obtain ⟨hs, hne⟩ := finish_leaves _ _ _ _ hf
    refine ⟨hs, fun hg => ?_⟩
    rcases List.mem_cons.mp hg with rfl | hg
    · exact hne rfl
    · exact hl hg

theorem completeHeld_leaves (p : Hold → Bool) (r : Flight → Reply) (g : Flight) (s : State)
    (h : g ∈ (completeHeld p r s).mbx.flights) : g ∈ s.mbx.flights ∧ p g.hold = false := by
  obtain ⟨hs, hl⟩ := foldl_finish_leaves r _ g s (settle_leaves g _ h)
  exact ⟨hs, Bool.eq_false_iff.mpr fun hp => hl (List.mem_filter.mpr ⟨hs, hp⟩)⟩

/-- Where no job has that hold and no fence waits, nothing completes. -/
theorem completeHeld_none (p : Hold → Bool) (r : Flight → Reply) (s : State) (h : ∀ f ∈ s.mbx.flights, p f.hold = false)
    (hfence : noFences s = true) : completeHeld p r s = s := by
  have hnone : s.mbx.flights.filter (fun f => p f.hold) = [] := List.filter_eq_nil_iff.mpr fun f hf => by simp [h f hf]
  unfold completeHeld finishHeld
  rw [hnone]
  exact settle_noFences s hfence

/-- A command of FSO alone that completes the jobs that wait for it. -/
theorem ends_of_completeHeld (c : Instr) (h : State → Prop) (p : Hold → Bool) (f : State → Fso) (r : State → Flight → Reply)
    (hexec : ∀ s, h s → exec c s = .next (completeHeld p (r s) { s with fso := f s })) :
    Ends c h p 0 fun s => { s with fso := f s } := by
  intro s hl hs
  refine ⟨_, hexec s hs, completeHeld_service p (r s) _ hl, fun g hg => completeHeld_leaves p _ g _ hg, fun hno hfence => ?_⟩
  rw [completeHeld_none p (r s) _ hno hfence]
  exact ⟨rfl, (Raised.refl s).status, (Raised.refl s).intc, (Raised.refl s).pcu⟩

/-! ### Loss of lock (R180, R198) -/

/-- An APLL has lost lock: it relocks on its anchor, and its RUNNING outputs are held. -/
def lockLost (n : ApllId) (s : State) : State :=
  { s with fso := {
    apll := s.fso.apll.set n.val { s.fso.apll[n] with loop := .relockAnchor, restartDue := true, afterLoss := true }
    out := s.fso.out.mapIdx fun o x => if x.apll = n then heldOut s false o x else x } }

theorem holdApll_unlocked (n : ApllId) (s : State) (h : s.fso.apll[n].loop = .locked) :
    (holdApll n.val s).setApll n.val unlockApll = lockLost n s := by
  have hapll : vmod s.fso.apll n.val unlockApll =
      s.fso.apll.set n.val { s.fso.apll[n] with loop := .relockAnchor, restartDue := true, afterLoss := true } := by
    rw [vmod_fin, unlockApll, h]
    rfl
  unfold lockLost holdApll
  rw [← hapll]
  simp only [Fin.ext_iff]
  rfl

/-- An output that RUNS is held, and it stays RUNNING. -/
theorem heldOut_running (s : State) (o : Nat) (x : Output) (h : x.st = .running) :
    (heldOut s false o x).held = true ∧ (heldOut s false o x).st = .running := by
  unfold heldOut
  rw [h]
  split
  · contradiction
  · split <;> exact ⟨rfl, rfl⟩

theorem exec_apllLockLost (n : ApllId) (s : State) (hrun : s.blockRuns 9 = true) (hlock : s.fso.apll[n].loop = .locked) :
    exec (.apllLockLost n) s = .next (if inRetune s.fso.apll[n] then pcuCount 0x1503 n.val 1 (lockLost n s)
      else faultEvent (80 + n.val) { addr := 0 } (pcuCount 0x1503 n.val 1 (lockLost n s))) := by
  rw [← holdApll_unlocked n s hlock]
  refine congrArg Host.Outcome.next (if_neg ?_)
  rw [hrun, hlock]
  decide

theorem apllLockLost_reports (n : ApllId) : Reports (.apllLockLost n)
    (fun s => (s.blockRuns 9 = true ∧ s.fso.apll[n].loop = .locked) ∧ inRetune s.fso.apll[n] = false) (80 + n.val) 0 0
    (lockLost n) := by
  intro s ⟨⟨hrun, hlock⟩, hret⟩ hrises
  have hcount := pcuCount_eq 0x1503 n.val 1 (lockLost n s)
  have hraise := pcuCount_raised 0x1503 n.val 1 (lockLost n s)
  have hexec := (exec_apllLockLost n s hrun hlock).trans (congrArg _ (if_neg (Bool.eq_false_iff.mp hret)))
  generalize pcuCount 0x1503 n.val 1 (lockLost n s) = x at hcount hraise hexec
  obtain ⟨hframe, hraised, hrec⟩ := faultEvent_reports (80 + n.val) 0 x (by rw [hcount]; exact hrises)
  have hall := hraise.trans hraised
  refine ⟨_, hexec, ?_, ?_, ?_⟩
  · rw [hframe, hcount]
  · rw [BitVec.or_assoc]
    exact ⟨hall.status, hall.intc, hall.pcu⟩
  · rw [hcount] at hrec ⊢
    exact hrec

theorem apllLockLost_moves (n : ApllId) : Moves (.apllLockLost n)
    (fun s => (s.blockRuns 9 = true ∧ s.fso.apll[n].loop = .locked) ∧ inRetune s.fso.apll[n] = true) 0 (lockLost n) := by
  intro s ⟨⟨hrun, hlock⟩, hret⟩
  have hraise := pcuCount_raised 0x1503 n.val 1 (lockLost n s)
  exact ⟨_, (exec_apllLockLost n s hrun hlock).trans (congrArg _ (if_pos hret)), pcuCount_eq _ _ _ _, hraise.status, hraise.intc,
    hraise.pcu⟩

/-! ### Lock (R179, R195) -/

/-- An APLL at its lock: a new nominal becomes the anchor, and a large retune notes its relock time. -/
def lockedApll (now : Nat) (a : Apll) : Apll :=
  { a with
    loop := .locked, anchor := if a.loop = .relockNominal then a.vco else a.anchor, lockedAt := now, timedOut := false
    large := a.large.map fun g => { g with relock := some (g.relock.getD ((now - g.commit) / 1000)) } }

theorem apllLock_sets (n : ApllId) : Sets (.apllLock n)
    (fun s => s.blockRuns 9 = true ∧ s.clockOk = true ∧ s.fso.apll[n].loop ≠ .locked)
    (fun s => s.setApll n.val (lockedApll s.tcr.cycles)) := by
  intro s ⟨hrun, hclock, hloop⟩
  have hor : ∀ (o : Option Nat) v, o.or (some v) = some (o.getD v) := fun o v => by cases o <;> rfl
  have hlock : lockedApll s.tcr.cycles = fun a =>
      { a with anchor := if a.loop == .relockNominal then a.vco else a.anchor
               loop := .locked, lockedAt := s.tcr.cycles, timedOut := false
               large := a.large.map fun g => { g with relock := g.relock.or (some ((s.tcr.cycles - g.commit) / 1000)) } } := by
    funext a
    simp only [lockedApll, hor, beq_iff_eq]
  beta_reduce
  rw [hlock]
  refine congrArg Host.Outcome.next (if_neg ?_)
  rw [hrun, hclock, beq_false_of_ne hloop]
  decide

/-! ### The restart of the outputs (R195 step 4, R197, R198) -/

/-- The held outputs of an APLL. -/
def heldMask (n : ApllId) (s : State) : BitVec 24 :=
  BitVec.ofNat 24 (maskOf 24 fun o => (s.outOf o).apll == n && (s.outOf o).held)

/-- The outputs of an APLL whose start waits. -/
def dueMask (n : ApllId) (s : State) : BitVec 24 :=
  BitVec.ofNat 24 (maskOf 24 fun o => (s.outOf o).apll == n && (s.outOf o).startDue)

/-- An APLL whose dividers restart. -/
def restartedApll (m : BitVec 24) (a : Apll) : Apll :=
  { a with
    turns := if a.restartDue then 0 else a.turns, yRest := if a.restartDue then 0 else a.yRest
    restartDue := false, afterLoss := false
    large := a.large.map fun g => { g with restarted := some (g.restarted.getD 0 ||| m) } }

/-- The outputs of the APLL restart that are held or wait for their start. -/
def restartOuts (n : ApllId) (s : State) : State :=
  s.mapOuts fun o x => if x.apll = n then (if x.held || x.startDue then restartedOut s o x else x) else x

theorem exec_outputRestart (n : ApllId) (s : State) (hrun : s.blockRuns 9 = true) (hclock : s.clockOk = true)
    (hlock : s.fso.apll[n].loop = .locked)
    (hafter : s.fso.apll[n].afterLoss = true → s.fso.apll[n].lockedAt + 1000000 ≤ s.tcr.cycles) :
    exec (.outputRestart n) s =
      .next (outputsReached (dueMask n s) (restartOuts n (s.setApll n.val (restartedApll (heldMask n s))))) := by
  refine congrArg Host.Outcome.next (if_neg ?_)
  rw [hrun, hclock, hlock]
  simpa using hafter

theorem outputsSettle_waits (m : BitVec 24) (b : Bool) (s : State) (f : Flight) (hf : f ∈ (outputsSettle m b s).mbx.flights)
    (w c : BitVec 24) (hw : f.hold = .outputs w c) : w ≠ 0 := by
  obtain ⟨-, hp⟩ := completeHeld_leaves _ _ f _ hf
  rw [hw] at hp
  simpa using hp

/-- An output that restarts where it stays with its APLL runs from its target phase, and an unfinished step is complete. -/
theorem restartedOut_same (s : State) (o : Nat) (x : Output) (h : x.settled.apll = x.apll) :
    (restartedOut s o x).st = .running ∧ (restartedOut s o x).held = false ∧ (restartedOut s o x).startDue = false ∧
      (restartedOut s o x).left = 0 ∧ (restartedOut s o x).steps = x.steps + x.left := by
  have hstart : restartedOut s o x = startedOut s o { x.settled with steps := x.steps + x.left, left := 0 } :=
    if_neg (by simp [h])
  rw [hstart, startedOut_eq]
  exact ⟨rfl, rfl, rfl, rfl, rfl⟩

theorem outputRestart_leads (n : ApllId) : Leads (.outputRestart n)
    (fun s => s.blockRuns 9 = true ∧ s.clockOk = true ∧ s.fso.apll[n].loop = .locked ∧ s.cpx.list = none ∧
      (s.fso.apll[n].afterLoss = true → s.fso.apll[n].lockedAt + 1000000 ≤ s.tcr.cycles))
    (fun s t =>
      t.fso.apll = s.fso.apll.set n.val (restartedApll (heldMask n s) s.fso.apll[n]) ∧
      (∀ o : Fin 24,
        let x := s.fso.out[o]
        let restarts := x.apll = n ∧ (x.held = true ∨ x.startDue = true)
        (¬restarts → t.fso.out[o] = x) ∧
        (restarts → t.fso.out[o] = restartedOut { s with fso := { s.fso with apll := t.fso.apll } } o.val x)) ∧
      (∀ f ∈ t.mbx.flights, ∀ w c, f.hold = .outputs w c → w ≠ 0) ∧
      { t with fso := s.fso, mbx := s.mbx, intc := s.intc, pcu := s.pcu } = s) := by
  intro s ⟨hrun, hclock, hlock, hl, hafter⟩
  have hserves := outputsSettle_service (dueMask n s) true (restartOuts n (s.setApll n.val (restartedApll (heldMask n s)))) hl
  have hapll : (outputsReached (dueMask n s) (restartOuts n (s.setApll n.val (restartedApll (heldMask n s))))).fso.apll =
      s.fso.apll.set n.val (restartedApll (heldMask n s) s.fso.apll[n]) := (congrArg Fso.apll hserves.fso).trans (vmod_fin _ _ _)
  have hout : ∀ o : Fin 24, (outputsReached (dueMask n s) (restartOuts n (s.setApll n.val (restartedApll (heldMask n s))))).fso.out[o] =
      if s.fso.out[o].apll = n then
        (if s.fso.out[o].held || s.fso.out[o].startDue then
          restartedOut (s.setApll n.val (restartedApll (heldMask n s))) o.val s.fso.out[o] else s.fso.out[o])
      else s.fso.out[o] := fun o => (congrArg (fun f : Fso => f.out[o]) hserves.fso).trans (Vector.getElem_mapIdx _)
  refine ⟨_, exec_outputRestart n s hrun hclock hlock hafter, hapll, fun o => ⟨fun hstay => ?_, fun hrestart => ?_⟩,
    fun f hf w c => outputsSettle_waits _ _ _ f hf w c, ?_⟩
  · rw [hout]
    split
    next hn => exact if_neg fun h => hstay ⟨hn, by simpa using h⟩
    · rfl
  · rw [hout, if_pos hrestart.1, if_pos (by simpa using hrestart.2), hapll, ← vmod_fin]
    rfl
  · rw [outputsReached, hserves]
    rfl

/-! ### The end of a retune (R181, R194, R196) -/

theorem apllRetuneTimeout_ends (n : ApllId) (g : LargeRetune) : Ends (.apllRetuneTimeout n)
    (fun s => s.fso.apll[n].large = some g ∧ g.relock = none ∧ g.commit + 10 ^ 7 ≤ s.tcr.cycles) (fun h => h == .retune n) 0
    (fun s => { s with fso := {
      apll := s.fso.apll.set n.val { s.fso.apll[n] with large := none, timedOut := true }
      out := s.fso.out.map fun x => if x.apll = n then { x with oldDivider := none } else x } }) := by
  refine ends_of_completeHeld _ _ _ _ (fun s _ => retuneReply 0x22 s.fso.apll[n] g) fun s ⟨hlarge, hrelock, hlate⟩ => ?_
  have hdue : ¬(g.relock.isSome || decide (s.tcr.cycles < g.commit + 10 ^ 7)) = true := by
    rw [hrelock]
    simpa using hlate
  have hout : s.fso.out.map (fun x => if x.apll = n then { x with oldDivider := none } else x) =
      s.fso.out.mapIdx fun _ x => if x.apll = n then { x with oldDivider := none } else x := by
    ext i hi : 1
    simp
  unfold exec execApllRetuneTimeout
  dsimp only
  rw [hlarge]
  dsimp only
  rw [if_neg hdue, hout, ← vmod_fin s.fso.apll n fun a => { a with large := none, timedOut := true }]
  rfl

/-- A source ramp that reaches its target within one impression has ended (R181). -/
def rampRest (a : Apll) : Int := if a.yRest.natAbs ≤ sourceStep a 125000 then 0 else a.yRest

theorem apllRampEnd_ends (n : ApllId) (v : Nat) : Ends (.apllRampEnd n)
    (fun s => s.blockRuns 9 = true ∧ s.fso.apll[n].rampTo = some v ∧
      ((v : Int) - s.fso.apll[n].vco).natAbs ≤ rampStep s.fso.apll[n] 125000) (fun h => h == .retune n) 0
    (fun s => s.setApll n.val fun a => { a with vco := v, rampTo := none, rampFrom := none, yRest := rampRest a }) := by
  refine ends_of_completeHeld _ _ _ _ (fun _ _ => { r3 := wordI (residualNhz v) }) fun s ⟨hrun, hramp, hnear⟩ => ?_
  unfold exec execApllRampEnd
  dsimp only
  rw [hramp]
  dsimp only
  rw [if_neg (by simp [hrun]), if_neg (by omega)]
  rfl

theorem apllRampEnd_sets (n : ApllId) : Sets (.apllRampEnd n) (fun s => s.blockRuns 9 = true ∧ s.fso.apll[n].rampTo = none)
    (fun s => s.setApll n.val fun a => { a with yRest := rampRest a }) := by
  intro s ⟨hrun, hramp⟩
  unfold exec execApllRampEnd
  dsimp only
  rw [hramp]
  dsimp only
  rw [if_neg (by simp [hrun])]
  rfl

/-! ### Substeps (R185, R188, R189, R191, R192) -/

/-- A substep is counted, and so is the pulse that the gate swallows for it. -/
theorem gateStep_serves (s : State) (o : Nat) (x : Output) (m : Int) (t : State) :
    Serves t (gateStep s o x m t) ∧ Raised 0 t (gateStep s o x m t) := by
  have hone := pcuCount_raised 0x1501 o 1 t
  unfold gateStep
  dsimp only
  split
  · exact ⟨pcuCount_serves _ _ _ _, hone⟩
  · exact ⟨(pcuCount_serves _ _ _ _).trans (pcuCount_serves _ _ _ _), hone.trans (pcuCount_raised 0x1500 o 1 _)⟩

/-- How far one substep of at most `top` moves towards a target; an advance keeps the cycle rule. -/
def substep (s : State) (o : OutId) (top : Nat) (want : Int) : Int :=
  clampSym (if want < 0 then cycleLimit s o.val top else top) want

/-- A substep on an output, counted beside. -/
theorem moves_of_gateStep (c : Instr) (h : State → Prop) (o : OutId) (m : State → Int) (f : State → Output → Output)
    (hexec : ∀ s, h s → exec c s = .next (gateStep s o.val s.fso.out[o] (m s) (s.setOut o.val (f s)))) :
    Moves c h 0 fun s => s.setOut o.val (f s) := fun s hs =>
  have ⟨hserves, hraised⟩ := gateStep_serves s o.val s.fso.out[o] (m s) (s.setOut o.val (f s))
  ⟨_, hexec s hs, hserves.frame, hraised.status, hraised.intc, hraised.pcu⟩

/-- The output runs, and FSO does too. -/
def stepperRuns (o : OutId) (s : State) : Prop := s.blockRuns 9 = true ∧ s.fso.out[o].st = .running ∧ s.fso.out[o].held = false

theorem stepperRuns_guard (o : OutId) (s : State) (h : stepperRuns o s) : ¬(!s.blockRuns 9 || !outRuns s.fso.out[o]) = true := by
  rw [h.1, (outRuns_iff _).mpr h.2]
  decide

/-- The stepper moves the phase. -/
def steppedOut (o : OutId) (s : State) (x : Output) : Output :=
  let m := substep s o x.stepMax x.left
  { x with left := x.left - m, steps := x.steps + m, paced := (x.paced.1 + x.spacing, x.paced.2) }

/-- The aligner moves the phase. -/
def alignedOut (o : OutId) (s : State) (x : Output) : Output :=
  let m := substep s o (min 100 (alignRoom s x)) x.aligning
  { x with aligning := x.aligning - m, trim := x.trim + m, alignAt := x.alignAt + ceilDiv (m.natAbs * 10 ^ 6) (2 * x.alignSlew) }

theorem phaseSubstep_step (o : OutId) : Moves (.outputPhaseSubstep o)
    (fun s => stepperRuns o s ∧ s.fso.out[o].left ≠ 0 ∧ paceOk s s.fso.out[o] = true) 0
    (fun s => s.setOut o.val (steppedOut o s)) := by
  refine moves_of_gateStep _ _ o (fun s => substep s o s.fso.out[o].stepMax s.fso.out[o].left) _ fun s ⟨hruns, hleft, hpace⟩ => ?_
  rw [setOut_congr s o.val (steppedOut o s) (fun x =>
    { x with left := x.left - substep s o s.fso.out[o].stepMax s.fso.out[o].left
             steps := x.steps + substep s o s.fso.out[o].stepMax s.fso.out[o].left, paced := (x.paced.1 + x.spacing, x.paced.2) })
    (by rw [State.outOf_fin]; rfl)]
  exact congrArg Host.Outcome.next
    ((if_neg (stepperRuns_guard o s hruns)).trans ((if_pos hleft).trans (if_neg (by rw [hpace]; decide))))

theorem phaseSubstep_delay (o : OutId) : Moves (.outputPhaseSubstep o)
    (fun s => stepperRuns o s ∧ s.fso.out[o].left = 0 ∧ s.fso.out[o].delayLeft ≠ 0) 0
    (fun s => s.setOut o.val fun x => { x with delayLeft := x.delayLeft - substep s o 100 x.delayLeft }) := by
  refine moves_of_gateStep _ _ o (fun s => substep s o 100 s.fso.out[o].delayLeft) _ fun s ⟨hruns, hleft, hdelay⟩ => ?_
  rw [setOut_congr s o.val (fun x => { x with delayLeft := x.delayLeft - substep s o 100 x.delayLeft })
    (fun x => { x with delayLeft := x.delayLeft - substep s o 100 s.fso.out[o].delayLeft }) (by rw [State.outOf_fin])]
  exact congrArg Host.Outcome.next
    ((if_neg (stepperRuns_guard o s hruns)).trans ((if_neg (not_not.mpr hleft)).trans (if_pos hdelay)))

theorem phaseSubstep_align (o : OutId) : Moves (.outputPhaseSubstep o)
    (fun s => stepperRuns o s ∧ s.fso.out[o].left = 0 ∧ s.fso.out[o].delayLeft = 0 ∧ s.fso.out[o].aligning ≠ 0 ∧
      inRetune s.fso.apll[s.fso.out[o].apll] = false ∧ alignRoom s s.fso.out[o] ≠ 0) 0
    (fun s => s.setOut o.val (alignedOut o s)) := by
  refine moves_of_gateStep _ _ o (fun s => substep s o (min 100 (alignRoom s s.fso.out[o])) s.fso.out[o].aligning) _
    fun s ⟨hruns, hleft, hdelay, halign, hret, hroom⟩ => ?_
  have hgo : ¬(decide (s.fso.out[o].aligning = 0) || inRetune (s.apllOf s.fso.out[o].apll.val) ||
      decide (alignRoom s s.fso.out[o] = 0)) = true := by
    rw [State.apllOf_fin, hret, decide_eq_false halign, decide_eq_false hroom]
    decide
  rw [setOut_congr s o.val (alignedOut o s) (fun x =>
    let m := substep s o (min 100 (alignRoom s s.fso.out[o])) s.fso.out[o].aligning
    { x with aligning := x.aligning - m, trim := x.trim + m
             alignAt := x.alignAt + ceilDiv (m.natAbs * 10 ^ 6) (2 * x.alignSlew) })
    (by rw [State.outOf_fin]; rfl)]
  exact congrArg Host.Outcome.next ((if_neg (stepperRuns_guard o s hruns)).trans
    ((if_neg (not_not.mpr hleft)).trans ((if_neg (not_not.mpr hdelay)).trans (if_neg hgo))))

/-- Nothing is left to move, or the retune stops the corrections. -/
theorem phaseSubstep_rests (o : OutId) : Sets (.outputPhaseSubstep o)
    (fun s => s.fso.out[o].left = 0 ∧ s.fso.out[o].delayLeft = 0 ∧
      (s.fso.out[o].aligning = 0 ∨ inRetune s.fso.apll[s.fso.out[o].apll] = true)) id := by
  intro s ⟨hleft, hdelay, hstop⟩
  have hstay : (decide (s.fso.out[o].aligning = 0) || inRetune (s.apllOf s.fso.out[o].apll.val) ||
      decide (alignRoom s s.fso.out[o] = 0)) = true := by
    rw [State.apllOf_fin]
    rcases hstop with h | h
    · rw [decide_eq_true h]
      rfl
    · rw [h, Bool.or_true]
      rfl
  refine congrArg Host.Outcome.next (ite_eq_left_iff.mpr fun _ => ?_)
  exact (if_neg (not_not.mpr hleft)).trans ((if_neg (not_not.mpr hdelay)).trans (if_pos hstay))

/-! ### The aligner (R191, R192) -/

/-- What the aligner measures, ps: it errs by at most 150. -/
def alignMeasured (o : OutId) (errPs : Int) (s : State) : ℚ :=
  misalignment s o.val s.fso.out[o] + (max (-150) (min 150 errPs) : Int)

theorem outputAlignMeasure_sets (o : OutId) (errPs : Int) : Sets (.outputAlignMeasure o errPs)
    (fun s => s.blockRuns 9 = true ∧ s.clockOk = true ∧ s.fso.out[o].align = true ∧ s.fso.out[o].st = .running ∧
      s.fso.out[o].held = false ∧ inRetune s.fso.apll[s.fso.out[o].apll] = false)
    (fun s => s.setOut o.val fun x =>
      { x with aligning := if |alignMeasured o errPs s| ≤ 2 then 0 else round (-(2 * alignMeasured o errPs s))
               alignAt := if x.aligning = 0 then s.tcr.cycles else x.alignAt }) := by
  intro s ⟨hrun, hclock, halign, hst, hheld, hret⟩
  refine congrArg Host.Outcome.next (if_neg ?_)
  rw [hrun, hclock, halign, (outRuns_iff _).mpr ⟨hst, hheld⟩, State.apllOf_fin, hret]
  decide

/-! ### The events together -/

theorem getLsbD_heldMask (n : ApllId) (s : State) (o : Fin 24) :
    (heldMask n s).getLsbD o.val = (decide (s.fso.out[o].apll = n) && s.fso.out[o].held) := by
  rw [heldMask, getLsbD_maskOf, State.outOf_fin]
  rfl

/-- Settles O44: the loss of lock, the lock and the restart of an APLL, the end of a retune, a substep and the aligner's
measurement, each by the lemma of its event. -/
theorem synthesisEventsAct : Obligations.SynthesisEventsAct := by
  refine ⟨fun n => ⟨apllLockLost_reports n, apllLockLost_moves n⟩, heldOut_running, apllLock_sets, fun n s hs => ?_,
    apllRetuneTimeout_ends, fun n => ⟨apllRampEnd_ends n, apllRampEnd_sets n⟩,
    fun o => ⟨phaseSubstep_step o, phaseSubstep_delay o, phaseSubstep_align o, phaseSubstep_rests o⟩, outputAlignMeasure_sets⟩
  obtain ⟨t, hexec, hapll, hout, hwaits, hframe⟩ := outputRestart_leads n s hs
  refine ⟨t, hexec, ⟨heldMask n s, getLsbD_heldMask n s, hapll⟩, fun o => ⟨(hout o).1, (hout o).2, fun hr hsame => ?_⟩,
    hwaits, hframe⟩
  rw [(hout o).2 hr]
  exact restartedOut_same _ o.val _ (hsame.trans hr.1.symm)

end Sys2Proof.Machine

/-! ## Pulse and event jobs and events (O20, O39) -/

namespace Sys2Proof.Machine

/-! ### Generator and event jobs (O20) -/

/-- A change of PEU, which may look at anything but the services, leaves them. -/
theorem quietEffect_setPeu (f : State → Peu → Peu)
    (hf : ∀ (s : State) m i q, f { s with mbx := m, intc := i, pcu := q } = f s) :
    QuietEffect fun s => { s with peu := f s s.peu } where
  map s m i q := by rw [hf]
  list _ := rfl
  phase _ := rfl
  post _ := rfl
  spi _ := rfl

/-- A row whose job is done with a change of PEU (R206–R220). -/
theorem acts_of_setPeu (c : Job → Instr) (d : JobDef) (sel : Job → Job) (h : Params → State → Prop) (f : Params → State → Peu → Peu)
    (hc : ∀ j s, exec (c j) s = .next (directJob d (sel j) s)) (hring : ∀ j, (sel j).ring = j.ring)
    (hf : ∀ p (s : State) m i q, f p { s with mbx := m, intc := i, pcu := q } = f p s)
    (hrun : ∀ j s, accepted d (sel j) s = true → h (jobParams d (sel j) s) s → ∀ e,
      d.run e (takenJob d (sel j) s) (jobParams d (sel j) s) = done { e with peu := f (jobParams d (sel j) s) e e.peu }) :
    Acts c d sel h fun p s => { s with peu := f p s s.peu } :=
  acts_of_quiet _ _ _ _ _ hc hring (fun p => quietEffect_setPeu (f p) (hf p))
    fun j s ha hh e _ => ⟨{}, hrun j s ha hh e, by decide, rfl⟩

theorem ppsConfig_acts : Acts .ppsConfig ppsConfigDef same always (fun p s => s.setPps (p.u 4 1) fun x =>
    { x with view := Fin.ofNat 5 (p.u 5 1), st := genState (p.u 6 1), gate := Fin.ofNat 3 (p.u 7 1), period := p.u 8 4
             phase := p.u 12 4, widthNs := p.u 16 4, delayPs := p.i 20 4, inverted := p.u 24 1 == 1
             startFrom := if x.st == .running then x.startFrom else s.tcr.cycles + 1000000 }) :=
  acts_of_setPeu _ _ _ _ (fun _ _ u => { u with pps := vmod u.pps _ _ }) (fun _ _ => rfl) (fun _ => rfl) (fun _ _ _ _ _ => rfl)
    fun _ _ _ _ _ => rfl

theorem irigConfig_acts : Acts .irigConfig irigConfigDef same always (fun p s => s.setIrig (p.u 4 1) fun x =>
    { x with view := Fin.ofNat 5 (p.u 5 1), st := genState (p.u 6 1), gate := Fin.ofNat 3 (p.u 7 1), manchester := p.u 8 1 == 1
             expression := Fin.ofNat 8 (p.u 9 1), extension := p.u 10 1 == 1, dst := BitVec.ofNat 2 (p.u 11 1)
             localOffset := p.i 12 2, delayPs := p.i 14 4 }) :=
  acts_of_setPeu _ _ _ _ (fun _ _ u => { u with irig := vmod u.irig _ _ }) (fun _ _ => rfl) (fun _ => rfl) (fun _ _ _ _ _ => rfl)
    fun _ _ _ _ _ => rfl

theorem todConfig_acts : Acts .todConfig todConfigDef same always (fun p s => s.setTod (p.u 4 1) fun x =>
    { x with view := Fin.ofNat 5 (p.u 5 1), st := genState (p.u 6 1), gate := Fin.ofNat 3 (p.u 7 1), baud := p.u 8 4
             startDelayMs := p.u 12 2, due := if p.u 6 1 = 2 then x.due else [] }) :=
  acts_of_setPeu _ _ _ _ (fun _ _ u => { u with tod := vmod u.tod _ _ }) (fun _ _ => rfl) (fun _ => rfl) (fun _ _ _ _ _ => rfl)
    fun _ _ _ _ _ => rfl

/-- EVT_CONFIG of an input sets the FIFO's THRESHOLD too (R220). -/
theorem evtConfig_acts : Acts .evtConfig evtConfigDef same (fun p _ => p.u 4 1 ≠ 0xFF) (fun p s =>
    { s with peu := { s.peu with
      threshold := p.u 12 4
      evt := vmod s.peu.evt (p.u 4 1) fun x =>
        { x with view := Fin.ofNat 5 (p.u 5 1), enable := p.u 6 1 == 1, edge := Fin.ofNat 3 (p.u 7 1), filterNs := p.u 8 4 } } }) :=
  acts_of_setPeu _ _ _ _ (fun _ _ u => { u with threshold := _, evt := vmod u.evt _ _ }) (fun _ _ => rfl) (fun _ => rfl)
    (fun _ _ _ _ _ => rfl) fun _ _ _ hinput _ => if_neg hinput

theorem evtConfigThreshold_acts : Acts .evtConfigThreshold evtConfigDef (withByte 4 0xFF) always
    (fun p s => { s with peu := { s.peu with threshold := p.u 12 4 } }) :=
  acts_of_setPeu _ _ _ _ (fun _ _ u => { u with threshold := _ }) (fun _ _ => rfl) (withByte_ring _ _) (fun _ _ _ _ _ => rfl)
    fun j s ha _ _ => if_pos (selector_accepted evtConfigDef rfl j s 4 0xFF (by decide) (by decide) (by decide) ha)

/-- What EVT_DRAIN leaves of PEU: the records past N, and with CLEAR no drop and no sticky bit (R221). -/
def drainedPeu (p : Params) (u : Peu) : Peu :=
  { u with fifo := u.fifo.drop (p.u 0 4)
           drops := if p.bit 4 0 then 0 else u.drops
           overflow := !p.bit 4 0 && u.overflow
           blindSeen := if p.bit 4 0 then 0 else u.blindSeen }

/-- The records that EVT_DRAIN takes out, as its reply carries them (R219, R221). -/
def drainedBytes (p : Params) (s : State) : List Byte := (s.peu.fifo.take (p.u 0 4)).flatMap fun e => leBytes 32 e.toNat

/-- The reply of EVT_DRAIN: the records taken and left, the drops, the sticky bits (R221). -/
def drainReply (p : Params) (s : State) : Reply :=
  { r0 := word (min (p.u 0 4) s.peu.fifo.length), r1 := word (s.peu.fifo.length - p.u 0 4), r2 := word (min (2 ^ 32 - 1) s.peu.drops)
    r3 := word (bit s.peu.overflow + s.peu.blindSeen.toNat * 65536), out := drainedBytes p s }

theorem evtDrain_run (e : State) (j : Job) (p : Params) :
    evtDrainDef.run e j p = ({ e with peu := drainedPeu p e.peu }, .reply (drainReply p e)) := by
  unfold evtDrainDef drainedPeu drainReply
  simp only [reply, List.length_take, List.length_drop]
  cases p.bit 4 0 <;> rfl

/-- The result buffer that EVT_DRAIN asks for holds its records (R221). -/
theorem length_drainedBytes (p : Params) (s : State) : (drainedBytes p s).length ≤ 32 * p.u 0 4 := by
  have hrecord : ∀ e : BitVec 256, (leBytes 32 e.toNat).length = 32 := fun _ => by simp [leBytes]
  simp only [drainedBytes, List.length_flatMap, hrecord, List.map_const', List.sum_replicate, List.length_take, smul_eq_mul]
  omega

theorem evtDrain_answers : Answers .evtDrain evtDrainDef same always (fun p s => { s with peu := drainedPeu p s.peu })
    (fun _ p s =>
      [word (min (p.u 0 4) s.peu.fifo.length), word (s.peu.fifo.length - p.u 0 4), word (min (2 ^ 32 - 1) s.peu.drops),
       word (bit s.peu.overflow + s.peu.blindSeen.toNat * 65536)]) := by
  refine answers_of_quiet _ _ _ _ _ _ (fun _ _ => rfl) (fun _ => rfl)
    (fun p => quietEffect_setPeu (fun _ => drainedPeu p) fun _ _ _ _ => rfl) fun j s ha _ e he =>
    ⟨_, evtDrain_run e _ _, rfl, ?_, .inr fun hdma => ?_⟩
  · have hpeu : e.peu = s.peu := effect_read State.peu _ _ s e he fun _ _ _ _ _ => rfl
    simp only [drainReply, hpeu]
  · exact (length_drainedBytes _ e).trans (accepted_result evtDrainDef _ s ha hdma)

/-- Settles O20: each configuration changes its part of PEU alone; EVT_DRAIN takes the oldest records and answers what it
found. -/
theorem generatorJobsAct : Obligations.GeneratorJobsAct :=
  ⟨ppsConfig_acts, irigConfig_acts, todConfig_acts, evtConfig_acts, evtConfigThreshold_acts, evtDrain_answers⟩

/-! ### The duration field of an event record (O39) -/

/-- The duration field of a record takes the level's duration, and beside it what 64 bits do not hold of the bound (R219). -/
theorem eventRecord_duration (s : State) (i : Nat) (x : EvtInput) (falling : Bool) (stamp levelNs : Nat) (hi : i < 16) :
    (eventRecord s i x falling stamp levelNs).extractLsb' 224 32 =
      BitVec.ofNat 32 (min (2 ^ 32 - 1) levelNs + (viewAt s x.view.val stamp).2.bound / 2 ^ 64) := by
  unfold eventRecord
  dsimp only
  generalize timeWord _ _ _ _ _ _ = time
  generalize (viewAt s x.view.val stamp).2.bound = bound
  have htime := time.isLt
  have hseq := x.seq.isLt
  have hblind : bit x.blind ≤ 1 := by cases x.blind <;> decide
  have hfalling : bit falling ≤ 1 := by cases falling <;> decide
  apply BitVec.eq_of_toNat_eq
  rw [BitVec.extractLsb'_toNat, BitVec.toNat_ofNat, BitVec.toNat_ofNat, Nat.shiftRight_eq_div_pow]
  generalize min (2 ^ 32 - 1) levelNs = level
  omega

/-! ### A bound that no record holds (O39) -/

/-- What the active view showed in a span: a bound of 2^64 ps. -/
def wideView : PastView := { start := 0, stop := 0, dom := 0, bound := 2 ^ 64, growth := 0, flags := 0 }

/-- An engine whose record of the latest spans holds a bound of 2^64 ps, with event input 0 enabled for both edges. No run
leads to it, since a bound shows less than 2^48 ps (R112), but the statement does not say so. -/
def wideBound : State :=
  { cpx := { phase := .ready }
    tcr := { cycles := 1, past := [{ start := 0, stop := 1, views := List.replicate 5 wideView }] }
    peu := { evt := Vector.replicate 16 { enable := true, edge := 2 } } }

/-- The state in which the record of the edge is made: the edge is counted. -/
def wideCounted : State := (countExcursion (pcuCount 0x1600 0 1 wideBound)).setEvt 0 fun x => { x with seq := x.seq + 1 }

/-- An edge of the input at stamp 0 queues its record (R217, R218). -/
theorem exec_wideEdge : exec (.eventEdge 0 false 0 0 0) wideBound = .next (wideCounted.setEvt 0 fun y =>
    { y with queue := y.queue ++ [eventRecord wideCounted 0 wideBound.peu.evt[0] false 0 0], blind := false }) := rfl

theorem wideCounted_bound : (viewAt wideCounted 4 0).2.bound = 2 ^ 64 := by decide +kernel

/-- Refutes O39: a record takes the bound that its view showed at the stamp, and a bound of 2^64 ps reaches into the
duration of the level before. A state may hold such a bound for a span that has passed, though no run puts one there. -/
theorem not_pulseEventsAct : ¬ Obligations.PulseEventsAct := by
  unfold Obligations.PulseEventsAct
  rintro ⟨-, -, hedge, -⟩
  obtain ⟨-, -, hqueues, -⟩ := hedge 0 false 0 0 0
  obtain ⟨t, ht, -, -, -, record, hrecord, -, -, -, -, hduration⟩ :=
    hqueues wideBound ⟨by decide +kernel, by decide +kernel, by decide +kernel⟩
  obtain rfl := Host.Outcome.next.inj (exec_wideEdge.symm.trans ht)
  obtain rfl : eventRecord wideCounted 0 wideBound.peu.evt[0] false 0 0 = record :=
    (List.cons.inj (congrArg EvtInput.queue hrecord)).1
  rw [eventRecord_duration _ _ _ _ _ _ (by decide)] at hduration
  have hbound : (viewAt wideCounted wideBound.peu.evt[0].view.val 0).2.bound = 2 ^ 64 := wideCounted_bound
  rw [hbound] at hduration
  exact absurd hduration (by decide)

end Sys2Proof.Machine

/-! ## Lanes (O21, O22, O23, O45, O46) -/

namespace Sys2Proof.Machine

/-! ### How far an operation of NLU reaches beside its lane -/

/-- A step that reaches no further than the services, one that draws free values beside, and one that tells the pool and
the ports. -/
inductive Reach where
  | still
  | near
  | wide

/-- Every interrupt source that was raised still is. -/
def StaysRaised (s t : State) : Prop := ∀ n, s.intc.status.getLsbD n = true → t.intc.status.getLsbD n = true

section
variable {s t u : State}

theorem StaysRaised.refl (s : State) : StaysRaised s s := fun _ h => h
theorem StaysRaised.trans (h : StaysRaised s t) (g : StaysRaised t u) : StaysRaised s u := fun n hn => g n (h n hn)
theorem StaysRaised.of_intc (h : t.intc = s.intc) : StaysRaised s t := fun n hn => by rwa [h]
theorem StaysRaised.ite {c : Prop} [Decidable c] (h : StaysRaised s t) (g : StaysRaised s u) :
    StaysRaised s (if c then t else u) := by
  split <;> assumption

end

/-- An operation of NLU, beside the lanes: it raises interrupt sources and counts, draws free values, and as far as it
reaches it changes the pool, what follows the pool, and the ports; no time passes. -/
structure Aside (w : Reach) (s t : State) : Prop where
  same   : ServiceSame s t
  bits   : StaysRaised s t
  cycles : t.tcr.cycles = s.tcr.cycles
  rest   : t = { s with intc := t.intc, pcu := t.pcu, fresh := t.fresh, rim := t.rim, tcr := t.tcr, dsb := t.dsb
                        ehu := t.ehu, tpe := t.tpe }
  near   : w ≠ .wide → t = { s with intc := t.intc, pcu := t.pcu, fresh := t.fresh }
  still  : w = .still → t.fresh = s.fresh

section
variable {w : Reach} {s t u : State}

theorem Aside.refl (w : Reach) (s : State) : Aside w s s := ⟨.refl s, .refl s, rfl, rfl, fun _ => rfl, fun _ => rfl⟩

theorem Aside.trans (h : Aside w s t) (g : Aside w t u) : Aside w s u where
  same := h.same.trans g.same
  bits := h.bits.trans g.bits
  cycles := g.cycles.trans h.cycles
  rest := by rw [g.rest, h.rest]
  near hw := by rw [g.near hw, h.near hw]
  still hw := (g.still hw).trans (h.still hw)

theorem Aside.ite {c : Prop} [Decidable c] (h : c → Aside w s t) (g : ¬c → Aside w s u) : Aside w s (if c then t else u) := by
  split
  next hc => exact h hc
  next hc => exact g hc

theorem Aside.nlu (h : Aside w s t) : t.nlu = s.nlu := by rw [h.rest]
theorem Aside.cpx (h : Aside w s t) : t.cpx = s.cpx := by rw [h.rest]
theorem Aside.fco (h : Aside w s t) : t.fco = s.fco := by rw [h.rest]
theorem Aside.col (h : Aside w s t) : t.col = s.col := by rw [h.rest]

/-- A step that stays with the services. -/
theorem Aside.of_serves (h : Serves s t) (hbits : StaysRaised s t) :
    Aside w s t where
  same := h.same
  bits := hbits
  cycles := by rw [h.frame]
  rest := by rw [h.frame]
  near _ := by rw [h.frame]
  still _ := by rw [h.frame]

theorem Aside.serves (h : Aside .still s t) : Serves s t := by
  refine ⟨?_, h.same⟩
  have hnear := h.near nofun
  rw [h.still rfl] at hnear
  rw [hnear]
  rfl

/-- A change of the pool, of what follows it, or of the ports. -/
theorem Aside.of_wide (hs : ServiceSame s t) (hi : t.intc = s.intc) (hc : t.tcr.cycles = s.tcr.cycles)
    (hr : t = { s with intc := t.intc, pcu := t.pcu, fresh := t.fresh, rim := t.rim, tcr := t.tcr, dsb := t.dsb
                       ehu := t.ehu, tpe := t.tpe }) : Aside .wide s t :=
  ⟨hs, .of_intc hi, hc, hr, fun h => absurd rfl h, nofun⟩

/-- What happens on a lane does not hinder what happens beside it. -/
theorem Aside.setLane (h : Aside w s t) (l : Nat) (f : Lane → Lane) : Aside w (s.setLane l f) (t.setLane l f) where
  same := ⟨h.same.mbx, h.same.straps, h.same.intc, h.same.pcu⟩
  bits := h.bits
  cycles := h.cycles
  rest := by
    unfold State.setLane
    rw [h.rest]
  near hw := by
    unfold State.setLane
    rw [h.near hw]
  still := h.still

end

theorem raiseIrq_aside (w : Reach) (n : Nat) (s : State) : Aside w s (raiseIrq n s) :=
  .of_serves (raiseIrq_serves n s) fun k => raiseIrq_keepsBit n k s

theorem pcuCount_aside (w : Reach) (ev inst n : Nat) (s : State) : Aside w s (pcuCount ev inst n s) := by
  refine .of_serves (pcuCount_serves ev inst n s) fun k h => ?_
  unfold pcuCount
  dsimp only
  split
  · exact raiseIrq_keepsBit 17 k _ h
  · exact h

theorem drawNat_aside (s : State) : Aside .near s (drawNat s).2 :=
  ⟨⟨rfl, rfl, ⟨rfl, rfl, rfl⟩, rfl, fun _ => ⟨rfl, rfl, rfl⟩⟩, fun _ h => h, rfl, rfl, fun _ => rfl, nofun⟩

/-! ### Pool and servo beside a lane -/

theorem setRef_aside (r : Nat) (f : RefEntry → RefEntry) (s : State) : Aside .wide s (s.setRef r f) :=
  .of_wide ⟨rfl, rfl, ⟨rfl, rfl, rfl⟩, rfl, fun _ => ⟨rfl, rfl, rfl⟩⟩ rfl rfl rfl
theorem setDpll_aside (k : Nat) (f : Dpll → Dpll) (s : State) : Aside .wide s (s.setDpll k f) :=
  .of_wide ⟨rfl, rfl, ⟨rfl, rfl, rfl⟩, rfl, fun _ => ⟨rfl, rfl, rfl⟩⟩ rfl rfl rfl
theorem setHold_aside (k : Nat) (f : Hold1 → Hold1) (s : State) : Aside .wide s (s.setHold k f) :=
  .of_wide ⟨rfl, rfl, ⟨rfl, rfl, rfl⟩, rfl, fun _ => ⟨rfl, rfl, rfl⟩⟩ rfl rfl rfl
theorem setDom_aside (d : Nat) (f : Domain → Domain) (s : State) : Aside .wide s (s.setDom d f) :=
  .of_wide ⟨rfl, rfl, ⟨rfl, rfl, rfl⟩, rfl, fun _ => ⟨rfl, rfl, rfl⟩⟩ rfl rfl rfl
theorem setPi_aside (p i : Nat) (f : PortInst → PortInst) (s : State) : Aside .wide s (s.setPi p i f) :=
  .of_wide ⟨rfl, rfl, ⟨rfl, rfl, rfl⟩, rfl, fun _ => ⟨rfl, rfl, rfl⟩⟩ rfl rfl rfl
theorem setInst_aside (i : Nat) (f : PtpInst → PtpInst) (s : State) : Aside .wide s (s.setInst i f) :=
  .of_wide ⟨rfl, rfl, ⟨rfl, rfl, rfl⟩, rfl, fun _ => ⟨rfl, rfl, rfl⟩⟩ rfl rfl rfl

theorem onDomains_aside (k : Nat) (f : Domain → Domain) (s : State) : Aside .wide s (onDomains k f s) :=
  foldl_keeps (Aside .wide s) _ _ s (fun t _ h => h.trans (setDom_aside _ _ t)) (.refl _ s)

theorem moveDpll_aside (k : Nat) (st : DpllState) (s : State) : Aside .wide s (moveDpll k st s) :=
  .ite (fun _ => (setDpll_aside k _ s).trans (raiseIrq_aside _ _ _)) fun _ => setDpll_aside k _ s

/-- A loss moves the DPLL and the records of its domains; no time passes (R116, R143). -/
theorem enterLostAt_aside (l k : Nat) (followed : Bool) (s : State) : Aside .wide s (enterLostAt l k followed s) := by
  have hmove : ∀ st, Aside .wide s (moveDpll k st (s.setDpll k fun x => { x with lostAt := l })) := fun st =>
    (setDpll_aside k _ s).trans (moveDpll_aside k st _)
  unfold enterLostAt
  dsimp only
  split
  · have hheld := fun f g h => (((hmove .holdover).trans (setDpll_aside k f _)).trans (setHold_aside k g _)).trans
      (onDomains_aside k h _)
    exact .ite (fun _ => hheld _ _ _) fun _ => (hheld _ _ _).trans (pcuCount_aside _ _ _ _ _)
  · have hfree := fun f => (hmove .freerun).trans (setDpll_aside k f _)
    exact .ite (fun _ => (hfree _).trans (onDomains_aside k _ _)) fun _ => hfree _

theorem warmLoss_aside (r : Nat) (s : State) : Aside .wide s (warmLoss r s) :=
  .ite (fun _ => forAll_keeps (Aside .wide s) 8 _ s
    (fun _ t h => .ite (fun _ => h.trans (enterLostAt_aside t.cpx.impressions _ _ t)) fun _ => h) (.refl _ s)) fun _ => .refl _ s

theorem setHistory_aside (r n : Nat) (s : State) : Aside .wide s (setHistory r n s) :=
  have hcount := (setRef_aside r (withHistory n) s).trans (pcuCount_aside _ (0x1010 + n) r 1 _)
  .ite (fun _ => hcount.trans (raiseIrq_aside _ _ _)) fun _ => hcount

theorem moveRef_aside (r : Nat) (st : RefState) (s : State) : Aside .wide s (moveRef r st s) := by
  unfold moveRef
  dsimp only
  refine .ite (fun _ => setRef_aside r _ s) fun _ => ?_
  split
  · exact (setRef_aside r _ s).trans (setHistory_aside r 7 _)
  · exact (setRef_aside r _ s).trans (setHistory_aside r 9 _)
  · exact setRef_aside r _ s

theorem reviewRef_aside (r : Nat) (s : State) : Aside .wide s (reviewRef r s) := by
  rcases reviewRef_cases r s with h | ⟨st, h⟩ | h <;> rw [h]
  · exact .refl _ s
  · exact moveRef_aside r st s
  · exact (moveRef_aside r .disqualified s).trans (warmLoss_aside r _)

theorem loseRef_aside (r : Nat) (s : State) : Aside .wide s (loseRef r s) :=
  have hlost := setRef_aside r (fun e => { e with los := true }) s
  (Aside.ite (fun _ => hlost.trans (setHistory_aside r 0 _)) fun _ => hlost).trans (reviewRef_aside r _)

theorem squelch_aside (l : Nat) (s : State) : Aside .wide s (squelch l s) :=
  foldl_keeps (Aside .wide s) _ _ s (fun t k h => .ite (fun _ => h.trans (loseRef_aside (12 + k) t)) fun _ => h) (.refl _ s)

theorem unqualifySlot_aside (k : Nat) (s : State) : Aside .wide s (unqualifySlot k s) :=
  .ite (fun _ => (moveRef_aside (12 + k) .unqualified s).trans (setRef_aside _ _ _)) fun _ => .refl _ s

/-! ### Ports beside a lane -/

theorem movePi_aside (p i : Nat) (st : PtpState) (s : State) : Aside .wide s (movePi p i st s) :=
  .ite (fun _ => .refl _ s) fun _ => (setPi_aside p i _ s).trans (raiseIrq_aside _ _ _)

theorem runBmca_aside (i : Nat) (s : State) : Aside .wide s (runBmca i s) :=
  .ite (fun _ => setInst_aside i _ s) fun _ =>
    forAll_keeps (Aside .wide s) 24 _ _ (fun p t h => h.trans (movePi_aside p i _ t)) (setInst_aside i _ s)

theorem portChanged_aside (p : Nat) (s : State) : Aside .wide s (portChanged p s) := by
  refine forAll_keeps (Aside .wide s) 8 _ s (fun i t h => ?_) (.refl _ s)
  refine .ite (fun _ => h) fun _ => .trans ?_ (runBmca_aside i _)
  exact .ite (fun _ => (h.trans (movePi_aside p i _ t)).trans (setPi_aside _ _ _ _)) fun _ =>
    .ite (fun _ => h.trans (movePi_aside p i _ t)) fun _ =>
    .ite (fun _ => h.trans (movePi_aside p i _ t)) fun _ => h

/-! ### A lane that turns to a value -/

theorem State.laneOf_fin (s : State) (l : Fin 24) : s.laneOf l.val = s.nlu.lane[l] := vget_fin _ _ _

theorem setLane_congr (s : State) (l : Nat) (f g : Lane → Lane) (h : f (s.laneOf l) = g (s.laneOf l)) :
    s.setLane l f = s.setLane l g := by
  unfold State.setLane
  rw [vmod_congr s.nlu.lane l f g {} h]

theorem setLane_setLane (s : State) (l : Nat) (f g : Lane → Lane) :
    (s.setLane l f).setLane l g = s.setLane l fun x => g (f x) := by
  unfold State.setLane
  rw [vmod_vmod]

theorem setLane_same (s : State) (l : Nat) (f : Lane → Lane) (h : f (s.laneOf l) = s.laneOf l) : s.setLane l f = s := by
  unfold State.setLane
  rw [vmod_same s.nlu.lane l f {} h]

/-- One lane has become `y`, and beside it a step has acted as far as `w` says. -/
def Turns (w : Reach) (l : Nat) (y : Lane) (s t : State) : Prop := Aside w (s.setLane l fun _ => y) t

section
variable {w : Reach} {l : Nat} {y z : Lane} {s t u : State}

theorem turns_setLane (w : Reach) (l : Nat) (f : Lane → Lane) (s : State) : Turns w l (f (s.laneOf l)) s (s.setLane l f) := by
  rw [setLane_congr s l f (fun _ => f (s.laneOf l)) rfl]
  exact .refl _ _

theorem Turns.refl (w : Reach) (l : Nat) (s : State) : Turns w l (s.laneOf l) s s := by
  unfold Turns
  rw [setLane_same s l _ rfl]
  exact .refl _ _

theorem Turns.trans (h : Turns w l y s t) (g : Turns w l z t u) : Turns w l z s u := by
  have hall := (h.setLane l fun _ => z).trans g
  rwa [setLane_setLane] at hall

theorem Turns.set (h : Turns w l y s t) (f : Lane → Lane) : Turns w l (f y) s (t.setLane l f) := by
  have hall := h.setLane l f
  rwa [setLane_setLane] at hall

theorem Turns.set_eq (h : Turns w l y s t) {f : Lane → Lane} (hf : f y = z) : Turns w l z s (t.setLane l f) := hf ▸ h.set f

theorem Turns.aside (h : Turns w l y s t) (g : Aside w t u) : Turns w l y s u := Aside.trans h g

theorem Turns.lane (h : Turns w l y s t) (hl : l < 24) : t.laneOf l = y := by
  have hown := State.laneOf_setLane s l (fun _ => y) hl
  unfold State.laneOf at hown ⊢
  rw [h.nlu, hown]

theorem Turns.now (h : Turns w l y s t) : t.tcr.cycles = s.tcr.cycles := h.cycles
theorem Turns.fwRuns (h : Turns w l y s t) : t.fwRuns = s.fwRuns := by
  unfold State.fwRuns
  rw [h.cpx]
  rfl

/-- A lane's own change with nothing but services beside it. -/
theorem Turns.serves {f : Lane → Lane} (h : Turns .still l (f (s.laneOf l)) s t) : Serves (s.setLane l f) t := by
  rw [setLane_congr s l f (fun _ => f (s.laneOf l)) rfl]
  exact Aside.serves h

end

/-! ### The shared operations on a lane (R227, R232, R236) -/

section
variable {w : Reach} {l : Nat} {x y : Lane} {s t : State}

/-- A lane whose equalisation code has moved. -/
def recoded (code codeAt codeSeen : Nat) (x : Lane) : Lane := { x with code := code, codeAt := codeAt, codeSeen := codeSeen }

/-- The code of a lane stands: frozen, or in DOWN (R232, R233). -/
def CodeStands (x : Lane) : Prop := x.frozen = true ∨ x.st = .down

theorem settleCode_stands (h : CodeStands (s.laneOf l)) : settleCode l s = s := by
  refine if_pos ?_
  rcases h with h | h <;> simp [h]

/-- The code of a lane moves, and nothing else of it (R232). -/
theorem settleCode_turns (hw : w = .still → CodeStands (s.laneOf l)) :
    ∃ a b c, Turns w l (recoded a b c (s.laneOf l)) s (settleCode l s) := by
  by_cases hstands : CodeStands (s.laneOf l)
  · rw [settleCode_stands hstands]
    exact ⟨_, _, _, .refl w l s⟩
  · have hdraw : Aside w s (drawNat s).2 := by
      cases w with
      | still => exact absurd (hw rfl) hstands
      | near => exact drawNat_aside s
      | wide => exact ⟨(drawNat_aside s).same, fun _ h => h, rfl, rfl, fun h => absurd rfl h, nofun⟩
    unfold settleCode
    dsimp only
    rw [if_neg (by simpa [CodeStands] using hstands)]
    split
    · exact ⟨_, _, _, ((Turns.refl w l s).aside hdraw).set_eq rfl⟩
    · exact ⟨_, _, _, (Turns.refl w l s).set_eq rfl⟩

/-- A latency event on a lane (R236, R250). -/
def latencyLost (now : Nat) (x : Lane) : Lane := { loseLatency now x with latEventAt := now }

theorem laneUp_latencyLost (now : Nat) (x : Lane) : laneUp (latencyLost now x) = laneUp x := by
  unfold latencyLost loseLatency
  split <;> rfl

theorem latencyEvent_turns (hl : l < 24) (hw : w ≠ .wide → laneUp (s.laneOf l) = false) :
    Turns w l (latencyLost s.tcr.cycles (s.laneOf l)) s (latencyEvent l s) := by
  have hcount := pcuCount_aside w 0x2006 l 1 s
  have hset := (Turns.refl w l s).aside hcount |>.set (latencyLost s.tcr.cycles)
  unfold latencyEvent
  dsimp only
  rw [hcount.cycles]
  refine .ite (c := _ = true) (fun hup => ?_) fun _ => hset
  cases w with
  | wide => exact hset.aside (portChanged_aside l _)
  | _ =>
    change laneUp (((pcuCount 0x2006 l 1 s).setLane l (latencyLost s.tcr.cycles)).laneOf l) = true at hup
    rw [hset.lane hl, laneUp_latencyLost, hw nofun] at hup
    exact absurd hup Bool.false_ne_true

theorem Turns.event (h : Turns w l y s t) (hl : l < 24) (hw : w ≠ .wide → laneUp y = false) :
    Turns w l (latencyLost s.tcr.cycles y) s (latencyEvent l t) := by
  rw [← h.now, ← h.lane hl]
  exact h.trans (latencyEvent_turns hl (by rwa [h.lane hl]))

theorem Turns.settle (h : Turns w l y s t) (hl : l < 24) (hcode : w = .still → CodeStands y) :
    ∃ a b c, Turns w l (recoded a b c y) s (settleCode l t) := by
  obtain ⟨a, b, c, hsettled⟩ := settleCode_turns (w := w) (l := l) (s := t) (by rwa [h.lane hl])
  rw [h.lane hl] at hsettled
  exact ⟨a, b, c, h.trans hsettled⟩

/-- A lane as it enters a state (R227). -/
def entered (st : LaneState) (now : Nat) (x : Lane) : Lane :=
  if x.st = st then x else { x with st := st, stageAt := now, winAt := now }

/-- A lane that leaves for another state than UP; a lane that was in UP tells its slots and its port (R227, R240). -/
theorem enterLane_turns (st : LaneState) (hst : st ≠ .up) (hw : w ≠ .wide → (s.laneOf l).st ≠ .up) :
    Turns w l (entered st s.tcr.cycles (s.laneOf l)) s (enterLane l st s) := by
  have hset := (turns_setLane w l (fun x => { x with st := st, stageAt := s.tcr.cycles, winAt := s.tcr.cycles }) s).aside
    (raiseIrq_aside w 13 _)
  unfold enterLane entered
  dsimp only
  split
  next h => exact .refl w l s
  next h =>
    rw [if_neg (by simpa using hst)]
    refine .ite (c := _ = true) (fun hup => ?_) fun _ => hset
    cases w with
    | wide => exact (hset.aside (squelch_aside l _)).aside (portChanged_aside l _)
    | _ => exact absurd (beq_iff_eq.mp hup) (hw nofun)

theorem Turns.enter (h : Turns w l y s t) (hl : l < 24) (st : LaneState) (hst : st ≠ .up) (hw : w ≠ .wide → y.st ≠ .up) :
    Turns w l (entered st s.tcr.cycles y) s (enterLane l st t) := by
  rw [← h.now, ← h.lane hl]
  exact h.trans (enterLane_turns st hst (by rwa [h.lane hl]))

/-- A lane as it enters UP (R227, R241). -/
def enteredUp (now : Nat) (x : Lane) : Lane :=
  { x with st := .up, stageAt := now, winAt := now, upAt := now, lastUp := some x.mode, fallingBack := false }

theorem enterUp_turns (h : (s.laneOf l).st ≠ .up) :
    Turns .wide l (enteredUp s.tcr.cycles (s.laneOf l)) s (enterLane l .up s) := by
  have hset := (turns_setLane .wide l (fun x => { x with st := .up, stageAt := s.tcr.cycles, winAt := s.tcr.cycles }) s).aside
    (raiseIrq_aside .wide 13 _)
  have hup := hset.set fun x => { x with
    upAt := (raiseIrq 13 (s.setLane l fun x => { x with st := .up, stageAt := s.tcr.cycles, winAt := s.tcr.cycles })).tcr.cycles
    lastUp := some x.mode, fallingBack := false }
  rw [hset.now] at hup
  unfold enterLane
  dsimp only
  rw [if_neg h, hset.now]
  refine Turns.aside ?_ (portChanged_aside l _)
  refine .ite (c := _ = true) (fun _ => hup.aside ?_) fun _ => hup
  exact foldl_keeps (Aside .wide _) _ _ _ (fun t k h => h.trans (unqualifySlot_aside k t)) (.refl _ _)

theorem Turns.enterUp (h : Turns .wide l y s t) (hl : l < 24) (hst : y.st ≠ .up) :
    Turns .wide l (enteredUp s.tcr.cycles y) s (enterLane l .up t) := by
  rw [← h.now, ← h.lane hl]
  exact h.trans (enterUp_turns (by rwa [h.lane hl]))

/-- A lane that moves raises interrupt source 13 (R227). -/
theorem enterLane_raises (st : LaneState) (h : (s.laneOf l).st ≠ st) :
    (enterLane l st s).intc.status.getLsbD 13 = true := by
  have hraised : ∀ t : State, (raiseIrq 13 t).intc.status.getLsbD 13 = true := fun t =>
    raiseIrq_setsBit 13 t (by decide) fun h => absurd h (by decide)
  unfold enterLane
  dsimp only
  rw [if_neg h]
  split
  · refine (portChanged_aside l _).bits 13 ?_
    split
    · exact (foldl_keeps (Aside .wide _) _ _ _ (fun t k h => h.trans (unqualifySlot_aside k t)) (.refl _ _)).bits 13 (hraised _)
    · exact hraised _
  · split
    · exact (portChanged_aside l _).bits 13 ((squelch_aside l _).bits 13 (hraised _))
    · exact hraised _

/-- What a change of mode makes of a lane, beside its code, its timers and its latency (R232, R236). -/
def atMode (m : Fin 4) (fec : Fin 3) (x : Lane) : Lane :=
  if x.mode = m ∧ x.fec = fec then x else { x with mode := m, fec := fec, aligned := false, fecLock := false }

/-- A lane without its code, the timers of its stage and its latency. -/
def bareLane (x : Lane) : Lane :=
  { x with code := 0, codeAt := 0, codeSeen := 0, rateCode := Vector.replicate 3 none, stageAt := 0, winAt := 0
           latValid := false, latEventAt := 0, latLostAt := 0, latWas := none }

/-- A change of mode is a latency event where it changes the mode or the FEC (R236). -/
def LatencyFollows (m : Fin 4) (fec : Fin 3) (now : Nat) (x y : Lane) : Prop :=
  y.latValid = false ∧ y.latEventAt = now ∨
    (x.mode = m ∧ x.fec = fec ∧ y.latValid = x.latValid ∧ y.latEventAt = x.latEventAt)

theorem bareLane_latencyLost (now : Nat) (x : Lane) : bareLane (latencyLost now x) = bareLane x := by
  unfold latencyLost loseLatency
  split <;> rfl

theorem latencyLost_latency (now : Nat) (x : Lane) :
    (latencyLost now x).latValid = false ∧ (latencyLost now x).latEventAt = now := by
  unfold latencyLost loseLatency
  refine ⟨?_, rfl⟩
  split
  · rfl
  next h => simpa using h

theorem bareLane_keepCode (x : Lane) : bareLane (keepCode x) = bareLane x := by
  unfold keepCode
  split <;> rfl

/-- The rate changes with the mode: what the receiver starts from. -/
def remoded (now : Nat) (m : Fin 4) (fec : Fin 3) (x : Lane) : Lane :=
  let y := { keepCode (loseLatency now x) with mode := m, fec := fec, aligned := false, fecLock := false }
  if rateIdx m = runRate x then y else startCode now (rateIdx m) y

theorem bareLane_remoded (now : Nat) (m : Fin 4) (fec : Fin 3) (x : Lane) :
    bareLane (remoded now m fec x) = bareLane { x with mode := m, fec := fec, aligned := false, fecLock := false } := by
  unfold remoded loseLatency keepCode startCode
  dsimp only
  split <;> split <;> split <;> rfl

theorem bareLane_startCode (now idx : Nat) (x : Lane) : bareLane (startCode now idx x) = bareLane x := rfl

theorem laneUp_false (x : Lane) (h : x.st ≠ .up) : laneUp x = false := by simp [laneUp, h]

/-- A lane whose stage starts (R227). -/
def staged (now : Nat) (x : Lane) : Lane := { x with stageAt := now }

theorem startStage_turns (w : Reach) (l : Nat) (s : State) :
    Turns w l (staged s.tcr.cycles (s.laneOf l)) s (startStage l s) := turns_setLane w l (staged s.tcr.cycles) s

theorem changeMode_run (m : Fin 4) (fec : Fin 3) (hl : l < 24) : changeMode l m fec s =
    if (s.laneOf l).mode = m ∧ (s.laneOf l).fec = fec then startStage l s
    else latencyEvent l ((settleCode l (startStage l s)).setLane l (remoded s.tcr.cycles m fec)) := by
  unfold changeMode
  dsimp only
  rw [(startStage_turns .wide l s).lane hl]
  rfl

/-- A change of mode (R232, R236). -/
theorem changeMode_turns (m : Fin 4) (fec : Fin 3) (hl : l < 24) (hw : w ≠ .wide → (s.laneOf l).st ≠ .up)
    (hcode : w = .still → CodeStands (s.laneOf l)) :
    ∃ y, bareLane y = bareLane (atMode m fec (s.laneOf l)) ∧ LatencyFollows m fec s.tcr.cycles (s.laneOf l) y ∧
      Turns w l y s (changeMode l m fec s) := by
  have hstart := startStage_turns w l s
  have hlane := hstart.lane hl
  rw [changeMode_run m fec hl, atMode]
  generalize s.laneOf l = x at *
  by_cases hsame : x.mode = m ∧ x.fec = fec
  · rw [if_pos hsame, if_pos hsame]
    exact ⟨staged s.tcr.cycles x, rfl, .inr ⟨hsame.1, hsame.2, rfl, rfl⟩, hstart⟩
  · rw [if_neg hsame, if_neg hsame]
    obtain ⟨a, b, c, hsettled⟩ := hstart.settle hl hcode
    have hset := hsettled.set (remoded s.tcr.cycles m fec)
    have hbare := bareLane_remoded s.tcr.cycles m fec (recoded a b c (staged s.tcr.cycles x))
    have hst := congrArg Lane.st hbare
    exact ⟨_, (bareLane_latencyLost _ _).trans hbare, .inl (latencyLost_latency _ _),
      hset.event hl fun h => laneUp_false _ (hst ▸ hw h)⟩

theorem Turns.mode (h : Turns w l x s t) (hl : l < 24) (m : Fin 4) (fec : Fin 3) (hw : w ≠ .wide → x.st ≠ .up)
    (hcode : w = .still → CodeStands x) :
    ∃ y, bareLane y = bareLane (atMode m fec x) ∧ LatencyFollows m fec s.tcr.cycles x y ∧ Turns w l y s (changeMode l m fec t) := by
  obtain ⟨y, hbare, hlat, hchange⟩ := changeMode_turns (w := w) (s := t) m fec hl (by rwa [h.lane hl]) (by rwa [h.lane hl])
  rw [h.lane hl] at hbare hlat
  rw [h.now] at hlat
  exact ⟨y, hbare, hlat, h.trans hchange⟩

/-- A lane as it enters LOW, beside its code, its timers and its latency (R227). -/
def lowered (x : Lane) : Lane :=
  { x with st := .low, mode := lowestMode x, fec := fecFor x (lowestMode x), qualified := none, fallingBack := false
           aligned := false, fecLock := false }

theorem bareLane_entered (st : LaneState) (now : Nat) (x : Lane) :
    bareLane (entered st now x) = { bareLane x with st := st } := by
  unfold entered
  split
  next h =>
    rw [← h]
    rfl
  · rfl

theorem bareLane_atMode (m : Fin 4) (fec : Fin 3) (x : Lane) (ha : x.aligned = false) (hf : x.fecLock = false) :
    bareLane (atMode m fec x) = bareLane { x with mode := m, fec := fec, aligned := false, fecLock := false } := by
  unfold atMode
  split
  next h =>
    obtain ⟨rfl, rfl⟩ := h
    cases x
    subst ha hf
    rfl
  · rfl

/-- Before it trains, a lane forgets its qualification and its alignment (R227). -/
def readied (x : Lane) : Lane := { x with qualified := none, fallingBack := false, aligned := false, fecLock := false }

/-- A lane that leaves PRBS at another rate starts with the code of that rate (R232). -/
def rerated (now idx : Nat) (z y : Lane) : Lane := startCode now idx { y with rateCode := (keepCode z).rateCode }

/-- The last step of an entry into LOW. -/
def leavePrbs (l : Nat) (z : Lane) (m : Fin 4) (t : State) : State :=
  if z.st == .prbs && runRate z != rateIdx m then
    latencyEvent l (t.setLane l (rerated t.tcr.cycles (rateIdx m) z))
  else t

theorem Turns.leavePrbs (h : Turns w l y s t) (hl : l < 24) (hy : y.st ≠ .up) (z : Lane) (m : Fin 4) :
    ∃ y', bareLane y' = bareLane y ∧ (z.st ≠ .prbs → y' = y) ∧ Turns w l y' s (leavePrbs l z m t) ∧
      (t.intc.status.getLsbD 13 = true → (Machine.leavePrbs l z m t).intc.status.getLsbD 13 = true) := by
  unfold Machine.leavePrbs
  split
  next hprbs =>
    rw [Bool.and_eq_true, beq_iff_eq] at hprbs
    have hset := h.set (rerated t.tcr.cycles (rateIdx m) z)
    have hevent := latencyEvent_turns (w := w) hl fun _ => by
      rw [hset.lane hl]
      exact laneUp_false _ hy
    refine ⟨_, ?_, fun h => absurd hprbs.1 h, hset.trans hevent, hevent.bits 13⟩
    rw [bareLane_latencyLost, hset.lane hl]
    rfl
  next => exact ⟨y, rfl, fun _ => rfl, h, id⟩

theorem enterLow_run (hl : l < 24) (a b c : Nat) (h : Turns w l (recoded a b c x) s (settleCode l s)) :
    enterLow l s = leavePrbs l (recoded a b c x) (lowestMode x)
      (enterLane l .low (changeMode l (lowestMode x) (fecFor x (lowestMode x)) ((settleCode l s).setLane l readied))) := by
  unfold enterLow
  dsimp only
  rw [h.lane hl]
  rfl

/-- A lane enters LOW at its lowest candidate; interrupt source 13 stands where it was not in LOW (R227, R236). -/
theorem enterLow_turns (hl : l < 24) (hw : w ≠ .wide → (s.laneOf l).st ≠ .up)
    (hcode : w = .still → CodeStands (s.laneOf l)) :
    ∃ y, bareLane y = bareLane (lowered (s.laneOf l)) ∧
      ((s.laneOf l).st ≠ .prbs →
        LatencyFollows (lowestMode (s.laneOf l)) (fecFor (s.laneOf l) (lowestMode (s.laneOf l))) s.tcr.cycles (s.laneOf l) y) ∧
      ((s.laneOf l).st ≠ .low → (enterLow l s).intc.status.getLsbD 13 = true) ∧ Turns w l y s (enterLow l s) := by
  obtain ⟨a, b, c, hsettled⟩ := settleCode_turns hcode
  generalize s.laneOf l = x at *
  obtain ⟨y, hbare, hlat, hmode⟩ := (hsettled.set readied).mode hl (lowestMode x) (fecFor x (lowestMode x)) hw hcode
  rw [bareLane_atMode _ _ _ rfl rfl] at hbare
  have hst : y.st = x.st := (congrArg Lane.st hbare :)
  have hlow := hmode.enter hl .low nofun fun h => hst ▸ hw h
  have hbits : x.st ≠ .low → _ := fun h => enterLane_raises .low (by rwa [hmode.lane hl, hst])
  have hlowered : bareLane (entered .low s.tcr.cycles y) = bareLane (lowered x) := by
    rw [bareLane_entered, hbare]
    rfl
  have hlatency : LatencyFollows (lowestMode x) (fecFor x (lowestMode x)) s.tcr.cycles x (entered .low s.tcr.cycles y) := by
    unfold entered
    split <;> exact hlat
  obtain ⟨y', hbare', hsame, hturns, hirq⟩ := hlow.leavePrbs hl ((congrArg Lane.st hlowered :) ▸ nofun) (recoded a b c x) (lowestMode x)
  rw [enterLow_run hl a b c hsettled]
  exact ⟨y', hbare'.trans hlowered, fun h => hsame h ▸ hlatency, fun h => hirq (hbits h), hturns⟩

theorem Turns.low (h : Turns w l x s t) (hl : l < 24) (hw : w ≠ .wide → x.st ≠ .up) (hcode : w = .still → CodeStands x) :
    ∃ y, bareLane y = bareLane (lowered x) ∧
      (x.st ≠ .prbs → LatencyFollows (lowestMode x) (fecFor x (lowestMode x)) s.tcr.cycles x y) ∧
      (x.st ≠ .low → (enterLow l t).intc.status.getLsbD 13 = true) ∧ Turns w l y s (enterLow l t) := by
  have hlow := enterLow_turns (w := w) (s := t) hl (by rwa [h.lane hl]) (by rwa [h.lane hl])
  rw [h.lane hl, h.now] at hlow
  obtain ⟨y, hbare, hlat, hirq, hturns⟩ := hlow
  exact ⟨y, hbare, hlat, hirq, h.trans hturns⟩

end

/-! ### Interrupt sources that a completion leaves raised (R74) -/

theorem pcuCount_staysRaised (ev inst n : Nat) (s : State) : StaysRaised s (pcuCount ev inst n s) :=
  (pcuCount_aside .still ev inst n s).bits

theorem postNow_staysRaised (j : Job) (r : Reply) (f : DoneFlags) (s : State) : StaysRaised s (postNow j r f s) := by
  have hwrite : StaysRaised s (if (j.dma && !r.out.isEmpty) = true then writeResult j r.out s else s) :=
    .ite (.of_intc (by unfold writeResult; split <;> rfl)) (.refl s)
  unfold postNow
  dsimp only
  refine .ite hwrite ?_
  generalize (if (j.dma && !r.out.isEmpty) = true then writeResult j r.out s else s) = t at hwrite
  have hput := fun w => (hwrite.trans (StaysRaised.of_intc rfl : StaysRaised t (putCompletion j r f w t))).trans
    (pcuCount_staysRaised 0x010E j.ring.val 1 _)
  have hraise : ∀ x, StaysRaised x (raiseCompletion j.ring.val x) := fun x =>
    .ite (fun n => raiseIrq_keepsBit _ n x) (.refl x)
  exact .trans (.ite ((hput _).trans (pcuCount_staysRaised _ _ _ _)) (hput _)) (hraise _)

theorem postCompletion_staysRaised (j : Job) (r : Reply) (f : DoneFlags) (s : State) :
    StaysRaised s (postCompletion j r f s) := by
  unfold postCompletion
  refine .ite (.refl s) ?_
  split
  · exact .of_intc rfl
  · exact .ite (postNow_staysRaised j r f s) (.of_intc rfl)

theorem settle_staysRaised (s : State) : StaysRaised s (settle s) := by
  have hdone : ∀ (t : State) (f : Flight), StaysRaised t (finish f {} t) := fun t f =>
    .trans (.of_intc rfl : StaysRaised t (dropFlight f t)) (postCompletion_staysRaised _ _ _ _)
  rw [settle_eq_foldl]
  refine foldl_keeps (StaysRaised s) _ _ s (fun t f h => h.trans ?_) (.refl s)
  unfold settleOne
  split
  · exact .ite (.refl t) (hdone t f)
  · exact .ite (.refl t) (hdone t f)
  · exact .refl t

/-- What an accepted job that replies has led to stands once it has completed. -/
theorem directJob_completes (d : JobDef) (j : Job) (s : State) (h : accepted d j s = true)
    (hrun : ∀ e, ServiceOnly (effectState d j s) e → ∃ x r, d.run e (takenJob d j s) (jobParams d j s) = (x, .reply r) ∧
      succeeded r = true ∧ x.cpx.list = none) :
    ∃ e, ServiceOnly (effectState d j s) e ∧
      ServiceOnly (d.run e (takenJob d j s) (jobParams d j s)).1 (directJob d j s) ∧
      StaysRaised (d.run e (takenJob d j s) (jobParams d j s)).1 (directJob d j s) := by
  obtain ⟨e, he, hs, -⟩ := start_frame d j s h
  obtain ⟨x, r, hr, hok, hl⟩ := hrun e hs
  refine ⟨e, hs, ?_⟩
  rw [directJob_accepted d j s h, he, hr]
  dsimp only
  rw [if_pos hok]
  have hp := postCompletion_service (takenJob d j s) r (takenFlight d j s).flags x hl
  exact ⟨hp.trans (settle_service _ (by rw [hp.cpx]; exact hl)),
    (postCompletion_staysRaised _ _ _ x).trans (settle_staysRaised _)⟩

/-- What a job of a lane leaves: the lane has become `y`; of the rest, beside the services, what its reach allows. -/
structure Lands (w : Reach) (l : Nat) (y : Lane) (s t : State) : Prop where
  nlu   : t.nlu = (s.setLane l fun _ => y).nlu
  near  : w ≠ .wide → t = { s with mbx := t.mbx, intc := t.intc, pcu := t.pcu, nlu := t.nlu, fresh := t.fresh }
  still : w = .still → t.fresh = s.fresh

theorem Turns.lands {w : Reach} {l : Nat} {y : Lane} {s e x t : State} (he : ServiceOnly s e) (hx : Turns w l y e x)
    (ht : ServiceOnly x t) : Lands w l y s t where
  nlu := by
    rw [ht, he] at *
    exact hx.nlu
  near hw := by
    rw [ht, Aside.near hx hw, he]
    rfl
  still hw := by
    have hstart : e.fresh = s.fresh := by rw [he]
    rw [ht]
    exact (Aside.still hx hw).trans hstart

theorem Lands.others {w : Reach} {l : Nat} {y : Lane} {s t : State} (h : Lands w l y s t) (m : Fin 24) (hm : m.val ≠ l) :
    t.nlu.lane[m] = s.nlu.lane[m] := by
  rw [h.nlu, ← vget_fin _ m {}, ← vget_fin _ m {}]
  exact vget_vmod_ne _ _ _ _ _ hm.symm

theorem Lands.lane {w : Reach} {l : Nat} {y : Lane} {s t : State} (h : Lands w l y s t) (m : Fin 24) (hm : m.val = l) :
    t.nlu.lane[m] = y := by
  subst hm
  rw [h.nlu, ← vget_fin _ m {}]
  exact vget_vmod_self _ _ _ _ m.isLt

/-- The state from which the effect of a job starts has the lanes and the time of the state before. -/
structure StartsAs (s e : State) : Prop where
  nlu   : e.nlu = s.nlu
  tcr   : e.tcr = s.tcr
  fresh : e.fresh = s.fresh

theorem StartsAs.laneOf {s e : State} (h : StartsAs s e) (l : Nat) : e.laneOf l = s.laneOf l := by
  unfold State.laneOf
  rw [h.nlu]

theorem startsAs_effect (d : JobDef) (j : Job) (s e : State) (he : ServiceOnly (effectState d j s) e) : StartsAs s e := by
  rw [effectState_cpx] at he
  rw [he]
  exact ⟨rfl, rfl, rfl⟩

/-- An accepted job whose effect turns a lane. -/
theorem directJob_lands (w : Reach) (l : Nat) (d : JobDef) (j : Job) (s : State) (P : Lane → State → Prop)
    (ha : accepted d j s = true)
    (hrun : ∀ e, StartsAs s e → ∃ x r y, d.run e (takenJob d j s) (jobParams d j s) = (x, .reply r) ∧ succeeded r = true ∧
      P y x ∧ Turns w l y e x) :
    ∃ x y, P y x ∧ StaysRaised x (directJob d j s) ∧ Lands w l y (effectState d j s) (directJob d j s) := by
  obtain ⟨e, he, hjob, hraised⟩ := directJob_completes d j s ha fun e he => by
    obtain ⟨x, r, y, hx, hok, -, hturns⟩ := hrun e (startsAs_effect d j s e he)
    exact ⟨x, r, hx, hok, by rw [hturns.cpx]; exact effectState_list d j s ha e he⟩
  obtain ⟨x, r, y, hx, -, hP, hturns⟩ := hrun e (startsAs_effect d j s e he)
  rw [hx] at hjob hraised
  exact ⟨x, y, hP, hraised, hturns.lands he hjob⟩

/-! ### Jobs of a lane (O21) -/

theorem lane_index (d : JobDef) (hfield : fRange 4 1 0 23 ∈ d.fields) (hdma : d.dma = none) (j : Job) (s : State)
    (ha : accepted d j s = true) : (jobParams d j s).u 4 1 < 24 :=
  Nat.lt_succ_of_le (accepted_index d j s 23 ha (fun r h => by rw [hdma] at h; exact nomatch h) hfield)

theorem quietEffect_setLane (l : Nat) (f : State → Lane → Lane)
    (hf : ∀ (s : State) m i q, f { s with mbx := m, intc := i, pcu := q } = f s) : QuietEffect fun s => s.setLane l (f s) where
  map s m i q := by rw [hf]; rfl
  list _ := rfl
  phase _ := rfl
  post _ := rfl
  spi _ := rfl

/-- A job acts on its lane as `f` says, where its effect turns the lane so and reaches nothing beside it. -/
theorem acts_of_turns (c : Job → Instr) (d : JobDef) (h : Params → State → Prop) (f : Params → State → Lane → Lane)
    (hc : ∀ j s, exec (c j) s = .next (directJob d j s)) (hfield : fRange 4 1 0 23 ∈ d.fields) (hdma : d.dma = none)
    (hf : ∀ p (s : State) m i q, f p { s with mbx := m, intc := i, pcu := q } = f p s)
    (hh : ∀ p (s : State) m i q v, h p { s with mbx := m, intc := i, pcu := q, cpx := { s.cpx with proof := v } } = h p s)
    (hrun : ∀ e j p, p.u 4 1 < 24 → h p e →
      ∃ x, d.run e j p = done x ∧ Turns .still (p.u 4 1) (f p e (e.laneOf (p.u 4 1))) e x) :
    Acts c d same h fun p s => s.setLane (p.u 4 1) (f p s) := by
  refine acts_of_serves _ _ _ _ _ hc (fun _ => rfl) (fun p => quietEffect_setLane _ _ (hf p)) hh fun j s ha e he => ?_
  obtain ⟨x, hx, hturns⟩ := hrun e (takenJob d j s) _ (lane_index d hfield hdma j s ha) he
  exact ⟨x, hx, hturns.serves⟩

theorem laneConfig_acts : Acts .laneConfig laneConfigDef same always (fun p s => s.setLane (p.u 4 1) fun x =>
    { x with medium := Fin.ofNat 3 (p.u 5 1), rateMask := BitVec.ofNat 4 (p.u 6 1), fec25 := Fin.ofNat 3 (p.u 7 1)
             fec10 := Fin.ofNat 3 (p.u 8 1), an1g := p.u 9 1 == 1, txref := Fin.ofNat 3 (p.u 10 1), txref161 := p.u 11 1 == 1
             polarity := BitVec.ofNat 2 (p.u 12 1), modBus := p.opt 13 4, muxAddr := p.u 14 1, muxChan := Fin.ofNat 8 (p.u 15 1)
             trainMs := p.u 16 2, stepMs := p.u 18 2, qualMs := p.u 20 2, qualErrors := p.u 22 2, relockMs := p.u 24 2 }) :=
  acts_of_turns _ _ _ _ (fun _ _ => rfl) (by simp [laneConfigDef]) rfl (fun _ _ _ _ _ => rfl) (fun _ _ _ _ _ _ => rfl)
    fun e _ p _ _ => ⟨_, rfl, (Turns.refl .still (p.u 4 1) e).set_eq rfl⟩

/-- A lane that LANE_DISABLE takes out of service (R231). -/
def disabledLane (now : Nat) (x : Lane) : Lane :=
  if x.st = .down then x else { keepCode x with st := .down, stageAt := now, winAt := now }

theorem entered_keepCode (now : Nat) (x : Lane) : entered .down now (keepCode x) = disabledLane now x := by
  unfold entered disabledLane keepCode
  by_cases h : x.st = .down <;> simp [h]

theorem laneDisable_acts : Acts .laneDisable laneDisableDef same
    (fun p s => (s.laneOf (p.u 4 1)).st = .down ∨ ((s.laneOf (p.u 4 1)).st ≠ .up ∧ (s.laneOf (p.u 4 1)).frozen = true))
    (fun p s => s.setLane (p.u 4 1) fun x =>
      if x.st = .down then x else { keepCode x with st := .down, stageAt := s.tcr.cycles, winAt := s.tcr.cycles }) := by
  refine acts_of_turns _ _ _ (fun _ s => disabledLane s.tcr.cycles) (fun _ _ => rfl) (by simp [laneDisableDef]) rfl
    (fun _ _ _ _ _ => rfl) (fun _ _ _ _ _ _ => rfl) fun e j p hl h => ?_
  have hup : (e.laneOf (p.u 4 1)).st ≠ .up := h.elim (fun hst => hst ▸ nofun) fun hst => hst.1
  refine ⟨_, rfl, ?_⟩
  rw [settleCode_stands (h.elim .inr fun hst => .inl hst.2), ← entered_keepCode]
  exact (turns_setLane .still (p.u 4 1) keepCode e).enter hl .down nofun fun _ =>
    (congrArg Lane.st (bareLane_keepCode (e.laneOf (p.u 4 1))) :) ▸ hup

theorem laneEqConfig_acts : Acts .laneEqConfig laneEqConfigDef same
    (fun p s => (s.laneOf (p.u 4 1)).frozen = true ∨ (s.laneOf (p.u 4 1)).st = .down)
    (fun p s => s.setLane (p.u 4 1) fun x =>
      { x with adaptive := p.u 5 1 == 1, ctle := p.u 6 1, densityMin := p.u 7 1, txSwing := p.u 8 2, txPre := p.u 10 1
               txPost := p.u 11 1, losMv := p.u 12 1, codeSeen := s.tcr.cycles }) :=
  acts_of_turns _ _ _ _ (fun _ _ => rfl) (by simp [laneEqConfigDef]) rfl (fun _ _ _ _ _ => rfl) (fun _ _ _ _ _ _ => rfl)
    fun e _ p _ h => ⟨_, rfl, by
      rw [settleCode_stands h]
      exact (Turns.refl .still (p.u 4 1) e).set_eq rfl⟩

/-! LANE_PRBS_CONFIG (R237) -/

/-- The counts of the checker stand: MODE, PATTERN and RATE are the ones that run. -/
def prbsKeeps (p : Params) (x : Lane) : Bool :=
  x.st == .prbs && x.prbs.mode.val == p.u 5 1 && x.prbs.pattern.val == p.u 6 1 && x.prbs.rate.val == p.u 7 1

/-- The pattern that LANE_PRBS_CONFIG sets. -/
def prbsSet (p : Params) (keeps : Bool) (x : Lane) : Lane :=
  { x with prbs :=
    { mode := Fin.ofNat 4 (p.u 5 1), pattern := Fin.ofNat 5 (p.u 6 1), rate := Fin.ofNat 3 (p.u 7 1)
      invert := BitVec.ofNat 2 (p.u 8 1), inject := Fin.ofNat 3 (p.u 9 1), burst := p.u 10 1, interval := p.u 12 4
      bits := if keeps then x.prbs.bits else 0, errors := if keeps then x.prbs.errors else 0
      resyncs := if keeps then x.prbs.resyncs else 0, syncAt := if keeps then x.prbs.syncAt else none } }

/-- A lane that enters PRBS or stays there: it was `x` before, and `z` once its code had settled. -/
def prbsEntered (p : Params) (now : Nat) (x z : Lane) : Lane :=
  let y := entered .prbs now { prbsSet p (prbsKeeps p x) z with rateCode := (keepCode z).rateCode }
  if runRate x = p.u 7 1 then y else latencyLost now (startCode now (p.u 7 1) y)

/-- The steps of LANE_PRBS_CONFIG after the code has settled. -/
def prbsStarted (p : Params) (x : Lane) (t : State) : State :=
  let u := enterLane (p.u 4 1) .prbs ((t.setLane (p.u 4 1) (prbsSet p (prbsKeeps p x))).setLane (p.u 4 1) fun y =>
    { y with rateCode := (keepCode (t.laneOf (p.u 4 1))).rateCode })
  if runRate x = p.u 7 1 then u else latencyEvent (p.u 4 1) (u.setLane (p.u 4 1) (startCode u.tcr.cycles (p.u 7 1)))

theorem lanePrbsConfig_run (e : State) (j : Job) (p : Params) (h : p.u 5 1 ≠ 0) : lanePrbsConfigDef.run e j p =
    done (prbsStarted p (e.laneOf (p.u 4 1))
      (if (e.laneOf (p.u 4 1)).st == .down then leaveDown (p.u 4 1) e else settleCode (p.u 4 1) e)) := if_neg h

theorem entered_of_ne {st : LaneState} {now : Nat} {x : Lane} (h : x.st ≠ st) :
    entered st now x = { x with st := st, stageAt := now, winAt := now } := if_neg h

theorem entered_st (st : LaneState) (now : Nat) (x : Lane) : (entered st now x).st = st := by
  unfold entered
  split
  next h => exact h
  · rfl

theorem Turns.prbs {w : Reach} {z : Lane} {s t : State} (p : Params) (x : Lane) (h : Turns w (p.u 4 1) z s t)
    (hl : p.u 4 1 < 24) (hw : w ≠ .wide → z.st ≠ .up) :
    Turns w (p.u 4 1) (prbsEntered p s.tcr.cycles x z) s (prbsStarted p x t) := by
  have henter := ((h.set (prbsSet p (prbsKeeps p x))).set fun y => { y with rateCode := (keepCode z).rateCode }).enter hl .prbs
    nofun hw
  unfold prbsStarted prbsEntered
  dsimp only
  rw [h.lane hl, henter.now]
  split
  · exact henter
  · exact (henter.set (startCode s.tcr.cycles (p.u 7 1))).event hl fun _ => laneUp_false _ (by
      rw [show (startCode s.tcr.cycles (p.u 7 1) _).st = _ from entered_st .prbs _ _]
      nofun)

/-- What a lane forgets as it leaves DOWN (R230, R241, R265). -/
def leftDown (x : Lane) : Lane :=
  { x with removed := 0, failed := 0, recovers := 0, measures := 0, reason := 0, moduleRead := false, moduleRate := 0 }

/-- A lane whose receiver goes over to a rate (R232, R236). -/
def rated (now old new : Nat) (x : Lane) : Lane :=
  if old = new then x else { loseLatency now (startCode now new x) with latEventAt := now }

theorem prbsEntered_down (p : Params) (now : Nat) (x : Lane) (h : x.st = .down) : prbsEntered p now x (leftDown x) =
    rated now (rateIdx x.mode) (p.u 7 1) { leftDown x with
      st := .prbs, stageAt := now, winAt := now
      prbs := { mode := Fin.ofNat 4 (p.u 5 1), pattern := Fin.ofNat 5 (p.u 6 1), rate := Fin.ofNat 3 (p.u 7 1)
                invert := BitVec.ofNat 2 (p.u 8 1), inject := Fin.ofNat 3 (p.u 9 1), burst := p.u 10 1, interval := p.u 12 4
                bits := 0, errors := 0, resyncs := 0, syncAt := none } } := by
  have hst : x.st ≠ .prbs := h ▸ nofun
  have hkeeps : prbsKeeps p x = false := by simp [prbsKeeps, h]
  have hkept : keepCode (leftDown x) = leftDown x := if_pos (by simp [leftDown, h])
  have hrate : runRate x = rateIdx x.mode := if_neg (by simp [h])
  unfold prbsEntered rated
  dsimp only
  rw [hkeeps, hkept, hrate, entered_of_ne (x := { prbsSet p false (leftDown x) with rateCode := (leftDown x).rateCode }) hst]
  rfl

theorem lanePrbsConfig_down_acts : Acts .lanePrbsConfig lanePrbsConfigDef same
    (fun p s => p.u 5 1 ≠ 0 ∧ (s.laneOf (p.u 4 1)).st = .down)
    (fun p s => s.setLane (p.u 4 1) fun x => rated s.tcr.cycles (rateIdx x.mode) (p.u 7 1)
      { x with
        st := .prbs, stageAt := s.tcr.cycles, winAt := s.tcr.cycles
        removed := 0, failed := 0, recovers := 0, measures := 0, reason := 0, moduleRead := false, moduleRate := 0
        prbs := { mode := Fin.ofNat 4 (p.u 5 1), pattern := Fin.ofNat 5 (p.u 6 1), rate := Fin.ofNat 3 (p.u 7 1)
                  invert := BitVec.ofNat 2 (p.u 8 1), inject := Fin.ofNat 3 (p.u 9 1), burst := p.u 10 1, interval := p.u 12 4
                  bits := 0, errors := 0, resyncs := 0, syncAt := none } }) := by
  refine acts_of_turns _ _ _ _ (fun _ _ => rfl) (by simp [lanePrbsConfigDef]) rfl
    (fun _ _ _ _ _ => rfl) (fun _ _ _ _ _ _ => rfl) fun e j p hl ⟨hmode, hst⟩ => ⟨_, lanePrbsConfig_run e j p hmode, ?_⟩
  have hturns := (turns_setLane .still (p.u 4 1) leftDown e).prbs p (e.laneOf (p.u 4 1)) hl fun _ => hst ▸ nofun
  rw [prbsEntered_down p _ _ hst] at hturns
  rw [if_pos (beq_iff_eq.mpr hst)]
  exact hturns

/-- What a lane in PRBS goes on with (R237). -/
def prbsAgain (p : Params) (x : Lane) : Lane :=
  { x with rateCode := (keepCode x).rateCode, prbs :=
    { mode := Fin.ofNat 4 (p.u 5 1), pattern := Fin.ofNat 5 (p.u 6 1), rate := Fin.ofNat 3 (p.u 7 1)
      invert := BitVec.ofNat 2 (p.u 8 1), inject := Fin.ofNat 3 (p.u 9 1), burst := p.u 10 1, interval := p.u 12 4
      bits := if x.prbs.mode.val = p.u 5 1 ∧ x.prbs.pattern.val = p.u 6 1 ∧ x.prbs.rate.val = p.u 7 1 then x.prbs.bits else 0
      errors := if x.prbs.mode.val = p.u 5 1 ∧ x.prbs.pattern.val = p.u 6 1 ∧ x.prbs.rate.val = p.u 7 1 then x.prbs.errors else 0
      resyncs := if x.prbs.mode.val = p.u 5 1 ∧ x.prbs.pattern.val = p.u 6 1 ∧ x.prbs.rate.val = p.u 7 1 then x.prbs.resyncs else 0
      syncAt := if x.prbs.mode.val = p.u 5 1 ∧ x.prbs.pattern.val = p.u 6 1 ∧ x.prbs.rate.val = p.u 7 1 then x.prbs.syncAt
        else none } }

theorem prbsEntered_prbs (p : Params) (now : Nat) (x : Lane) (h : x.st = .prbs) :
    prbsEntered p now x x = rated now x.prbs.rate.val (p.u 7 1) (prbsAgain p x) := by
  have hrate : runRate x = x.prbs.rate.val := if_pos (beq_iff_eq.mpr h)
  have hkeeps : prbsKeeps p x =
      decide (x.prbs.mode.val = p.u 5 1 ∧ x.prbs.pattern.val = p.u 6 1 ∧ x.prbs.rate.val = p.u 7 1) := by
    simp [prbsKeeps, h, Bool.and_assoc, Bool.beq_eq_decide_eq]
  have hentered : entered .prbs now { prbsSet p (prbsKeeps p x) x with rateCode := (keepCode x).rateCode } = prbsAgain p x := by
    rw [hkeeps]
    unfold prbsSet prbsAgain
    simp only [decide_eq_true_eq]
    exact if_pos h
  unfold prbsEntered rated
  dsimp only at hentered ⊢
  rw [hrate, hentered]
  rfl

theorem lanePrbsConfig_prbs_acts : Acts .lanePrbsConfig lanePrbsConfigDef same
    (fun p s => p.u 5 1 ≠ 0 ∧ (s.laneOf (p.u 4 1)).st = .prbs ∧ (s.laneOf (p.u 4 1)).frozen = true)
    (fun p s => s.setLane (p.u 4 1) fun x => rated s.tcr.cycles x.prbs.rate.val (p.u 7 1) (prbsAgain p x)) := by
  refine acts_of_turns _ _ _ (fun p s x => rated s.tcr.cycles x.prbs.rate.val (p.u 7 1) (prbsAgain p x)) (fun _ _ => rfl)
    (by simp [lanePrbsConfigDef]) rfl (fun _ _ _ _ _ => rfl) (fun _ _ _ _ _ _ => rfl)
    fun e j p hl ⟨hmode, hst, hfrozen⟩ => ⟨_, lanePrbsConfig_run e j p hmode, ?_⟩
  have hturns := (Turns.refl .still (p.u 4 1) e).prbs p (e.laneOf (p.u 4 1)) hl fun _ => hst ▸ nofun
  rw [prbsEntered_prbs p _ _ hst] at hturns
  rw [if_neg (by simp [hst]), settleCode_stands (.inl hfrozen)]
  exact hturns

theorem lanePrbsLeave_acts : Acts .lanePrbsLeave lanePrbsConfigDef (withByte 5 0)
    (fun p s => (s.laneOf (p.u 4 1)).st ≠ .prbs) unchanged := by
  refine acts_of_quiet _ _ _ _ _ (fun _ _ => rfl) (fun _ => withByte_ring _ _ _) (fun _ => QuietEffect.id) fun j s ha h e he => ?_
  have hoff := selector_accepted lanePrbsConfigDef rfl j s 5 0 (by decide) (by decide) (by decide) ha
  generalize jobParams lanePrbsConfigDef (withByte 5 0 j) s = p at *
  rw [← (startsAs_effect _ _ s e he).laneOf] at h
  refine ⟨{}, ?_, by decide, rfl⟩
  change (if p.u 5 1 = 0 then done (if (e.laneOf (p.u 4 1)).st == .prbs then enterLow (p.u 4 1) e else e) else _) = _
  rw [if_pos hoff, if_neg (by simpa using h)]
  rfl

/-- A recovered-clock slot bound anew (R239). -/
def bindSlot (k : Nat) (l : Option LaneId) (s : State) : State := { s with nlu := { s.nlu with slot := vmod s.nlu.slot k fun _ => l } }

theorem quietEffect_bindSlot (k : Nat) (l : Option LaneId) : QuietEffect (bindSlot k l) :=
  ⟨fun _ _ _ _ => rfl, fun _ => rfl, fun _ => rfl, fun _ => rfl, fun _ => rfl⟩

theorem bindSlot_same {k : Nat} {l : Option LaneId} {s : State} (h : vget s.nlu.slot k none = l) : bindSlot k l s = s := by
  subst h
  unfold bindSlot
  rw [vmod_same s.nlu.slot k (fun _ => vget s.nlu.slot k none) none rfl]

theorem unqualifySlot_disabled {k : Nat} {s : State} (h : (s.refEntry (12 + k)).enable = false) : unqualifySlot k s = s :=
  if_neg (by simp [h])

/-- A slot that is squelched as it is bound: its pool entry loses its signal (R239, R240). -/
def squelchSlot (k : Nat) (s : State) : State :=
  if squelched s k && (s.refEntry (12 + k)).enable then loseRef (12 + k) s else s

theorem squelchSlot_disabled {k : Nat} {s : State} (h : (s.refEntry (12 + k)).enable = false) : squelchSlot k s = s :=
  if_neg (by simp [h])

/-- A slot whose pool entry is disabled is bound with nothing beside it (R239, R240). -/
theorem laneRecoveredClockSelect_run (e : State) (j : Job) (p : Params)
    (h : vget e.nlu.slot (p.u 4 1) none = p.opt 5 24 ∨ (e.refEntry (12 + p.u 4 1)).enable = false) :
    laneRecoveredClockSelectDef.run e j p = done (bindSlot (p.u 4 1) (p.opt 5 24) e) := by
  by_cases hsame : vget e.nlu.slot (p.u 4 1) none = p.opt 5 24
  · rw [bindSlot_same hsame]
    exact if_pos hsame
  · have hoff : ((bindSlot (p.u 4 1) (p.opt 5 24) e).refEntry (12 + p.u 4 1)).enable = false := h.resolve_left hsame
    refine (if_neg hsame).trans ?_
    change done (squelchSlot (p.u 4 1) (unqualifySlot (p.u 4 1) (bindSlot (p.u 4 1) (p.opt 5 24) e))) = _
    rw [unqualifySlot_disabled hoff, squelchSlot_disabled hoff]

theorem laneRecoveredClockSelect_acts : Acts .laneRecoveredClockSelect laneRecoveredClockSelectDef same
    (fun p s => vget s.nlu.slot (p.u 4 1) none = p.opt 5 24 ∨ (s.refEntry (12 + p.u 4 1)).enable = false)
    (fun p => bindSlot (p.u 4 1) (p.opt 5 24)) :=
  acts_of_serves _ _ _ _ _ (fun _ _ => rfl) (fun _ => rfl) (fun _ => quietEffect_bindSlot _ _) (fun _ _ _ _ _ _ => rfl)
    fun _ _ _ e h => ⟨_, laneRecoveredClockSelect_run e _ _ h, .refl _⟩

/-- Settles O21: each job turns its own lane, or its slot, and nothing beside it but the services. -/
theorem laneJobsAct : Obligations.LaneJobsAct :=
  ⟨laneConfig_acts, laneDisable_acts, lanePrbsConfig_down_acts, lanePrbsConfig_prbs_acts, lanePrbsLeave_acts, laneEqConfig_acts,
    laneRecoveredClockSelect_acts⟩

/-! ### Jobs that start and end a bring-up (O22) -/

/-- The state that a job's effect starts from, but for a proof that has stopped, is the state before (R367). -/
theorem effectState_eq (d : JobDef) (j : Job) (s : State) :
    ∃ v, effectState d j s = { s with cpx := { s.cpx with proof := v } } := ⟨_, effectState_cpx d j s⟩

/-- A job of a lane leaves the rest of the state, beside the services, the free values and the proofs. -/
theorem Lands.frame {w : Reach} {l : Nat} {y : Lane} {d : JobDef} {j : Job} {s t : State}
    (h : Lands w l y (effectState d j s) t) (hw : w ≠ .wide) :
    { t with mbx := s.mbx, intc := s.intc, pcu := s.pcu, cpx := { t.cpx with proof := s.cpx.proof }, fresh := s.fresh
             nlu := { t.nlu with lane := s.nlu.lane } } = s := by
  obtain ⟨v, hv⟩ := effectState_eq d j s
  rw [hv] at h
  rw [h.nlu, h.near hw]
  rfl

theorem Lands.others_job {w : Reach} {l : Nat} {y : Lane} {d : JobDef} {j : Job} {s t : State}
    (h : Lands w l y (effectState d j s) t) (m : Fin 24) (hm : m.val ≠ l) : t.nlu.lane[m] = s.nlu.lane[m] := by
  rw [h.others m hm, effectState_cpx]

/-! LANE_ENABLE -/

/-- The pins of a lane are driven from its LANE_ENABLE on (R402). -/
def driveLane (l : Nat) (s : State) : State :=
  { s with nlu := { s.nlu with driven := s.nlu.driven ||| BitVec.ofNat 24 (2 ^ l) } }

theorem driveLane_intc (l : Nat) (s : State) : (driveLane l s).intc = s.intc := rfl
theorem driveLane_cpx (l : Nat) (s : State) : (driveLane l s).cpx = s.cpx := rfl
theorem driveLane_lane (l : Nat) (s : State) : (driveLane l s).nlu.lane = s.nlu.lane := rfl

theorem Turns.drive {w : Reach} {l : Nat} {y : Lane} {s t : State} (h : Turns w l y s t) :
    Turns w l y (driveLane l s) (driveLane l t) where
  same := ⟨h.same.mbx, h.same.straps, h.same.intc, h.same.pcu⟩
  bits := h.bits
  cycles := h.cycles
  rest := by
    unfold driveLane
    rw [h.rest]
    rfl
  near hw := by
    unfold driveLane
    rw [h.near hw]
    rfl
  still := h.still

theorem ServiceOnly.drive {s t : State} (h : ServiceOnly s t) (l : Nat) : ServiceOnly (driveLane l s) (driveLane l t) := by
  unfold ServiceOnly driveLane at *
  rw [h]

theorem candidates_leftDown (x : Lane) : candidates (leftDown x) = x.rateMask := by
  change x.rateMask &&& ~~~(0#4) = x.rateMask
  rw [BitVec.not_zero, BitVec.and_allOnes]

theorem lowestMode_leftDown (x : Lane) :
    lowestMode (leftDown x) = ((List.finRange 4).find? fun k => x.rateMask.getLsbD k.val).getD x.mode := by
  unfold lowestMode
  rw [candidates_leftDown]
  rfl

theorem laneEnable_index (j : Job) (s : State) (ha : accepted laneEnableDef j s = true) :
    (jobParams laneEnableDef j s).u 4 1 < 24 := lane_index _ (by simp [laneEnableDef]) rfl j s ha

/-- LANE_ENABLE is for a lane in DOWN (R231). -/
theorem laneEnable_down (j : Job) (s : State) (ha : accepted laneEnableDef j s = true) :
    (s.laneOf ((jobParams laneEnableDef j s).u 4 1)).st = .down := by
  obtain ⟨-, hcheck, -⟩ := accepted_checks laneEnableDef j s ha
  have htaken : (takenState j s).nlu = s.nlu := by rw [takenState_service j s]
  by_contra hst
  refine absurd ((if_neg ?_).symm.trans hcheck) (Option.some_ne_none rejState)
  unfold State.laneOf at hst ⊢
  rw [htaken]
  exact mt beq_iff_eq.mp hst

/-- A lane leaves DOWN for LOW (R227, R230). -/
theorem startLane_turns (l : Nat) (s e : State) (hl : l < 24) (he : StartsAs s e) (hdown : (s.laneOf l).st = .down) :
    ∃ y, bareLane y = bareLane (lowered (leftDown (s.laneOf l))) ∧
      LatencyFollows (lowestMode (leftDown (s.laneOf l))) (fecFor (s.laneOf l) (lowestMode (leftDown (s.laneOf l))))
        s.tcr.cycles (s.laneOf l) y ∧
      (startLane l e).intc.status.getLsbD 13 = true ∧ Turns .still l y e (startLane l e) := by
  have hleft := turns_setLane .still l leftDown e
  rw [he.laneOf l] at hleft
  generalize s.laneOf l = x at *
  obtain ⟨y, hbare, hlat, hirq, hturns⟩ := hleft.low hl (fun _ => ne_of_eq_of_ne hdown nofun) fun _ => .inr hdown
  rw [he.tcr] at hlat
  exact ⟨y, hbare, hlat (ne_of_eq_of_ne hdown nofun), hirq (ne_of_eq_of_ne hdown nofun), hturns⟩

theorem laneEnable_run (e : State) (j : Job) (p : Params) :
    laneEnableDef.run e j p = done (driveLane (p.u 4 1) (startLane (p.u 4 1) e)) := rfl

/-- What LANE_ENABLE leaves: its lane in LOW, as it left DOWN, and its pins driven. -/
theorem laneEnable_lands (j : Job) (s : State) (ha : accepted laneEnableDef j s = true) :
    let l := (jobParams laneEnableDef j s).u 4 1
    let x := s.laneOf l
    ∃ y, bareLane y = bareLane (lowered (leftDown x)) ∧
      LatencyFollows (lowestMode (leftDown x)) (fecFor x (lowestMode (leftDown x))) s.tcr.cycles x y ∧
      (directJob laneEnableDef j s).intc.status.getLsbD 13 = true ∧
      Lands .still l y (driveLane l (effectState laneEnableDef j s)) (directJob laneEnableDef j s) := by
  intro l x
  have hlow := fun e he => startLane_turns l s e (laneEnable_index j s ha) he (laneEnable_down j s ha)
  obtain ⟨e, he, hjob, hraised⟩ := directJob_completes laneEnableDef j s ha fun e he => by
    obtain ⟨y, -, -, -, hturns⟩ := hlow e (startsAs_effect _ _ s e he)
    refine ⟨_, {}, laneEnable_run e _ _, rfl, ?_⟩
    rw [hturns.drive.cpx, State.setLane_cpx, driveLane_cpx]
    exact effectState_list _ j s ha e he
  rw [laneEnable_run] at hjob hraised
  obtain ⟨y, hbare, hlat, hirq, hturns⟩ := hlow e (startsAs_effect _ _ s e he)
  rw [← driveLane_intc l] at hirq
  exact ⟨y, hbare, hlat, hraised 13 hirq, hturns.drive.lands (he.drive l) hjob⟩

/-! LANE_PRBS_CONFIG with MODE 0 from PRBS -/

theorem lanePrbsLeave_lands (j : Job) (s : State) (ha : accepted lanePrbsConfigDef (withByte 5 0 j) s = true) :
    let l := (jobParams lanePrbsConfigDef (withByte 5 0 j) s).u 4 1
    (s.laneOf l).st = .prbs → ∃ y, bareLane y = bareLane (lowered (s.laneOf l)) ∧
      (directJob lanePrbsConfigDef (withByte 5 0 j) s).intc.status.getLsbD 13 = true ∧
      Lands .near l y (effectState lanePrbsConfigDef (withByte 5 0 j) s) (directJob lanePrbsConfigDef (withByte 5 0 j) s) := by
  intro l hst
  have hl : l < 24 := lane_index lanePrbsConfigDef (by simp [lanePrbsConfigDef]) rfl _ s ha
  have hoff := selector_accepted lanePrbsConfigDef rfl j s 5 0 (by decide) (by decide) (by decide) ha
  obtain ⟨x, y, ⟨hbare, hirq⟩, hraised, hlands⟩ := directJob_lands .near l _ _ s
    (fun y x => bareLane y = bareLane (lowered (s.laneOf l)) ∧ x.intc.status.getLsbD 13 = true) ha fun e he => by
      have hlow := (he.laneOf l) ▸ Turns.refl .near l e
      obtain ⟨y, hbare, -, hirq, hturns⟩ := hlow.low hl (fun _ => hst ▸ nofun) nofun
      refine ⟨_, {}, y, (if_pos hoff).trans (congrArg done (if_pos ?_)), rfl, ⟨hbare, hirq (hst ▸ nofun)⟩, hturns⟩
      rw [he.laneOf]
      exact beq_iff_eq.mpr hst
  exact ⟨y, hbare, hraised 13 hirq, hlands⟩

/-! LANE_DISABLE -/

theorem laneDisable_lands (j : Job) (s : State) (ha : accepted laneDisableDef j s = true) :
    let l := (jobParams laneDisableDef j s).u 4 1
    ∃ a b c, Lands .wide l (disabledLane s.tcr.cycles (recoded a b c (s.laneOf l))) (effectState laneDisableDef j s)
      (directJob laneDisableDef j s) := by
  intro l
  have hl : l < 24 := lane_index laneDisableDef (by simp [laneDisableDef]) rfl _ s ha
  obtain ⟨x, y, ⟨a, b, c, rfl⟩, -, hlands⟩ := directJob_lands .wide l _ _ s
    (fun y _ => ∃ a b c, y = disabledLane s.tcr.cycles (recoded a b c (s.laneOf l))) ha fun e he => by
      obtain ⟨a, b, c, hsettled⟩ := settleCode_turns (w := .wide) (l := l) (s := e) nofun
      have hoff := (hsettled.set keepCode).enter hl .down nofun (absurd rfl)
      rw [entered_keepCode, he.laneOf, he.tcr] at hoff
      exact ⟨_, {}, _, rfl, rfl, ⟨a, b, c, rfl⟩, hoff⟩
  exact ⟨a, b, c, hlands⟩

/-! LANE_PRBS_CONFIG with a MODE -/

/-- A lane in PRBS generates and checks what the job says (R237). -/
theorem prbsEntered_bare (p : Params) (now : Nat) (x z : Lane) :
    bareLane (prbsEntered p now x z) = bareLane { prbsSet p (prbsKeeps p x) z with st := .prbs } := by
  have hentered : bareLane (entered .prbs now { prbsSet p (prbsKeeps p x) z with rateCode := (keepCode z).rateCode }) =
      bareLane { prbsSet p (prbsKeeps p x) z with st := .prbs } := bareLane_entered _ _ _
  unfold prbsEntered
  dsimp only at hentered ⊢
  split
  · exact hentered
  · rw [bareLane_latencyLost, bareLane_startCode, hentered]

theorem lanePrbsConfig_lands (j : Job) (s : State) (ha : accepted lanePrbsConfigDef j s = true) :
    let p := jobParams lanePrbsConfigDef j s
    p.u 5 1 ≠ 0 → ∃ k y z, bareLane y = bareLane { prbsSet p k z with st := .prbs } ∧
      Lands .wide (p.u 4 1) y (effectState lanePrbsConfigDef j s) (directJob lanePrbsConfigDef j s) := by
  intro p hmode
  have hl : p.u 4 1 < 24 := lane_index lanePrbsConfigDef (by simp [lanePrbsConfigDef]) rfl _ s ha
  obtain ⟨x, y, ⟨k, z, hbare⟩, -, hlands⟩ := directJob_lands .wide (p.u 4 1) _ _ s
    (fun y _ => ∃ k z, bareLane y = bareLane { prbsSet p k z with st := .prbs }) ha fun e he => by
      have hcode : ∃ z, Turns .wide (p.u 4 1) z e
          (if (e.laneOf (p.u 4 1)).st == .down then leaveDown (p.u 4 1) e else settleCode (p.u 4 1) e) := by
        split
        · exact ⟨_, turns_setLane .wide (p.u 4 1) leftDown e⟩
        · obtain ⟨a, b, c, hsettled⟩ := settleCode_turns (w := .wide) (l := p.u 4 1) (s := e) nofun
          exact ⟨_, hsettled⟩
      obtain ⟨z, hz⟩ := hcode
      exact ⟨_, {}, _, lanePrbsConfig_run e _ p hmode, rfl, ⟨_, z, prbsEntered_bare _ _ _ _⟩,
        hz.prbs p (e.laneOf (p.u 4 1)) hl (absurd rfl)⟩
  exact ⟨k, y, z, hbare, hlands⟩

/-! The statement -/

/-- What a bring-up leaves of a lane that comes from DOWN. -/
theorem started_keeps {x y : Lane} (h : bareLane y = bareLane (lowered (leftDown x))) :
    y.rateMask = x.rateMask ∧ y.medium = x.medium ∧ y.prbs = x.prbs ∧ y.los = x.los ∧ y.lol = x.lol ∧ y.frozen = x.frozen := by
  simp only [bareLane, lowered, leftDown, Lane.mk.injEq] at h
  simp only [h, and_self]

/-- A lane that was in DOWN and is in LOW (R227, R230, R236). -/
theorem started_lane {x y : Lane} {now : Nat} (h : bareLane y = bareLane (lowered (leftDown x)))
    (hlat : LatencyFollows (lowestMode (leftDown x)) (fecFor x (lowestMode (leftDown x))) now x y) :
    let m := ((List.finRange 4).find? fun k => x.rateMask.getLsbD k.val).getD x.mode
    let fec := if m.val = 2 then x.fec10 else if m.val = 3 then x.fec25 else 0
    y.st = .low ∧ y.mode = m ∧ y.fec = fec ∧ y.removed = 0 ∧ y.failed = 0 ∧ y.fecLock = false ∧ y.recovers = 0 ∧
    y.measures = 0 ∧ y.reason = 0 ∧ y.moduleRead = false ∧ y.moduleRate = 0 ∧ y.qualified = none ∧ y.fallingBack = false ∧
    y.aligned = false ∧ LatencyFollows m fec now x y ∧
    y.rateMask = x.rateMask ∧ y.medium = x.medium ∧ y.prbs = x.prbs ∧ y.los = x.los ∧ y.lol = x.lol ∧ y.frozen = x.frozen := by
  rw [← lowestMode_leftDown]
  exact ⟨(congrArg Lane.st h :), (congrArg Lane.mode h :), (congrArg Lane.fec h :), (congrArg Lane.removed h :),
    (congrArg Lane.failed h :), (congrArg Lane.fecLock h :), (congrArg Lane.recovers h :), (congrArg Lane.measures h :),
    (congrArg Lane.reason h :), (congrArg Lane.moduleRead h :), (congrArg Lane.moduleRate h :), (congrArg Lane.qualified h :),
    (congrArg Lane.fallingBack h :), (congrArg Lane.aligned h :), hlat, started_keeps h⟩

/-- A lane that left PRBS (R227, R237). -/
theorem lowered_lane {x y : Lane} (h : bareLane y = bareLane (lowered x)) :
    y.st = .low ∧ y.mode = lowestMode x ∧ y.qualified = none ∧ y.fallingBack = false ∧ y.aligned = false ∧
    y.prbs = x.prbs ∧ y.removed = x.removed := by
  simp only [bareLane, lowered, Lane.mk.injEq] at h
  simp only [h, and_self]

/-- A lane in PRBS runs what the job says (R237). -/
theorem prbsSet_lane {p : Params} {k : Bool} {y z : Lane} (h : bareLane y = bareLane { prbsSet p k z with st := .prbs }) :
    y.st = .prbs ∧ y.prbs.mode = Fin.ofNat 4 (p.u 5 1) ∧ y.prbs.pattern = Fin.ofNat 5 (p.u 6 1) ∧
    y.prbs.rate = Fin.ofNat 3 (p.u 7 1) ∧ y.prbs.inject = Fin.ofNat 3 (p.u 9 1) ∧ y.prbs.burst = p.u 10 1 ∧
    y.prbs.interval = p.u 12 4 := by
  simp only [bareLane, prbsSet, Lane.mk.injEq] at h
  simp only [h, and_self]

theorem disabledLane_st (now : Nat) (x : Lane) : (disabledLane now x).st = .down := by
  unfold disabledLane
  split
  next h => exact h
  · rfl

/-- LANE_DISABLE changes the state of its lane, its timers and its code (R231, R232). -/
theorem disabledLane_rest (now a b c : Nat) (x : Lane) :
    { disabledLane now (recoded a b c x) with
      st := x.st, code := x.code, codeAt := x.codeAt, codeSeen := x.codeSeen, rateCode := x.rateCode
      stageAt := x.stageAt, winAt := x.winAt } = x := by
  unfold disabledLane keepCode
  split
  · rfl
  · split <;> rfl

theorem setLane_driven (s : State) (l : Nat) (f : Lane → Lane) : (s.setLane l f).nlu.driven = s.nlu.driven := rfl

/-- LANE_ENABLE leaves the rest of the state, beside the services and the proofs. -/
theorem Lands.frame_driven {l : Nat} {y : Lane} {d : JobDef} {j : Job} {s t : State}
    (h : Lands .still l y (driveLane l (effectState d j s)) t) :
    { t with mbx := s.mbx, intc := s.intc, pcu := s.pcu, cpx := { t.cpx with proof := s.cpx.proof }
             nlu := { t.nlu with lane := s.nlu.lane, driven := s.nlu.driven } } = s := by
  obtain ⟨v, hv⟩ := effectState_eq d j s
  rw [hv] at h
  rw [h.nlu, h.near nofun, h.still rfl]
  rfl

theorem getLsbD_driveLane (l : Nat) (s : State) (m : Fin 24) :
    (driveLane l s).nlu.driven.getLsbD m.val = (s.nlu.driven.getLsbD m.val || m.val == l) := by
  have hbit : (BitVec.ofNat 24 (2 ^ l)).getLsbD m.val = (m.val == l) := by
    rw [BitVec.getLsbD_ofNat, Nat.testBit_two_pow, decide_eq_true m.isLt, Bool.true_and, Bool.beq_comm]
    rfl
  exact BitVec.getLsbD_or.trans (congrArg _ hbit)

/-- Settles O22: an entry into LOW changes of its lane what `lowered` says, its code, its timers and its latency. -/
theorem lanesEnterLow : Obligations.LanesEnterLow := by
  refine ⟨fun j s ha _ => ?_, fun j s ha hst => ?_, fun j s ha _ => ?_, fun j s ha hmode => ?_⟩
  · obtain ⟨y, hbare, hlat, hirq, hlands⟩ := laneEnable_lands (same j) s ha
    refine ⟨directJob laneEnableDef (same j) s, rfl, fun m hm => ?_, fun m hm => ?_, fun m => ?_, hirq, hlands.frame_driven⟩
    · rw [hlands.others m hm, driveLane_lane, effectState_cpx]
    · dsimp only
      rw [hlands.lane m hm, ← s.laneOf_fin m, hm]
      exact started_lane hbare hlat
    · rw [hlands.nlu, setLane_driven, getLsbD_driveLane, effectState_cpx]
  · obtain ⟨y, hbare, hirq, hlands⟩ := lanePrbsLeave_lands j s ha hst
    refine ⟨_, rfl, hlands.others_job, fun m hm => ?_, hirq, hlands.frame nofun⟩
    dsimp only
    rw [hlands.lane m hm, ← s.laneOf_fin m, hm]
    exact lowered_lane hbare
  · obtain ⟨a, b, c, hlands⟩ := laneDisable_lands (same j) s ha
    refine ⟨directJob laneDisableDef (same j) s, rfl, fun m => ?_⟩
    dsimp only
    split
    next hm =>
      rw [hlands.lane m hm, ← s.laneOf_fin m, hm]
      exact ⟨disabledLane_st _ _, disabledLane_rest _ _ _ _ _⟩
    next hm => exact hlands.others_job m hm
  · obtain ⟨k, y, z, hbare, hlands⟩ := lanePrbsConfig_lands (same j) s ha hmode
    refine ⟨directJob lanePrbsConfigDef (same j) s, rfl, fun m => ?_⟩
    split
    next hm =>
      rw [hlands.lane m hm]
      exact prbsSet_lane hbare
    next hm => exact hlands.others_job m hm

/-! ### Reads of a lane (O23) -/

theorem effectState_reads (d : JobDef) (hd : d.code = 0x2004 ∨ d.code = 0x2006) (j : Job) (s : State) :
    effectState d j s = s := by
  have hbit : proofBit s (takenJob d j s).code ((jobParams d j s).u 4 1) = none := by
    rw [takenJob_code]
    rcases hd with hd | hd <;> rw [hd] <;> rfl
  unfold effectState
  rw [hbit]
  rfl

/-- A job of a lane that reads it leaves the rest of the state, beside the services and the free values. -/
theorem Lands.frame_read {l : Nat} {y : Lane} {s t : State} (h : Lands .near l y s t) :
    { t with mbx := s.mbx, intc := s.intc, pcu := s.pcu, fresh := s.fresh, nlu := { t.nlu with lane := s.nlu.lane } } = s := by
  rw [h.nlu, h.near nofun]
  rfl

/-! LANE_READ_STATUS -/

/-- What LANE_READ_STATUS answers at a CD-TIME cycle, with a free value for the density (R241). -/
def statusReply (now : Nat) (x : Lane) (d : Nat) : Reply :=
  { r0 := word (x.st.code + x.mode.val * 8 + x.fec.val * 32 + bit x.los * 128 + bit x.lol * 256 + bit (gained x) * 512 +
      bit x.latValid * 1024 + bit x.frozen * 2048 + bit x.txLocked * 4096 + bit x.moduleRead * 8192 +
      x.slip % 8192 * 16384 + x.removed.toNat * 2 ^ 28)
    r1 := word (x.code % 32 + x.reason.val * 32 + (if x.los then 0 else d % 256) * 256 + x.moduleRate % 65536 * 65536)
    r2 := word (if x.st == .up then min (2 ^ 32 - 1) ((now - x.upAt) / 10 ^ 9) else 0)
    r3 := word (min 65535 x.recovers + min 65535 x.qualErrs * 65536) }

/-- A free value has been drawn. -/
def drawn (s : State) : State := { s with fresh := s.fresh + 1 }

theorem laneReadStatus_run (e : State) (j : Job) (p : Params) : laneReadStatusDef.run e j p =
    reply (statusReply (settleCode (p.u 4 1) e).tcr.cycles ((settleCode (p.u 4 1) e).laneOf (p.u 4 1))
      (Config.freeNat (settleCode (p.u 4 1) e).fresh)) (drawn (settleCode (p.u 4 1) e)) := rfl

theorem quietEffect_drawn : QuietEffect drawn :=
  ⟨fun _ _ _ _ => rfl, fun _ => rfl, fun _ => rfl, fun _ => rfl, fun _ => rfl⟩

theorem laneReadStatus_lands (j : Job) (s : State) (ha : accepted laneReadStatusDef j s = true) :
    let l := (jobParams laneReadStatusDef j s).u 4 1
    ∃ a b c, Lands .near l (recoded a b c (s.laneOf l)) s (directJob laneReadStatusDef j s) := by
  intro l
  obtain ⟨x, y, ⟨a, b, c, rfl⟩, -, hlands⟩ := directJob_lands .near l _ _ s
    (fun y _ => ∃ a b c, y = recoded a b c (s.laneOf l)) ha fun e he => by
      obtain ⟨a, b, c, hsettled⟩ := settleCode_turns (w := .near) (l := l) (s := e) nofun
      rw [he.laneOf] at hsettled
      exact ⟨_, _, _, laneReadStatus_run e _ _, rfl, ⟨a, b, c, rfl⟩, hsettled.aside (drawNat_aside _)⟩
  rw [effectState_reads _ (.inl rfl)] at hlands
  exact ⟨a, b, c, hlands⟩

/-! LANE_PRBS_READ -/

/-- The counters of a checker after LANE_PRBS_READ with CLEAR (R238). -/
def prbsCleared (now : Nat) (x : Lane) : Lane :=
  { x with prbs := { x.prbs with bits := 0, errors := 0, resyncs := 0, syncAt := x.prbs.syncAt.map fun _ => now } }

/-- What LANE_PRBS_READ answers of a checker that has counted `bits` (R238). -/
def prbsReply (bits : Nat) (x : Prbs) : Reply :=
  { r0 := word (min (2 ^ 48 - 1) bits % 2 ^ 32)
    r1 := word (min (2 ^ 48 - 1) bits / 2 ^ 32 + min (2 ^ 48 - 1) x.errors % 65536 * 65536)
    r2 := word (min (2 ^ 48 - 1) x.errors / 65536)
    r3 := word (bit x.syncAt.isSome + min 255 x.resyncs * 256) }

theorem lanePrbsRead_run (e : State) (j : Job) (p : Params) : lanePrbsReadDef.run e j p =
    let t := settleErrors (p.u 4 1) e
    reply (prbsReply (prbsBits t (t.laneOf (p.u 4 1)).prbs) (t.laneOf (p.u 4 1)).prbs)
      (if p.bit 5 0 then t.setLane (p.u 4 1) (prbsCleared t.tcr.cycles) else t) := rfl

/-- A checker that is not synchronised meets no errors (R237). -/
theorem settleErrors_unsynced {l : Nat} {s : State} (h : (s.laneOf l).prbs.syncAt = none) : settleErrors l s = s :=
  if_pos (by simp [h])

/-- A lane whose checker has met errors. -/
def erred (n : Nat) (x : Lane) : Lane := { x with prbs := { x.prbs with errors := n } }

/-- The errors that a checker has met are no fewer than before (R237). -/
theorem settleErrors_turns (l : Nat) (s : State) :
    ∃ n, (s.laneOf l).prbs.errors ≤ n ∧ Turns .near l (erred n (s.laneOf l)) s (settleErrors l s) := by
  unfold settleErrors
  dsimp only
  split
  · exact ⟨_, le_rfl, .refl .near l s⟩
  · exact ⟨_, Nat.le_add_right _ _, ((Turns.refl .near l s).aside (drawNat_aside s)).set_eq rfl⟩

theorem lanePrbsRead_lands (j : Job) (s : State) (ha : accepted lanePrbsReadDef j s = true) :
    let p := jobParams lanePrbsReadDef j s
    ∃ n, (s.laneOf (p.u 4 1)).prbs.errors ≤ n ∧
      Lands .near (p.u 4 1) (if p.bit 5 0 then prbsCleared s.tcr.cycles (erred n (s.laneOf (p.u 4 1))) else erred n (s.laneOf (p.u 4 1)))
        s (directJob lanePrbsReadDef j s) := by
  intro p
  obtain ⟨x, y, ⟨n, hn, rfl⟩, -, hlands⟩ := directJob_lands .near (p.u 4 1) _ _ s
    (fun y _ => ∃ n, (s.laneOf (p.u 4 1)).prbs.errors ≤ n ∧
      y = if p.bit 5 0 then prbsCleared s.tcr.cycles (erred n (s.laneOf (p.u 4 1))) else erred n (s.laneOf (p.u 4 1))) ha
    fun e he => by
      obtain ⟨n, hn, hsettled⟩ := settleErrors_turns (p.u 4 1) e
      have hnow : _ = s.tcr.cycles := hsettled.now.trans (congrArg Tcr.cycles he.tcr)
      rw [he.laneOf] at hn hsettled
      refine ⟨_, _, _, lanePrbsRead_run e _ _, rfl, ⟨n, hn, rfl⟩, ?_⟩
      rw [hnow]
      split
      · exact hsettled.set (prbsCleared s.tcr.cycles)
      · exact hsettled
  rw [effectState_reads _ (.inr rfl)] at hlands
  exact ⟨n, hn, hlands⟩

/-- What LANE_PRBS_READ with CLEAR leaves of a checker that is not synchronised (R238). -/
def prbsZeroed (x : Lane) : Lane := { x with prbs := { x.prbs with bits := 0, errors := 0, resyncs := 0 } }

theorem prbsCleared_unsynced {now : Nat} {x : Lane} (h : x.prbs.syncAt = none) : prbsCleared now x = prbsZeroed x := by
  simp [prbsCleared, prbsZeroed, h]

theorem quietEffect_prbsZeroed (p : Params) : QuietEffect fun s => if p.bit 5 0 then s.setLane (p.u 4 1) prbsZeroed else s := by
  split
  · exact quietEffect_setLane _ _ fun _ _ _ _ => rfl
  · exact .id

theorem laneReadStatus_stands {e : State} {j : Job} {p : Params} (h : CodeStands (e.laneOf (p.u 4 1))) :
    laneReadStatusDef.run e j p = reply (statusReply e.tcr.cycles (e.laneOf (p.u 4 1)) (Config.freeNat e.fresh)) (drawn e) := by
  rw [laneReadStatus_run, settleCode_stands h]

theorem lanePrbsRead_unsynced {e : State} {j : Job} {p : Params} (h : (e.laneOf (p.u 4 1)).prbs.syncAt = none) :
    lanePrbsReadDef.run e j p = reply (prbsReply (e.laneOf (p.u 4 1)).prbs.bits (e.laneOf (p.u 4 1)).prbs)
      (if p.bit 5 0 then e.setLane (p.u 4 1) prbsZeroed else e) := by
  have hbits : prbsBits e (e.laneOf (p.u 4 1)).prbs = (e.laneOf (p.u 4 1)).prbs.bits := by simp [prbsBits, h]
  rw [lanePrbsRead_run, settleErrors_unsynced h]
  dsimp only
  rw [hbits, setLane_congr e (p.u 4 1) _ _ (prbsCleared_unsynced h)]

theorem recoded_rest (a b c : Nat) (x : Lane) :
    { recoded a b c x with code := x.code, codeAt := x.codeAt, codeSeen := x.codeSeen } = x := by
  cases x
  rfl

/-- Beside its checker, LANE_PRBS_READ leaves a lane (R238). -/
theorem erred_rest (n : Nat) (x : Lane) : { erred n x with prbs := x.prbs } = x := by
  cases x
  rfl

theorem prbsCleared_rest (now n : Nat) (x : Lane) : { prbsCleared now (erred n x) with prbs := x.prbs } = x := by
  cases x
  rfl

/-- What LANE_PRBS_READ makes of a lane whose checker is synchronised (R238). -/
theorem prbsRead_leaves (clear : Bool) (now n : Nat) (x : Lane) (hn : x.prbs.errors ≤ n) (hsync : x.prbs.syncAt ≠ none) :
    let y := if clear then prbsCleared now (erred n x) else erred n x
    { y with prbs := x.prbs } = x ∧
    (clear = true → y.prbs.bits = 0 ∧ y.prbs.errors = 0 ∧ y.prbs.resyncs = 0 ∧ y.prbs.syncAt = some now) ∧
    (clear = false → y.prbs.bits = x.prbs.bits ∧ x.prbs.errors ≤ y.prbs.errors ∧ y.prbs.syncAt = x.prbs.syncAt) := by
  cases clear with
  | true =>
    obtain ⟨c, hc⟩ := Option.ne_none_iff_exists'.mp hsync
    exact ⟨prbsCleared_rest _ _ _, fun _ => ⟨rfl, rfl, rfl, congrArg (Option.map fun _ => now) hc⟩, nofun⟩
  | false => exact ⟨erred_rest _ _, nofun, fun _ => ⟨rfl, hn, rfl⟩⟩

/-- Settles O23: a read settles what it reads, the code or the errors, and draws free values. -/
theorem laneReadsAnswer : Obligations.LaneReadsAnswer := by
  refine ⟨?_, fun j s ha _ => ?_, ?_, fun j s ha hsync => ?_⟩
  · refine answers_of_quiet _ _ _ _ _ _ (fun _ _ => rfl) (fun _ => rfl) (fun _ => quietEffect_drawn) fun j s _ h e he => ?_
    have hstart := startsAs_effect _ _ s e he
    rw [← hstart.laneOf] at h
    refine ⟨_, laneReadStatus_stands h, rfl, ?_, .inl rfl⟩
    dsimp only
    rw [hstart.laneOf, hstart.tcr, hstart.fresh]
    simp only [statusReply, gained]
  · obtain ⟨a, b, c, hlands⟩ := laneReadStatus_lands (same j) s ha
    refine ⟨directJob laneReadStatusDef (same j) s, rfl, fun m => ⟨?_, fun hm => hlands.others m hm⟩, hlands.frame_read⟩
    by_cases hm : m.val = (jobParams laneReadStatusDef (same j) s).u 4 1
    · rw [hlands.lane m hm, ← s.laneOf_fin m, hm]
      exact recoded_rest _ _ _ _
    · rw [hlands.others m hm]
  · refine answers_of_quiet _ _ _ _ _ _ (fun _ _ => rfl) (fun _ => rfl) quietEffect_prbsZeroed fun j s _ h e he => ?_
    have hstart := startsAs_effect _ _ s e he
    have hunsynced := h
    rw [← hstart.laneOf] at h
    refine ⟨_, lanePrbsRead_unsynced h, rfl, ?_, .inl rfl⟩
    rw [hstart.laneOf]
    unfold prbsReply
    rw [hunsynced]
    simp [bit]
  · obtain ⟨n, hn, hlands⟩ := lanePrbsRead_lands (same j) s ha
    refine ⟨directJob lanePrbsReadDef (same j) s, rfl, fun m hm => hlands.others m hm, fun m hm => ?_, hlands.frame_read⟩
    rw [hlands.lane m hm, ← s.laneOf_fin m, hm]
    exact prbsRead_leaves _ _ n _ hn hsync

/-! ### What a fault leaves of a lane (R351, R354, R356) -/

/-- A fault has risen, or none: of the rest, interrupts, counters and classes may have changed. -/
structure Reported (s t : State) : Prop where
  rest : t = { s with intc := t.intc, pcu := t.pcu, fco := t.fco }
  bits : StaysRaised s t

section
variable {s t u : State}

theorem Reported.refl (s : State) : Reported s s := ⟨rfl, .refl s⟩

theorem Reported.trans (h : Reported s t) (g : Reported t u) : Reported s u :=
  ⟨by rw [g.rest, h.rest], h.bits.trans g.bits⟩

theorem Reported.ite {c : Prop} [Decidable c] (h : Reported s t) (g : Reported s u) : Reported s (if c then t else u) := by
  split <;> assumption

theorem Reported.nlu (h : Reported s t) : t.nlu = s.nlu := by rw [h.rest]
theorem Reported.rim (h : Reported s t) : t.rim = s.rim := by rw [h.rest]

end

theorem pcuCount_reported (ev inst n : Nat) (s : State) : Reported s (pcuCount ev inst n s) :=
  ⟨by rw [pcuCount_eq], pcuCount_staysRaised ev inst n s⟩

theorem setClass_reported (c : Nat) (f : FaultClass → FaultClass) (s : State) : Reported s (s.setClass c f) :=
  ⟨rfl, fun _ h => h⟩

/-- A reaction of level 1 at most raises interrupt source 8 (R354). -/
theorem react_reported (src : Nat) (owner : Option Nat) (level : Nat) (s : State) (h : level ≤ 1) :
    Reported s (react src owner level s) := by
  obtain rfl | rfl : level = 0 ∨ level = 1 := by omega
  · exact .refl s
  · exact ⟨by rw [show react src owner 1 s = raiseIrq 8 s from rfl, raiseIrq_eq], fun n => raiseIrq_keepsBit 8 n s⟩

theorem raiseFault_reported (src : Nat) (o : Origin) (s : State) (hcap : (sourceCfg s src).cap ≤ 1) :
    Reported s (raiseFault src o s) := by
  unfold raiseFault
  dsimp only
  refine .ite (.refl s) (.ite ((setClass_reported _ _ s).trans (pcuCount_reported _ _ _ _)) ?_)
  refine .trans (.ite ?_ ?_) (react_reported _ _ _ _ (by split <;> omega))
  · exact ((setClass_reported _ _ s).trans (pcuCount_reported _ _ _ _)).trans (pcuCount_reported _ _ _ _)
  · exact (setClass_reported _ _ s).trans (pcuCount_reported _ _ _ _)

theorem faultEvent_reported (src : Nat) (o : Origin) (s : State) (hcap : (sourceCfg s src).cap ≤ 1) :
    Reported s (faultEvent src o s) := .ite (raiseFault_reported src o s hcap) (.refl s)

/-- Sources 128 to 134 are of level 1 as fault collection starts (R351). -/
theorem laneSource_cap (s : State) (src : Nat) (h : 128 ≤ src ∧ src ≤ 134) (hcfg : s.fco.cfg = []) :
    (sourceCfg s src).cap ≤ 1 := by
  obtain rfl | rfl | rfl | rfl | rfl | rfl | rfl : src = 128 ∨ src = 129 ∨ src = 130 ∨ src = 131 ∨ src = 132 ∨ src = 133 ∨ src = 134 := by
    omega
  all_goals
    unfold sourceCfg
    rw [hcfg]
    decide

/-! ### A lane that an event turns -/

/-- An event has left a lane as `y` and the other lanes and the slots as they were; raised sources stand. -/
structure Turned (l : LaneId) (y : Lane) (s t : State) : Prop where
  nlu  : t.nlu = (s.setLane l.val fun _ => y).nlu
  bits : StaysRaised s t

section
variable {w : Reach} {l : LaneId} {y : Lane} {s t u : State}

theorem Turns.turned (h : Turns w l.val y s t) : Turned l y s t := ⟨h.nlu, h.bits⟩

theorem Turned.reported (h : Turned l y s t) (g : Reported t u) : Turned l y s u :=
  ⟨g.nlu.trans h.nlu, h.bits.trans g.bits⟩

theorem Turned.lane (h : Turned l y s t) : t.nlu.lane[l] = y := by
  have hown := State.laneOf_setLane s l.val (fun _ => y) l.isLt
  rw [h.nlu]
  exact (State.laneOf_fin _ l).symm.trans hown

theorem setLane_slot (s : State) (l : Nat) (f : Lane → Lane) : (s.setLane l f).nlu.slot = s.nlu.slot := rfl

/-- What an event of a lane leaves of the unit. -/
theorem Turned.only (h : Turned l y s t) : (∀ m : Fin 24, m ≠ l → t.nlu.lane[m] = s.nlu.lane[m]) ∧ t.nlu.slot = s.nlu.slot := by
  rw [h.nlu]
  refine ⟨fun m hm => ?_, setLane_slot _ _ _⟩
  rw [← vget_fin _ m {}, ← vget_fin _ m {}]
  exact vget_vmod_ne _ _ _ _ _ fun e => hm (Fin.ext e.symm)

end

/-! ### Slots that a lane squelches (R240) -/

theorem foldl_reaches {α : Type} (P Q : State → Prop) (l : List α) (f : State → α → State) (a : α) (s : State) (ha : a ∈ l)
    (hP : ∀ t x, P t → P (f t x)) (hQ : ∀ t x, Q t → Q (f t x)) (hr : ∀ t, P t → Q (f t a)) (h : P s) : Q (l.foldl f s) := by
  obtain ⟨before, after, rfl⟩ := List.append_of_mem ha
  rw [List.foldl_append, List.foldl_cons]
  exact foldl_keeps Q after f _ hQ (hr _ (foldl_keeps P before f s hP h))

/-- A loss of signal leaves the settings of its entry (R124, R127). -/
theorem loseRef_advances (r : Nat) (s : State) : Advances r (s.setRef r fun e => { e with los := true }) (loseRef r s) :=
  (advances_risen r 0 _ _ _).trans (advances_reviewRef r _)

/-- An entry in use without its signal. -/
def RefSilent (r : Nat) (s : State) : Prop := (s.refEntry r).enable = true ∧ (s.refEntry r).los = true

theorem RefSilent.of_rim {r : Nat} {s t : State} (h : RefSilent r s) (hrim : t.rim = s.rim) : RefSilent r t := by
  unfold RefSilent
  rwa [refEntry_of_rim hrim]

theorem loseRef_silences {r : Nat} {s : State} (hr : r < 32) (h : (s.refEntry r).enable = true) : RefSilent r (loseRef r s) :=
  (loseRef_advances r s).own.holds (fun e => e.enable = true ∧ e.los = true) (fun _ => Iff.rfl) (by
    rw [State.refEntry_setRef _ _ _ hr]
    exact ⟨h, rfl⟩)

theorem loseRef_enable {r q : Nat} {s : State} (hr : r < 32) (h : (s.refEntry r).enable = true) :
    ((loseRef q s).refEntry r).enable = true := by
  by_cases hq : q = r
  · subst hq
    exact (loseRef_silences hr h).1
  · rw [loseRef_others q r s hq]
    exact h

theorem RefSilent.loseRef {r q : Nat} {s : State} (hr : r < 32) (h : RefSilent r s) : RefSilent r (loseRef q s) := by
  by_cases hq : q = r
  · subst hq
    exact loseRef_silences hr h.1
  · unfold RefSilent
    rw [loseRef_others q r s hq]
    exact h

theorem RefSilent.squelch {r : Nat} {s : State} (l : Nat) (hr : r < 32) (h : RefSilent r s) : RefSilent r (squelch l s) :=
  foldl_keeps (RefSilent r) _ _ s (fun _ _ ht => by split; exact ht.loseRef hr; exact ht) h

/-- Every entry in use at a slot of a squelched lane loses its signal (R240). -/
theorem squelch_silences {l : LaneId} {k : Fin 4} {s : State} (hslot : s.nlu.slot[k] = some l)
    (hon : (s.refEntry (12 + k.val)).enable = true) : RefSilent (12 + k.val) (squelch l.val s) := by
  have hk : 12 + k.val < 32 := by omega
  refine foldl_reaches (fun t => (t.refEntry (12 + k.val)).enable = true) (RefSilent (12 + k.val)) _ _ k.val s ?_ ?_ ?_ ?_ hon
  · simp [slotsOf, vget_fin, hslot]
  · intro t x ht
    split
    · exact loseRef_enable hk ht
    · exact ht
  · intro t x ht
    split
    · exact ht.loseRef hk
    · exact ht
  · intro t ht
    rw [if_pos ht]
    exact loseRef_silences hk ht

theorem loseRef_tpe (r : Nat) (s : State) : (loseRef r s).tpe = s.tpe := by
  have hrisen : (risen r 0 (s.refEntry r).los true (s.setRef r fun e => { e with los := true })).tpe = s.tpe := by
    unfold risen
    split
    · rw [(setHistory_serves r 0 _).frame]
      rfl
    · rfl
  unfold loseRef
  dsimp only
  rw [reviewRef_servo]
  exact hrisen

theorem squelch_tpe (l : Nat) (s : State) : (squelch l s).tpe = s.tpe :=
  foldl_keeps (fun t => t.tpe = s.tpe) _ _ s (fun t k ht => by split; exact (loseRef_tpe _ t).trans ht; exact ht) rfl

/-! ### PTP ports on a lane that is down (R276) -/

/-- What no change of the element touches reads the same. -/
theorem vget_vmod_read {α β : Type} {n : Nat} (g : α → β) (v : Vector α n) (i j : Nat) (f : α → α) (d : α)
    (hf : ∀ x, g (f x) = g x) : g (vget (vmod v i f) j d) = g (vget v j d) := by
  by_cases hi : i < n
  · rw [vget_vmod v i j f d hi]
    split
    · exact hf _
    · rfl
  · rw [vmod_of_le v i f (Nat.le_of_not_lt hi)]

theorem piOf_setPi_read {β : Type} (g : PortInst → β) (s : State) (p i q k : Nat) (f : PortInst → PortInst)
    (hf : ∀ x, g (f x) = g x) : g ((s.setPi p i f).piOf q k) = g (s.piOf q k) :=
  vget_vmod_read (fun v => g (vget v k {})) s.tpe.pi p q (fun v => vmod v i f) _ fun v => vget_vmod_read g v i k f _ hf

theorem piOf_setPi_ne (s : State) (p i q k : Nat) (f : PortInst → PortInst) (h : p = q → i ≠ k) :
    (s.setPi p i f).piOf q k = s.piOf q k := by
  unfold State.piOf State.setPi
  by_cases hp : p = q
  · exact vget_vmod_read (fun v => vget v k {}) s.tpe.pi p q (fun v => vmod v i f) _ fun v => vget_vmod_ne v i k f _ (h hp)
  · rw [vget_vmod_ne _ _ _ _ _ hp]

theorem piOf_setPi_same (s : State) (p i : Nat) (f : PortInst → PortInst) (hp : p < 24) (hi : i < 8) :
    (s.setPi p i f).piOf p i = f (s.piOf p i) := by
  unfold State.piOf State.setPi
  rw [vget_vmod_self _ _ _ _ hp, vget_vmod_self _ _ _ _ hi]

/-- A PTP port runs on a lane that is down, and is in a state of `P`. -/
structure PortDark (P : PtpState → Prop) (l i : Nat) (s : State) : Prop where
  lane : laneUp (s.laneOf l) = false
  runs : piEnabled s l i = true
  st   : P (s.piOf l i).st

section
variable {P : PtpState → Prop} {l i : Nat} {s : State}

theorem PortDark.setPi (h : PortDark P l i s) (p k : Nat) (f : PortInst → PortInst) (hf : ∀ x, (f x).enable = x.enable)
    (hst : p = l → k = i → P (f (s.piOf p k)).st) (hl : l < 24) (hi : i < 8) : PortDark P l i (s.setPi p k f) := by
  refine ⟨h.lane, ?_, ?_⟩
  · have hruns := h.runs
    unfold piEnabled at hruns ⊢
    rw [piOf_setPi_read PortInst.enable s p k l i f hf]
    exact hruns
  · by_cases hown : p = l ∧ k = i
    · obtain ⟨rfl, rfl⟩ := hown
      rw [piOf_setPi_same s p k f hl hi]
      exact hst rfl rfl
    · rw [piOf_setPi_ne s p k l i f fun hp hk => hown ⟨hp, hk⟩]
      exact h.st

theorem PortDark.raiseIrq (h : PortDark P l i s) (n : Nat) : PortDark P l i (raiseIrq n s) := by
  rw [raiseIrq_eq]
  exact ⟨h.lane, h.runs, h.st⟩

theorem PortDark.movePi (h : PortDark P l i s) (p k : Nat) (st : PtpState) (hst : p = l → k = i → P st) (hl : l < 24)
    (hi : i < 8) : PortDark P l i (movePi p k st s) := by
  unfold Machine.movePi
  dsimp only
  split
  · exact h
  · refine PortDark.raiseIrq (h.setPi p k _ ?_ ?_ hl hi) 14
    · exact fun _ => rfl
    · exact hst

theorem PortDark.mono {Q : PtpState → Prop} (h : PortDark P l i s) (hst : Q (s.piOf l i).st) : PortDark Q l i s :=
  ⟨h.lane, h.runs, hst⟩

theorem PortDark.any (h : PortDark P l i s) : PortDark (fun _ => True) l i s := h.mono trivial

/-- A PTP port that moves to FAULTY is FAULTY. -/
theorem PortDark.movePi_faulty (h : PortDark P l i s) (hl : l < 24) (hi : i < 8) :
    PortDark (· = .faulty) l i (Machine.movePi l i .faulty s) := by
  refine (h.any.movePi l i .faulty (fun _ _ => trivial) hl hi).mono ?_
  unfold Machine.movePi
  dsimp only
  split
  next hst => exact hst
  next =>
    rw [raiseIrq_eq]
    exact congrArg PortInst.st (piOf_setPi_same s l i _ hl hi)

theorem PortDark.state (h : PortDark P l i s) : laneState s l i = .faulty := by
  simp [laneState, h.runs, h.lane]

theorem PortDark.setInst (h : PortDark P l i s) (k : Nat) (f : PtpInst → PtpInst) (hf : ∀ x, (f x).enable = x.enable) :
    PortDark P l i (s.setInst k f) := by
  refine ⟨h.lane, ?_, h.st⟩
  have hruns := h.runs
  have hinst : ((s.setInst k f).instOf i).enable = (s.instOf i).enable := vget_vmod_read PtpInst.enable _ k i f _ hf
  unfold piEnabled at hruns ⊢
  rw [hinst]
  exact hruns

/-- The BMCA moves a PTP port on a lane that is down to FAULTY alone (R276). -/
theorem PortDark.runBmca (h : PortDark P l i s) (k : Nat) (hP : P .faulty) (hl : l < 24) (hi : i < 8) :
    PortDark P l i (runBmca k s) := by
  unfold Machine.runBmca
  dsimp only
  split
  · exact h.setInst k _ fun _ => rfl
  · refine forAll_keeps (PortDark P l i) 24 _ _ (fun p t ht => ?_) (h.setInst k _ fun _ => rfl)
    refine ht.movePi p k _ (fun hp hk => ?_) hl hi
    rw [hp, hk, ht.state]
    exact hP

/-- A PTP port that forgets what it has heard. -/
def forgetMasters (x : PortInst) : PortInst := { x with foreign := none, timedOut := false, delay := none, pathDelay := none }

/-- How one PTP port on a lane follows the lane (R276). -/
def portStep (l k : Nat) (t : State) : State :=
  if !piEnabled t l k then t else
  let base := laneState t l k
  let t := if base == .faulty then (movePi l k .faulty t).setPi l k forgetMasters
    else if base == .calibrating then movePi l k .calibrating t
    else if (t.piOf l k).st == .faulty || (t.piOf l k).st == .calibrating || (t.piOf l k).st == .initializing then movePi l k .listening t
    else t
  runBmca k t

theorem portChanged_steps (l : Nat) (s : State) : portChanged l s = forAll 8 s (portStep l) := rfl

theorem portStep_dark (h : PortDark P l i s) : portStep l i s = runBmca i ((movePi l i .faulty s).setPi l i forgetMasters) := by
  unfold portStep
  dsimp only
  rw [if_neg (by simp [h.runs]), h.state, if_pos (beq_self_eq_true _)]

theorem PortDark.portStep (h : PortDark P l i s) (k : Nat) (hP : P .faulty) (hl : l < 24) (hi : i < 8) :
    PortDark P l i (portStep l k s) := by
  by_cases hk : piEnabled s l k = true
  · have hmoved : PortDark P l i (Machine.movePi l k .faulty s) := h.movePi l k _ (fun _ _ => hP) hl hi
    rw [portStep_dark (P := fun _ => True) ⟨h.lane, hk, trivial⟩]
    exact (hmoved.setPi l k forgetMasters (fun _ => rfl) (fun _ hki => hki ▸ hmoved.st) hl hi).runBmca k hP hl hi
  · rwa [show Machine.portStep l k s = s from if_pos (by simpa using hk)]

theorem PortDark.portStep_self (h : PortDark P l i s) (hl : l < 24) (hi : i < 8) :
    PortDark (· = .faulty) l i (Machine.portStep l i s) := by
  have hmoved := h.movePi_faulty hl hi
  rw [portStep_dark h]
  exact (hmoved.setPi l i forgetMasters (fun _ => rfl) (fun _ _ => hmoved.st) hl hi).runBmca i rfl hl hi

/-- Every PTP port on a lane that is down becomes FAULTY (R276). -/
theorem PortDark.portChanged (h : PortDark P l i s) (hl : l < 24) (hi : i < 8) :
    PortDark (· = .faulty) l i (portChanged l s) := by
  rw [portChanged_steps]
  exact forAll_reaches (PortDark (fun _ => True) l i) (PortDark (· = .faulty) l i) _ 8 i s hi
    (fun k _ ht => ht.portStep k trivial hl hi) (fun k _ ht => ht.portStep k rfl hl hi) (fun _ ht => ht.portStep_self hl hi) h.any

theorem PortDark.squelch (h : PortDark P l i s) (m : Nat) : PortDark P l i (squelch m s) := by
  have htpe := squelch_tpe m s
  have haside := squelch_aside m s
  refine ⟨?_, ?_, ?_⟩
  · rw [State.laneOf, haside.nlu]
    exact h.lane
  · have hruns := h.runs
    unfold piEnabled State.lanePresent State.instOf State.piOf at hruns ⊢
    rwa [htpe, haside.col]
  · rw [State.piOf, htpe]
    exact h.st

end

/-! ### Ports leave the pool (R276) -/

theorem movePi_rim (p i : Nat) (st : PtpState) (s : State) : (movePi p i st s).rim = s.rim := by
  unfold movePi
  dsimp only
  split
  · rfl
  · rw [raiseIrq_eq]
    rfl

theorem runBmca_rim (i : Nat) (s : State) : (runBmca i s).rim = s.rim := by
  unfold runBmca
  dsimp only
  split
  · rfl
  · exact forAll_keeps (fun t => t.rim = s.rim) 24 _ _ (fun p t ht => (movePi_rim p i _ t).trans ht) rfl

theorem portStep_rim (l i : Nat) (s : State) : (portStep l i s).rim = s.rim := by
  unfold portStep
  dsimp only
  split
  · rfl
  · rw [runBmca_rim]
    split
    · exact movePi_rim l i _ s
    · split
      · exact movePi_rim l i _ s
      · split
        · exact movePi_rim l i _ s
        · rfl

theorem portChanged_rim (l : Nat) (s : State) : (portChanged l s).rim = s.rim :=
  forAll_keeps (fun t => t.rim = s.rim) 8 _ s (fun i t ht => (portStep_rim l i t).trans ht) rfl

/-! ### A lane that leaves UP for RECOVER (R231, R242) -/

/-- A lane with the reason of its loss. -/
def reasoned (reason : Fin 8) (x : Lane) : Lane := { x with reason := reason }

/-- A lane after an event that takes it out of UP. -/
def lostLane (runs : Bool) (src : Fin 256) (reason : Fin 8) (now : Nat) (y : Lane) : Lane :=
  if y.st ≠ .up ∨ y.recoverDue.isSome = true then y
  else if runs then
    { reasoned reason y with recovers := min 65535 (y.recovers + 1), st := .recover, stageAt := now, winAt := now }
  else { reasoned reason y with recoverDue := some src }

section
variable {l : LaneId} {src : Fin 256} {reason : Fin 8} {y : Lane} {s t u : State}

theorem Turns.fco {w : Reach} (h : Turns w l.val y s t) : t.fco = s.fco := (Aside.fco h).trans (State.setLane_fco _ _ _)

/-- A loss that waits for the end of a WARM restart (R242). -/
def lossWaits (l : LaneId) (src : Fin 256) (s : State) : State := s.setLane l.val fun x => { x with recoverDue := some src }

/-- A loss that takes the lane to RECOVER (R231). -/
def lossRecovers (l : LaneId) (src : Fin 256) (s : State) : State :=
  faultEvent src.val { addr := l.val } (pcuCount 0x2007 l.val 1 (enterLane l.val .recover
    (s.setLane l.val fun x => { x with recovers := min 65535 (x.recovers + 1) })))

theorem loseUp_run (l : LaneId) (src : Fin 256) (reason : Fin 8) (s : State) : loseUp l src reason s =
    if ((s.nlu.lane[l]).st != .up || (s.nlu.lane[l]).recoverDue.isSome) = true then s
    else if (!s.fwRuns) = true then lossWaits l src (s.setLane l.val (reasoned reason))
    else lossRecovers l src (s.setLane l.val (reasoned reason)) := rfl

/-- A lane does not leave UP by an event where it was not in UP, or has a loss that waits. -/
theorem loss_stays {x : Lane} : (x.st != .up || x.recoverDue.isSome) = true ↔ x.st ≠ .up ∨ x.recoverDue.isSome = true := by
  simp

/-- What an event that takes a lane out of UP makes of it. -/
theorem loseUp_turned (h : Turns .wide l.val y s t) (hcap : ∀ u, u.fco.cfg = [] → (sourceCfg u src.val).cap ≤ 1)
    (hcfg : s.fco.cfg = []) : Turned l (lostLane s.fwRuns src reason s.tcr.cycles y) s (loseUp l src reason t) ∧
      (y.st = .up → y.recoverDue = none → s.fwRuns = true → (loseUp l src reason t).intc.status.getLsbD 13 = true) := by
  rw [loseUp_run, h.turned.lane, h.fwRuns]
  unfold lostLane
  simp only [loss_stays]
  split
  next hstays => exact ⟨h.turned, fun hst hdue => absurd hstays (by simp [hst, hdue])⟩
  next hstays =>
    obtain ⟨hst, -⟩ : y.st = .up ∧ y.recoverDue = none := by simpa using hstays
    have hreason := h.set (reasoned reason)
    cases s.fwRuns with
    | false => exact ⟨(hreason.set fun x => { x with recoverDue := some src }).turned, nofun⟩
    | true =>
      have hset := hreason.set fun x => { x with recovers := min 65535 (x.recovers + 1) }
      have hleft : (reasoned reason y).st ≠ .recover := ne_of_eq_of_ne hst (by decide)
      have hcount := (hset.enter l.isLt .recover (by decide) (absurd rfl)).aside (pcuCount_aside .wide 0x2007 l.val 1 _)
      rw [entered_of_ne (x := { reasoned reason y with recovers := min 65535 ((reasoned reason y).recovers + 1) }) hleft] at hcount
      have hfault := faultEvent_reported src.val { addr := l.val } _ (hcap _ (by rw [hcount.fco, hcfg]))
      rw [if_pos rfl, if_neg (by decide)]
      refine ⟨hcount.turned.reported hfault, fun _ _ _ => hfault.bits 13 ((pcuCount_aside .wide 0x2007 l.val 1 _).bits 13 ?_)⟩
      exact enterLane_raises .recover (by rw [hset.lane l.isLt]; exact hleft)

/-- A loss, as it acts on a lane that was `x` and is `y` (R231, R242). -/
def Lost (l : LaneId) (src : Fin 256) (reason : Fin 8) (x y : Lane) (s t : State) : Prop :=
  ((∀ m : Fin 24, m ≠ l → t.nlu.lane[m] = s.nlu.lane[m]) ∧ t.nlu.slot = s.nlu.slot) ∧
  (x.st ≠ .up ∨ x.recoverDue.isSome = true → y.st = x.st ∧ y.reason = x.reason ∧ y.recoverDue = x.recoverDue) ∧
  (x.st = .up → x.recoverDue = none → y.reason = reason) ∧
  (x.st = .up → x.recoverDue = none → s.fwRuns = true →
    y.st = .recover ∧ y.recovers = min 65535 (x.recovers + 1) ∧ t.intc.status.getLsbD 13 = true) ∧
  (x.st = .up → x.recoverDue = none → s.fwRuns = false → y.st = .up ∧ y.recoverDue = some src)

theorem lostLane_stays {runs : Bool} {now : Nat} (h : y.st ≠ .up ∨ y.recoverDue.isSome = true) :
    lostLane runs src reason now y = y := if_pos h

theorem lostLane_up {runs : Bool} {now : Nat} (hst : y.st = .up) (hdue : y.recoverDue = none) :
    lostLane runs src reason now y =
      if runs then { reasoned reason y with recovers := min 65535 (y.recovers + 1), st := .recover, stageAt := now, winAt := now }
      else { reasoned reason y with recoverDue := some src } := if_neg (by simp [hst, hdue])

/-- What a loss leaves of a lane (R231). -/
theorem lostLane_keeps (runs : Bool) (src : Fin 256) (reason : Fin 8) (now : Nat) (y : Lane) :
    let z := lostLane runs src reason now y
    z.los = y.los ∧ z.lol = y.lol ∧ z.aligned = y.aligned ∧ z.fecLock = y.fecLock ∧ z.frozen = y.frozen ∧ z.mode = y.mode := by
  unfold lostLane
  dsimp only
  split
  · exact ⟨rfl, rfl, rfl, rfl, rfl, rfl⟩
  · split <;> exact ⟨rfl, rfl, rfl, rfl, rfl, rfl⟩

/-- The lane that the loss finds differs from the lane before the event in no part that the loss goes by. -/
theorem Turned.lost {x : Lane} (h : Turned l (lostLane s.fwRuns src reason s.tcr.cycles y) s t)
    (hirq : y.st = .up → y.recoverDue = none → s.fwRuns = true → t.intc.status.getLsbD 13 = true)
    (hst : y.st = x.st) (hreason : y.reason = x.reason) (hdue : y.recoverDue = x.recoverDue) (hrec : y.recovers = x.recovers) :
    Lost l src reason x t.nlu.lane[l] s t := by
  unfold Lost
  rw [h.lane, ← hst, ← hreason, ← hdue, ← hrec]
  refine ⟨h.only, fun hstays => ?_, fun hup hnone => ?_, fun hup hnone hruns => ?_, fun hup hnone hruns => ?_⟩
  · rw [lostLane_stays hstays]
    exact ⟨rfl, rfl, rfl⟩
  · rw [lostLane_up hup hnone]
    split <;> rfl
  · rw [lostLane_up hup hnone, hruns]
    exact ⟨rfl, rfl, hirq hup hnone hruns⟩
  · rw [lostLane_up hup hnone, hruns]
    exact ⟨hup, rfl⟩

/-! What a loss keeps beside the lane -/

/-- A lane that leaves UP is squelched, and its port follows (R240, R276). -/
theorem enterLane_recover (hst : (s.laneOf l.val).st = .up) : enterLane l.val .recover s =
    portChanged l.val (squelch l.val (raiseIrq 13 (s.setLane l.val fun x =>
      { x with st := .recover, stageAt := s.tcr.cycles, winAt := s.tcr.cycles }))) := by
  unfold enterLane
  dsimp only
  rw [hst]
  rfl

/-- What holds beside a lane that is down holds after the loss, where squelch, ports and reports keep it. -/
theorem loseUp_keeps (P : State → Prop) (hset : ∀ t f, (∀ x, laneUp x = false → laneUp (f x) = false) → P t → P (t.setLane l.val f))
    (hside : ∀ t u, Reported t u → P t → P u) (hsquelch : ∀ t, P t → P (squelch l.val t))
    (hport : ∀ t, P t → P (portChanged l.val t)) (hcap : ∀ u, u.fco.cfg = [] → (sourceCfg u src.val).cap ≤ 1)
    (hcfg : s.fco.cfg = []) (h : P s) : P (loseUp l src reason s) := by
  have hreason : P (s.setLane l.val (reasoned reason)) := hset s _ (fun _ hx => hx) h
  rw [loseUp_run]
  split
  · exact h
  next hleaves =>
    obtain ⟨hst, -⟩ : (s.nlu.lane[l]).st = .up ∧ _ := by simpa [loss_stays] using hleaves
    split
    · exact hset _ _ (fun _ hx => hx) hreason
    · unfold lossRecovers
      have hturns := ((turns_setLane .wide l.val (reasoned reason) s).set fun x => { x with recovers := min 65535 (x.recovers + 1) })
      have hup : ((((s.setLane l.val (reasoned reason)).setLane l.val fun x => { x with recovers := min 65535 (x.recovers + 1) })).laneOf
          l.val).st = .up := by
        rw [hturns.lane l.isLt, s.laneOf_fin]
        exact hst
      have hcount := (hturns.enter l.isLt .recover (by decide) (absurd rfl)).aside (pcuCount_aside .wide 0x2007 l.val 1 _)
      refine hside _ _ (faultEvent_reported _ _ _ (hcap _ (by rw [hcount.fco, hcfg]))) (hside _ _ (pcuCount_reported _ _ _ _) ?_)
      rw [enterLane_recover hup]
      refine hport _ (hsquelch _ (hside _ _ ⟨by rw [raiseIrq_eq], fun n => raiseIrq_keepsBit 13 n _⟩ (hset _ _ ?_ (hset _ _ ?_ hreason))))
      · exact fun _ _ => laneUp_false _ (by nofun)
      · exact fun _ hx => hx

end

/-! ### Losses of signal and of lock (R231, R233, R235, R240) -/

/-- A lane that NLU acts on, with the sources as fault collection starts. -/
def Acting (l : LaneId) (s : State) : Prop := s.blockRuns 11 = true ∧ s.lanePresent l.val = true ∧ defaultSources s

section
variable {l : LaneId} {src : Fin 256} {reason : Fin 8} {y : Lane} {s t u : State}

theorem Acting.acts (h : Acting l s) : laneActs s l = true := Bool.and_eq_true_iff.mpr ⟨h.1, h.2.1⟩

theorem Turns.wide {w : Reach} (h : Turns w l.val y s u) : Turns .wide l.val y s u :=
  ⟨h.same, h.bits, h.cycles, h.rest, absurd rfl, nofun⟩

theorem Turns.rim_near (h : Turns .near l.val y s u) : u.rim = s.rim := by
  rw [Aside.near h nofun]
  rfl

/-- A step beside the ports leaves a PTP port as it was, and its lane is what the step made of it. -/
theorem Turns.dark (h : Turns .near l.val y s u) (hy : laneUp y = false) (i : Nat) (hruns : piEnabled s l.val i = true) :
    PortDark (fun _ => True) l.val i u := by
  refine ⟨by rwa [h.lane l.isLt], ?_, trivial⟩
  rw [Aside.near h nofun]
  exact hruns

theorem Reported.dark {P : PtpState → Prop} {i : Nat} (h : Reported s t) (hs : PortDark P l.val i s) : PortDark P l.val i t := by
  rw [h.rest]
  exact ⟨hs.lane, hs.runs, hs.st⟩

theorem PortDark.setLane {P : PtpState → Prop} {i : Nat} (h : PortDark P l.val i s) (f : Lane → Lane)
    (hf : ∀ x, laneUp x = false → laneUp (f x) = false) : PortDark P l.val i (s.setLane l.val f) :=
  ⟨by rw [State.laneOf_setLane s l.val f l.isLt]; exact hf _ h.lane, h.runs, h.st⟩

theorem piOf_fin (s : State) (l : LaneId) (i : Fin 8) : s.piOf l.val i.val = s.tpe.pi[l][i] := by
  unfold State.piOf
  rw [vget_fin, vget_fin]

/-- The lane's signal is gone: its slots are squelched, its port is down, and it leaves UP. -/
def signalLost (l : LaneId) (src : Fin 256) (reason : Fin 8) (u : State) : State :=
  loseUp l src reason (portChanged l.val (squelch l.val u))

/-- Interrupt source 13 stands: a lane has moved or its signal has changed (R74). -/
def LaneIrq (s : State) : Prop := s.intc.status.getLsbD 13 = true

/-- What a loss of signal leaves of the slots and the ports of its lane (R240, R276). -/
structure Darkened (l : LaneId) (s t : State) : Prop where
  irq    : t.intc.status.getLsbD 13 = true
  slots  : ∀ k : Fin 4, s.nlu.slot[k] = some l → (s.refEntry (12 + k.val)).enable = true → (t.refEntry (12 + k.val)).los = true
  faulty : ∀ i : Fin 8, piEnabled s l.val i.val = true → t.tpe.pi[l][i].st = .faulty

theorem signalLost_darkens (h : Turns .near l.val y s u) (hy : laneUp y = false) (hirq : u.intc.status.getLsbD 13 = true)
    (hcap : ∀ u, u.fco.cfg = [] → (sourceCfg u src.val).cap ≤ 1) (hcfg : s.fco.cfg = []) :
    Darkened l s (signalLost l src reason u) := by
  have hcfg' : (portChanged l.val (squelch l.val u)).fco.cfg = [] := by
    rw [(portChanged_aside _ _).fco, (squelch_aside _ _).fco, h.fco, hcfg]
  have hirq13 : LaneIrq (signalLost l src reason u) :=
    loseUp_keeps LaneIrq (fun _ _ _ => id) (fun _ _ hr => hr.bits 13)
      (fun t => (squelch_aside _ t).bits 13) (fun t => (portChanged_aside _ t).bits 13) hcap hcfg'
      ((portChanged_aside _ _).bits 13 ((squelch_aside _ _).bits 13 hirq))
  have hsilent : ∀ k : Fin 4, RefSilent (12 + k.val) (squelch l.val u) → RefSilent (12 + k.val) (signalLost l src reason u) :=
    fun k hk => loseUp_keeps (RefSilent (12 + k.val)) (fun _ _ _ hs => hs.of_rim rfl) (fun _ _ hr hs => hs.of_rim hr.rim)
      (fun _ hs => hs.squelch _ (by omega)) (fun t hs => hs.of_rim (portChanged_rim _ t)) hcap hcfg'
      (hk.of_rim (portChanged_rim _ _))
  have hdark : ∀ i : Fin 8, piEnabled s l.val i.val = true → PortDark (· = .faulty) l.val i.val (signalLost l src reason u) :=
    fun i hruns => loseUp_keeps (PortDark (· = .faulty) l.val i.val) (fun _ f hf hs => hs.setLane f hf)
      (fun _ _ hr hs => hr.dark hs) (fun _ hs => hs.squelch _) (fun _ hs => hs.portChanged l.isLt i.isLt) hcap hcfg'
      (((h.dark hy i.val hruns).squelch l.val).portChanged l.isLt i.isLt)
  refine ⟨hirq13, fun k hslot hon => (hsilent k (squelch_silences ?_ ?_)).2, fun i hruns => ?_⟩
  · rw [h.turned.only.2]
    exact hslot
  · rwa [refEntry_of_rim h.rim_near]
  · rw [← piOf_fin]
    exact (hdark i hruns).st

theorem signalLost_turned (h : Turns .near l.val y s u) (hcap : ∀ u, u.fco.cfg = [] → (sourceCfg u src.val).cap ≤ 1)
    (hcfg : s.fco.cfg = []) : Turned l (lostLane s.fwRuns src reason s.tcr.cycles y) s (signalLost l src reason u) := by
  exact (loseUp_turned ((h.wide.aside (squelch_aside _ _)).aside (portChanged_aside _ _)) hcap hcfg).1

end

/-! ### Loss and alignment events of a lane (O45) -/

section
variable {l : LaneId} {y : Lane} {s t : State}

theorem Turns.raised {w : Reach} (h : Turns w l.val y s t) : StaysRaised s t := fun n hn =>
  Aside.bits h n (by rwa [State.setLane_intc])

theorem loss_cap (src : Fin 256) (h : 128 ≤ src.val ∧ src.val ≤ 134) (u : State) (hcfg : u.fco.cfg = []) :
    (sourceCfg u src.val).cap ≤ 1 := laneSource_cap u src.val h hcfg

/-- Adaptation freezes, on the code that it had come to (R233). -/
theorem freezeCode_turns (l : LaneId) (s : State) : ∃ a b c,
    Turns .near l.val { recoded a b c s.nlu.lane[l] with frozen := true } s (freezeCode l.val s) := by
  obtain ⟨a, b, c, hsettled⟩ := settleCode_turns (w := .near) (l := l.val) (s := s) nofun
  rw [s.laneOf_fin] at hsettled
  have hset := hsettled.set fun x => { x with frozen := true }
  refine ⟨a, b, c, ?_⟩
  unfold freezeCode
  dsimp only
  split
  · exact hset
  · exact hset.aside (pcuCount_aside _ _ _ _ _)

/-- A lane that has lost its signal or its lock, before it leaves UP (R235). -/
def unaligned (x : Lane) : Lane := { x with aligned := false, fecLock := false }

/-- A lane that has lost its signal. -/
def darkened (x : Lane) : Lane := { unaligned x with los := true }

/-- And its code is frozen (R233). -/
def silenced (a b c : Nat) (x : Lane) : Lane := { recoded a b c (darkened x) with frozen := true }

/-- A lane that has lost its lock. -/
def unlocked (x : Lane) : Lane := { unaligned x with lol := true }

theorem silenced_keeps (a b c : Nat) (x : Lane) : let y := silenced a b c x
    y.mode = x.mode ∧ y.st = x.st ∧ y.reason = x.reason ∧ y.recoverDue = x.recoverDue ∧ y.recovers = x.recovers := by
  simp only [silenced, recoded, darkened, unaligned, and_self]

theorem unlocked_keeps (x : Lane) : let y := unlocked x
    y.mode = x.mode ∧ y.los = x.los ∧ y.st = x.st ∧ y.reason = x.reason ∧ y.recoverDue = x.recoverDue ∧ y.recovers = x.recovers := by
  simp only [unlocked, unaligned, and_self]

theorem misaligned_keeps (x : Lane) : let y := { x with aligned := false }
    y.st = x.st ∧ y.reason = x.reason ∧ y.recoverDue = x.recoverDue ∧ y.recovers = x.recovers := by
  simp only [and_self]

theorem losAssert_turned (h : Acting l s) (hlos : s.nlu.lane[l].los = false) : ∃ t a b c, exec (.losAssert l) s = .next t ∧
    Turned l (lostLane s.fwRuns 128 3 s.tcr.cycles
      (silenced a b c s.nlu.lane[l])) s t ∧ Darkened l s t := by
  have hlost := (turns_setLane .near l.val darkened s).aside (raiseIrq_aside .near 13 _)
  obtain ⟨a, b, c, hfrozen⟩ := freezeCode_turns l (raiseIrq 13 (s.setLane l.val darkened))
  have hirq := hfrozen.raised 13 (raiseIrq_setsBit 13 _ (by decide) fun h => absurd h (by decide))
  rw [s.laneOf_fin] at hlost
  rw [hlost.turned.lane] at hfrozen
  have hall := hlost.trans hfrozen
  refine ⟨_, a, b, c, congrArg Host.Outcome.next (if_neg ?_), signalLost_turned hall (loss_cap 128 (by decide)) h.2.2,
    signalLost_darkens hall ?_ hirq (loss_cap 128 (by decide)) h.2.2⟩
  · rw [h.acts, s.laneOf_fin, hlos]
    decide
  · simp [laneUp, recoded, darkened]

theorem lolAssert_turned (h : Acting l s) (hlol : s.nlu.lane[l].lol = false) : ∃ t, exec (.lolAssert l) s = .next t ∧
    Turned l (lostLane s.fwRuns 129 4 s.tcr.cycles (unlocked s.nlu.lane[l])) s t ∧ Darkened l s t := by
  have hlost := (turns_setLane .near l.val unlocked s).aside (raiseIrq_aside .near 13 _)
  have hirq := raiseIrq_setsBit 13 (s.setLane l.val unlocked) (by decide) fun h => absurd h (by decide)
  rw [s.laneOf_fin] at hlost
  refine ⟨_, congrArg Host.Outcome.next (if_neg ?_), signalLost_turned hlost (loss_cap 129 (by decide)) h.2.2,
    signalLost_darkens hlost ?_ hirq (loss_cap 129 (by decide)) h.2.2⟩
  · rw [h.acts, s.laneOf_fin, hlol]
    decide
  · simp [laneUp, unlocked]

theorem losDeassert_turned (h : Acting l s) (hlos : s.nlu.lane[l].los = true) : ∃ t, exec (.losDeassert l) s = .next t ∧
    Turned l { s.nlu.lane[l] with los := false } s t ∧ LaneIrq t := by
  have hraised := (turns_setLane .wide l.val (fun x => { x with los := false }) s).aside (raiseIrq_aside .wide 13 _)
  have hirq := raiseIrq_setsBit 13 (s.setLane l.val fun x => { x with los := false }) (by decide) fun h => absurd h (by decide)
  have hport := portChanged_aside l.val (raiseIrq 13 (s.setLane l.val fun x => { x with los := false }))
  have hturns := hraised.aside hport
  rw [s.laneOf_fin] at hturns
  have hacts : ¬(!laneActs s l || !(s.laneOf l.val).los) = true := by
    rw [h.acts, s.laneOf_fin, hlos]
    decide
  exact ⟨_, congrArg Host.Outcome.next (if_neg hacts), hturns.turned, hport.bits 13 hirq⟩

theorem lolDeassert_turned (h : Acting l s) (hlol : s.nlu.lane[l].lol = true) : ∃ t, exec (.lolDeassert l) s = .next t ∧
    Turned l (latencyLost s.tcr.cycles { s.nlu.lane[l] with lol := false }) s t ∧ LaneIrq t := by
  have hraised := (turns_setLane .wide l.val (fun x => { x with lol := false }) s).aside (raiseIrq_aside .wide 13 _)
  have hirq := raiseIrq_setsBit 13 (s.setLane l.val fun x => { x with lol := false }) (by decide) fun h => absurd h (by decide)
  have hevent := latencyEvent_turns (w := .wide) (s := raiseIrq 13 (s.setLane l.val fun x => { x with lol := false })) l.isLt (absurd rfl)
  have hport := portChanged_aside l.val (latencyEvent l.val (raiseIrq 13 (s.setLane l.val fun x => { x with lol := false })))
  have hturns := (hraised.event l.isLt (absurd rfl)).aside hport
  rw [s.laneOf_fin] at hturns
  refine ⟨portChanged l.val (latencyEvent l.val (raiseIrq 13 (s.setLane l.val fun x => { x with lol := false }))),
    congrArg Host.Outcome.next (if_neg ?_), hturns.turned, hport.bits 13 (hevent.raised 13 hirq)⟩
  rw [h.acts, s.laneOf_fin, hlol]
  decide

theorem alignmentGained_turned (h : Acting l s) (slip : Nat) : ∃ t, exec (.alignmentGained l slip) s = .next t ∧
    Turned l (latencyLost s.tcr.cycles { s.nlu.lane[l] with
      aligned := true, slip := min (slipTop s.nlu.lane[l]) slip, winAt := s.tcr.cycles }) s t := by
  have hset := (turns_setLane .wide l.val (fun x => { x with aligned := true, slip := min (slipTop x) slip }) s).set
    fun x => { x with winAt := s.tcr.cycles }
  have hturns := hset.event l.isLt (absurd rfl)
  rw [s.laneOf_fin] at hturns
  refine ⟨_, congrArg Host.Outcome.next (if_neg ?_), hturns.turned⟩
  rw [h.acts]
  decide

theorem fecLockChange_turned (h : Acting l s) (gained : Bool) (hfec : s.nlu.lane[l].fec ≠ 0) :
    ∃ t, exec (.fecLockChange l gained) s = .next t ∧
      Turned l (latencyLost s.tcr.cycles { s.nlu.lane[l] with fecLock := gained, winAt := s.tcr.cycles }) s t := by
  have hset := (turns_setLane .wide l.val (fun x => { x with fecLock := gained }) s).set fun x => { x with winAt := s.tcr.cycles }
  have hturns := hset.event l.isLt (absurd rfl)
  rw [s.laneOf_fin] at hturns
  refine ⟨_, congrArg Host.Outcome.next (if_neg ?_), hturns.turned⟩
  rw [h.acts, s.laneOf_fin, beq_false_of_ne hfec]
  decide

theorem alignmentLost_turned (h : Acting l s) : ∃ t, exec (.alignmentLost l) s = .next t ∧
    Turned l (lostLane s.fwRuns 130 6 s.tcr.cycles { s.nlu.lane[l] with aligned := false }) s t ∧
    (s.nlu.lane[l].st = .up → s.nlu.lane[l].recoverDue = none → s.fwRuns = true → LaneIrq t) := by
  have hset := turns_setLane .wide l.val (fun x => { x with aligned := false }) s
  rw [s.laneOf_fin] at hset
  refine ⟨_, congrArg Host.Outcome.next (if_neg ?_), loseUp_turned hset (loss_cap 130 (by decide)) h.2.2⟩
  rw [h.acts]
  decide

theorem hiBer_turned (h : Acting l s) (hmode : 2 ≤ s.nlu.lane[l].mode.val) : ∃ t, exec (.hiBer l) s = .next t ∧
    Turned l (lostLane s.fwRuns 131 5 s.tcr.cycles s.nlu.lane[l]) s t ∧
    (s.nlu.lane[l].st = .up → s.nlu.lane[l].recoverDue = none → s.fwRuns = true → LaneIrq t) := by
  have hset := Turns.refl .wide l.val s
  rw [s.laneOf_fin] at hset
  refine ⟨_, congrArg Host.Outcome.next (if_neg ?_), loseUp_turned hset (loss_cap 131 (by decide)) h.2.2⟩
  rw [h.acts, s.laneOf_fin, decide_eq_false (Nat.not_lt.mpr hmode)]
  decide

theorem laneTxpllUnlock_turned (h : Acting l s) (hlocked : s.nlu.lane[l].txLocked = true) :
    ∃ t, exec (.laneTxpllUnlock l) s = .next t ∧ Turned l { s.nlu.lane[l] with txLocked := false } s t := by
  have hturns := (turns_setLane .wide l.val (fun x => { x with txLocked := false }) s).aside (portChanged_aside l.val _)
  have hfault := faultEvent_reported 134 { addr := l.val } _ (laneSource_cap _ 134 (by decide) (by rw [hturns.fco]; exact h.2.2))
  rw [s.laneOf_fin] at hturns
  refine ⟨_, congrArg Host.Outcome.next (if_neg ?_), hturns.turned.reported hfault⟩
  rw [h.acts, s.laneOf_fin, hlocked]
  decide

/-- What a relock of the transmit PLL makes of a lane (R225): bring-up again, at once or after the WARM restart. -/
theorem txpllRelock_run (h : Acting l s) (hlocked : s.nlu.lane[l].txLocked = false) :
    exec (.txpllRelock l) s = .next
      (if s.nlu.lane[l].st = .down ∨ s.nlu.lane[l].st = .prbs then s.setLane l.val fun x => { x with txLocked := true }
       else if s.fwRuns then enterLow l.val (s.setLane l.val fun x => { x with txLocked := true })
       else (s.setLane l.val fun x => { x with txLocked := true }).setLane l.val fun x => { x with lowDue := true }) := by
  have hlane := (turns_setLane .wide l.val (fun x => { x with txLocked := true }) s).lane l.isLt
  rw [s.laneOf_fin] at hlane
  have hacts : ¬(!laneActs s l || (s.laneOf l.val).txLocked) = true := by
    rw [h.acts, s.laneOf_fin, hlocked]
    decide
  refine (congrArg Host.Outcome.next (if_neg hacts)).trans ?_
  dsimp only
  rw [hlane]
  generalize s.nlu.lane[l] = x
  cases hst : x.st <;> simp
  all_goals rfl

theorem adaptationFreeze_turned (h : Acting l s) {density : Nat} (hdensity : density < s.nlu.lane[l].densityMin) :
    ∃ t a b c, exec (.adaptationFreeze l density) s = .next t ∧
      Turned l { recoded a b c s.nlu.lane[l] with frozen := true } s t := by
  obtain ⟨a, b, c, hfrozen⟩ := freezeCode_turns l s
  refine ⟨_, a, b, c, congrArg Host.Outcome.next (if_neg ?_), hfrozen.turned⟩
  rw [h.acts, s.laneOf_fin, decide_eq_false (Nat.not_le.mpr hdensity)]
  decide

/-- An entry on a port whose latency has been measured: its FALLBACK charge ends (R251). -/
def fallbackEnded (l : LaneId) (e : RefEntry) : RefEntry := if e.port = some l then { e with fallbackPs := 0 } else e

/-- The FALLBACK charges of the references on a port end (R251). -/
def fallbackEnds (l : LaneId) (s : State) : State :=
  forAll 32 s fun r t => if (t.refEntry r).port = some l then t.setRef r fun e => { e with fallbackPs := 0 } else t

theorem setRef_same (s : State) (r : Nat) (f : RefEntry → RefEntry) (h : f (s.refEntry r) = s.refEntry r) : s.setRef r f = s := by
  unfold State.setRef
  rw [vmod_same s.rim.ref r f {} h]

theorem fallbackEnds_eq (l : LaneId) (s : State) :
    fallbackEnds l s = { s with rim := { s.rim with ref := mapFirst 32 (fun _ => fallbackEnded l) s.rim.ref } } := by
  rw [← forAll_setRef]
  refine forAll_congr (fun _ => True) 32 _ _ s (fun _ _ _ => trivial) (fun r t _ => ?_) trivial
  split
  next h => exact setRef_congr t r _ _ (if_pos h).symm
  next h => exact (setRef_same t r (fallbackEnded l) (if_neg h)).symm

theorem fallbackEnds_aside (l : LaneId) (s : State) : Aside .wide s (fallbackEnds l s) := by
  rw [fallbackEnds_eq]
  exact .of_wide ⟨rfl, rfl, ⟨rfl, rfl, rfl⟩, rfl, fun _ => ⟨rfl, rfl, rfl⟩⟩ rfl rfl rfl

/-- A lane whose latencies have been measured (R236, R250). -/
def latMeasured (now : Nat) (rxPs txPs : Int) (x : Lane) : Lane :=
  { x with latValid := true, latAt := now, rxPs := rxPs, txPs := txPs, measures := min 65535 (x.measures + 1) }

theorem latencyMeasurementEnd_turned (h : Acting l s) (rxPs txPs : Int) (hlat : s.nlu.lane[l].latValid = false) :
    ∃ t, exec (.latencyMeasurementEnd l rxPs txPs) s = .next t ∧ Turned l (latMeasured s.tcr.cycles rxPs txPs s.nlu.lane[l]) s t ∧
      LaneIrq t ∧ ∀ r : Fin 32, t.rim.ref[r] = fallbackEnded l s.rim.ref[r] := by
  have hset := (turns_setLane .wide l.val (latMeasured s.tcr.cycles rxPs txPs) s).aside (fallbackEnds_aside l _)
  have hirq := raiseIrq_setsBit 13 (fallbackEnds l (s.setLane l.val (latMeasured s.tcr.cycles rxPs txPs))) (by decide) fun h =>
    absurd h (by decide)
  have hport := portChanged_aside l.val (raiseIrq 13 (fallbackEnds l (s.setLane l.val (latMeasured s.tcr.cycles rxPs txPs))))
  have hturns := (hset.aside (raiseIrq_aside .wide 13 _)).aside hport
  rw [s.laneOf_fin] at hturns
  refine ⟨portChanged l.val (raiseIrq 13 (fallbackEnds l (s.setLane l.val (latMeasured s.tcr.cycles rxPs txPs)))),
    congrArg Host.Outcome.next (if_neg ?_), hturns.turned, hport.bits 13 hirq, fun r => ?_⟩
  · rw [h.acts, s.laneOf_fin, hlat]
    decide
  · rw [portChanged_rim, raiseIrq_eq, fallbackEnds_eq]
    exact mapFirst_all (fun _ => fallbackEnded l) s.rim.ref r

/-! The statement -/

theorem latencyLost_eq (now : Nat) (x : Lane) : latencyLost now x = { x with
    latValid := false, latEventAt := now
    latLostAt := if x.latValid then now else x.latLostAt
    latWas := if x.latValid then some (x.rxPs, x.txPs, latIndex x) else x.latWas } := by
  unfold latencyLost loseLatency
  cases hx : x.latValid with
  | true => rfl
  | false =>
    cases x
    dsimp only at hx
    subst hx
    rfl

theorem frozen_rest (a b c : Nat) (x : Lane) :
    { ({ recoded a b c x with frozen := true } : Lane) with
      frozen := x.frozen, code := x.code, codeAt := x.codeAt, codeSeen := x.codeSeen } = x := by
  cases x
  rfl

theorem adaptationResume_run (h : Acting l s) {density : Nat} (hlos : s.nlu.lane[l].los = false)
    (hfrozen : s.nlu.lane[l].frozen = true) (hdensity : s.nlu.lane[l].densityMin ≤ density) :
    exec (.adaptationResume l density) s = .next (s.setLane l.val fun x => { x with codeSeen := s.tcr.cycles, frozen := false }) := by
  refine congrArg Host.Outcome.next (if_neg ?_)
  rw [h.acts, s.laneOf_fin, hlos, hfrozen, decide_eq_false (Nat.not_lt.mpr hdensity)]
  decide

theorem adaptationResume_stays {density : Nat} (h : s.nlu.lane[l].los = true ∨ density < s.nlu.lane[l].densityMin) :
    exec (.adaptationResume l density) s = .next s := by
  refine congrArg Host.Outcome.next (if_pos ?_)
  rw [s.laneOf_fin]
  rcases h with h | h
  · rw [h, Bool.or_true, Bool.true_or, Bool.true_or]
  · rw [decide_eq_true h, Bool.or_true, Bool.true_or]

theorem adaptationFreeze_stays {density : Nat} (h : s.nlu.lane[l].densityMin ≤ density) :
    exec (.adaptationFreeze l density) s = .next s := by
  refine congrArg Host.Outcome.next (if_pos ?_)
  rw [s.laneOf_fin, decide_eq_true h, Bool.or_true]

/-- A lane whose transmit PLL has relocked (R225). -/
theorem txpllRelock_turned (h : Acting l s) (hlocked : s.nlu.lane[l].txLocked = false) :
    let x := { s.nlu.lane[l] with txLocked := true }
    ∃ t y, exec (.txpllRelock l) s = .next t ∧ Turned l y s t ∧ y.txLocked = true ∧
      (x.st = .down ∨ x.st = .prbs → y = x) ∧
      (x.st ≠ .down → x.st ≠ .prbs → s.fwRuns = true → bareLane y = bareLane (lowered x)) ∧
      (x.st ≠ .down → x.st ≠ .prbs → s.fwRuns = false → y = { x with lowDue := true }) := by
  intro x
  have hset := turns_setLane .wide l.val (fun x => { x with txLocked := true }) s
  rw [s.laneOf_fin] at hset
  rw [txpllRelock_run h hlocked]
  by_cases hst : s.nlu.lane[l].st = .down ∨ s.nlu.lane[l].st = .prbs
  · rw [if_pos hst]
    exact ⟨_, _, rfl, hset.turned, rfl, fun _ => rfl, fun hd hp => absurd hst (not_or.mpr ⟨hd, hp⟩),
      fun hd hp => absurd hst (not_or.mpr ⟨hd, hp⟩)⟩
  · rw [if_neg hst]
    cases hruns : s.fwRuns with
    | true =>
      obtain ⟨y, hbare, -, -, hlow⟩ := hset.low l.isLt (absurd rfl) nofun
      exact ⟨_, y, rfl, hlow.turned, (congrArg Lane.txLocked hbare :), fun h => absurd h hst, fun _ _ _ => hbare, nofun⟩
    | false => exact ⟨_, _, rfl, (hset.set fun x => { x with lowDue := true }).turned, rfl, fun h => absurd h hst, nofun, fun _ _ _ => rfl⟩

/-- A lane that a relock brings to LOW (R225, R227). -/
theorem relocked_lane {x y : Lane} (h : bareLane y = bareLane (lowered { x with txLocked := true })) :
    y.st = .low ∧ y.mode = lowestMode x ∧ y.qualified = none ∧ y.fallingBack = false ∧ y.aligned = false ∧
    y.fecLock = false := by
  have hmode : y.mode = lowestMode { x with txLocked := true } := (congrArg Lane.mode h :)
  simp only [bareLane, lowered, Lane.mk.injEq] at h
  simp only [h, and_self, true_and, and_true]
  rfl

end

/-- Settles O45: each event turns its lane, raises what it raises, and reaches the slots and the ports of the lane. -/
theorem laneLossEventsAct : Obligations.LaneLossEventsAct := by
  refine ⟨fun l s ⟨h, hlos⟩ => ?_, fun l s ⟨h, hlos⟩ => ?_, fun l s ⟨h, hlol⟩ => ?_, fun l s ⟨h, hlol⟩ => ?_, fun l slip s h => ?_,
    fun l s h => ?_, fun l s ⟨h, hmode⟩ => ?_, fun l gained s ⟨h, hfec⟩ => ?_, fun l s ⟨h, hlocked⟩ => ?_,
    fun l s ⟨h, hlocked⟩ => ?_, fun l density => ⟨fun s hd => ?_, fun s ⟨h, hd⟩ => ?_, fun s hd => ?_, fun s ⟨h, hlos, hf, hd⟩ => ?_⟩,
    fun l rxPs txPs s ⟨h, hlat⟩ => ?_⟩
  · obtain ⟨t, a, b, c, hexec, hturned, hdark⟩ := losAssert_turned h hlos
    obtain ⟨hlos', -, haligned, hlock, hfrozen, hmode⟩ := lostLane_keeps s.fwRuns 128 3 s.tcr.cycles (silenced a b c s.nlu.lane[l])
    obtain ⟨hmode', hst, hreason, hdue, hrec⟩ := silenced_keeps a b c s.nlu.lane[l]
    have hlost := hturned.lost (fun _ _ _ => hdark.irq) hst hreason hdue hrec
    refine ⟨t, hexec, ?_⟩
    dsimp only
    rw [hturned.lane] at hlost ⊢
    exact ⟨hlos', haligned, hlock, hfrozen, hmode.trans hmode', hdark.irq, hlost, hdark.slots, hdark.faulty⟩
  · obtain ⟨t, hexec, hturned, hirq⟩ := losDeassert_turned h hlos
    exact ⟨t, hexec, hturned.only, hturned.lane, hirq⟩
  · obtain ⟨t, hexec, hturned, hdark⟩ := lolAssert_turned h hlol
    obtain ⟨hlos, hlol', haligned, hlock, -, hmode⟩ := lostLane_keeps s.fwRuns 129 4 s.tcr.cycles (unlocked s.nlu.lane[l])
    obtain ⟨hmode', hlos', hst, hreason, hdue, hrec⟩ := unlocked_keeps s.nlu.lane[l]
    have hlost := hturned.lost (fun _ _ _ => hdark.irq) hst hreason hdue hrec
    refine ⟨t, hexec, ?_⟩
    dsimp only
    rw [hturned.lane] at hlost ⊢
    exact ⟨hlol', haligned, hlock, hmode.trans hmode', hlos.trans hlos', hdark.irq, hlost, hdark.slots⟩
  · obtain ⟨t, hexec, hturned, hirq⟩ := lolDeassert_turned h hlol
    exact ⟨t, hexec, hturned.only, hirq, hturned.lane.trans (latencyLost_eq _ _)⟩
  · obtain ⟨t, hexec, hturned⟩ := alignmentGained_turned h slip
    exact ⟨t, hexec, hturned.only, hturned.lane.trans (latencyLost_eq _ _)⟩
  · obtain ⟨t, hexec, hturned, hirq⟩ := alignmentLost_turned h
    obtain ⟨-, -, haligned, -⟩ := lostLane_keeps s.fwRuns 130 6 s.tcr.cycles { s.nlu.lane[l] with aligned := false }
    obtain ⟨hst, hreason, hdue, hrec⟩ := misaligned_keeps s.nlu.lane[l]
    exact ⟨t, hexec, hturned.lane ▸ haligned, hturned.lost hirq hst hreason hdue hrec⟩
  · obtain ⟨t, hexec, hturned, hirq⟩ := hiBer_turned h hmode
    exact ⟨t, hexec, hturned.lost hirq rfl rfl rfl rfl⟩
  · obtain ⟨t, hexec, hturned⟩ := fecLockChange_turned h gained hfec
    exact ⟨t, hexec, hturned.only, hturned.lane.trans (latencyLost_eq _ _)⟩
  · obtain ⟨t, hexec, hturned⟩ := laneTxpllUnlock_turned h hlocked
    exact ⟨t, hexec, hturned.only, hturned.lane⟩
  · obtain ⟨t, y, hexec, hturned, hlock, hstays, hlow, hwaits⟩ := txpllRelock_turned h hlocked
    refine ⟨t, hexec, hturned.only, ?_⟩
    rw [hturned.lane]
    exact ⟨hlock, hstays, fun hd hp hruns => relocked_lane (hlow hd hp hruns), hwaits⟩
  · exact adaptationFreeze_stays hd
  · obtain ⟨t, a, b, c, hexec, hturned⟩ := adaptationFreeze_turned h hd
    refine ⟨t, hexec, hturned.only, ?_⟩
    rw [hturned.lane]
    exact ⟨rfl, frozen_rest _ _ _ _⟩
  · exact adaptationResume_stays hd
  · exact adaptationResume_run h hlos hf hd
  · obtain ⟨t, hexec, hturned, hirq, hrefs⟩ := latencyMeasurementEnd_turned h rxPs txPs hlat
    exact ⟨t, hexec, hturned.only, hirq, hturned.lane, hrefs⟩

/-! ### Learning and stepping up (R227, R228) -/

/-- Learning is done: a lane in `y` steps up to the next candidate as `z`, or enters UP (R227). -/
def Learned (now : Nat) (y z : Lane) : Prop :=
  match higherMode y y.mode with
  | some m => bareLane z = bareLane { atMode m (fecFor y m) y with st := .step }
  | none => z = enteredUp now y

section
variable {l : LaneId} {x y z : Lane} {s t u : State}

/-- Learning is done on a lane that is not in UP. -/
theorem Turns.learned (h : Turns .wide l.val y s t) (hst : y.st ≠ .up) :
    ∃ z, Learned s.tcr.cycles y z ∧ Turns .wide l.val z s (learned l.val t) ∧ (z.st = .up → LaneIrq (learned l.val t)) := by
  unfold Machine.learned Learned
  rw [h.lane l.isLt]
  cases higherMode y y.mode with
  | some m =>
    obtain ⟨z, hbare, -, hmode⟩ := h.mode l.isLt m (fecFor y m) (absurd rfl) nofun
    have hstep := hmode.enter l.isLt .step (by decide) (absurd rfl)
    have hbare' : bareLane (entered .step s.tcr.cycles z) = bareLane { atMode m (fecFor y m) y with st := .step } := by
      rw [bareLane_entered, hbare]
      rfl
    refine ⟨_, hbare', ?_, fun hup => absurd ((entered_st _ _ _).symm.trans hup) (by decide)⟩
    unfold stepTo
    rw [h.lane l.isLt]
    exact hstep
  | none =>
    exact ⟨_, rfl, h.enterUp l.isLt hst, fun _ => enterLane_raises .up (by rwa [h.lane l.isLt])⟩

/-- Where a lane goes as learning is done (R227). -/
def Next (x y : Lane) : Prop :=
  match higherMode x x.mode with
  | some m => y.st = .step ∧ y.mode = m
  | none => y.st = .up ∧ y.mode = x.mode

theorem atMode_mode (m : Fin 4) (fec : Fin 3) (x : Lane) : (atMode m fec x).mode = m := by
  unfold atMode
  split
  next h => exact h.1
  · rfl

theorem Learned.next {now : Nat} (h : Learned now y z) : Next y z := by
  unfold Learned at h
  unfold Next
  split at h
  · exact ⟨(congrArg Lane.st h :), (congrArg Lane.mode h :).trans (atMode_mode _ _ _)⟩
  · subst h
    exact ⟨rfl, rfl⟩

/-- What learning leaves of a lane. -/
theorem Learned.keeps {now : Nat} (h : Learned now y z) :
    z.qualErrs = y.qualErrs ∧ z.removed = y.removed ∧ z.moduleRead = y.moduleRead ∧ z.moduleRate = y.moduleRate := by
  unfold Learned at h
  split at h
  · unfold atMode at h
    split at h
    · simp only [bareLane, Lane.mk.injEq] at h
      simp only [h, and_self]
    · simp only [bareLane, Lane.mk.injEq] at h
      simp only [h, and_self]
  · subst h
    simp only [enteredUp, and_self]

/-- A lane that learning brings to UP (R241). -/
theorem Learned.up {now : Nat} (h : Learned now y z) (hup : z.st = .up) : z.upAt = now ∧ z.lastUp = some y.mode := by
  unfold Learned at h
  split at h
  · have hstep : z.st = .step := (congrArg Lane.st h :)
    exact absurd (hstep.symm.trans hup) (by decide)
  · subst h
    exact ⟨rfl, rfl⟩

/-! LEARN (R228) -/

/-- The module-management buses that have been accessed (R226, R402). -/
def useBus (m : BitVec 4) (s : State) : State := { s with nlu := { s.nlu with modUsed := s.nlu.modUsed ||| m } }

theorem Turns.useBus {w : Reach} (h : Turns w l.val y s t) (m : BitVec 4) : Turns w l.val y (useBus m s) (useBus m t) where
  same := ⟨h.same.mbx, h.same.straps, h.same.intc, h.same.pcu⟩
  bits := h.bits
  cycles := h.cycles
  rest := by
    unfold Machine.useBus
    rw [h.rest]
    rfl
  near hw := by
    unfold Machine.useBus
    rw [h.near hw]
    rfl
  still := h.still

theorem useBus_none (s : State) : useBus 0 s = s := by
  unfold useBus
  rw [show s.nlu.modUsed ||| 0 = s.nlu.modUsed from BitVec.or_zero]

/-- The bus that a lane reads its module at (R226). -/
def moduleBus (x : Lane) : BitVec 4 :=
  match x.medium, x.modBus with
  | 0, some b => BitVec.ofNat 4 (2 ^ b.val)
  | _, _ => 0

theorem accessModule_eq (l : Nat) (s : State) : accessModule l s = useBus (moduleBus (s.laneOf l)) s := by
  have hmedia : ∀ m : Fin 3, m = 0 ∨ m = 1 ∨ m = 2 := by decide
  unfold accessModule moduleBus
  generalize (s.laneOf l).medium = medium
  generalize (s.laneOf l).modBus = bus
  obtain rfl | rfl | rfl := hmedia medium
  · cases bus with
    | none => exact (useBus_none s).symm
    | some b => exact rfl
  · exact (useBus_none s).symm
  · exact (useBus_none s).symm

/-- A lane in LEARN waits for its module or for the exchange of a direct link (R228). -/
def LearnWaits (x : Lane) : Prop :=
  (x.medium = 0 ∧ x.modBus.isSome = true) ∨ (x.medium = 2 ∧ x.an1g = true ∧ x.mode.val < 2)

/-- A lane that was in LOW learns: what it waits for, or what follows at once (R228). -/
theorem Turns.learn (h : Turns .wide l.val y s t) (hst : y.st = .low) :
    ∃ z, (LearnWaits y → z = { y with st := .learn, stageAt := s.tcr.cycles, winAt := s.tcr.cycles }) ∧
      (¬LearnWaits y → Learned s.tcr.cycles { y with st := .learn, stageAt := s.tcr.cycles, winAt := s.tcr.cycles } z) ∧
      Turns .wide l.val z (Machine.useBus (moduleBus y) s) (enterLearn l.val t) ∧
      (z.st = .up → LaneIrq (enterLearn l.val t)) := by
  have henter := h.enter l.isLt .learn (by decide) (absurd rfl)
  rw [entered_of_ne (ne_of_eq_of_ne hst (by decide))] at henter
  have hbus := henter.useBus (moduleBus y)
  have hlane := hbus.lane l.isLt
  have haccess : accessModule l.val (enterLane l.val .learn t) = Machine.useBus (moduleBus y) (enterLane l.val .learn t) := by
    rw [accessModule_eq, henter.lane l.isLt]
    rfl
  unfold enterLearn
  dsimp only
  rw [haccess, hlane]
  split
  next hwaits => exact ⟨_, fun _ => rfl, absurd hwaits, hbus, fun hup => absurd hup (by nofun)⟩
  next hwaits =>
    obtain ⟨z, hlearned, hturns, hirq⟩ := hbus.learned (by nofun)
    exact ⟨z, fun h => absurd h hwaits, fun _ => hlearned, hturns, hirq⟩

end

/-! ### LANE_QUALIFIED (R227, R229, R230) -/

/-- A lane whose stages firmware moves, with the sources as fault collection starts. -/
def Training (l : LaneId) (s : State) : Prop :=
  s.blockRuns 11 = true ∧ s.lanePresent l.val = true ∧ s.fwRuns = true ∧ defaultSources s

section
variable {l : LaneId} {x y z : Lane} {s t u : State}

theorem Training.moves (h : Training l s) : stageActs s l = true :=
  Bool.and_eq_true_iff.mpr ⟨Bool.and_eq_true_iff.mpr ⟨h.1, h.2.1⟩, h.2.2.1⟩

/-- A lane whose window has ended with its errors (R229). -/
def counted (now errors : Nat) (x : Lane) : Lane := { x with qualErrs := min 65535 errors, winAt := now }

/-- And which has qualified at its mode (R227). -/
def passed (now errors : Nat) (x : Lane) : Lane := { counted now errors x with qualified := some x.mode }

/-- The conditions of a qualification stand, and its window is over (R229). -/
def Qualifies (l : LaneId) (s : State) : Prop :=
  let x := s.nlu.lane[l]
  Training l s ∧ x.los = false ∧ x.lol = false ∧ x.aligned = true ∧ (x.fec = 0 ∨ x.fecLock = true) ∧
  x.winAt + x.qualMs * 10 ^ 6 ≤ s.tcr.cycles

/-- A lane with its errors counted. -/
def countErrors (l : LaneId) (errors : Nat) (s : State) : State :=
  restartWindow l.val (s.setLane l.val fun x => { x with qualErrs := min 65535 errors })

/-- And qualified. -/
def passErrors (l : LaneId) (errors : Nat) (s : State) : State :=
  (countErrors l errors s).setLane l.val fun x => { x with qualified := some x.mode }

theorem gained_of (haligned : x.aligned = true) (hfec : x.fec = 0 ∨ x.fecLock = true) : gained x = true := by
  rcases hfec with hfec | hfec <;> simp [gained, haligned, hfec]

theorem laneQualified_run (h : Qualifies l s) (errors : Nat) : exec (.laneQualified l errors) s = .next
    (match s.nlu.lane[l].st with
    | .low => if s.nlu.lane[l].medium = 1 then s else
        if errors ≤ s.nlu.lane[l].qualErrors then enterLearn l.val (passErrors l errors s) else countErrors l errors s
    | .step =>
      if s.nlu.lane[l].qualErrors < errors then countErrors l errors s
      else if s.nlu.lane[l].fallingBack then faultEvent 132 { addr := l.val } (enterLane l.val .up (passErrors l errors s))
      else learned l.val (passErrors l errors s)
    | .recover => if errors ≤ s.nlu.lane[l].qualErrors then enterLane l.val .up (countErrors l errors s) else countErrors l errors s
    | _ => s) := by
  obtain ⟨htrain, hlos, hlol, haligned, hfec, hwin⟩ := h
  refine congrArg Host.Outcome.next (if_neg ?_)
  rw [htrain.moves, hlos, hlol, gained_of haligned hfec, msPassed, decide_eq_true hwin]
  decide

theorem countErrors_turns (l : LaneId) (errors : Nat) (s : State) :
    Turns .wide l.val (counted s.tcr.cycles errors s.nlu.lane[l]) s (countErrors l errors s) := by
  have hset := (turns_setLane .wide l.val (fun x => { x with qualErrs := min 65535 errors }) s).set fun x =>
    { x with winAt := s.tcr.cycles }
  rw [s.laneOf_fin] at hset
  exact hset

theorem passErrors_turns (l : LaneId) (errors : Nat) (s : State) :
    Turns .wide l.val (passed s.tcr.cycles errors s.nlu.lane[l]) s (passErrors l errors s) :=
  (countErrors_turns l errors s).set fun x => { x with qualified := some x.mode }

/-- A window with too many errors starts again (R229). -/
theorem laneQualified_again (h : Qualifies l s) {errors : Nat} (herr : s.nlu.lane[l].qualErrors < errors)
    (hst : (s.nlu.lane[l].st = .low ∧ s.nlu.lane[l].medium ≠ 1) ∨ s.nlu.lane[l].st = .step ∨ s.nlu.lane[l].st = .recover) :
    ∃ t, exec (.laneQualified l errors) s = .next t ∧ Turned l (counted s.tcr.cycles errors s.nlu.lane[l]) s t := by
  refine ⟨_, (laneQualified_run h errors).trans (congrArg _ ?_), (countErrors_turns l errors s).turned⟩
  rcases hst with ⟨hst, hmedium⟩ | hst | hst <;> rw [hst]
  · exact (if_neg hmedium).trans (if_neg (Nat.not_le.mpr herr))
  · exact if_pos herr
  · exact if_neg (Nat.not_le.mpr herr)

theorem laneQualified_recover (h : Qualifies l s) {errors : Nat} (herr : errors ≤ s.nlu.lane[l].qualErrors)
    (hst : s.nlu.lane[l].st = .recover) :
    ∃ t, exec (.laneQualified l errors) s = .next t ∧
      Turned l (enteredUp s.tcr.cycles (counted s.tcr.cycles errors s.nlu.lane[l])) s t ∧ LaneIrq t := by
  have hcounted := countErrors_turns l errors s
  have hleft : (counted s.tcr.cycles errors s.nlu.lane[l]).st ≠ .up := ne_of_eq_of_ne hst (by decide)
  refine ⟨_, (laneQualified_run h errors).trans (congrArg _ ?_), (hcounted.enterUp l.isLt hleft).turned,
    enterLane_raises .up (by rwa [hcounted.lane l.isLt])⟩
  rw [hst]
  exact if_pos herr

/-- A failed step ends in UP at the last qualified rate, with source 132 (R230, R231). -/
theorem laneQualified_back (h : Qualifies l s) {errors : Nat} (herr : errors ≤ s.nlu.lane[l].qualErrors)
    (hst : s.nlu.lane[l].st = .step) (hback : s.nlu.lane[l].fallingBack = true) :
    ∃ t, exec (.laneQualified l errors) s = .next t ∧
      Turned l (enteredUp s.tcr.cycles (passed s.tcr.cycles errors s.nlu.lane[l])) s t ∧ LaneIrq t := by
  have hpassed := passErrors_turns l errors s
  have hleft : (passed s.tcr.cycles errors s.nlu.lane[l]).st ≠ .up := ne_of_eq_of_ne hst (by decide)
  have hup := hpassed.enterUp l.isLt hleft
  have hfault := faultEvent_reported 132 { addr := l.val } _ (laneSource_cap _ 132 (by decide) (by rw [hup.fco]; exact h.1.2.2.2))
  refine ⟨_, (laneQualified_run h errors).trans (congrArg _ ?_), hup.turned.reported hfault,
    hfault.bits 13 (enterLane_raises .up (by rwa [hpassed.lane l.isLt]))⟩
  rw [hst]
  exact (if_neg (Nat.not_lt.mpr herr)).trans (if_pos hback)

theorem laneQualified_step (h : Qualifies l s) {errors : Nat} (herr : errors ≤ s.nlu.lane[l].qualErrors)
    (hst : s.nlu.lane[l].st = .step) (hback : s.nlu.lane[l].fallingBack = false) :
    ∃ t z, exec (.laneQualified l errors) s = .next t ∧ Learned s.tcr.cycles (passed s.tcr.cycles errors s.nlu.lane[l]) z ∧
      Turned l z s t ∧ (z.st = .up → LaneIrq t) := by
  have hleft : (passed s.tcr.cycles errors s.nlu.lane[l]).st ≠ .up := ne_of_eq_of_ne hst (by decide)
  obtain ⟨z, hlearned, hturns, hirq⟩ := (passErrors_turns l errors s).learned hleft
  refine ⟨_, z, (laneQualified_run h errors).trans (congrArg _ ?_), hlearned, hturns.turned, hirq⟩
  rw [hst]
  exact (if_neg (Nat.not_lt.mpr herr)).trans (if_neg (by rw [hback]; decide))

theorem laneQualified_low (h : Qualifies l s) {errors : Nat} (herr : errors ≤ s.nlu.lane[l].qualErrors)
    (hst : s.nlu.lane[l].st = .low) (hmedium : s.nlu.lane[l].medium ≠ 1) :
    let y := passed s.tcr.cycles errors s.nlu.lane[l]
    ∃ t z, exec (.laneQualified l errors) s = .next t ∧
      (LearnWaits y → z = { y with st := .learn, stageAt := s.tcr.cycles, winAt := s.tcr.cycles }) ∧
      (¬LearnWaits y → Learned s.tcr.cycles { y with st := .learn, stageAt := s.tcr.cycles, winAt := s.tcr.cycles } z) ∧
      Turned l z (useBus (moduleBus y) s) t ∧ (z.st = .up → LaneIrq t) := by
  intro y
  have hlow : y.st = .low := hst
  obtain ⟨z, hwaits, hlearned, hturns, hirq⟩ := (passErrors_turns l errors s).learn hlow
  refine ⟨_, z, (laneQualified_run h errors).trans (congrArg _ ?_), hwaits, hlearned, hturns.turned, hirq⟩
  rw [hst]
  exact (if_neg hmedium).trans (if_pos herr)

/-! ### Time-outs of a bring-up (R227, R230) -/

/-- A stage has timed out (R227). -/
theorem timedOut {since ms : Nat} (h : since + ms * 10 ^ 6 ≤ s.tcr.cycles) : msPassed s since ms = true := decide_eq_true h

theorem trainTimeout_turned (h : Training l s) (hst : s.nlu.lane[l].st = .low)
    (hdue : s.nlu.lane[l].stageAt + s.nlu.lane[l].trainMs * 10 ^ 6 ≤ s.tcr.cycles) :
    let x := s.nlu.lane[l]
    let m := (higherMode x x.mode).getD (lowestMode x)
    ∃ t y, exec (.trainTimeout l) s = .next t ∧ Turned l y s t ∧
      bareLane y = bareLane (if x.medium = 1 then reasoned 1 x else atMode m (fecFor x m) (reasoned 1 x)) := by
  intro x m
  have hreason := turns_setLane .wide l.val (reasoned 1) s
  rw [s.laneOf_fin] at hreason
  have hrun : exec (.trainTimeout l) s = .next (if x.medium = 1 then startStage l.val (s.setLane l.val (reasoned 1)) else
      changeMode l.val m (fecFor x m) (s.setLane l.val (reasoned 1))) := by
    refine congrArg Host.Outcome.next (if_neg ?_)
    rw [h.moves, hst, timedOut hdue]
    decide
  rw [hrun]
  split
  · have hstart := hreason.trans (startStage_turns .wide l.val (s.setLane l.val (reasoned 1)))
    rw [hreason.lane l.isLt] at hstart
    exact ⟨_, _, rfl, hstart.turned, rfl⟩
  · obtain ⟨y, hbare, -, hmode⟩ := hreason.mode l.isLt m (fecFor x m) (absurd rfl) nofun
    exact ⟨_, y, rfl, hmode.turned, hbare⟩

/-- A lane whose mode has failed (R230). -/
def modeFailed (x : Lane) : Lane :=
  { x with removed := x.removed ||| BitVec.ofNat 4 (2 ^ x.mode.val), failed := x.failed ||| BitVec.ofNat 4 (2 ^ x.mode.val) }

/-- What follows a failed step of a lane that was `x` (R230). -/
def stepFailed (l : LaneId) (x : Lane) (s : State) : State :=
  if x.fallingBack then enterLow l.val s else
  match higherMode x x.mode, x.qualified with
  | some m, _ => changeMode l.val m (fecFor x m) (s.setLane l.val modeFailed)
  | none, some q =>
    changeMode l.val q (fecFor x q) ((s.setLane l.val modeFailed).setLane l.val fun x => { x with fallingBack := true })
  | none, none => enterLow l.val (s.setLane l.val modeFailed)

theorem stepTimeout_run (h : Training l s) (hst : s.nlu.lane[l].st = .step)
    (hdue : s.nlu.lane[l].stageAt + s.nlu.lane[l].stepMs * 10 ^ 6 ≤ s.tcr.cycles) :
    exec (.stepTimeout l) s = .next (stepFailed l s.nlu.lane[l] (s.setLane l.val (reasoned 2))) := by
  refine congrArg Host.Outcome.next (if_neg ?_)
  rw [h.moves, hst, timedOut hdue]
  decide

/-- What a failed step makes of a lane (R230). -/
def StepFailed (x y : Lane) : Prop :=
  if x.fallingBack then bareLane y = bareLane (lowered (reasoned 2 x)) else
  match higherMode x x.mode, x.qualified with
  | some m, _ => bareLane y = bareLane (atMode m (fecFor x m) (modeFailed (reasoned 2 x)))
  | none, some q => bareLane y = bareLane (atMode q (fecFor x q) { modeFailed (reasoned 2 x) with fallingBack := true })
  | none, none => bareLane y = bareLane (lowered (modeFailed (reasoned 2 x)))

theorem stepTimeout_turned (h : Training l s) (hst : s.nlu.lane[l].st = .step)
    (hdue : s.nlu.lane[l].stageAt + s.nlu.lane[l].stepMs * 10 ^ 6 ≤ s.tcr.cycles) :
    ∃ t y, exec (.stepTimeout l) s = .next t ∧ Turned l y s t ∧ StepFailed s.nlu.lane[l] y := by
  have hreason := turns_setLane .wide l.val (reasoned 2) s
  rw [s.laneOf_fin] at hreason
  have hfailed := hreason.set modeFailed
  rw [stepTimeout_run h hst hdue]
  unfold stepFailed StepFailed
  generalize s.nlu.lane[l] = x at *
  split
  · obtain ⟨y, hbare, -, -, hlow⟩ := hreason.low l.isLt (absurd rfl) nofun
    exact ⟨_, y, rfl, hlow.turned, hbare⟩
  · split
    next _ _ m _ =>
      obtain ⟨y, hbare, -, hmode⟩ := hfailed.mode l.isLt m (fecFor x m) (absurd rfl) nofun
      exact ⟨_, y, rfl, hmode.turned, hbare⟩
    next q _ _ =>
      obtain ⟨y, hbare, -, hmode⟩ := (hfailed.set fun x => { x with fallingBack := true }).mode l.isLt q (fecFor x q) (absurd rfl) nofun
      exact ⟨_, y, rfl, hmode.turned, hbare⟩
    next =>
      obtain ⟨y, hbare, -, -, hlow⟩ := hfailed.low l.isLt (absurd rfl) nofun
      exact ⟨_, y, rfl, hlow.turned, hbare⟩

theorem relockTimeout_turned (h : Training l s) (hst : s.nlu.lane[l].st = .recover)
    (hdue : s.nlu.lane[l].stageAt + s.nlu.lane[l].relockMs * 10 ^ 6 ≤ s.tcr.cycles) :
    ∃ t y, exec (.relockTimeout l) s = .next t ∧ Turned l y s t ∧ bareLane y = bareLane (lowered s.nlu.lane[l]) := by
  obtain ⟨y, hbare, -, -, hlow⟩ := enterLow_turns (w := .wide) (s := s) l.isLt (absurd rfl) nofun
  rw [s.laneOf_fin] at hbare
  refine ⟨_, y, congrArg Host.Outcome.next (if_neg ?_), hlow.turned, hbare⟩
  rw [h.moves, s.laneOf_fin, hst, timedOut hdue]
  decide

end

section
variable {l : LaneId} {x y z : Lane} {s t u : State}

/-! ### Modules and exchanges (R224, R228) -/

/-- A lane whose module has been read (R228). -/
def moduleKnown (mbd : Nat) (x : Lane) : Lane :=
  { x with moduleRead := true, moduleRate := mbd / 100
           removed := x.failed ||| (x.rateMask &&& BitVec.ofNat 4 (maskOf 4 fun m => decide (101 * mbd * 100 < 100 * lineRate (Fin.ofNat 4 m)))) }

/-- A lane whose module told nothing (R228). -/
def moduleUnknown (x : Lane) : Lane := { x with moduleRead := false, moduleRate := 0 }

/-- The modules whose rate is known (R228). -/
def KnownModule (ident : Byte) : Prop := ident = 0x03 ∨ ident = 0x0C ∨ ident = 0x0D ∨ ident = 0x11

/-- The modes that a module is too slow for are removed (R228). -/
theorem moduleKnown_removed (mbd : Nat) (x : Lane) (m : Fin 4) : (moduleKnown mbd x).removed.getLsbD m.val =
    (x.failed.getLsbD m.val || (x.rateMask.getLsbD m.val && decide (101 * mbd * 100 < 100 * lineRate m))) := by
  have hm : Fin.ofNat 4 m.val = m := Fin.ext (Nat.mod_eq_of_lt m.isLt)
  have hfast := testBit_maskOf 4 (fun m => decide (101 * mbd * 100 < 100 * lineRate (Fin.ofNat 4 m))) m.val m.isLt
  change (x.failed ||| (x.rateMask &&& BitVec.ofNat 4 _)).getLsbD m.val = _
  rw [BitVec.getLsbD_or, BitVec.getLsbD_and, BitVec.getLsbD_ofNat, hfast, hm, decide_eq_true m.isLt, Bool.true_and]

theorem moduleReadDone_gate (h : Training l s) (hst : s.nlu.lane[l].st = .learn) (hmedium : s.nlu.lane[l].medium = 0) :
    ¬(!stageActs s l || s.nlu.lane[l].st != .learn || s.nlu.lane[l].medium != 0) = true := by
  rw [h.moves, hst, hmedium]
  decide

theorem moduleReadDone_known (h : Training l s) (hst : s.nlu.lane[l].st = .learn) (hmedium : s.nlu.lane[l].medium = 0)
    {ident a b : Byte} (hident : KnownModule ident) :
    ∃ t z, exec (.moduleReadDone l (.ok ident a b)) s = .next t ∧
      Learned s.tcr.cycles (moduleKnown (moduleMbd a b) s.nlu.lane[l]) z ∧ Turned l z s t := by
  have hset := turns_setLane .wide l.val (moduleKnown (moduleMbd a b)) s
  rw [s.laneOf_fin] at hset
  obtain ⟨z, hlearned, hturns, -⟩ := hset.learned (ne_of_eq_of_ne hst (by decide))
  refine ⟨_, z, congrArg Host.Outcome.next ((if_neg (moduleReadDone_gate h hst hmedium)).trans (if_pos hident)), hlearned, hturns.turned⟩

/-- The engine is out of reset while firmware runs. -/
theorem running_phase (h : s.fwRuns = true) : (s.cpx.phase != .inReset) = true := by
  rw [bne_iff_ne]
  intro hreset
  rw [State.fwRuns, hreset] at h
  exact Bool.false_ne_true h

/-- A fault of an unread module rises where NLU is in no shadow of a reset (R228, R352, R360). -/
theorem unread_rises (h : Turns .wide l.val y s u) (hruns : s.fwRuns = true) (hcfg : s.fco.cfg = [])
    (howner : faultOwner s 133 { addr := l.val } = some 11) (hshadow : inShadow s 11 = false) : rises u 133 l.val = true := by
  have howner' : faultOwner u 133 { addr := l.val } = some 11 := by
    rw [Aside.rest h]
    exact howner
  have hshadow' : inShadow u 11 = false := by
    rw [Aside.rest h]
    exact hshadow
  have hphase : (u.cpx.phase != .inReset) = true := by
    rw [Aside.rest h]
    exact running_phase hruns
  have hcfg' : sourceCfg u 133 = { level := 1, cap := 1, errn := false } := by
    unfold sourceCfg
    rw [h.fco, hcfg]
    rfl
  unfold rises
  dsimp only
  rw [hphase, howner', hcfg']
  dsimp only
  rw [hshadow']
  generalize (vget u.fco.cls (133 / 32) {}).n = n
  rw [decide_eq_true (show min 1 (1 + n) ≤ 2 by omega)]
  decide

/-- The reads that tell nothing (R228). -/
def Unread (r : ModuleRead) : Prop :=
  r = .failed ∨ ∃ ident a b, r = .ok ident a b ∧ ident ≠ 0x03 ∧ ident ≠ 0x0C ∧ ident ≠ 0x0D ∧ ident ≠ 0x11

theorem moduleReadDone_unread (h : Training l s) (hst : s.nlu.lane[l].st = .learn) (hmedium : s.nlu.lane[l].medium = 0)
    {r : ModuleRead} (hr : Unread r) :
    ∃ t z, exec (.moduleReadDone l r) s = .next t ∧ Learned s.tcr.cycles (moduleUnknown s.nlu.lane[l]) z ∧ Turned l z s t ∧
      (faultOwner s 133 { addr := l.val } = some 11 → inShadow s 11 = false → t.fco.cls[(4 : Fin 8)].pending = true) := by
  have hset := turns_setLane .wide l.val moduleUnknown s
  rw [s.laneOf_fin] at hset
  obtain ⟨z, hlearned, hturns, -⟩ := hset.learned (ne_of_eq_of_ne hst (by decide))
  have hfault := faultEvent_reported 133 { addr := l.val } _ (laneSource_cap _ 133 (by decide) (by rw [hturns.fco]; exact h.2.2.2))
  refine ⟨faultEvent 133 { addr := l.val } (learned l.val (s.setLane l.val moduleUnknown)), z,
    congrArg Host.Outcome.next ((if_neg (moduleReadDone_gate h hst hmedium)).trans ?_), hlearned, hturns.turned.reported hfault,
    fun howner hshadow => ?_⟩
  · rcases hr with rfl | ⟨ident, a, b, rfl, h3, hc, hd, h11⟩
    · rfl
    · exact if_neg (not_or.mpr ⟨h3, not_or.mpr ⟨hc, not_or.mpr ⟨hd, h11⟩⟩⟩)
  · obtain ⟨-, -, hrecorded⟩ := faultEvent_reports 133 l.val _ (unread_rises hturns h.2.2.1 h.2.2.2 howner hshadow)
    rw [← vget_fin _ (4 : Fin 8) {}]
    exact hrecorded.1

/-- Of a set of modes without failures, all others removed leave the one. -/
theorem single_candidate (r f : BitVec 4) (m : Fin 4) (hr : r.getLsbD m.val = true) (hf : f.getLsbD m.val = false) :
    r &&& ~~~(f ||| (r &&& ~~~BitVec.ofNat 4 (2 ^ m.val))) = BitVec.ofNat 4 (2 ^ m.val) := by
  refine BitVec.eq_of_getLsbD_eq fun i hi => ?_
  have hbit : (BitVec.ofNat 4 (2 ^ m.val)).getLsbD i = decide (m.val = i) := by
    rw [BitVec.getLsbD_ofNat, Nat.testBit_two_pow, decide_eq_true hi, Bool.true_and]
  simp only [BitVec.getLsbD_and, BitVec.getLsbD_or, BitVec.getLsbD_not, hbit, decide_eq_true hi, Bool.true_and]
  by_cases hm : m.val = i
  · rw [← hm, hr, hf, decide_eq_true rfl]
    rfl
  · rw [decide_eq_false hm]
    cases r.getLsbD i <;> simp

/-- A lane whose mode an exchange has fixed (R228). -/
def fixedMode (m : Fin 4) (x : Lane) : Lane :=
  { x with removed := x.failed ||| (x.rateMask &&& ~~~BitVec.ofNat 4 (2 ^ m.val)) }

theorem autoneg_backplane (h : Training l s) (hst : s.nlu.lane[l].st = .low) (hmedium : s.nlu.lane[l].medium = 1) {m : Fin 4}
    (fec : Fin 3) (hmask : s.nlu.lane[l].rateMask.getLsbD m.val = true) (hfailed : s.nlu.lane[l].failed.getLsbD m.val = false) :
    ∃ t y f, exec (.autonegComplete l (.backplane m fec)) s = .next t ∧ Turned l y s t ∧
      bareLane y = bareLane { atMode m f { fixedMode m s.nlu.lane[l] with st := .learn } with st := .step } := by
  have hmoves : ¬(!stageActs s l) = true := by rw [h.moves]; decide
  have hgate : ¬(s.nlu.lane[l].st != .low || s.nlu.lane[l].medium != 1) = true := by
    rw [hst, hmedium]
    decide
  have hmodes : ¬(!(s.nlu.lane[l].rateMask &&& ~~~s.nlu.lane[l].failed).getLsbD m.val) = true := by
    rw [BitVec.getLsbD_and, BitVec.getLsbD_not, hmask, hfailed, decide_eq_true m.isLt]
    decide
  have hlearn := (Turns.refl .wide l.val s).enter l.isLt .learn (by decide) (absurd rfl)
  rw [s.laneOf_fin, entered_of_ne (ne_of_eq_of_ne hst (by decide))] at hlearn
  obtain ⟨y, hbare, -, hmode⟩ := (hlearn.set (fixedMode m)).mode l.isLt m (fecAdvertised s.nlu.lane[l] m fec) (absurd rfl) nofun
  have hstep := hmode.enter l.isLt .step (by decide) (absurd rfl)
  refine ⟨_, _, fecAdvertised s.nlu.lane[l] m fec,
    congrArg Host.Outcome.next ((if_neg hmoves).trans ((if_neg hgate).trans (if_neg hmodes))), hstep.turned, ?_⟩
  rw [bareLane_entered, hbare]
  generalize s.nlu.lane[l] = x
  unfold atMode fixedMode
  split <;> rfl

theorem autoneg_learned (h : Training l s) (hst : s.nlu.lane[l].st = .learn) (hmedium : s.nlu.lane[l].medium = 2) {r : AutonegResult}
    (hr : r = .direct ∨ r = .sgmii 1000) :
    ∃ t z, exec (.autonegComplete l r) s = .next t ∧ Learned s.tcr.cycles s.nlu.lane[l] z ∧ Turned l z s t := by
  have hmoves : ¬(!stageActs s l) = true := by rw [h.moves]; decide
  have hrefl := Turns.refl .wide l.val s
  rw [s.laneOf_fin] at hrefl
  obtain ⟨z, hlearned, hturns, -⟩ := hrefl.learned (ne_of_eq_of_ne hst (by decide))
  refine ⟨_, z, congrArg Host.Outcome.next ((if_neg hmoves).trans ?_), hlearned, hturns.turned⟩
  rcases hr with rfl | rfl
  · exact if_pos (by rw [hst, hmedium]; decide)
  · exact (if_neg (by rw [hst, hmedium]; decide)).trans (if_pos rfl)

theorem autoneg_mismatch (h : Training l s) (hst : s.nlu.lane[l].st = .learn) (hmedium : s.nlu.lane[l].medium = 2) {mbps : Nat}
    (hmbps : mbps ≠ 1000) :
    exec (.autonegComplete l (.sgmii mbps)) s = .next (s.setLane l.val fun x => { x with reason := 7 }) := by
  have hmoves : ¬(!stageActs s l) = true := by rw [h.moves]; decide
  exact congrArg Host.Outcome.next ((if_neg hmoves).trans ((if_neg (by rw [hst, hmedium]; decide)).trans (if_neg hmbps)))

/-! ### The checker and the generator of PRBS (R237) -/

/-- A lane whose checker runs. -/
def Checks (l : LaneId) (s : State) : Prop :=
  s.blockRuns 11 = true ∧ s.lanePresent l.val = true ∧ s.nlu.lane[l].st = .prbs ∧ 2 ≤ s.nlu.lane[l].prbs.mode.val

theorem Checks.runs (h : Checks l s) : checkerRuns s l = true := by
  obtain ⟨hblock, hlane, hst, hmode⟩ := h
  rw [checkerRuns, laneActs, hblock, hlane, s.laneOf_fin, hst, decide_eq_true hmode]
  decide

theorem prbsCheckerSync_run (h : Checks l s) (hsync : s.nlu.lane[l].prbs.syncAt = none) : exec (.prbsCheckerSync l) s =
    .next (s.setLane l.val fun x => { x with prbs := { x.prbs with syncAt := some s.tcr.cycles } }) := by
  refine congrArg Host.Outcome.next (if_pos ?_)
  rw [h.runs, s.laneOf_fin, hsync]
  rfl

/-- A checker that has lost its synchronisation (R237). -/
def resynced (bits errors : Nat) (x : Lane) : Lane :=
  { x with prbs := { x.prbs with bits := bits, errors := x.prbs.errors + errors, resyncs := min 255 (x.prbs.resyncs + 1), syncAt := none } }

theorem prbsCheckerResync_turned (h : Checks l s) (hsync : s.nlu.lane[l].prbs.syncAt.isSome = true) {errors : Nat}
    (herr : 512 ≤ errors) :
    ∃ t n, exec (.prbsCheckerResync l errors) s = .next t ∧ s.nlu.lane[l].prbs.errors ≤ n ∧
      Turned l (resynced (prbsBits s s.nlu.lane[l].prbs) errors (erred n s.nlu.lane[l])) s t := by
  obtain ⟨n, hn, hsettled⟩ := settleErrors_turns l.val s
  have hset := hsettled.set fun x => resynced (prbsBits s x.prbs) errors x
  rw [s.laneOf_fin] at hn hset
  refine ⟨_, n, congrArg Host.Outcome.next (if_pos ?_), hn, hset.turned⟩
  rw [h.runs, s.laneOf_fin, hsync, decide_eq_true herr]
  rfl

/-- What a loss of synchronisation leaves in the counters (R237). -/
theorem resynced_counts (bits errors n : Nat) (x : Lane) (hn : x.prbs.errors ≤ n) :
    let y := (resynced bits errors (erred n x)).prbs
    y.syncAt = none ∧ y.resyncs = min 255 (x.prbs.resyncs + 1) ∧ y.bits = bits ∧ x.prbs.errors + errors ≤ y.errors :=
  ⟨rfl, rfl, rfl, Nat.add_le_add_right hn errors⟩

theorem prbsErrorInject_run (hblock : s.blockRuns 11 = true) (hlane : s.lanePresent l.val = true) (hst : s.nlu.lane[l].st = .prbs)
    (hmode : s.nlu.lane[l].prbs.mode = 1 ∨ s.nlu.lane[l].prbs.mode = 3) (hinject : s.nlu.lane[l].prbs.inject ≠ 0)
    (hagain : s.nlu.lane[l].prbs.interval ≠ 0 ∨ s.nlu.lane[l].prbs.injected = 0) :
    exec (.prbsErrorInject l) s = .next (s.setLane l.val fun y => { y with prbs := { y.prbs with
      injected := y.prbs.injected + if y.prbs.inject = 1 then 1 else y.prbs.burst } }) := by
  refine congrArg Host.Outcome.next ((if_pos ?_).trans (setLane_congr s l.val _ _ rfl))
  rw [laneActs, hblock, hlane, s.laneOf_fin, hst]
  generalize s.nlu.lane[l].prbs = x at *
  rcases hmode with hmode | hmode <;> rcases hagain with hagain | hagain <;> simp [hmode, hinject, hagain]

end

/-! ### Bring-up events of a lane (O46) -/

section
variable {l : LaneId} {x y z : Lane} {s t u : State}

/-- An event has left the other lanes and the slots. -/
def Only (l : LaneId) (s t : State) : Prop := (∀ m : Fin 24, m ≠ l → t.nlu.lane[m] = s.nlu.lane[m]) ∧ t.nlu.slot = s.nlu.slot

theorem Turned.only_used {m : BitVec 4} (h : Turned l y (useBus m s) t) : Only l s t := h.only

/-- What LANE_QUALIFIED within the errors makes of a lane (R227, R228, R230). -/
def QualifiedSo (x y : Lane) (s t : State) : Prop :=
  (x.st = .recover → y.st = .up ∧ y.mode = x.mode) ∧
  (x.st = .step → x.fallingBack = true → y.st = .up ∧ y.mode = x.mode) ∧
  (x.st = .step → x.fallingBack = false → Next x y) ∧
  (x.st = .low →
    if (x.medium = 0 ∧ x.modBus.isSome = true) ∨ (x.medium = 2 ∧ x.an1g = true ∧ x.mode.val < 2) then y.st = .learn
    else Next x y) ∧
  (∀ b : Fin 4, x.st = .low → x.medium = 0 → x.modBus = some b → t.nlu.modUsed = s.nlu.modUsed ||| BitVec.ofNat 4 (2 ^ b.val)) ∧
  (y.st = .up → y.upAt = s.tcr.cycles ∧ y.lastUp = some x.mode ∧ LaneIrq t)

theorem QualifiedSo.recover (hst : x.st = .recover) (hy : y.st = .up ∧ y.mode = x.mode)
    (hup : y.st = .up → y.upAt = s.tcr.cycles ∧ y.lastUp = some x.mode ∧ LaneIrq t) : QualifiedSo x y s t := by
  refine ⟨fun _ => hy, fun h => ?_, fun h => ?_, fun h => ?_, fun _ h => ?_, hup⟩ <;>
    exact absurd (hst.symm.trans h) (by decide)

theorem QualifiedSo.back (hst : x.st = .step) (hback : x.fallingBack = true) (hy : y.st = .up ∧ y.mode = x.mode)
    (hup : y.st = .up → y.upAt = s.tcr.cycles ∧ y.lastUp = some x.mode ∧ LaneIrq t) : QualifiedSo x y s t :=
  ⟨fun _ => hy, fun _ _ => hy, fun _ h => absurd (hback.symm.trans h) (by decide), fun h => absurd (hst.symm.trans h) (by decide),
    fun _ h => absurd (hst.symm.trans h) (by decide), hup⟩

theorem QualifiedSo.step (hst : x.st = .step) (hback : x.fallingBack = false) (hy : Next x y)
    (hup : y.st = .up → y.upAt = s.tcr.cycles ∧ y.lastUp = some x.mode ∧ LaneIrq t) : QualifiedSo x y s t :=
  ⟨fun h => absurd (hst.symm.trans h) (by decide), fun _ h => absurd (hback.symm.trans h) (by decide), fun _ _ => hy,
    fun h => absurd (hst.symm.trans h) (by decide), fun _ h => absurd (hst.symm.trans h) (by decide), hup⟩

theorem QualifiedSo.low (hst : x.st = .low)
    (hy : if (x.medium = 0 ∧ x.modBus.isSome = true) ∨ (x.medium = 2 ∧ x.an1g = true ∧ x.mode.val < 2) then y.st = .learn else Next x y)
    (hbus : ∀ b : Fin 4, x.medium = 0 → x.modBus = some b → t.nlu.modUsed = s.nlu.modUsed ||| BitVec.ofNat 4 (2 ^ b.val))
    (hup : y.st = .up → y.upAt = s.tcr.cycles ∧ y.lastUp = some x.mode ∧ LaneIrq t) : QualifiedSo x y s t :=
  ⟨fun h => absurd (hst.symm.trans h) (by decide), fun h => absurd (hst.symm.trans h) (by decide),
    fun h => absurd (hst.symm.trans h) (by decide), fun _ => hy, fun b _ => hbus b, hup⟩

theorem Next.congr (h : Next y z) (hmode : y.mode = x.mode) (hmask : y.rateMask = x.rateMask) (hremoved : y.removed = x.removed) :
    Next x z := by
  have hhigher : higherMode y y.mode = higherMode x x.mode := by
    rw [higherMode, higherMode, candidates, candidates, hmode, hmask, hremoved]
  unfold Next at h ⊢
  rwa [hhigher, hmode] at h

theorem passed_keeps (now errors : Nat) (x : Lane) : let y := passed now errors x
    y.mode = x.mode ∧ y.rateMask = x.rateMask ∧ y.removed = x.removed ∧ y.medium = x.medium ∧ y.modBus = x.modBus ∧
    y.an1g = x.an1g := by
  simp only [passed, counted, and_self]

/-- A lane as it enters LEARN (R228). -/
def learning (now : Nat) (x : Lane) : Lane := { x with st := .learn, stageAt := now, winAt := now }

theorem learning_keeps (now : Nat) (x : Lane) : let y := learning now x
    y.mode = x.mode ∧ y.rateMask = x.rateMask ∧ y.removed = x.removed ∧ y.qualErrs = x.qualErrs := by
  simp only [learning, and_self]

/-- What a qualified lane learns follows from its modes before. -/
theorem Learned.passed {now errors : Nat} (h : Learned now (passed now errors x) z) :
    Next x z ∧ z.qualErrs = min 65535 errors ∧ (z.st = .up → z.upAt = now ∧ z.lastUp = some x.mode) := by
  obtain ⟨hmode, hmask, hremoved, -⟩ := passed_keeps now errors x
  obtain ⟨hcount, -⟩ := h.keeps
  exact ⟨h.next.congr hmode hmask hremoved, hcount, h.up⟩

/-- And what it learns from LOW on. -/
theorem Learned.from_low {now errors : Nat} (h : Learned now (learning now (Machine.passed now errors x)) z) :
    Next x z ∧ z.qualErrs = min 65535 errors ∧ (z.st = .up → z.upAt = now ∧ z.lastUp = some x.mode) := by
  obtain ⟨hmode, hmask, hremoved, -⟩ := passed_keeps now errors x
  obtain ⟨hmode', hmask', hremoved', hcount'⟩ := learning_keeps now (Machine.passed now errors x)
  obtain ⟨hcount, -⟩ := h.keeps
  refine ⟨h.next.congr (hmode'.trans hmode) (hmask'.trans hmask) (hremoved'.trans hremoved), hcount.trans hcount', fun hup => ?_⟩
  obtain ⟨hat, hlast⟩ := h.up hup
  exact ⟨hat, hlast.trans (congrArg some (hmode'.trans hmode))⟩

theorem learnWaits_passed (now errors : Nat) (x : Lane) : LearnWaits (passed now errors x) ↔ LearnWaits x := by
  obtain ⟨hmode, -, -, hmedium, hbus, han⟩ := passed_keeps now errors x
  unfold LearnWaits
  rw [hmode, hmedium, hbus, han]

theorem moduleBus_of {b : Fin 4} (hmedium : x.medium = 0) (hbus : x.modBus = some b) : moduleBus x = BitVec.ofNat 4 (2 ^ b.val) := by
  rw [moduleBus, hmedium, hbus]
  rfl

theorem setLane_modUsed (s : State) (l : Nat) (f : Lane → Lane) : (s.setLane l f).nlu.modUsed = s.nlu.modUsed := rfl

theorem useBus_modUsed (m : BitVec 4) (s : State) : (useBus m s).nlu.modUsed = s.nlu.modUsed ||| m := rfl

theorem Turned.modUsed {m : BitVec 4} (h : Turned l y (useBus m s) t) : t.nlu.modUsed = s.nlu.modUsed ||| m := by
  rw [h.nlu, setLane_modUsed, useBus_modUsed]

/-- A lane that enters UP from its qualification, or from RECOVER (R227). -/
theorem enteredUp_passed (now errors : Nat) (x : Lane) : let y := enteredUp now (passed now errors x)
    (y.st = .up ∧ y.mode = x.mode) ∧ y.qualErrs = min 65535 errors ∧ y.upAt = now ∧ y.lastUp = some x.mode := by
  simp only [enteredUp, passed, counted, and_self]

theorem enteredUp_counted (now errors : Nat) (x : Lane) : let y := enteredUp now (counted now errors x)
    (y.st = .up ∧ y.mode = x.mode) ∧ y.qualErrs = min 65535 errors ∧ y.upAt = now ∧ y.lastUp = some x.mode := by
  simp only [enteredUp, counted, and_self]

/-- LANE_QUALIFIED within the errors, in every stage. -/
theorem laneQualified_leads (h : Qualifies l s) {errors : Nat} (herr : errors ≤ s.nlu.lane[l].qualErrors)
    (hst : (s.nlu.lane[l].st = .low ∧ s.nlu.lane[l].medium ≠ 1) ∨ s.nlu.lane[l].st = .step ∨ s.nlu.lane[l].st = .recover) :
    ∃ t y, exec (.laneQualified l errors) s = .next t ∧ Only l s t ∧ t.nlu.lane[l] = y ∧ y.qualErrs = min 65535 errors ∧
      QualifiedSo s.nlu.lane[l] y s t := by
  rcases hst with ⟨hst, hmedium⟩ | hst | hst
  · obtain ⟨t, z, hexec, hwaits, hlearned, hturned, hirq⟩ := laneQualified_low h herr hst hmedium
    obtain ⟨-, -, -, hmedium', hbus', -⟩ := passed_keeps s.tcr.cycles errors s.nlu.lane[l]
    have hbus : ∀ b : Fin 4, s.nlu.lane[l].medium = 0 → s.nlu.lane[l].modBus = some b →
        t.nlu.modUsed = s.nlu.modUsed ||| BitVec.ofNat 4 (2 ^ b.val) := fun b hm hb => by
      rw [hturned.modUsed, moduleBus_of (hmedium'.trans hm) (hbus'.trans hb)]
    rw [learnWaits_passed] at hwaits hlearned
    by_cases hw : LearnWaits s.nlu.lane[l]
    · have hz := hwaits hw
      subst hz
      exact ⟨t, _, hexec, hturned.only_used, hturned.lane, rfl, .low hst ((if_pos hw).symm ▸ rfl) hbus nofun⟩
    · obtain ⟨hnext, hcount, hup⟩ := Learned.from_low (hlearned hw)
      exact ⟨t, z, hexec, hturned.only_used, hturned.lane, hcount, .low hst ((if_neg hw).symm ▸ hnext) hbus
        fun h => ⟨(hup h).1, (hup h).2, hirq h⟩⟩
  · cases hback : s.nlu.lane[l].fallingBack with
    | true =>
      obtain ⟨t, hexec, hturned, hirq⟩ := laneQualified_back h herr hst hback
      obtain ⟨hy, hcount, hat, hlast⟩ := enteredUp_passed s.tcr.cycles errors s.nlu.lane[l]
      exact ⟨t, _, hexec, hturned.only, hturned.lane, hcount, .back hst hback hy fun _ => ⟨hat, hlast, hirq⟩⟩
    | false =>
      obtain ⟨t, z, hexec, hlearned, hturned, hirq⟩ := laneQualified_step h herr hst hback
      obtain ⟨hnext, hcount, hup⟩ := hlearned.passed
      exact ⟨t, z, hexec, hturned.only, hturned.lane, hcount, .step hst hback hnext fun h => ⟨(hup h).1, (hup h).2, hirq h⟩⟩
  · obtain ⟨t, hexec, hturned, hirq⟩ := laneQualified_recover h herr hst
    obtain ⟨hy, hcount, hat, hlast⟩ := enteredUp_counted s.tcr.cycles errors s.nlu.lane[l]
    exact ⟨t, _, hexec, hturned.only, hturned.lane, hcount, .recover hst hy fun _ => ⟨hat, hlast, hirq⟩⟩

/-- What a change of mode leaves of a lane (R227, R230). -/
theorem atMode_lane {m : Fin 4} {f : Fin 3} (h : bareLane y = bareLane (atMode m f x)) :
    y.mode = m ∧ y.st = x.st ∧ y.reason = x.reason ∧ y.removed = x.removed ∧ y.failed = x.failed ∧ y.fallingBack = x.fallingBack := by
  unfold atMode at h
  split at h
  next hsame =>
    simp only [bareLane, Lane.mk.injEq] at h
    simp only [h, hsame.1, and_self]
  next =>
    simp only [bareLane, Lane.mk.injEq] at h
    simp only [h, and_self]

theorem reasoned_keeps (reason : Fin 8) (x : Lane) : let y := reasoned reason x
    y.reason = reason ∧ y.st = x.st ∧ y.mode = x.mode := by
  simp only [reasoned, and_self]

/-- A lane whose training has timed out (R227). -/
theorem trained_lane {m : Fin 4} {f : Fin 3}
    (h : bareLane y = bareLane (if x.medium = 1 then reasoned 1 x else atMode m f (reasoned 1 x))) (hst : x.st = .low) :
    y.st = .low ∧ y.reason = 1 ∧ y.mode = if x.medium = 1 then x.mode else m := by
  obtain ⟨hreason, hst', hmode'⟩ := reasoned_keeps 1 x
  split at h
  next hmedium =>
    rw [if_pos hmedium]
    exact ⟨(congrArg Lane.st h :).trans (hst'.trans hst), (congrArg Lane.reason h :), (congrArg Lane.mode h :).trans hmode'⟩
  next hmedium =>
    obtain ⟨hmode, hst'', hreason', -⟩ := atMode_lane h
    rw [if_neg hmedium]
    exact ⟨hst''.trans (hst'.trans hst), hreason'.trans hreason, hmode⟩

theorem modeFailed_keeps (x : Lane) : let y := modeFailed (reasoned 2 x)
    y.st = x.st ∧ y.reason = 2 ∧ y.removed = x.removed ||| BitVec.ofNat 4 (2 ^ x.mode.val) ∧
    y.failed = x.failed ||| BitVec.ofNat 4 (2 ^ x.mode.val) := by
  simp only [modeFailed, reasoned, and_self]

/-- A lane that enters LOW keeps what has failed, and its reason (R230). -/
theorem lowered_failures (h : bareLane y = bareLane (lowered x)) :
    y.st = .low ∧ y.reason = x.reason ∧ y.removed = x.removed ∧ y.failed = x.failed := by
  simp only [bareLane, lowered, Lane.mk.injEq] at h
  simp only [h, and_self]

theorem StepFailed.back (h : StepFailed x y) (hback : x.fallingBack = true) : y.reason = 2 ∧ y.st = .low := by
  unfold StepFailed at h
  rw [if_pos hback] at h
  obtain ⟨hst, hreason, -⟩ := lowered_failures h
  exact ⟨hreason, hst⟩

/-- Where a failed step goes: to the next mode, back to the one that has qualified, or to LOW (R230). -/
theorem StepFailed.fails (h : StepFailed x y) (hback : x.fallingBack = false) (hst : x.st = .step) :
    y.reason = 2 ∧ (y.removed = x.removed ||| BitVec.ofNat 4 (2 ^ x.mode.val) ∧
      y.failed = x.failed ||| BitVec.ofNat 4 (2 ^ x.mode.val)) ∧
    (∀ m, higherMode x x.mode = some m → y.st = .step ∧ y.mode = m) ∧
    (∀ q, higherMode x x.mode = none → x.qualified = some q → y.st = .step ∧ y.mode = q ∧ y.fallingBack = true) ∧
    (higherMode x x.mode = none → x.qualified = none → y.st = .low) := by
  obtain ⟨hst', hreason', hremoved', hfailed'⟩ := modeFailed_keeps x
  unfold StepFailed at h
  rw [if_neg (by rw [hback]; decide)] at h
  cases hhigher : higherMode x x.mode with
  | some m =>
    rw [hhigher] at h
    obtain ⟨hmode, hst'', hreason, hremoved, hfailed, -⟩ := atMode_lane h
    exact ⟨hreason.trans hreason', ⟨hremoved.trans hremoved', hfailed.trans hfailed'⟩,
      fun k hk => ⟨hst''.trans (hst'.trans hst), hmode.trans (Option.some.inj hk)⟩, nofun, nofun⟩
  | none =>
    rw [hhigher] at h
    cases hqual : x.qualified with
    | some q =>
      rw [hqual] at h
      obtain ⟨hmode, hst'', hreason, hremoved, hfailed, hfalls⟩ := atMode_lane h
      exact ⟨hreason.trans hreason', ⟨hremoved.trans hremoved', hfailed.trans hfailed'⟩, nofun,
        fun k _ hk => ⟨hst''.trans (hst'.trans hst), hmode.trans (Option.some.inj hk), hfalls⟩, nofun⟩
    | none =>
      rw [hqual] at h
      obtain ⟨hlow, hreason, hremoved, hfailed⟩ := lowered_failures h
      exact ⟨hreason.trans hreason', ⟨hremoved.trans hremoved', hfailed.trans hfailed'⟩, nofun, nofun, fun _ _ => hlow⟩

theorem moduleKnown_keeps (mbd : Nat) (x : Lane) : let y := moduleKnown mbd x
    y.mode = x.mode ∧ y.rateMask = x.rateMask ∧ y.moduleRead = true ∧ y.moduleRate = mbd / 100 := by
  simp only [moduleKnown, and_self]

theorem moduleUnknown_keeps (x : Lane) : let y := moduleUnknown x
    y.mode = x.mode ∧ y.rateMask = x.rateMask ∧ y.removed = x.removed ∧ y.moduleRead = false ∧ y.moduleRate = 0 := by
  simp only [moduleUnknown, and_self]

/-- A lane whose mode an exchange has fixed steps with the one candidate (R228). -/
theorem fixedMode_lane {m : Fin 4} {f : Fin 3} (hmask : x.rateMask.getLsbD m.val = true) (hfailed : x.failed.getLsbD m.val = false)
    (h : bareLane y = bareLane { atMode m f { fixedMode m x with st := .learn } with st := .step }) :
    y.st = .step ∧ y.mode = m ∧ candidates y = BitVec.ofNat 4 (2 ^ m.val) := by
  have hmode : y.mode = m := (congrArg Lane.mode h :).trans (atMode_mode m f _)
  have hkept : y.rateMask = x.rateMask ∧ y.removed = x.failed ||| (x.rateMask &&& ~~~BitVec.ofNat 4 (2 ^ m.val)) := by
    unfold atMode at h
    split at h <;>
    · simp only [bareLane, fixedMode, Lane.mk.injEq] at h
      simp only [h, and_self]
  refine ⟨(congrArg Lane.st h :), hmode, ?_⟩
  rw [candidates, hkept.1, hkept.2]
  exact single_candidate _ _ m hmask hfailed

end

/-- Settles O46: each event moves its lane as `Learned`, `atMode`, `lowered` or `entered` says, or counts for its checker. -/
theorem laneBringUpEventsAct : Obligations.LaneBringUpEventsAct := by
  refine ⟨fun l errors s ⟨htrain, hlos, hlol, haligned, hfec, hwin, hst⟩ => ?_, fun l s ⟨h, hst, hdue⟩ => ?_,
    fun l s ⟨h, hst, hdue⟩ => ?_, fun l s ⟨h, hst, hdue⟩ => ?_, fun l ident a b s ⟨h, hst, hmedium, hident⟩ => ?_,
    fun l r s ⟨h, hst, hmedium, hr⟩ => ?_, fun l m fec s ⟨h, hst, hmedium, hmask, hfailed⟩ => ?_,
    fun l r s ⟨h, hst, hmedium, hr⟩ => ?_, fun l mbps hmbps s ⟨h, hst, hmedium⟩ => autoneg_mismatch h hst hmedium hmbps,
    fun l => ⟨fun s ⟨h, hsync⟩ => prbsCheckerSync_run h hsync, fun errors s ⟨h, hsync, herr⟩ => ?_,
      fun s ⟨hblock, hlane, hst, hmode, hinject, hagain⟩ => prbsErrorInject_run hblock hlane hst hmode hinject hagain⟩⟩
  · have hqualifies : Qualifies l s := ⟨htrain, hlos, hlol, haligned, hfec, hwin⟩
    rcases Nat.lt_or_ge s.nlu.lane[l].qualErrors errors with herr | herr
    · obtain ⟨t, hexec, hturned⟩ := laneQualified_again hqualifies herr hst
      exact ⟨t, hexec, hturned.only, hturned.lane ▸ rfl, fun _ => hturned.lane, fun h => absurd h (Nat.not_le.mpr herr)⟩
    · obtain ⟨t, y, hexec, honly, hlane, hcount, hso⟩ := laneQualified_leads hqualifies herr hst
      subst hlane
      exact ⟨t, hexec, honly, hcount, fun h => absurd h (Nat.not_lt.mpr herr), fun _ => hso⟩
  · obtain ⟨t, y, hexec, hturned, hbare⟩ := trainTimeout_turned h hst hdue
    rw [← hturned.lane] at hbare
    exact ⟨t, hexec, hturned.only, trained_lane hbare hst⟩
  · obtain ⟨t, y, hexec, hturned, hfailed⟩ := stepTimeout_turned h hst hdue
    rw [← hturned.lane] at hfailed
    refine ⟨t, hexec, hturned.only, ?_⟩
    cases hback : s.nlu.lane[l].fallingBack with
    | true =>
      obtain ⟨hreason, hlow⟩ := hfailed.back hback
      exact ⟨hreason, fun _ => hlow, nofun, nofun, nofun, nofun⟩
    | false =>
      obtain ⟨hreason, hmodes, hnext, hqual, hlow⟩ := hfailed.fails hback hst
      exact ⟨hreason, nofun, fun _ => hmodes, fun m _ => hnext m, fun q _ => hqual q, fun _ => hlow⟩
  · obtain ⟨t, y, hexec, hturned, hbare⟩ := relockTimeout_turned h hst hdue
    rw [← hturned.lane] at hbare
    obtain ⟨hlow, hmode, hqual, -⟩ := lowered_lane hbare
    exact ⟨t, hexec, hturned.only, hlow, hmode, hqual⟩
  · obtain ⟨t, z, hexec, hlearned, hturned⟩ := moduleReadDone_known h hst hmedium hident
    rw [← hturned.lane] at hlearned
    obtain ⟨hmode, hmask, hread, hrate⟩ := moduleKnown_keeps (moduleMbd a b) s.nlu.lane[l]
    obtain ⟨-, hremoved, hread', hrate'⟩ := hlearned.keeps
    exact ⟨t, hexec, hturned.only, hread'.trans hread, hrate'.trans hrate,
      fun m => (congrArg (BitVec.getLsbD · m.val) hremoved).trans (moduleKnown_removed _ _ m),
      hlearned.next.congr hmode hmask hremoved.symm⟩
  · obtain ⟨t, z, hexec, hlearned, hturned, hpending⟩ := moduleReadDone_unread h hst hmedium hr
    rw [← hturned.lane] at hlearned
    obtain ⟨hmode, hmask, hremoved, hread, hrate⟩ := moduleUnknown_keeps s.nlu.lane[l]
    obtain ⟨-, hremoved', hread', hrate'⟩ := hlearned.keeps
    exact ⟨t, hexec, hturned.only, hremoved'.trans hremoved, hread'.trans hread, hrate'.trans hrate,
      hlearned.next.congr hmode hmask hremoved, hpending⟩
  · obtain ⟨t, y, f, hexec, hturned, hbare⟩ := autoneg_backplane h hst hmedium fec hmask hfailed
    rw [← hturned.lane] at hbare
    exact ⟨t, hexec, hturned.only, fixedMode_lane hmask hfailed hbare⟩
  · obtain ⟨t, z, hexec, hlearned, hturned⟩ := autoneg_learned h hst hmedium hr
    rw [← hturned.lane] at hlearned
    exact ⟨t, hexec, hturned.only, hlearned.next⟩
  · obtain ⟨t, n, hexec, hn, hturned⟩ := prbsCheckerResync_turned h hsync herr
    refine ⟨t, hexec, hturned.only, ?_⟩
    rw [hturned.lane]
    exact resynced_counts _ _ _ _ hn

end Sys2Proof.Machine
